-- ==== Sys2Proof/Word.lean ====
section
/-! DEFINITION. The word types of the module's registers, descriptors and records (R13). -/

namespace Sys2Proof

/-- One byte, the unit of every memory, ring, descriptor and record (R13). -/
abbrev Byte := BitVec 8
/-- A 16-bit field. -/
abbrev W16 := BitVec 16
/-- A 32-bit field, register or FP32 bit pattern. -/
abbrev W32 := BitVec 32
/-- A 64-bit register or counter. -/
abbrev W64 := BitVec 64
/-- A 48-bit module address (R206). -/
abbrev Addr := BitVec 48
/-- A 128-bit sequencer instruction (R144). -/
abbrev W128 := BitVec 128

end Sys2Proof
end

