-- ==== Sys2Proof/Syntax.lean ====
section
/-! DEFINITION. The commands and events of the module: `Instr`, one constructor per row of spec/opcode_table.json, and
the operand structures they carry. -/

namespace Sys2Proof

/-- The two PCIe ports (R7). -/
inductive Port where
  | A | B
  deriving DecidableEq, Repr

/-- A PCIe function: `num` 0 is the PF, 1 to 15 a VF (Table 13.1). -/
structure Fn where
  port : Port
  num  : Nat
  deriving DecidableEq, Repr

/-- The two kinds of book (Table 5.17). -/
inductive BookKind where
  | gen | learn
  deriving DecidableEq, Repr

/-- The two halves of the module (R7). -/
inductive Half where
  | west | east
  deriving DecidableEq, Repr

/-- Descriptor header, bytes 0 to 15 (Table 13.5); OPCODE is the constructor that carries the header. -/
structure Hdr where
  wait      : Bool
  done      : Bool
  irq       : Bool
  waitMark  : BitVec 12
  doneMark  : BitVec 12
  tag       : W16
  waitValue : W64
  deriving DecidableEq, Repr

/-- PLACE: the object and entry bytes 0x00 to 0x1F (Table 7.6). -/
structure PlaceBody where
  objectId  : W16
  address   : W64
  size      : W64
  tier      : Byte
  attr      : Byte
  state     : Byte
  lineTag   : Byte
  version   : W32
  altObject : W16
  flashCopy : W16
  peerPos   : W16
  peerObject : W16
  deriving DecidableEq, Repr

/-- OBJECT_MOVE (Table 13.9). -/
structure MoveBody where
  mode      : Byte
  src       : W16
  dst       : W16
  wp        : W16
  srcOffset : W64
  dstOffset : W64
  bytes     : W64
  cmask     : W32
  dmask     : Byte
  signalStep : W64
  deriving DecidableEq, Repr

/-- HOST_COPY (Table 13.7). -/
structure HostCopyBody where
  dir      : Byte
  object   : W16
  offset   : W64
  hostAddr : W64
  bytes    : W64
  deriving DecidableEq, Repr

/-- CASTLE, bytes 16 to 63 (Table 8.2). -/
structure CastleBody where
  mode      : Byte
  role      : Byte
  target    : Byte
  flags     : Byte
  share     : Byte
  version   : W32
  base      : W16
  adapter   : W16
  map       : W16
  source    : W16
  group     : W16
  seq       : W32
  chunks    : W32
  castleId  : W64
  deriving DecidableEq, Repr

/-- A collective descriptor, bytes 16 to 63 (Table 11.7); `reserved` says that a reserved field is set. -/
structure CollBody where
  kind     : Byte
  fmt      : Byte
  flags    : Byte
  dieMask  : Byte
  group    : W16
  peer     : W16
  seq      : W32
  group2   : W16
  tag      : W16
  seq2     : W32
  count    : W64
  src      : Addr
  dst      : Addr
  dieStride : W32
  reserved : Bool
  deriving DecidableEq, Repr

/-- CHECKPOINT, bytes 16 to 63 (Table 12.4). -/
structure CkptBody where
  mode     : Byte
  flags    : Byte
  list     : W16
  objCount : W16
  targetA  : W16
  targetB  : W16
  buddyPos : W16
  buddyA   : W16
  buddyB   : W16
  logA     : W16
  logB     : W16
  period   : W32
  buddyLogA : W16
  buddyLogB : W16
  reserved : Bool
  deriving DecidableEq, Repr

/-- RESTORE, bytes 16 to 63 (R378). -/
structure RestoreBody where
  source    : Byte
  object    : W16
  peerPos   : W16
  step      : W64
  logObject : W16
  localLog  : W16
  deriving DecidableEq, Repr

/-- SNAPSHOT (Table 13.7). -/
structure SnapshotBody where
  slot         : Byte
  flags        : Byte
  image        : W16
  manifest     : W16
  peerPos      : W16
  peerImage    : W16
  peerManifest : W16
  deriving DecidableEq, Repr

/-- ADMIT (Table 13.11). -/
structure AdmitBody where
  entry     : W16
  tenant    : BitVec 10
  priority  : BitVec 3
  eval      : Bool
  pin       : Bool
  reserved  : Bool
  outRing   : Byte
  topK      : Byte
  topP      : W16
  key       : W32
  promptLen : BitVec 24
  maxLen    : BitVec 24
  deadline  : BitVec 48
  seed      : W64
  temp      : W32
  stop0     : BitVec 24
  stop1     : BitVec 24
  promptObject : W16
  promptOffset : W32
  deriving DecidableEq, Repr

/-- PAGE_MOVE (Table 13.7). -/
structure PageMoveBody where
  entry : W16
  tier  : Byte
  key   : W32
  first : W32
  count : W16
  frame : W32
  deriving DecidableEq, Repr

/-- What the ECC logic met while an instruction issued and read its operands: R87, R136, R143, R210. An uncorrectable
SRAM line is named by its module address. -/
inductive Ecc where
  | clean
  | sramSingle | sramDouble (line : Nat)
  | engineSingle | engineDouble (physical : Nat)
  | storeSingle | storeDouble
  | sideSingle | sideDouble
  deriving DecidableEq, Repr

/-- What host memory answers to a queue's access: the descriptor read, or the failure of a descriptor read or of a ring write (R399). -/
inductive HostAnswer where
  | descriptor (d : List Byte)
  | readFailed | writeFailed
  deriving DecidableEq, Repr

/-- The operation that a collective message names at the module that receives it: a group's collective by its sequence number, a SEND to or a
RECV from a position by its TAG (R324, R353, R358). -/
inductive CollName where
  | group (group : W16) (seq : W32)
  | send (peer tag : W16)
  | recv (peer tag : W16)
  deriving DecidableEq, Repr

/-- A DIGEST message on its way up the stages, and the verdict on its way down (R355). -/
inductive DigestMsg where
  | digest (d : W64)
  | verdict (agree : Bool)
  deriving DecidableEq, Repr

/-- Who sends a message of a collective: the operation it names, and the position it comes from. -/
structure CollSender where
  name   : CollName
  source : W16
  deriving DecidableEq, Repr

/-- What a COLL_MESSAGE carries for a place of the tree: its elements, word that its source has no good copy, or the receiver's
acknowledgement. -/
inductive CollData where
  | elements (data : List W32)
  | poisoned
  | taken
  deriving DecidableEq, Repr

/-- What a data message of a collective says: the value of a complete sub-tree, a leaf's elements (R352), or that a source has no good copy
(R349); and a receiver's acknowledgement of a SEND's last flit (R358). -/
inductive ValueMsg where
  | value (level index : Nat) (data : List W32)
  | poisoned
  | taken
  deriving DecidableEq, Repr

/-- Who issues an instruction: program 8d + c of cluster Cc on die d, or 32 + d of die d (R165). -/
structure Issue where
  prog : Nat
  ecc  : Ecc
  deriving DecidableEq, Repr

/-- The common bits of an instruction (Table 5.3). -/
structure Common where
  sat : Bool
  vg  : Bool
  vb  : BitVec 3
  vp  : Bool
  deriving DecidableEq, Repr

/-- MOVE fields (Table 5.5); `wide` is bits [127:96]: UOFF, CMASK or the destination die. -/
structure MoveF where
  sreg  : BitVec 5
  dreg  : BitVec 5
  half  : BitVec 1
  bank  : BitVec 1
  port  : BitVec 2
  bytes : W32
  mask  : Byte
  fmt   : BitVec 3
  tagWp : W16
  wide  : W32
  deriving DecidableEq, Repr

/-- MMA fields (Table 5.6); `fmt` is the opcode. -/
structure MmaF where
  fmt   : BitVec 4
  mask  : Byte
  bank  : BitVec 1
  ahalf : BitVec 1
  bhalf : BitVec 1
  start : BitVec 2
  drain : BitVec 2
  kq    : BitVec 6
  bcol  : BitVec 1
  ahb   : BitVec 1
  bhb   : BitVec 1
  aoff  : W16
  boff  : W16
  dreg  : BitVec 5
  doff  : BitVec 11
  tileM : W16
  tileN : W16
  deriving DecidableEq, Repr

/-- ROW fields (Table 5.7). -/
structure RowF where
  xreg   : BitVec 5
  oreg   : BitVec 5
  save   : BitVec 1
  infmt  : BitVec 1
  outfmt : BitVec 1
  nm1    : BitVec 18
  vm1    : BitVec 10
  layer  : Byte
  sbase  : BitVec 12
  tag    : W16
  eps    : W32
  deriving DecidableEq, Repr

/-- VEC fields (Table 5.9). -/
structure VecF where
  s1     : BitVec 6
  s2     : BitVec 6
  s3     : BitVec 6
  d      : BitVec 6
  s2imm  : BitVec 1
  s2bc   : BitVec 1
  fn     : BitVec 3
  sfmt   : BitVec 3
  dfmt   : BitVec 3
  rowsm1 : BitVec 12
  imm    : W32
  deriving DecidableEq, Repr

/-- RED tree fields (Table 5.11). -/
structure TreeF where
  size   : BitVec 2
  base   : BitVec 3
  bank   : BitVec 1
  outfmt : BitVec 1
  onward : BitVec 1
  dreg   : BitVec 5
  doff   : W16
  tileM  : W16
  tileN  : W16
  deriving DecidableEq, Repr

/-- RED.TOPK fields (Table 5.11). -/
structure TopkF where
  sreg  : BitVec 5
  dreg  : BitVec 5
  infmt : BitVec 1
  nm1   : BitVec 18
  km1   : BitVec 6
  vm1   : BitVec 12
  deriving DecidableEq, Repr

/-- A decoded sequencer or die-program instruction (Tables 5.4 to 5.14, R163). -/
inductive Insn where
  | move (op : BitVec 4) (f : MoveF)
  | mma (f : MmaF)
  | row (op : BitVec 4) (f : RowF)
  | vec (op : BitVec 4) (f : VecF)
  | tree (op : BitVec 4) (f : TreeF)
  | topk (f : TopkF)
  | await (wp : BitVec 10) (target : W16)
  | signal (wp : BitVec 10) (cmask : W32) (dmask : BitVec 4)
  | collStart (sreg : BitVec 5) (wp : BitVec 10) (cmask : W32) (dmask : BitVec 4)
  | lset (ln : BitVec 4) (imm : BitVec 24)
  | bnz (ln : BitVec 4) (off : W16)
  | jump (off : W16)
  | bvar (vb : BitVec 3) (p : Bool) (off : W16)
  | seta (an : BitVec 5) (imm : BitVec 48)
  | adda (an : BitVec 5) (imm : W32)
  | nop (imm : BitVec 24)
  | stop
  | inc (sn : BitVec 3) (imm : W32)
  | stamp (sn : BitVec 3)
  | dump (dreg : BitVec 5)
  deriving DecidableEq, Repr

/-- One LPDDR5X line as the port receives it: its 256 data bytes and its 64-byte check image (R214, Table 7.5). -/
structure RawLine where
  data  : List Byte
  check : List Byte
  deriving DecidableEq, Repr

/-- A flit: its header fields (Table 11.2), `kind` its TYPE (0 DATA, 1 IDLE, 2 NAK, 3 LINK), and its payload. -/
structure Flit where
  vc       : BitVec 2
  kind     : BitVec 2
  first    : Bool
  last     : Bool
  hops     : BitVec 4
  dst      : BitVec 15
  src      : BitVec 15
  seq      : BitVec 10
  ack      : BitVec 10
  creditVc : BitVec 2
  credits  : BitVec 2
  payload  : List Byte
  deriving DecidableEq, Repr

/-- One firmware component's entry in a manifest (Table 15.8): its version, SECURITY_VERSION, ACCEPT range of each
component's major, numerics epoch, and the manifest's SETTINGS_FORMAT and MIN_SETTINGS_FORMAT. -/
structure ManifestEntry where
  version  : BitVec 24
  security : Nat
  accept   : List (Nat × Nat)
  epoch    : W32
  settings : Nat
  minSettings : Nat
  deriving DecidableEq, Repr

/-- The end of a book's load: its kind, and what ECC found at its reads of bonded SRAM. -/
structure BookRead where
  kind : BookKind
  ecc  : Ecc
  deriving DecidableEq, Repr

/-- The end of a page move: its request entry, and what ECC found at its reads of bonded SRAM. -/
structure PageMoveRead where
  entry : Nat
  ecc   : Ecc
  deriving DecidableEq, Repr

/-- A flit as received: its 256 bytes, with the FEC codewords of its lanes corrected and uncorrectable. -/
structure FlitRead where
  bytes : List Byte
  corrected : Nat
  uncorrectable : Nat
  deriving DecidableEq, Repr

/-- What every flit says of the link (R325): the sequence number it acknowledges, and for a NAK expects, and a credit return. -/
structure LinkField where
  ack      : BitVec 10
  creditVc : BitVec 2
  credits  : BitVec 2
  deriving DecidableEq, Repr

/-- A KEY_SWITCH flit received at a port. -/
structure SwitchMsg where
  port : Nat
  link : LinkField
  deriving DecidableEq, Repr

/-- How a port has trained: with full adaptation or not, and the far end's ENCRYPT. -/
structure Training where
  full : Bool
  peerEncrypt : Bool
  deriving DecidableEq, Repr

/-- A PROBE of a node, or its answer to the module's own. -/
structure ProbeMsg where
  node  : BitVec 15
  reply : Bool
  deriving DecidableEq, Repr

/-- The commands and events of spec/opcode_table.json, in its order. -/
inductive Instr where
  -- host commands and what completes them
  | nop (q : Nat) (h : Hdr)
  | phase (q : Nat) (h : Hdr) (target : Byte) (learnQueue : W16)
  | plyRun (q : Nat) (h : Hdr) (plyId : W32) (mask value : Byte) (inputId : W64)
  | bookLoad (q : Nat) (h : Hdr) (object : W16)
  | bookLoadDone (x : BookRead)
  | place (q : Nat) (h : Hdr) (b : PlaceBody)
  | objectMove (q : Nat) (h : Hdr) (b : MoveBody)
  | objectMoveDone (op : Nat) (ecc : Ecc)
  | flashObjCreate (q : Nat) (h : Hdr) (size : W64)
  | flashObjDelete (q : Nat) (h : Hdr) (handle : W32)
  | hostCopy (q : Nat) (h : Hdr) (b : HostCopyBody)
  | hostCopyDone (op : Nat) (data : List Byte) (aborted : Bool) (ecc : Ecc)
  | castle (q : Nat) (h : Hdr) (b : CastleBody)
  | castleStart
  | castleChunk (castleId : W64) (index : Nat) (crc : W64) (flagged : Nat) (data : Option (List Byte))
  | collective (q : Nat) (h : Hdr) (b : CollBody)
  | collEligibleStart
  | collDigest (sender : CollSender) (digest : DigestMsg)
  | collMessage (sender : CollSender) (level index : Nat) (data : CollData)
  | collGrant (sender : CollSender)
  | collAbort (sender : CollSender)
  | collStallTimeout (op : Nat)
  | routeSet (q : Nat) (h : Hdr) (object first count : W16)
  | positionSet (q : Nat) (h : Hdr) (object first count : W16)
  | positionSetApply
  | groupSet (q : Nat) (h : Hdr) (object first count : W16)
  | checkpoint (q : Nat) (h : Hdr) (b : CkptBody)
  | checkpointCommit
  | buddyCkptData (node : BitVec 15) (targets : W16 × W16) (data : List Byte) (trailer : Bool)
  | restore (q : Nat) (h : Hdr) (b : RestoreBody)
  | restoreDone (peerData : List Byte) (peerLog : List Byte) (refused : Bool)
  | peerCkptRead (node : BitVec 15) (object : W16) (log : Bool)
  | snapshot (q : Nat) (h : Hdr) (b : SnapshotBody)
  | snapshotDurable (peerRefused : Bool)
  | snapshotExport (node : BitVec 15) (image manifest : W16) (imageData manifestData : List Byte)
  | admitEntry (q : Nat) (h : Hdr) (b : AdmitBody)
  | cancel (q : Nat) (h : Hdr) (entry : W16) (key : W32)
  | pageMove (q : Nat) (h : Hdr) (b : PageMoveBody)
  | pageMoveDone (x : PageMoveRead)
  | commandTake (q : Nat) (answer : HostAnswer)
  -- Glaren mailbox, tray, DOE, move
  | sbAppend (port : Port) (count : Nat)
  | updateBegin (port : Port) (imageLength chainLength : Nat)
  | updateData (port : Port) (offset length : Nat)
  | updateEnd (port : Port) (settingsOk readBackOk : Bool)
  | applyStart (port : Port) (timeout : Nat)
  | apply (port : Port)
  | recoveryExit (port : Port)
  | engineService (port : Port) (cluster engine : Nat) (clear : Bool)
  | debugChallenge (port : Port) (scope : BitVec 3)
  | debugResponse (port : Port) (publicKey signature : List Byte)
  | debugLock (port : Port)
  | securityCommit (port : Port)
  | settingsRead (port : Port)
  | identity
  | coordinates (slot : BitVec 3) (tray : BitVec 3) (rack : BitVec 8) (hall : BitVec 1)
  | sensors (index : Nat)
  | alert
  | scorebook (index : W32)
  | sbNext
  | doeDiscovery (port : Port)
  | attestationReport (port : Port) (nonce : List Byte)
  | reportSigned
  | deviceCertificate (port : Port)
  | doeAbort (port : Port)
  | moveAcquire (f : Fn) (expected : W32)
  | moveRenew (f : Fn) (expected : W32)
  | moveRelease (f : Fn) (expected : W32)
  | moveTake (f : Fn) (expected : W32)
  -- register accesses
  | stepNumberWrite (f : Fn) (value : W64)
  | flagClear (f : Fn) (cluster : Nat) (value : W32)
  | counterClear (f : Fn) (value : W32)
  | faultRecordClear (f : Fn) (value : W64)
  | budgetSet (f : Fn) (value : W64)
  | refillConfigWrite (f : Fn) (value : W32)
  | pageConfigWrite (f : Fn) (pool : Option Nat) (value : W64)
  | markAdd (f : Fn) (mark : Nat) (amount : W64)
  | markNotifyArm (f : Fn) (mark : Nat) (value : W32)
  | qEnable (f : Fn) (q : Nat) (enable : Bool)
  | qFlush (f : Fn) (q : Nat) (hdrs : List Hdr)
  | qOwnerChange (f : Fn) (mark : Bool) (index : Nat) (owner : Fn)
  | sqDoorbell (f : Fn) (q : Nat) (tail : W32)
  | bar2WindowWrite (f : Fn) (value : W64)
  | bar2Write (port : Port) (offset : Nat) (data : List Byte)
  | bar2Read (port : Port) (offset length : Nat) (bad : Bool)
  | bar2ReadTimeout (port : Port)
  | warmResetRequest (f : Fn) (value : W32)
  | blockReset (f : Fn) (value : W32)
  | blockClockStable (block : Nat)
  | blockInitDone (block : Nat)
  | portEnableWrite (f : Fn) (u : Nat) (enable : Bool)
  | portEncryptWrite (f : Fn) (u : Nat) (encrypt : Bool)
  | twinResume (f : Fn) (value : W32)
  | replayUntilWrite (f : Fn) (value : W64)
  | debugCtrlArm (f : Fn) (value : W32)
  | pipSelectWrite (f : Fn) (i : Nat) (value : W32)
  | readClear (f : Fn) (offset : Nat)
  | reg64HalfAccess (f : Fn) (offset : Nat) (write : Option W32)
  | registerWrite (f : Fn) (offset : Nat) (value : W64)
  -- the dealer and the step
  | boundary
  | idleBoundaryTimeout
  | stepEnd
  | plyAbort
  | deadlockDetect
  | treePartnerTimeout (cluster : Nat)
  | waitTimeout (prog : Nat)
  | govConfirm
  | govConfirmTimeout
  | signalArrival (n : Nat)
  | externalCompletion (op : Nat) (ac crossing : Nat)
  -- sequencer and die-program instructions
  | mmaBankComplete (cluster engine bank : Nat)
  | lda (i : Issue) (c : Common) (f : MoveF)
  | ldb (i : Issue) (c : Common) (f : MoveF)
  | ldat (i : Issue) (c : Common) (f : MoveF)
  | ldbt (i : Issue) (c : Common) (f : MoveF)
  | accld (i : Issue) (c : Common) (f : MoveF)
  | spill (i : Issue) (c : Common) (f : MoveF)
  | fill (i : Issue) (c : Common) (f : MoveF)
  | parld (i : Issue) (c : Common) (f : MoveF)
  | gradst (i : Issue) (c : Common) (f : MoveF)
  | copy (i : Issue) (c : Common) (f : MoveF)
  | streamIn (i : Issue) (c : Common) (f : MoveF)
  | streamOut (i : Issue) (c : Common) (f : MoveF)
  | xfer (i : Issue) (c : Common) (f : MoveF)
  | mma (i : Issue) (c : Common) (f : MmaF)
  | lnFwd (i : Issue) (c : Common) (f : RowF)
  | rmsFwd (i : Issue) (c : Common) (f : RowF)
  | smaxFwd (i : Issue) (c : Common) (f : RowF)
  | lse (i : Issue) (c : Common) (f : RowF)
  | amax (i : Issue) (c : Common) (f : RowF)
  | lnBwd (i : Issue) (c : Common) (f : RowF)
  | rmsBwd (i : Issue) (c : Common) (f : RowF)
  | smaxBwd (i : Issue) (c : Common) (f : RowF)
  | gradClear (i : Issue) (c : Common) (f : RowF)
  | add (i : Issue) (c : Common) (f : VecF)
  | sub (i : Issue) (c : Common) (f : VecF)
  | mul (i : Issue) (c : Common) (f : VecF)
  | fma (i : Issue) (c : Common) (f : VecF)
  | min (i : Issue) (c : Common) (f : VecF)
  | max (i : Issue) (c : Common) (f : VecF)
  | cmp (i : Issue) (c : Common) (f : VecF)
  | sel (i : Issue) (c : Common) (f : VecF)
  | unary (i : Issue) (c : Common) (f : VecF)
  | cvt (i : Issue) (c : Common) (f : VecF)
  | pbdec (i : Issue) (c : Common) (f : VecF)
  | pbenc (i : Issue) (c : Common) (f : VecF)
  | rsqrt (i : Issue) (c : Common) (f : VecF)
  | divsqrt (i : Issue) (c : Common) (f : VecF)
  | func (i : Issue) (c : Common) (f : VecF)
  | etree (i : Issue) (c : Common) (f : TreeF)
  | ctree (i : Issue) (c : Common) (f : TreeF)
  | dtree (i : Issue) (c : Common) (f : TreeF)
  | topk (i : Issue) (c : Common) (f : TopkF)
  | syncAwait (i : Issue) (c : Common) (wp : BitVec 10) (target : W16)
  | syncSignal (i : Issue) (c : Common) (wp : BitVec 10) (cmask : W32) (dmask : BitVec 4)
  | collStart (i : Issue) (c : Common) (sreg : BitVec 5) (wp : BitVec 10) (cmask : W32) (dmask : BitVec 4)
  | lset (i : Issue) (c : Common) (ln : BitVec 4) (imm : BitVec 24)
  | bnz (i : Issue) (c : Common) (ln : BitVec 4) (off : W16)
  | jump (i : Issue) (c : Common) (off : W16)
  | bvar (i : Issue) (c : Common) (vb : BitVec 3) (p : Bool) (off : W16)
  | seta (i : Issue) (c : Common) (an : BitVec 5) (imm : BitVec 48)
  | adda (i : Issue) (c : Common) (an : BitVec 5) (imm : W32)
  | ctrlNop (i : Issue) (c : Common) (imm : BitVec 24)
  | ctrlEnd (i : Issue) (c : Common)
  | inc (i : Issue) (c : Common) (sn : BitVec 3) (imm : W32)
  | stamp (i : Issue) (c : Common) (sn : BitVec 3)
  | dump (i : Issue) (c : Common) (dreg : BitVec 5)
  -- memory tiers
  | streamComplete (op : Nat) (corrected : List Nat)
  | frameEdge (port : Nat)
  | memReread (op port line : Nat) (raw : RawLine) (acFrom acTo : Nat)
  | repairSourceDone (id : Nat) (clean : Option (List Byte)) (ac : Nat)
  | repairRequest (node : BitVec 15) (object : W16) (offset : Nat) (version : W32)
  | repairRewriteDone (port line : Nat) (clean : Bool)
  | correctionRewrite (port : Nat)
  | patrolScrub (port : Nat) (raw : RawLine)
  | flashCodewordDecode (die : Nat) (errors : Nat) (retries : Nat) (softOk : Bool) (op offset acFrom acTo : Nat)
  | flashRelocate (die : Nat) (disturb patrol badBlock : Bool)
  | flashPatrol (die : Nat) (corrections retries : Nat)
  | flashLayerReady (die : Nat)
  -- Unlia
  | flitReceive (u : Nat) (x : FlitRead)
  | nakReceive (u : Nat) (x : LinkField)
  | laneFail (u : Nat)
  | portTrained (u : Nat) (reversed : Bool) (x : Training)
  | portRetrainRetry (u : Nat)
  | hello (u : Nat) (node : BitVec 15) (peerPort : BitVec 4)
  | mgmtQuery (node : BitVec 15)
  | probe (x : ProbeMsg)
  | probeTimeout (u : Nat)
  | loss (u : Nat) (position : BitVec 14) (node : BitVec 15) (count : W32)
  | encapsulationKey (u : Nat) (certificate publicKey key signature : List Byte)
  | kemCiphertext (u : Nat) (certificate publicKey ciphertext signature : List Byte)
  | keySwitch (x : SwitchMsg)
  | keyRollover (u : Nat) (transmit : Bool)
  -- the two halves, watchdogs, twins, logs
  | boundaryRecord (half : Half)
  | splitDetect
  | roleQuery (half : Half)
  | roleAnswer (half : Half) (hold : Bool) (epoch : W32)
  | roleQueryTimeout (half : Half)
  | roleSilenceGrant
  | dealerHeartbeat (half : Half)
  | watchdogDealer
  | watchdogGlaren
  | glarenSelfReset
  | glarenSelfResetEnd
  | digestReport (step : W64) (plyId : W32) (health : W16) (abandoned : Bool) (digest : W64)
  | logUnitAppend
  | buddyLogUnit (target : W16) (reset : Bool) (data : List Byte)
  -- power, clocks, resets, sensors
  | powerGood
  | coldStart (saved slotB : Bool) (failedSelfTest : List (Nat × Nat)) (fails : Option Nat)
  | inputLoss
  | warmNAssert
  | warmNRelease
  | warmReset (fails : Option Nat)
  | perstAssert (port : Port)
  | perstDeassert (port : Port)
  | pcieLinkDown (port : Port)
  | pcieLinkTrained (port : Port) (rate : BitVec 3) (width : BitVec 4)
  | clockMonitorWindow (k : Nat) (locked switched : Bool) (count : BitVec 24)
  | sensorSample (index : Nat) (value : Int) (milliamps : Nat)
  | sensorWarnClear (index : Nat)
  | peakCapRelease
  | holdupCheck (ok : Bool)
  | scorebookSummary
  | startTimeout (step : Nat)
  | startRetry
  -- the update chain
  | updateForward (sender : BitVec 15) (bundle : List Byte) (settingsOk readBackOk : Bool) (chain : List (BitVec 15)) (pos : Nat)
  | updateResult (pos : Nat) (result : Nat)
  | forwardTimeout
  | applyToken (timeout : Nat) (rest : List Nat)
  | tokenTimeout
  | tokenHolderTimeout
  -- rows that stand last in the table
  | blockResetHoldEnd (block : Nat)
  | buddyCommitAck (ok : Bool)
  | debugChallengeExpiry
  | castleChunkRerequest (castleId : W64) (index : Nat) (node : BitVec 15)
  | flitSlot (u : Nat)
  | pcieConfigurationWrite (port : Port) (bar2Log2 : Option Nat) (d3hot : Option Bool) (numVfs : Option Nat)
  | testAccessPort (trstLow tmsMoved serve : Bool)
  deriving DecidableEq, Repr

end Sys2Proof
end

