-- ==== Sys2Proof/Decode.lean ====
section
/-! DEFINITION. Decoding: the module's sequencer and die-program words (sections 5.2 to 5.8), total on any word; and the
opcode table, none of whose rows gives bits. -/

namespace Sys2Proof

/-- The command that a word of spec/opcode_table.json spells: no row of the table gives bits, so none. -/
def decodeTableWord (_nbits _w : Nat) : Option Instr := none

/-- `n` ones from bit `lo`. -/
def ones (lo n : Nat) : Nat := (2 ^ n - 1) * 2 ^ lo

/-- Whether a word sets no bit outside the common fields (bits [13:0]) and the given mask (R144). -/
def onlyBits (w : W128) (mask : Nat) : Bool := decide (w &&& ~~~(BitVec.ofNat 128 (mask + ones 0 14)) = 0)

/-- The common fields (Table 5.3). -/
def commonOf (w : W128) : Common :=
  { sat := w.getLsbD 8, vg := w.getLsbD 9, vb := w.extractLsb' 10 3, vp := w.getLsbD 13 }

/-- The bits of Table 5.5 that each MOVE opcode uses (Table 5.23, R494). -/
def moveMask (op : Nat) : Nat :=
  let sreg := if op = 5 ∨ op = 8 then 0 else ones 16 5
  let dreg := if op = 5 ∨ 8 ≤ op then ones 21 5 else 0
  let half := if op ≤ 3 then ones 26 1 + ones 72 3 else 0
  let bank := if op = 4 then ones 27 1 else 0
  let port := if op ≤ 9 then ones 28 2 else 0
  let mask := if op ≤ 4 then ones 64 8 else 0
  let tag := if op = 6 then ones 80 16 else if op = 10 ∨ op = 11 then ones 80 10 else 0
  let wide := if op ≤ 8 then ones 96 16 else if op = 10 ∨ op = 11 then ones 96 32 else if op = 12 then ones 96 2 else 0
  sreg + dreg + half + bank + port + ones 32 32 + mask + tag + wide

/-- MOVE (Tables 5.4 and 5.5). MASK in [71:64] and FMT in [74:72]. -/
def decodeMove (op : BitVec 4) (w : W128) : Option Insn :=
  let f : MoveF :=
    { sreg := w.extractLsb' 16 5, dreg := w.extractLsb' 21 5, half := w.extractLsb' 26 1, bank := w.extractLsb' 27 1,
      port := w.extractLsb' 28 2, bytes := w.extractLsb' 32 32, mask := w.extractLsb' 64 8, fmt := w.extractLsb' 72 3,
      tagWp := w.extractLsb' 80 16, wide := w.extractLsb' 96 32 }
  if op.toNat ≤ 12 ∧ onlyBits w (moveMask op.toNat) ∧ f.fmt ≠ 7 then some (.move op f) else none

/-- MMA (Table 5.6, R153, R499). -/
def decodeMma (op : BitVec 4) (w : W128) : Option Insn :=
  let f : MmaF :=
    { fmt := op, mask := w.extractLsb' 16 8, bank := w.extractLsb' 24 1, ahalf := w.extractLsb' 25 1,
      bhalf := w.extractLsb' 26 1, start := w.extractLsb' 27 2, drain := w.extractLsb' 29 2, kq := w.extractLsb' 32 6,
      bcol := w.extractLsb' 38 1, ahb := w.extractLsb' 39 1, bhb := w.extractLsb' 40 1, aoff := w.extractLsb' 48 16,
      boff := w.extractLsb' 64 16, dreg := w.extractLsb' 80 5, doff := w.extractLsb' 85 11,
      tileM := w.extractLsb' 96 16, tileN := w.extractLsb' 112 16 }
  let pb : Bool := decide (op = 3) || decide (op = 4)
  if op.toNat ≤ 4 ∧ onlyBits w (ones 16 15 + ones 32 9 + ones 48 80) ∧ f.start ≠ 3 ∧ 1 ≤ f.kq.toNat ∧ f.kq.toNat ≤ 32 ∧
      (pb ∨ (f.bcol = 0 ∧ f.ahb = 0 ∧ f.bhb = 0)) ∧ (f.bhb = 0 ∨ f.bcol = 0)
  then some (.mma f) else none

/-- ROW (Table 5.7). -/
def decodeRow (op : BitVec 4) (w : W128) : Option Insn :=
  let f : RowF :=
    { xreg := w.extractLsb' 16 5, oreg := w.extractLsb' 21 5, save := w.extractLsb' 26 1, infmt := w.extractLsb' 27 1,
      outfmt := w.extractLsb' 28 1, nm1 := w.extractLsb' 32 18, vm1 := w.extractLsb' 50 10, layer := w.extractLsb' 60 8,
      sbase := w.extractLsb' 68 12, tag := w.extractLsb' 80 16, eps := w.extractLsb' 96 32 }
  if op.toNat ≤ 8 ∧ onlyBits w (ones 16 13 + ones 32 96) ∧ ¬(5 ≤ op.toNat ∧ op.toNat ≤ 7 ∧ f.xreg = 31)
  then some (.row op f) else none

/-- How many FN values an opcode defines (Table 5.8); an opcode without a selection defines 0 alone. -/
def vecFnCount (op : Nat) : Nat :=
  if op = 6 then 4 else if op = 8 ∨ op = 13 then 2 else if op = 14 then 7 else 1

/-- VEC (Tables 5.8 and 5.9, R155). -/
def decodeVec (op : BitVec 4) (w : W128) : Option Insn :=
  let f : VecF :=
    { s1 := w.extractLsb' 16 6, s2 := w.extractLsb' 22 6, s3 := w.extractLsb' 28 6, d := w.extractLsb' 34 6,
      s2imm := w.extractLsb' 40 1, s2bc := w.extractLsb' 41 1, fn := w.extractLsb' 42 3, sfmt := w.extractLsb' 45 3,
      dfmt := w.extractLsb' 48 3, rowsm1 := w.extractLsb' 52 12, imm := w.extractLsb' 64 32 }
  if op.toNat ≤ 14 ∧ onlyBits w (ones 16 35 + ones 52 44) ∧ f.sfmt.toNat ≤ 5 ∧ f.dfmt.toNat ≤ 5 ∧
      f.fn.toNat < vecFnCount op.toNat ∧ ¬(f.s2imm = 1 ∧ f.s2bc = 1) ∧ (f.s2imm = 0 ∨ f.s2 = 0) ∧
      (f.s2bc = 0 ∨ 32 ≤ f.s2.toNat)
  then some (.vec op f) else none

/-- RED trees and TOPK (Tables 5.10 and 5.11, R156). -/
def decodeRed (op : BitVec 4) (w : W128) : Option Insn :=
  if op.toNat ≤ 2 then
    let f : TreeF :=
      { size := w.extractLsb' 16 2, base := w.extractLsb' 18 3, bank := w.extractLsb' 21 1, outfmt := w.extractLsb' 22 1,
        onward := w.extractLsb' 23 1, dreg := w.extractLsb' 24 5, doff := w.extractLsb' 32 16,
        tileM := w.extractLsb' 64 16, tileN := w.extractLsb' 80 16 }
    if onlyBits w (ones 16 13 + ones 32 16 + ones 64 32) ∧ f.size ≠ 0 ∧ ¬(op = 2 ∧ (f.size = 3 ∨ f.onward = 1))
    then some (.tree op f) else none
  else if op = 3 then
    let f : TopkF :=
      { sreg := w.extractLsb' 16 5, dreg := w.extractLsb' 21 5, infmt := w.extractLsb' 26 1, nm1 := w.extractLsb' 32 18,
        km1 := w.extractLsb' 50 6, vm1 := w.extractLsb' 64 12 }
    if onlyBits w (ones 16 11 + ones 32 24 + ones 64 12) then some (.topk f) else none
  else none

/-- SYNC and COLL (Table 5.12). -/
def decodeSync (op : BitVec 4) (w : W128) : Option Insn :=
  if op = 0 then
    (if onlyBits w (ones 16 10 + ones 32 16) then some (.await (w.extractLsb' 16 10) (w.extractLsb' 32 16)) else none)
  else if op = 1 then
    (if onlyBits w (ones 16 10 + ones 64 36)
      then some (.signal (w.extractLsb' 16 10) (w.extractLsb' 64 32) (w.extractLsb' 96 4)) else none)
  else none

def decodeColl (op : BitVec 4) (w : W128) : Option Insn :=
  if op = 0 ∧ onlyBits w (ones 16 5 + ones 32 10 + ones 64 36)
  then some (.collStart (w.extractLsb' 16 5) (w.extractLsb' 32 10) (w.extractLsb' 64 32) (w.extractLsb' 96 4)) else none

/-- CTRL (Table 5.14, R161): bits above the used immediate are 0. -/
def decodeCtrl (op : BitVec 4) (w : W128) : Option Insn :=
  let imm := if op = 0 ∨ op = 6 then 24 else if op = 4 then 48 else if op = 5 then 32 else 0
  if onlyBits w (ones 16 13 + ones 32 16 + ones 64 imm) then
    match op.toNat with
    | 0 => if w.extractLsb' 64 24 = 0 then none else some (.lset (w.extractLsb' 16 4) (w.extractLsb' 64 24))
    | 1 => some (.bnz (w.extractLsb' 16 4) (w.extractLsb' 32 16))
    | 2 => some (.jump (w.extractLsb' 32 16))
    | 3 => some (.bvar (w.extractLsb' 25 3) (w.getLsbD 28) (w.extractLsb' 32 16))
    | 4 => some (.seta (w.extractLsb' 20 5) (w.extractLsb' 64 48))
    | 5 => some (.adda (w.extractLsb' 20 5) (w.extractLsb' 64 32))
    | 6 => some (.nop (w.extractLsb' 64 24))
    | 7 => some .stop
    | _ => none
  else none

/-- STAT (R163). -/
def decodeStat (op : BitVec 4) (w : W128) : Option Insn :=
  if onlyBits w (ones 16 3 + ones 20 5 + ones 64 32) then
    match op.toNat with
    | 0 => some (.inc (w.extractLsb' 16 3) (w.extractLsb' 64 32))
    | 1 => some (.stamp (w.extractLsb' 16 3))
    | 2 => some (.dump (w.extractLsb' 20 5))
    | _ => none
  else none

/-- One instruction word: its common fields and its meaning, or none where it is ILLEGAL (R144). -/
def decodeInsn (w : W128) : Option (Common × Insn) :=
  let op : BitVec 4 := w.extractLsb' 0 4
  let x : Option Insn := match (w.extractLsb' 4 4).toNat with
    | 0 => decodeMove op w
    | 1 => decodeMma op w
    | 2 => decodeRow op w
    | 3 => decodeVec op w
    | 4 => decodeRed op w
    | 5 => decodeColl op w
    | 6 => decodeSync op w
    | 7 => decodeCtrl op w
    | 8 => decodeStat op w
    | _ => none
  x.map (fun i => (commonOf w, i))

/-- Whether program `p` may hold an instruction (R147), and an XFER names another die (R494). -/
def allowedIn (p : Nat) (x : Insn) : Bool :=
  match x with
  | .move op f => if op.toNat ≤ 9 then decide (p < 32) else decide (32 ≤ p) && (decide (op ≠ 12) || decide (f.wide.toNat % 4 ≠ p - 32))
  | .mma _ => decide (p < 32)
  | .row _ _ => decide (p < 32)
  | .vec _ _ => decide (p < 32)
  | .tree _ _ => decide (p < 32)
  | .topk _ => decide (p < 32)
  | _ => true

/-- The instruction that program `p` reads from a word. -/
def decodeFor (p : Nat) (w : W128) : Option (Common × Insn) :=
  match decodeInsn w with
  | some (c, x) => if allowedIn p x then some (c, x) else none
  | none => none

/-! ### Encoding, from the same tables -/

/-- A field of a word: `v` from bit `lo`. -/
def field {n : Nat} (lo : Nat) (v : BitVec n) : W128 := v.setWidth 128 <<< lo

/-- Opcode, unit and common fields (Tables 5.3 and 5.4). -/
def headBits (unit op : BitVec 4) (c : Common) : W128 :=
  field 0 op ||| field 4 unit ||| field 8 (BitVec.ofBool c.sat) ||| field 9 (BitVec.ofBool c.vg) ||| field 10 c.vb |||
    field 13 (BitVec.ofBool c.vp)

/-- The fields of MOVE (Table 5.5). -/
def moveBits (f : MoveF) : W128 :=
  field 16 f.sreg ||| field 21 f.dreg ||| field 26 f.half ||| field 27 f.bank ||| field 28 f.port ||| field 32 f.bytes |||
    field 64 f.mask ||| field 72 f.fmt ||| field 80 f.tagWp ||| field 96 f.wide

/-- The fields of MMA (Table 5.6). -/
def mmaBits (f : MmaF) : W128 :=
  field 16 f.mask ||| field 24 f.bank ||| field 25 f.ahalf ||| field 26 f.bhalf ||| field 27 f.start ||| field 29 f.drain |||
    field 32 f.kq ||| field 38 f.bcol ||| field 39 f.ahb ||| field 40 f.bhb ||| field 48 f.aoff ||| field 64 f.boff |||
    field 80 f.dreg ||| field 85 f.doff ||| field 96 f.tileM ||| field 112 f.tileN

/-- The fields of ROW (Table 5.7). -/
def rowBits (f : RowF) : W128 :=
  field 16 f.xreg ||| field 21 f.oreg ||| field 26 f.save ||| field 27 f.infmt ||| field 28 f.outfmt ||| field 32 f.nm1 |||
    field 50 f.vm1 ||| field 60 f.layer ||| field 68 f.sbase ||| field 80 f.tag ||| field 96 f.eps

/-- The fields of VEC (Table 5.9). -/
def vecBits (f : VecF) : W128 :=
  field 16 f.s1 ||| field 22 f.s2 ||| field 28 f.s3 ||| field 34 f.d ||| field 40 f.s2imm ||| field 41 f.s2bc ||| field 42 f.fn |||
    field 45 f.sfmt ||| field 48 f.dfmt ||| field 52 f.rowsm1 ||| field 64 f.imm

/-- The fields of a RED tree (Table 5.11). -/
def treeBits (f : TreeF) : W128 :=
  field 16 f.size ||| field 18 f.base ||| field 21 f.bank ||| field 22 f.outfmt ||| field 23 f.onward ||| field 24 f.dreg |||
    field 32 f.doff ||| field 64 f.tileM ||| field 80 f.tileN

/-- The fields of RED.TOPK (Table 5.11). -/
def topkBits (f : TopkF) : W128 :=
  field 16 f.sreg ||| field 21 f.dreg ||| field 26 f.infmt ||| field 32 f.nm1 ||| field 50 f.km1 ||| field 64 f.vm1

/-- The word of an instruction with its common fields. -/
def encodeInsn (c : Common) : Insn → W128
  | .move op f => headBits 0 op c ||| moveBits f
  | .mma f => headBits 1 f.fmt c ||| mmaBits f
  | .row op f => headBits 2 op c ||| rowBits f
  | .vec op f => headBits 3 op c ||| vecBits f
  | .tree op f => headBits 4 op c ||| treeBits f
  | .topk f => headBits 4 3 c ||| topkBits f
  | .collStart sreg wp cmask dmask => headBits 5 0 c ||| field 16 sreg ||| field 32 wp ||| field 64 cmask ||| field 96 dmask
  | .await wp target => headBits 6 0 c ||| field 16 wp ||| field 32 target
  | .signal wp cmask dmask => headBits 6 1 c ||| field 16 wp ||| field 64 cmask ||| field 96 dmask
  | .lset ln imm => headBits 7 0 c ||| field 16 ln ||| field 64 imm
  | .bnz ln off => headBits 7 1 c ||| field 16 ln ||| field 32 off
  | .jump off => headBits 7 2 c ||| field 32 off
  | .bvar vb p off => headBits 7 3 c ||| field 25 vb ||| field 28 (BitVec.ofBool p) ||| field 32 off
  | .seta an imm => headBits 7 4 c ||| field 20 an ||| field 64 imm
  | .adda an imm => headBits 7 5 c ||| field 20 an ||| field 64 imm
  | .nop imm => headBits 7 6 c ||| field 64 imm
  | .stop => headBits 7 7 c
  | .inc sn imm => headBits 8 0 c ||| field 16 sn ||| field 64 imm
  | .stamp sn => headBits 8 1 c ||| field 16 sn
  | .dump dreg => headBits 8 2 c ||| field 20 dreg

end Sys2Proof
end

