-- ==== Sys2Proof/Config.lean ====
section
/-! DEFINITION. What one implementation fixes, and the free values: constants with no body, so that nothing can be
proved about the value of one. -/

namespace Sys2Proof.Config

/-- The numerics epoch that firmware component D of this module carries (R73). -/
opaque epoch : W32
/-- Fused package revision (Table 13.3). -/
opaque hwRev : W16
/-- Running firmware version of component c (0 G, 1 D, 2 M, 3 L, 4 F): bits [23:0] of FW_VERSION (Table 13.3). -/
opaque fwVersion : Nat → BitVec 24
/-- Byte i of the fused MODULE_IDENT (Table 15.7, Table 15.9). -/
opaque moduleIdent : Nat → Byte
/-- Byte i of the fused DIE_IDENT[j] (Table 15.7). -/
opaque dieIdent : Nat → Nat → Byte
/-- Byte i of the device certificate (R460). -/
opaque deviceCertificate : Nat → Byte
/-- Byte i of the device public key (R460). -/
opaque devicePublicKey : Nat → Byte
/-- Byte i of the scorebook's birth record at index n (R452): written by manufacturing test. -/
opaque birthRecord : Nat → Nat → Byte
/-- SECURITY_MIN of component c as fused at manufacture (Table 15.7). -/
opaque securityMin : Nat → Nat
/-- SECURITY_VERSION of the running component c (R461). -/
opaque securityVersion : Nat → Nat
/-- ACCEPT of the factory's component c: minimum and maximum major of each of G, D, M, L, F (Table 15.8). -/
opaque accept : Nat → List (Nat × Nat)
/-- The settings format of the factory's firmware and the lowest that it reads (R470, R471). -/
opaque settingsFormat : Nat × Nat
/-- Byte i of measurement 0, SHAKE256 of the ROM (R462). -/
opaque romDigest : Nat → Byte
/-- Byte i of measurement c + 1, the digest of component c as loaded (R462). -/
opaque componentDigest : Nat → ManifestEntry → Nat → Byte
/-- Byte i of measurement 6, of the running slot's five entries and of its incoming manifest (R462). -/
opaque slotDigest : List ManifestEntry → List ManifestEntry → Nat → Byte
/-- Bytes 0 and 1 of the vendor ID of the configuration header (R463). -/
opaque vendorId : Nat → Byte
/-- SHAKE256 of the firmware-signing and of the debug-signing public key (ANCHOR_FW, ANCHOR_DEBUG). -/
opaque anchorFw : List Byte
opaque anchorDebug : List Byte
/-- ANCHOR_CA (Table 15.7). -/
opaque anchorCa : List Byte
/-- SLH-DSA-SHAKE-256s verification: public key, message, signature (R460). The manual names the scheme. -/
opaque slhVerify : List Byte → List Byte → List Byte → Bool
/-- SLH-DSA-SHAKE-256s signature with the device key over a message (R460). -/
opaque slhSign : List Byte → List Byte
/-- ML-KEM-1024 (R335): encapsulation to a public key with fresh randomness n gives ciphertext and shared secret. -/
opaque kemEncaps : List Byte → Nat → List Byte × List Byte
/-- ML-KEM-1024 decapsulation with the device's n-th key pair. -/
opaque kemDecaps : Nat → List Byte → List Byte
/-- The n-th ML-KEM-1024 encapsulation key that the lower end makes. -/
opaque kemPublic : Nat → List Byte
/-- AES-256-GCM sealing of a payload under key and nonce with the header authenticated (R334). -/
opaque gcmSeal : List Byte → List Byte → List Byte → List Byte → List Byte
/-- AES-256-GCM opening of a payload with its tag: none where the tag fails (R334, R337). -/
opaque gcmOpen : List Byte → List Byte → List Byte → List Byte → Option (List Byte)

/-- Free value: the n-th byte that the manual leaves undefined (failed castles, collectives, restores, abandoned
streams). -/
opaque freeByte : Nat → Byte
/-- Free value: the n-th random nonce byte block of a debug challenge (R472). -/
opaque freeNonce : Nat → List Byte
/-- Free value: the n-th number the manual leaves open (a flash handle, a maintenance choice). -/
opaque freeNat : Nat → Nat
/-- Free value: whether the device of a row, by the key of its first line, has a repair resource left at its n-th repair (R219). -/
opaque repairLeft : Nat → Nat → Bool
/-- Free value: the n-th FP32 result that the manual leaves open. -/
opaque freeW32 : Nat → W32

/-- Free value: x ÷ 0 and ∞ ÷ ∞ on the vector unit, a function of the operands; the manual states no result. -/
opaque divOpen : W32 → W32 → W32
/-- Free value: the square root of a negative operand; the manual states no result. -/
opaque sqrtOpen : W32 → W32

/-- Component c as the module leaves the factory, in slot A. -/
def factory (c : Nat) : ManifestEntry :=
  { version := fwVersion c, security := securityVersion c, accept := accept c, epoch := if c = 1 then epoch else 0,
    settings := settingsFormat.1, minSettings := settingsFormat.2 }

end Sys2Proof.Config
end

