-- ==== Sys2Proof/Machine/State.lean ====
section
/-! DEFINITION. The state of the module as plain data, its value right after reset, and the two ways a step can stop.
Tables are sparse: a table lists only the indices whose entry differs from what an unlisted index holds. -/

namespace Sys2Proof.Machine

/-- A sparse table: entries in ascending index, none equal to what an unlisted index holds. -/
abbrev Tab (α : Type) := List (Nat × α)

/-- The four phases (Table 1.4). -/
inductive Phase where
  | idle | generate | learn | fenced
  deriving DecidableEq, Repr

/-- States of a weight slot (Table 8.1). -/
inductive SlotState where
  | empty | building | ready | live | held | standby | mirror
  deriving DecidableEq, Repr

/-- States of a request-table entry (Table 9.1). -/
inductive ReqState where
  | free | queued | prefill | decode | finished | cancelled | expired | failed
  deriving DecidableEq, Repr

/-- Kinds of ply (Table 5.16). -/
inductive PlyKind where
  | gen | fwd | bwd | opt | aux
  deriving DecidableEq, Repr

/-- POISON of a placement entry (Table 7.6). -/
inductive Poison where
  | clean | repairing | poisoned
  deriving DecidableEq, Repr

/-- What a boundary launches (R31, R32, R260). -/
inductive StepClass where
  | generate | old | eval | learn
  deriving DecidableEq, Repr

/-- The command of a queue that an operation completes: queue, submission index, header. -/
structure Ticket where
  q     : Nat
  index : W32
  hdr   : Hdr
  deriving DecidableEq, Repr

/-- A placement-table entry (Table 7.6). PIN_COUNT is the sum R244 defines and is computed. -/
structure Obj where
  address  : W64
  size     : W64
  tier     : Byte
  attr     : Byte
  valid    : Bool
  poison   : Poison
  lineTag  : Byte
  version  : W32
  altObject : W16
  flashCopy : W16
  peerPos  : W16
  peerObject : W16
  repairs  : W32
  deriving DecidableEq, Repr

/-- A flash object (R226): handle, declared size and appended data; its durable length is the data's. -/
structure FlashObj where
  handle : W32
  size   : W64
  data   : List Byte
  deriving DecidableEq, Repr

/-- A binding of a ply (R168). -/
structure Bind where
  areg   : Byte
  kind   : Byte
  object : W16
  offset : W32
  dieStride : W32
  clusterStride : W32
  deriving DecidableEq, Repr

/-- A loaded ply (Table 5.16): its header, wait points (KIND, SOURCE), bindings and programs. -/
structure Ply where
  plyId     : W32
  kind      : PlyKind
  epoch     : W32
  totalAc   : W64
  energyEst : W32
  energyMax : W32
  batchClass : Byte
  contextClass : Byte
  variant   : Byte
  resourceMap : W64
  diffMode  : BitVec 256
  peakPower : W32
  waits     : List (Byte × Byte)
  binds     : List Bind
  progs     : Tab (List W128)
  deriving DecidableEq, Repr

/-- A loaded book (Tables 5.17 and 5.22). -/
structure Book where
  kind     : BookKind
  modelId  : W32
  epoch    : W32
  digestLo : W32
  plies    : List Ply
  deriving DecidableEq, Repr

/-- One weight slot (Table 8.7). -/
structure Slot where
  state   : SlotState
  format  : Nat
  base    : W16
  adapter : W16
  version : W32
  deriving DecidableEq, Repr

/-- A castle-map entry (Table 8.4). -/
structure MapEntry where
  destOffset : Nat
  elements   : Nat
  sourcePos  : Nat
  sourceObject : Nat
  sourceOffset : Nat
  srcFmt     : Nat
  dstFmt     : Nat
  member     : Nat
  deriving DecidableEq, Repr

/-- A taken castle (R248): its command and descriptor, whether its start checks have passed, the shared base where SHARE_BASE = 1, its map,
the chunks written and checked, the failed copies of each chunk, the values flagged at the sender, whether its turn in the group has come,
and the own chunks then still to be sent. -/
structure Castle where
  ticket  : Ticket
  body    : CastleBody
  checked : Bool
  base    : W16
  map     : List MapEntry
  done    : List Nat
  retries : Tab Nat
  flagged : Nat
  sent    : Bool
  toSend  : List Nat
  deriving DecidableEq, Repr

/-- A castle chunk (R252); `lost` says that the sender has no good copy of its source, and sends no data (R255). -/
structure Chunk where
  castleId : W64
  index    : Nat
  crc      : W64
  flagged  : Nat
  lost     : Bool
  data     : List Byte
  deriving DecidableEq, Repr

/-- A request-table entry (Table 9.1). CANCEL keeps the commands that wait for the boundary that applies it. -/
structure Request where
  state     : ReqState
  eval      : Bool
  pin       : Bool
  pinBound  : Bool
  pinSlot   : Nat
  cancel    : Bool
  ran       : Bool
  moving    : Bool
  priority  : Nat
  outRing   : Nat
  tenant    : Nat
  gen       : Byte
  reason    : Byte
  key       : W32
  promptLen : Nat
  maxLen    : Nat
  curLen    : Nat
  headPage  : Nat
  tailPage  : Nat
  pages     : Nat
  lastToken : BitVec 24
  deadline  : W64
  seed      : W64
  admitSeq  : W64
  temp      : W32
  topK      : Nat
  topP      : W16
  stop0     : BitVec 24
  stop1     : BitVec 24
  promptObject : W16
  owner     : Fn
  promptOffset : Nat
  pinVersion : W32
  lastVersion : W32
  lastStep  : W64
  delivered : Nat
  cancels   : List Ticket
  deriving DecidableEq, Repr

/-- A page-map entry (Table 9.5). -/
structure Page where
  next  : Nat
  tier  : Nat
  owner : Nat
  gen   : Byte
  frame : Nat
  deriving DecidableEq, Repr

/-- PAGE_POOL[d] (Table 9.12). -/
structure Pool where
  dram  : W16
  sram  : W16
  flash : W16
  deriving DecidableEq, Repr

/-- One dealt slot of the batch (Table 9.10). -/
structure BatchSlot where
  entry  : Nat
  tokens : Nat
  decode : Bool
  draw   : Bool
  deriving DecidableEq, Repr

/-- A time in which a stall cause applies to a wait (R196): from ac `first` to before `past`, or without end while it lasts. -/
structure CauseSpan where
  cause : Nat
  first : Nat
  past  : Option Nat
  deriving DecidableEq, Repr

/-- One addition to a wait point: its arrival ac, the sender's lag (R198), and the stall causes beside the source's own in the time before
it (R196). -/
structure Arrival where
  ac   : Nat
  lag  : Tab Nat
  segs : List CauseSpan
  deriving DecidableEq, Repr

/-- A wait point of one program (R157): its additions in order of arrival, whose number is the counter. -/
structure WaitPt where
  arrivals : List Arrival
  failed   : Bool
  deriving DecidableEq, Repr

/-- A hold at an AWAIT (`some` wait point) or at END (`none`) since the given ac (R196, R197). -/
structure Hold where
  wp    : Option Nat
  since : Nat
  deriving DecidableEq, Repr

/-- One running program (Table 5.1). `ready` is the ac at which its next instruction reaches issue, `issued` the ac in which its
latest one issued, `lastDone` the completion of the latest work it issued, `lag` the lag vector of R198, `extOpen` the external completions its own
operations still owe it and `extLast` the latest of those that arrived, with its wait point. -/
structure Prog where
  code    : List W128
  pc      : Nat
  ready   : Nat
  issued  : Nat
  areg    : Tab Addr
  lreg    : Tab (BitVec 24)
  waits   : Tab WaitPt
  stats   : Tab W64
  vlane   : Tab W32
  vready  : Tab Nat
  vread   : Tab Nat
  ended   : Bool
  atEnd   : Bool
  lastDone : Nat
  lag     : Tab Nat
  hold    : Option Hold
  extOpen : Nat
  extLast : Option (Nat × Arrival)
  deriving DecidableEq, Repr

/-- A SIGNAL on its way to a program (R157). -/
structure Signal where
  prog    : Nat
  wp      : Nat
  arrival : Arrival
  deriving DecidableEq, Repr

/-- An MMA whose bank has not completed or whose drain has not been taken (R89, R156), on a logical engine. -/
structure Drain where
  cluster : Nat
  engine  : Nat
  bank    : Nat
  action  : Nat
  sat     : Bool
  dest    : Nat
  doneAc  : Nat
  complete : Bool
  prog    : Nat
  pc      : Nat
  tileM   : W16
  tileN   : W16
  tile    : List W32
  deriving DecidableEq, Repr

/-- A tree result passed onward, or a CTREE or DTREE that waits for its partners (R156): level 1 is the cluster tree, 2
the die tree; `ac` is when row 0 reaches the next node, `issued` the instruction's issue, `nth` its number in its group. -/
structure TreeItem where
  level   : Nat
  cluster : Nat
  waiting : Bool
  field   : TreeF
  sat     : Bool
  nth     : Nat
  ac      : Nat
  issued  : Nat
  dest    : Nat
  pc      : Nat
  rows    : List W32
  lag     : Tab Nat
  deriving DecidableEq, Repr

/-- A write to bonded SRAM during the running step: whether it came through the fill ports (R209) or is the step's own, the ac in
which it lands, the cluster whose digest takes it (none for a MOVE or XFER, R363) with its source (Table 3.9), its bytes and those it
replaced. -/
structure SramWrite where
  fill    : Bool
  ac      : Nat
  cluster : Option Nat
  src     : Nat
  addr    : Nat
  bytes   : List Byte
  old     : List Byte
  deriving DecidableEq, Repr

/-- The unit stores that a step's instructions write, beside bonded SRAM. -/
inductive Store where
  | buf | bank | side | tag | param | grad
  deriving DecidableEq, Repr

/-- What a delivery into a unit store replaced, so that an abort can discard it (R164). -/
structure Undo where
  ac    : Nat
  store : Store
  start : Nat
  old   : List Byte
  deriving DecidableEq, Repr

/-- Raw hold of one wait point in the running step (Table 6.7 WP_HOLD). -/
structure WpHold where
  byCause : Tab Nat
  progs   : List Nat
  deriving DecidableEq, Repr

/-- The first flag record of a cluster (Table 3.9). -/
structure FlagRec where
  kind   : Nat
  source : Nat
  col    : Nat
  row    : Nat
  pc     : Nat
  tileM  : W16
  tileN  : W16
  ac     : Nat
  step   : W64
  deriving DecidableEq, Repr

/-- A use of side-memory records of a cluster: record `lo` is finished with in ac `ac`, and each following one below `hi` `step` ac later
(R135). -/
structure RecordUse where
  cluster : Nat
  lo      : Nat
  hi      : Nat
  ac      : Nat
  step    : Nat
  deriving DecidableEq, Repr

/-- The running step. `nodes` lists for each tree node the ac spans in which it carries a reduction (R97); `recorded` is the ac of the
fault that FAULT_RECORD holds, where it is one of this step; `energy` is the energy measured so
far, in 0.1 nJ (R448); `extDst` the locations (address, bytes) that its STREAM_OUTs, each with its program, and its collectives write (R164), `flagged` the
flags reported so far, by cluster. -/
structure Run where
  step     : W64
  ply      : Ply
  book     : BookKind
  cls      : StepClass
  variant  : Byte
  slot     : Nat
  version  : W32
  inputId  : W64
  ticket   : Option Ticket
  batch    : List BatchSlot
  progs    : Tab Prog
  signals  : List Signal
  drains   : List Drain
  trees    : List TreeItem
  nodes    : Tab (List (Nat × Nat))
  matched  : Tab Nat
  wpHolds  : Tab WpHold
  writes   : List SramWrite
  undo     : List Undo
  bankUse  : List (Nat × Nat)
  nowAc    : Nat
  abortAc  : Option Nat
  recorded : Option Nat
  stopped  : Bool
  launchTick : W64
  freq     : Nat
  freqChanged : Bool
  freqCancelled : Bool
  govHold  : Nat
  energy   : Nat
  extDst   : List (Option Nat × Nat × Nat)
  flagged  : List (Nat × FlagRec)
  deriving DecidableEq, Repr

/-- A launch held for the governor (R37, R185): the boundary's choice, with the programs as step 6 has bound them. -/
structure Held where
  cls     : StepClass
  slot    : Nat
  book    : BookKind
  ply     : Ply
  variant : Byte
  inputId : W64
  ticket  : Option Ticket
  batch   : List BatchSlot
  freq    : Nat
  since   : W64
  progs   : Tab Prog
  deriving DecidableEq, Repr

/-- A flag summary (R67, Table 3.9). -/
structure FlagSum where
  count : W64
  first : Option FlagRec
  deriving DecidableEq, Repr

/-- Units of the clusters and dies: engine-local and row-engine stores as bytes, and the ac until which each unit is
busy. Engine e of cluster k is indexed 9k + e, an operand half h = 4(9k + e) + 2·side + half with its bytes from 65536h, a
bank b = 2(9k + e) + bank with its bytes from 16384b; side memory, tags, parameters and gradients of cluster k lie from
262144k, 65536k, 65536k and 65536k. `bufFmt` holds a half's format tag plus 1,
0 where it has none (log entry 5); `bankFree`, `rowFree` and `topkFree` are the ac from which a bank, a row engine and a top-k unit are free. -/
structure Units where
  buf      : Tab Byte
  bufFmt   : Tab Nat
  bufRead  : Tab Nat
  bufReady : Tab Nat
  bank     : Tab Byte
  bankHas  : Tab Nat
  bankFree : Tab Nat
  bankLoaded : Tab Nat
  engDone  : Tab Nat
  side     : Tab Byte
  sideTag  : Tab Byte
  rowUse   : List RecordUse
  fillUse  : List RecordUse
  param    : Tab Byte
  grad     : Tab Byte
  portFree : Tab Nat
  portStarts : Tab (List Nat)
  rowFree  : Tab Nat
  topkFree : Tab Nat
  engMap   : Tab (BitVec 9)
  flags    : Tab FlagSum
  deriving DecidableEq, Repr

/-- The first recorded fault (Table 5.22). -/
structure FaultRec where
  valid : Bool
  code  : BitVec 7
  prog  : BitVec 6
  pc    : W16
  step  : W64
  deriving DecidableEq, Repr

/-- The LAST_STEP registers and the boundary counters (Table 6.7). -/
structure Counters where
  stallAc   : Tab W64
  holdAc    : Tab W64
  holdCount : Tab W64
  lastNumber : W64
  lastAc    : W64
  lastExcess : W64
  lastAbandoned : Bool
  lastFreq  : Nat
  lastChanged : Bool
  lastCancelled : Bool
  lastStall : Tab W64
  wpHold    : Tab (Nat × Nat × Nat)
  boundaries : W64
  idleBoundaries : W64
  idleTicks : W64
  boundaryAc : W64
  freqTicks : Tab W64
  onchip    : Tab W64
  deriving DecidableEq, Repr

/-- What the follower's mirror would still hold of a boundary whose record it has not applied (R265, R295). -/
structure Mirror where
  requests : Tab Request
  pageTab  : Tab Page
  freeHead : Nat
  freeTail : Nat
  freeCount : Nat
  budgets  : Tab W32
  deriving DecidableEq, Repr

/-- The turn, the books, the request structures and the rest of the dealers' state (chapters 1, 5, 8, 9). `due` says that a
boundary begins next: a step has ended, or an event of R34 has come since the last idle boundary; `midway` says that a
learning boundary stands before step 6 with an untaken command in the learning queue (R31, R395); `plyRuns` holds taken
ply-run commands, `later` the object-move signals (step, wait point, programs) for a step still to launch (R404); `loading` the books being read, with the object each is read from; `before`
holds the mirrored tables as they were before the boundary that `needAck` names, and after a split as of the last record applied.
`grant` is the half to which Glaren has granted the role (R22), `reqOps` the request operations that wait for the launch (R266), `records`
the output records committed and not yet written to their rings (R290). -/
structure Dealer where
  phase      : Phase
  pending    : Option (Phase × Nat × Ticket)
  learnQueue : Option Nat
  stepNumber : W64
  evalInterval : W16
  sinceEval  : Nat
  sinceOld   : Nat
  lead       : Half
  grant      : Half
  halfFenced : Bool
  genBook    : Option Book
  learnBook  : Option Book
  loading    : List (Book × Ticket × W16)
  waitBound  : W32
  lastPly    : W32
  lastVariant : Byte
  lastBook   : BookKind
  fault      : FaultRec
  slots      : Tab Slot
  castles    : List Castle
  building   : Option Castle
  castlePending : Option Castle
  earlyChunks : List Chunk
  lastSent   : Option Castle
  lastSwitch : W64
  pinInterval : Byte
  chunk      : BitVec 11
  prefillSlots : BitVec 11
  refillPeriod : BitVec 24
  refillCount : Nat
  budgetSets : Tab W32
  budgetAll  : Option W32
  budgets    : Tab W32
  refills    : Tab W32
  frameShare : W16
  pools      : Tab Pool
  batchObj   : Tab W16
  frames     : Nat
  freeHead   : Nat
  freeTail   : Nat
  freeCount  : Nat
  pageTab    : Tab Page
  requests   : Tab Request
  admitSeq   : W64
  skip       : Tab W64
  ends       : Tab W64
  pageErrors : W32
  roleEpoch  : W32
  split      : Bool
  westFenced : Bool
  eastFenced : Bool
  queries    : Tab W64
  heartbeat  : Tab W64
  westHeard  : W64
  needAck    : Option W64
  mirrorStep : W64
  before     : Mirror
  run        : Option Run
  held       : Option Held
  due        : Bool
  idle       : Bool
  idleSince  : W64
  abandoned  : Bool
  lastBatch  : List BatchSlot
  lastVersion : W32
  exhausted  : Bool
  sramExhausted : Bool
  midway     : Bool
  plyRuns    : List (Ticket × W32 × Byte × Byte × W64)
  reqOps     : List (Ticket × Instr)
  records    : List (Nat × List Byte)
  later      : List (W64 × Nat × List Nat)
  deriving DecidableEq, Repr

/-- KIND of MEM_LAST_ERROR with its address and REPAIRED (Table 7.14). -/
structure LastErr where
  address  : Addr
  kind     : BitVec 3
  repaired : Bool
  deriving DecidableEq, Repr

/-- A repair of one line by a die's repair agent (R233): the object, the line's physical address, the awaiting
operation, the source being read (0 ALT_OBJECT, 1 FLASH_COPY, 2 peer), and whether the clean line awaits its rewrite. -/
structure Repair where
  id      : Nat
  object  : Nat
  line    : Nat
  op      : Option Nat
  source  : Nat
  rewriting : Bool
  deriving DecidableEq, Repr

/-- One translation layer: status and lifetime counts (Table 7.14). -/
structure FlashLayer where
  ready      : Bool
  formatting : Bool
  low        : Bool
  worn       : Bool
  wearHigh   : Bool
  pagesRead  : W64
  programmed : W64
  erased     : W64
  retries    : W64
  corrected  : W64
  uncorrectable : W64
  factoryBad : W32
  grownBad   : W32
  spare      : W32
  eraseMin   : W16
  eraseMax   : W16
  eraseAvg   : W16
  disturb    : W32
  patrol     : W32
  deriving DecidableEq, Repr

/-- Memory tiers: contents, stored line tags and poison flags, error registers, repairs, flash (chapter 7). `mem` is
keyed by physical module address: bonded SRAM, then the LPDDR5X direct view. Lines are keyed by address ÷ 256. `failedWords` lists the
(object, codeword) of FLASH_COPY reads that have failed while the object is under repair (R234). -/
structure Tiers where
  mem       : Tab Byte
  lineTag   : Tab Byte
  linePoison : Tab Bool
  objects   : Tab Obj
  corrected : Tab W64
  reread    : Tab W64
  dropped   : Tab W64
  repaired  : Tab W64
  tagMiss   : Tab W64
  bgSlots   : Tab W64
  scrub     : Tab (W32 × W32)
  scrubNext : Tab Nat
  lastErr   : Tab LastErr
  corrQueue : Tab (List Nat)
  sramCorrected : Tab W64
  sramLast  : Tab (W32 × W32)
  sramHold  : Tab W64
  sramPend  : List Nat
  spares    : Tab Nat
  bgShare   : BitVec 4
  bgInForce : BitVec 4
  repairFrom : Tab W64
  lastPoisoned : W16
  repairs   : List Repair
  failedWords : List (Nat × Nat)
  refailed  : List Nat
  hardRepair : List Nat
  flash     : List FlashObj
  layers    : Tab FlashLayer
  media     : Tab FlashLayer
  deriving DecidableEq, Repr

/-- A crossing into the AC domain that a completion makes (Table 6.3): none, or from the memory, flash, Unlia or PCIe domain. -/
inductive Crossing where
  | none | mc | fc | lc | pc
  deriving DecidableEq, Repr

/-- An outstanding stream of a program (R151): its ranges in bonded SRAM and LPDDR5X, its wait point, the ports that have its requests (R192),
the stall causes beside its own so far (R196), the lines re-read for it (R195), whether its last slot has passed, the lines then still
awaited from a repair, and whether it has failed. -/
structure StreamOp where
  prog   : Nat
  out    : Bool
  sram   : Nat
  dram   : Nat
  bytes  : Nat
  wp     : Nat
  cmask  : W32
  ports  : List Nat
  segs   : List CauseSpan
  reread : List Nat
  served : Bool
  awaits : List Nat
  failed : Bool
  deriving DecidableEq, Repr

/-- An outstanding operation other than a collective. A move lists the source offsets of its uncorrectable codewords and the
periods of flash retries (R229); `flashWait` is a command that waits for READY (R421), `repairWait` one that waits for a line of its source to be
repaired (R238). `ext` is a completed external operation whose completion has still
to reach the wait points of its programs (R182): the die it leaves, the crossing it makes, its SOURCE, the stall causes of the time before it. -/
inductive Op where
  | move (t : Ticket) (b : MoveBody) (bad : List Nat) (segs : List CauseSpan)
  | hostCopy (t : Ticket) (b : HostCopyBody)
  | stream (x : StreamOp)
  | pageMove (t : Ticket) (b : PageMoveBody)
  | flashWait (t : Ticket) (i : Instr)
  | repairWait (t : Ticket) (i : Instr)
  | ext (die : Nat) (cross : Crossing) (progs : List Nat) (wp source : Nat) (segs : List CauseSpan) (failed : Bool) (owner : Option Nat)
  deriving DecidableEq, Repr

/-- A message of a collective, to one of its members (R355, R356, R358). -/
inductive CollMsg where
  | digest (d : DigestMsg)
  | value (v : ValueMsg)
  | grant
  | abort
  deriving DecidableEq, Repr

/-- A collective (R347): who issued it, its descriptor, and how far it is: whether its source is still to be read (R349); for a SEND, whether the
receiver has granted it and has acknowledged its last flit (R358); the positions whose digests agree, and whether the verdict has come (R355);
the stages whose value is sent (R350); the tick of its last message (R356); and the values it holds (level, index, elements): of complete
sub-trees for a reduction, of leaves for the other kinds. -/
structure Coll where
  id      : Nat
  ticket  : Option Ticket
  prog    : Option (Nat × Nat × W32 × BitVec 4)
  body    : CollBody
  active  : Bool
  reading : Bool
  granted : Bool
  taken   : Bool
  digests : List W16
  agreed  : Bool
  sent    : List Nat
  last    : W64
  nodes   : List (Nat × Nat × List W32)
  deriving DecidableEq, Repr

/-- A position-table entry (Table 11.5); `state`: 0 UNUSED, 1 PRESENT, 2 ABSENT, 3 PAUSED. -/
structure Position where
  node    : W16
  twin    : W16
  state   : Nat
  reserve : Bool
  gen     : W32
  deriving DecidableEq, Repr

/-- A group-table entry (Table 11.6); MEMBERS is computed. -/
structure Group where
  rackMask   : BitVec 256
  trayMask   : Byte
  moduleMask : Byte
  valid      : Bool
  nextSeq    : W32
  gen        : W32
  deriving DecidableEq, Repr

/-- STATE of an Unlia port (Table 11.11). -/
inductive LinkState where
  | down | training | keying | up | disabled
  deriving DecidableEq, Repr

/-- One Unlia port: its registers (Table 11.11) and its link layer (R325 to R337). `txQueue` holds the flits that wait, each with the
port it came in by (16 for the module's own); `credits` the credits used and `owed` those to return, by channel; `served` the
round of R328: 0 its channel, 1 the flits that channel has sent in it, 2 + v the port channel v serves next; `roundWeights` the weights in
force in that round. `probing` is the tick at which the probes of R342 left. -/
structure UPort where
  state     : LinkState
  encrypted : Bool
  reversed  : Bool
  refused   : Bool
  peerValid : Bool
  peerNode  : BitVec 15
  peerPort  : BitVec 4
  keyIndex  : W32
  rxKeyIndex : W32
  enable    : Bool
  encrypt   : Bool
  weights   : W16
  roundWeights : W16
  fecCorrected : W64
  fecUncorrectable : W64
  crcErrors : W64
  retries   : W64
  flitsTx   : W64
  flitsRx   : W64
  downCount : W64
  authFail  : W64
  unroutable : W32
  hopLimit  : W32
  txQueue   : List (Nat × Flit)
  replay    : List Flit
  resend    : List Flit
  nextSeq   : BitVec 10
  expected  : BitVec 10
  credits   : Tab Nat
  owed      : Tab Nat
  sendNak   : Bool
  sendSwitch : Bool
  nakSeq    : BitVec 10
  nakCount  : Nat
  served    : Tab Nat
  txCount   : W64
  rxCount   : W64
  txKey     : List Byte
  rxKey     : List Byte
  pendTx    : List Byte
  pendRx    : List Byte
  kemId     : Option Nat
  tagFails  : List W64
  probing   : Option W64
  deriving DecidableEq, Repr

/-- Unlia and the collectives (chapter 11). `early` holds the messages that came before their operation started. -/
structure Unlia where
  ports     : Tab UPort
  nodeId    : BitVec 15
  nodeValid : Bool
  routes    : Tab W64
  positions : Tab Position
  groups    : Tab Group
  posDigest : W64
  posSets   : List (Ticket × Nat × List Position)
  colls     : List Coll
  early     : List (CollName × W16 × CollMsg)
  collErrors : Tab W64
  lossLast  : BitVec 14
  lossCount : W32
  lossSeen  : List (BitVec 14 × BitVec 15 × W32)
  deriving DecidableEq, Repr

/-- A replay-log record (Table 12.6), POSITION_DIGEST, TICK and CRC excepted, which are formed when it is written. -/
structure LogRec where
  step    : W64
  plyId   : W32
  kind    : Byte
  variant : Byte
  flags   : Byte
  inputId : W64
  version : W32
  epoch   : W32
  posDigest : W64
  digest  : W64
  tick    : W64
  deriving DecidableEq, Repr

/-- A step's report as the twin unit compares it (Table 12.2). -/
structure Report where
  step    : W64
  plyId   : W32
  health  : W16
  abandoned : Bool
  digest  : W64
  deriving DecidableEq, Repr

/-- A checkpoint taken and not yet committed (R375, R376): its STEP, the target (none until its writing begins), the descriptor, the
command whose first checkpoint it is, and the objects not yet read. -/
structure CkptJob where
  step    : W64
  target  : Option Bool
  body    : CkptBody
  ticket  : Option Ticket
  reading : List Nat
  deriving DecidableEq, Repr

/-- A snapshot under way (R318): its command, the step and the slot as they were at its start. -/
structure SnapJob where
  ticket : Ticket
  body   : SnapshotBody
  step   : W64
  slot   : Slot
  deriving DecidableEq, Repr

/-- Twins, checkpoints, replay (chapter 12). `ckpt` is the checkpoint command in force, `ckptFirst` says that it has still to complete;
`onces` are the ONCE commands, replaced since, whose checkpoint has still to be taken; `jobs` the checkpoints taken, the one being written
first; `buddyOpen` lists, for the targets A and B of another module's checkpoint being received, the one that receives it; `buddySent` says
that the buddy's answer is awaited. `restores` and `snapshots` are in the order of taking. -/
structure Conceal where
  stepDigest : W64
  armed      : Bool
  window     : Byte
  mismatch   : Bool
  waiting    : Bool
  matched    : W64
  mismatchStep : W64
  mismatchOwn : W64
  mismatchTwin : W64
  healthCorrected : Byte
  healthClock : Bool
  healthSupply : Bool
  healthRepair : Bool
  ownReports : List Report
  twinReports : List Report
  ckpt       : Option (Ticket × CkptBody)
  ckptFirst  : Bool
  ckptDue    : Bool
  optCount   : Nat
  onces      : List (Ticket × CkptBody)
  jobs       : List CkptJob
  lastTarget : Bool
  buddyOk    : Bool
  commits    : W32
  ckptStep   : W64
  ckptTaken  : Bool
  ckptPrevDone : Bool
  logCurrent : Bool
  logCount   : W32
  logBuffer  : List LogRec
  logTick    : W64
  until_     : W64
  diverged   : Bool
  divField   : BitVec 3
  divStep    : W64
  localLog   : W16
  restores   : List (Ticket × RestoreBody)
  snapshots  : List SnapJob
  buddyOpen  : List Nat
  buddySent  : Bool
  deriving DecidableEq, Repr

/-- A command queue (Table 13.4). `broken` discards later records (R399); `phaseBit` is PHASE of R397. -/
structure Queue where
  enable   : Bool
  owner    : Fn
  sqBase   : W64
  cqBase   : W64
  orBase   : W64
  sqSize   : BitVec 17
  cqSize   : BitVec 17
  orSize   : BitVec 17
  sqTail   : W32
  cqHead   : W32
  orHead   : W32
  sqHead   : W32
  cqTail   : W32
  orTail   : W32
  waiting  : Bool
  error    : Bool
  cause    : BitVec 3
  inFlight : Nat
  passBase : W32
  vector   : W32
  deriving DecidableEq, Repr

/-- A mark (Table 13.8). -/
structure Mark where
  value    : W64
  owner    : Fn
  notifyAt : W64
  armed    : Bool
  vector   : BitVec 6
  deriving DecidableEq, Repr

/-- LAST_RESULT of MOVE_STATUS (Table 13.13). -/
inductive MoveResult where
  | none | granted | staleEpoch | held | notHolder | pending
  deriving DecidableEq, Repr

/-- A BAR2 read that waits for repairs (R391): its range and its arrival. -/
structure BarRead where
  addr   : Nat
  length : Nat
  since  : W64
  deriving DecidableEq, Repr

/-- Per-port copies: event, BAR2, move-result, link, mailbox and latch state of one PCIe port. -/
structure PortSt where
  events    : BitVec 12
  mask      : BitVec 12
  base      : BitVec 18
  bar2Log2  : Nat
  refused   : W64
  result    : MoveResult
  heldMove  : Option (Nat × W32)
  linkUp    : Bool
  rate      : BitVec 3
  width     : BitVec 4
  perst     : Bool
  ready     : Bool
  d3hot     : Bool
  numVfs    : Nat
  latchHi   : Tab W32
  latchLo   : Tab W32
  barReads  : List BarRead
  mboxReq   : Tab Byte
  mboxResp  : Tab Byte
  mboxData  : Tab Byte
  mboxBusy  : Bool
  mboxDone  : Bool
  mboxOp    : Byte
  mboxStatus : Byte
  nonce     : Option (List Byte)
  appended  : List W64
  deriving DecidableEq, Repr

/-- Queues, marks, the move, events (chapter 13). `heldFirst` is the port whose held move request came first (R431). -/
structure HostIf where
  queues  : Tab Queue
  marks   : Tab Mark
  holder  : Option Port
  epoch   : W32
  lease   : BitVec 24
  leaseStart : W64
  rejected : W32
  rejOffset : BitVec 26
  rejPort : Port
  heldFirst : Port
  ports   : Tab PortSt
  ops     : Tab Op
  nextOp  : Nat
  deriving DecidableEq, Repr

/-- State of a block's isolation wrapper (Table 14.10). -/
inductive BlockState where
  | open_ | pending | closing | inReset | waitClock | init | fenced
  deriving DecidableEq, Repr

/-- BLOCK_STATUS[b] (Table 14.10). -/
structure Block where
  state  : BlockState
  early  : Bool
  resets : W16
  errors : W16
  deriving DecidableEq, Repr

/-- CLOCK_MON[k] (Table 14.10); `released` says that its block has been released (R416). -/
structure Clock where
  locked  : Bool
  stable  : Bool
  override : Bool
  lastCount : BitVec 24
  excursions : W16
  deriving DecidableEq, Repr

/-- A scorebook record (Table 15.5) without its CRC, which is formed when the record is read. -/
structure Score where
  seq     : W64
  boot    : W32
  gcTick  : W64
  tick    : W64
  source  : Byte
  outcome : Byte
  code    : W16
  step    : W64
  data    : List Byte
  deriving DecidableEq, Repr

/-- Reset and start state (chapter 14). `causes` is RESET_CAUSE [6:0]; `warmAt` the tick of a warm request that waits 10 µs;
`warmHeld` and `startTest` say that WARM_N holds a warm reset, or a cold start with its self-test's findings; `starting` that a
cold start is under way, begun at GC tick `startGc`; `retry` that a failed start, which failed at that tick, waits for its retry; `startOk` that the last start
has had its START_OK, or ended by power loss; `startKind` is DATA of that START_OK. -/
structure Resets where
  mgood      : Bool
  causes     : BitVec 7
  warmCount  : W16
  bootCount  : W32
  failedStarts : Nat
  recovery   : Bool
  glarenReady : Bool
  failStep   : Nat
  ddrRetrained : Bool
  flashFormatted : Bool
  mgoodTime  : W32
  blocks     : Tab Block
  clocks     : Tab Clock
  warmAt     : Option W64
  warmCauses : BitVec 7
  warmN      : Bool
  warmHeld   : Bool
  starting   : Bool
  startTest  : Option (List (Nat × Nat))
  startGc    : W64
  retry      : Bool
  powered    : Bool
  shutdown   : Bool
  startOk    : Bool
  firstStart : Bool
  startKind  : Nat
  selfResets : List W64
  heldRecords : List Score
  droppedRecords : Nat
  deriving DecidableEq, Repr

/-- A sensor: last value, highest value, second field (RAIL's MILLIAMPS) and LEVEL (Table 15.9). -/
structure Sensor where
  value : Int
  maxV  : Int
  amps  : Nat
  level : BitVec 2
  warnSince : W64
  deriving DecidableEq, Repr

/-- The history of one ply that GOV_TABLE[k] is computed from: its last 16 normalised measurements, in 0.1 nJ (R448). -/
structure GovEntry where
  energies : List Nat
  deriving DecidableEq, Repr

/-- An update in this module (chapter 15.6): the registers, the image being received or stored, the chain, slot B's manifest
(none listed: no valid bundle), the components that an apply has put into slot A and those that run (unlisted: the factory's),
the blocks restarted since the last copy, what position 0 has heard (bits STORED, REFUSED, SKIPPED, APPLIED by position), the
token held here with the positions after it, the token's holder as position 0 sees it with TOKEN_TIMEOUT, the position a forward
waits for, and the GC ticks at which the token, the holder's turn and the forward began; `slotB` says that the last start ran slot B. The last three
hold what the measurements of R462 were taken of: the components that ran, the slot's entries, its incoming manifest. -/
structure Update where
  state   : Nat
  nextAction : BitVec 3
  reason  : Byte
  chainPos : Nat
  image   : Tab Byte
  imageLength : Nat
  chainLength : Nat
  chain   : List (BitVec 15)
  manifest : List ManifestEntry
  slotA   : Tab ManifestEntry
  running : Tab ManifestEntry
  incoming : Bool
  restarted : List Nat
  results : Tab Nat
  token   : Option Nat
  tokenRest : List Nat
  tokenAt : Option Nat
  forwardTo : Option Nat
  tokenTimeout : Nat
  tokenSince : W64
  visitSince : W64
  forwardSince : W64
  slotB   : Bool
  measured : Tab ManifestEntry
  measuredSlot : Tab ManifestEntry
  measuredIn : List ManifestEntry
  deriving DecidableEq, Repr

/-- PIP_SELECT[i] (Table 15.9). -/
structure Pip where
  group : Byte
  bit   : BitVec 5
  mode  : BitVec 2
  param : Byte
  deriving DecidableEq, Repr

/-- Glaren: sensors, governor, scorebook, update, debug, settings (chapter 15). `powerSamples` are the last ten VIN × IIN samples in
10 µW, `coolSince` the GC tick + 1 since which every point of R451 reads below 90 °C, `peakTick` the tick of the second boundary
after an excess, `trayCoords` the coordinates from the tray, `summary` the block counts at the last SUMMARY records (R361). `bankFormat` and `otherFormat` are the formats of the current settings bank (none:
the factory's) and of the other (none: not valid), `migrating` that no START_OK has followed a migration (R471). -/
structure Glaren where
  temps    : Tab Sensor
  rails    : Tab Sensor
  inlet    : Sensor
  outlet   : Sensor
  stepAvg  : W16
  peak1ms  : W16
  lastMj   : W32
  flashAlert : Bool
  holdupLow : Bool
  powerLimit : BitVec 12
  maxFreq  : BitVec 2
  freq     : Nat
  standby  : Nat
  standbyStable : Bool
  thermalCap : Nat
  peakCap  : Option Nat
  peakBoundaries : Nat
  overshoots : W32
  table    : Tab GovEntry
  govKeys  : Tab (W32 × W32)
  sb       : Tab Score
  sbNext   : W64
  crcErrors : W32
  sbBlock  : BitVec 2
  gcTick   : W64
  update   : Update
  unlocked : BitVec 3
  challenge : Option (List Byte × BitVec 3 × W64)
  measure7 : List Byte
  debugBlock : BitVec 7
  debugArm : Bool
  pips     : Tab Pip
  reports  : List (Port × List Byte)
  failedList : Tab (BitVec 9)
  clearPending : List (Nat × Nat)
  linkCr1  : Tab Bool
  linkEncrypt : Tab Bool
  coeffs   : Tab Bool
  ddrSaved : Tab Bool
  securityMin : Tab Nat
  settingsSeq : W64
  lastSummary : W64
  summary  : Tab Nat
  powerSamples : List Nat
  coolSince : W64
  peakTick : W64
  trayCoords : Option (BitVec 15)
  bankFormat : Option Nat
  otherFormat : Option Nat
  migrating : Bool
  deriving DecidableEq, Repr

/-- What the module sends out of its boundary, in order: ring records, interrupts, Unlia messages, answers to reads. -/
inductive Emit where
  | completion (q : Nat) (tag : W16) (index : W16) (status : Byte) (flags : Byte) (result : W64) (addr : W64)
  | output (ring : Nat) (addr : W64) (bytes : List Byte)
  | msix (f : Fn) (vector : Nat)
  | regValue (f : Fn) (offset : Nat) (value : W64)
  | hostWrite (f : Fn) (addr : W64) (bytes : List Byte)
  | barData (port : Port) (bytes : List Byte) (poisoned : Bool)
  | abort (port : Port)
  | flit (u : Nat) (bytes : List Byte)
  | mgmt (node : BitVec 15) (kind : Nat) (bytes : List Byte)
  | mgmtPort (u : Nat) (kind : Nat) (bytes : List Byte)
  | mgmtVia (u : Nat) (node : BitVec 15) (kind : Nat) (bytes : List Byte)
  | chunk (x : Chunk) (dest : BitVec 15)
  | chunkRequest (castleId : W64) (index : Nat) (pos : Nat)
  | coll (vc : BitVec 2) (node : BitVec 15) (name : CollName) (m : CollMsg)
  | bulk (pos : W16) (kind : Nat) (bytes : List Byte)
  | bulkNode (node : BitVec 15) (kind : Nat) (bytes : List Byte)
  | tray (bytes : List Byte)
  | doe (port : Port) (bytes : List Byte)
  | boundaryRecord (step : W64)
  | roleAnswer (half : Half) (hold : Bool) (epoch : W32)
  | roleQuery (half : Half)
  deriving DecidableEq, Repr

/-- The module's state. `pending` is the queue of commands and events that wait, oldest first; `framed` says how many emissions have had
their flits made. -/
structure State where
  pending : List Instr
  tick    : W64
  dealer  : Dealer
  units   : Units
  counters : Counters
  tiers   : Tiers
  unlia   : Unlia
  conceal : Conceal
  host    : HostIf
  resets  : Resets
  glaren  : Glaren
  out     : List Emit
  framed  : Nat
  free    : Nat
  deriving DecidableEq, Repr

/-- How the machine stops for good: in no way. Every command and event of the table answers a next state, but for the one
that `Refusal` names. -/
inductive Fault
  deriving DecidableEq, Repr

/-- Why a command has no meaning here. -/
inductive Refusal where
  /-- Not modelled yet. Safe. -/
  | notModelled (mnemonic : String)
  /-- TEST_ACCESS_PORT while TAP is unlocked: the manual says the port serves (R474) and not what it does. Safe. -/
  | tapService
  deriving DecidableEq, Repr

/-- An unlisted placement entry: invalid (R225). -/
def Obj.none : Obj :=
  { address := 0, size := 0, tier := 0, attr := 0, valid := false, poison := .clean, lineTag := 0, version := 0,
    altObject := 0xFFFF, flashCopy := 0xFFFF, peerPos := 0xFFFF, peerObject := 0xFFFF, repairs := 0 }

/-- A slot as cold and warm reset leave it (Table 8.7). -/
def Slot.cold : Slot := { state := .empty, format := 0, base := 0xFFFF, adapter := 0xFFFF, version := 0 }

/-- A FREE request-table entry: STATE 0, rest 0 (Table 9.12). -/
def Request.cold : Request :=
  { state := .free, eval := false, pin := false, pinBound := false, pinSlot := 0, cancel := false, ran := false,
    moving := false, priority := 0, outRing := 0, tenant := 0, gen := 0, reason := 0, key := 0, promptLen := 0,
    maxLen := 0, curLen := 0, headPage := 0, tailPage := 0, pages := 0, lastToken := 0, deadline := 0, seed := 0,
    admitSeq := 0, temp := 0, topK := 0, topP := 0, stop0 := 0, stop1 := 0, promptObject := 0,
    owner := { port := .A, num := 0 }, promptOffset := 0, pinVersion := 0, lastVersion := 0, lastStep := 0,
    delivered := 0, cancels := [] }

/-- PAGE_POOL[d] at reset (Table 9.12). -/
def Pool.cold : Pool := { dram := 0xFFFF, sram := 0xFFFF, flash := 0xFFFF }

/-- The end marker of a page list (Table 9.5). -/
def noPage : Nat := 0xFFFFF

/-- An unlisted page-map entry when `frames` pages are usable (R273): the free list in ascending order, then TIER 3. -/
def Page.init (frames p : Nat) : Page :=
  if p < frames then { next := if p + 1 < frames then p + 1 else noPage, tier := 1, owner := 0x1FFF, gen := 0, frame := 0 }
  else { next := noPage, tier := 3, owner := 0x1FFF, gen := 0, frame := 0 }

/-- A flag summary after a clear (Table 3.9). -/
def FlagSum.cold : FlagSum := { count := 0, first := none }

/-- FAULT_RECORD and FAULT_STEP at reset (Table 5.22). -/
def FaultRec.cold : FaultRec := { valid := false, code := 0, prog := 0, pc := 0, step := 0 }

/-- MEM_LAST_ERROR at reset (Table 7.14). -/
def LastErr.cold : LastErr := { address := 0, kind := 0, repaired := false }

/-- Flash registers before READY: they read 0 (Table 7.14). -/
def FlashLayer.cold : FlashLayer :=
  { ready := false, formatting := false, low := false, worn := false, wearHigh := false, pagesRead := 0,
    programmed := 0, erased := 0, retries := 0, corrected := 0, uncorrectable := 0, factoryBad := 0, grownBad := 0,
    spare := 0, eraseMin := 0, eraseMax := 0, eraseAvg := 0, disturb := 0, patrol := 0 }

/-- The media of a blank translation layer: 65,536 spare blocks less 512 of metadata (Table 7.8). -/
def FlashLayer.blank : FlashLayer := { FlashLayer.cold with spare := 65024 }

/-- An UNUSED position (R346). -/
def Position.cold : Position := { node := 0, twin := 0, state := 0, reserve := false, gen := 0 }

/-- A cleared group-table entry (R346). -/
def Group.cold : Group := { rackMask := 0, trayMask := 0, moduleMask := 0, valid := false, nextSeq := 0, gen := 0 }

/-- An Unlia port at its Cold values with ENCRYPT from the settings store (Table 11.11). -/
def UPort.cold (encrypt : Bool) : UPort :=
  { state := .down, encrypted := false, reversed := false, refused := false, peerValid := false, peerNode := 0,
    peerPort := 0, keyIndex := 0, rxKeyIndex := 0, enable := true, encrypt := encrypt, weights := 0x1346, roundWeights := 0x1346,
    fecCorrected := 0, fecUncorrectable := 0, crcErrors := 0, retries := 0, flitsTx := 0, flitsRx := 0,
    downCount := 0, authFail := 0, unroutable := 0, hopLimit := 0, txQueue := [], replay := [], resend := [],
    nextSeq := 0, expected := 0, credits := [], owed := [], sendNak := false, sendSwitch := false, nakSeq := 0,
    nakCount := 0, served := [], txCount := 0, rxCount := 0, txKey := [], rxKey := [], pendTx := [], pendRx := [],
    kemId := none, tagFails := [], probing := none }

/-- Queue q at its Cold values (Table 13.4): queues 0 to 127 belong to the PF of port A (R393). -/
def Queue.cold (q : Nat) : Queue :=
  { enable := false, owner := { port := if q < 128 then .A else .B, num := 0 }, sqBase := 0, cqBase := 0, orBase := 0,
    sqSize := 0, cqSize := 0, orSize := 0, sqTail := 0, cqHead := 0, orHead := 0, sqHead := 0, cqTail := 0,
    orTail := 0, waiting := false, error := false, cause := 0, inFlight := 0, passBase := 0, vector := 0 }

/-- Mark m at its Cold values (Table 13.8, R402). -/
def Mark.cold (m : Nat) : Mark :=
  { value := 0, owner := { port := if m < 2048 then .A else .B, num := 0 }, notifyAt := 0, armed := false, vector := 0 }

/-- One PCIe port's copies at their Cold values (Tables 13.13 and 15.9); BAR2 reset size 16 GiB. -/
def PortSt.cold : PortSt :=
  { events := 0, mask := 0, base := 0x400, bar2Log2 := 34, refused := 0, result := .none, heldMove := none,
    linkUp := false, rate := 0, width := 0, perst := false, ready := true, d3hot := false, numVfs := 0, latchHi := [],
    latchLo := [], barReads := [], mboxReq := [], mboxResp := [], mboxData := [], mboxBusy := false,
    mboxDone := false, mboxOp := 0, mboxStatus := 0, nonce := none, appended := [] }

/-- BLOCK_STATUS[b] at reset (Table 14.10). -/
def Block.cold : Block := { state := .open_, early := false, resets := 0, errors := 0 }

/-- CLOCK_MON[k] at reset (Table 14.10). -/
def Clock.cold : Clock := { locked := false, stable := false, override := false, lastCount := 0, excursions := 0 }

/-- A sensor before its first sample (Table 15.9). -/
def Sensor.cold : Sensor := { value := 0, maxV := 0, amps := 0, level := 0, warnSince := 0 }

/-- GOV_TABLE[k] at reset (Table 15.9). -/
def GovEntry.cold : GovEntry := { energies := [] }

/-- PIP_SELECT[i] at reset. -/
def Pip.cold : Pip := { group := 0, bit := 0, mode := 0, param := 0 }

/-- A wait point at launch (Table 5.1). -/
def WaitPt.cold : WaitPt := { arrivals := [], failed := false }

/-- A program of no instructions, as launched (Table 5.1). -/
def Prog.cold : Prog :=
  { code := [], pc := 0, ready := 0, issued := 0, areg := [], lreg := [], waits := [], stats := [], vlane := [], vready := [],
    vread := [], ended := true, atEnd := false, lastDone := 0, lag := [], hold := none, extOpen := 0, extLast := none }

/-- The dealers' state as cold and warm reset leave it. -/
def Dealer.cold : Dealer :=
  { phase := .idle, pending := none, learnQueue := none, stepNumber := 0, evalInterval := 0, sinceEval := 0,
    sinceOld := 0, lead := .west, grant := .west, halfFenced := false, genBook := none, learnBook := none, loading := [],
    waitBound := 0x0003D090, lastPly := 0, lastVariant := 0, lastBook := .gen, fault := FaultRec.cold, slots := [],
    castles := [], building := none, castlePending := none, earlyChunks := [], lastSent := none, lastSwitch := 0, pinInterval := 1, chunk := 0x100,
    prefillSlots := 0x40, refillPeriod := 0, refillCount := 0, budgetSets := [], budgetAll := none, budgets := [],
    refills := [], frameShare := 0, pools := [], batchObj := [], frames := 0, freeHead := noPage, freeTail := noPage,
    freeCount := 0, pageTab := [], requests := [], admitSeq := 0, skip := [], ends := [], pageErrors := 0,
    roleEpoch := 0, split := false, westFenced := false, eastFenced := false, queries := [], heartbeat := [],
    westHeard := 0, needAck := none, mirrorStep := 0,
    before := { requests := [], pageTab := [], freeHead := noPage, freeTail := noPage, freeCount := 0, budgets := [] }, run := none, held := none, due := true, idle := false,
    idleSince := 0, abandoned := false, lastBatch := [], lastVersion := 0, exhausted := false, sramExhausted := false,
    midway := false, plyRuns := [], reqOps := [], records := [], later := [] }

/-- Units as cold reset leaves them. -/
def Units.cold : Units :=
  { buf := [], bufFmt := [], bufRead := [], bufReady := [], bank := [], bankHas := [], bankFree := [], bankLoaded := [],
    engDone := [], side := [], sideTag := [], rowUse := [], fillUse := [], param := [], grad := [], portFree := [],
    portStarts := [], rowFree := [], topkFree := [], engMap := [], flags := [] }

/-- Stall, step and boundary registers at reset (Table 6.7). -/
def Counters.cold : Counters :=
  { stallAc := [], holdAc := [], holdCount := [], lastNumber := 0, lastAc := 0, lastExcess := 0, lastAbandoned := false,
    lastFreq := 0, lastChanged := false, lastCancelled := false, lastStall := [], wpHold := [], boundaries := 0,
    idleBoundaries := 0, idleTicks := 0, boundaryAc := 0, freqTicks := [], onchip := [] }

/-- Memory tiers as a cold start leaves them, LPDDR5X included (its power-on contents: log entry 4). -/
def Tiers.cold : Tiers :=
  { mem := [], lineTag := [], linePoison := [], objects := [], corrected := [], reread := [], dropped := [],
    repaired := [], tagMiss := [], bgSlots := [], scrub := [], scrubNext := [], lastErr := [], corrQueue := [],
    sramCorrected := [], sramLast := [], sramHold := [], sramPend := [], spares := [], bgShare := 2, bgInForce := 2,
    repairFrom := [], lastPoisoned := 0, repairs := [], failedWords := [], refailed := [], hardRepair := [], flash := [], layers := [],
    media := [] }

/-- The translation layers of a blank module while they format (R232). -/
def formattingLayers : Tab FlashLayer := (List.range 4).map (fun d => (d, { FlashLayer.cold with formatting := true }))

/-- Unlia as reset leaves it; NODE_ID comes from the tray. -/
def Unlia.cold : Unlia :=
  { ports := [], nodeId := 0, nodeValid := false, routes := [], positions := [], groups := [], posDigest := 0,
    posSets := [], colls := [], early := [], collErrors := [], lossLast := 0, lossCount := 0, lossSeen := [] }

/-- Concealment registers at reset (Table 12.10). -/
def Conceal.cold : Conceal :=
  { stepDigest := 0, armed := false, window := 8, mismatch := false, waiting := false, matched := 0, mismatchStep := 0,
    mismatchOwn := 0, mismatchTwin := 0, healthCorrected := 0, healthClock := false, healthSupply := false,
    healthRepair := false, ownReports := [], twinReports := [], ckpt := none, ckptFirst := false, ckptDue := false,
    optCount := 0, onces := [], jobs := [], lastTarget := false, buddyOk := false, commits := 0, ckptStep := 0, ckptTaken := false,
    ckptPrevDone := false, logCurrent := false, logCount := 0, logBuffer := [], logTick := 0,
    until_ := 0, diverged := false, divField := 0, divStep := 0, localLog := 0xFFFF, restores := [],
    snapshots := [], buddyOpen := [], buddySent := false }

/-- Host interface at its Cold values (Tables 13.4, 13.8, 13.13). -/
def HostIf.cold : HostIf :=
  { queues := [], marks := [], holder := none, epoch := 1, lease := 0x3E8, leaseStart := 0, rejected := 0,
    rejOffset := 0, rejPort := .A, heldFirst := .A, ports := [], ops := [], nextOp := 0 }

/-- Reset and clock state after a cold start from input power (Table 14.10). -/
def Resets.cold : Resets :=
  { mgood := true, causes := 1, warmCount := 0, bootCount := 1, failedStarts := 0, recovery := false,
    glarenReady := true, failStep := 0, ddrRetrained := true, flashFormatted := true, mgoodTime := 2692, blocks := [],
    clocks := [], warmAt := none, warmCauses := 0, warmN := true, warmHeld := false, starting := false,
    startTest := none, startGc := 0, retry := false, powered := true, shutdown := false, startOk := false, firstStart := true, startKind := 0, selfResets := [], heldRecords := [],
    droppedRecords := 0 }

/-- No update in progress. -/
def Update.cold : Update :=
  { state := 0, nextAction := 0, reason := 0, chainPos := 0, image := [], imageLength := 0, chainLength := 0,
    chain := [], manifest := [], slotA := [], running := [], incoming := false, restarted := [], results := [],
    token := none, tokenRest := [], tokenAt := none, forwardTo := none, tokenTimeout := 0, tokenSince := 0,
    visitSince := 0, forwardSince := 0, slotB := false, measured := [], measuredSlot := [], measuredIn := [] }

/-- The START record (0x0001) of the module's first start, SEQUENCE 4,096 (R434, R452). -/
def Score.firstStart : Score :=
  { seq := 4096, boot := 1, gcTick := 0, tick := 0, source := 0, outcome := 0, code := 1, step := 0,
    data := List.replicate 16 0 }

/-- Glaren at its Cold values (Table 15.9); SB_NEXT of a blank module follows the 4,096 birth records (R452). -/
def Glaren.cold : Glaren :=
  { temps := [], rails := [], inlet := Sensor.cold, outlet := Sensor.cold, stepAvg := 0, peak1ms := 0, lastMj := 0,
    flashAlert := false, holdupLow := false, powerLimit := 0x708, maxFreq := 0, freq := 0, standby := 0,
    standbyStable := false, thermalCap := 0, peakCap := none, peakBoundaries := 0, overshoots := 0, table := [],
    govKeys := [], sb := [(4096, Score.firstStart)], sbNext := 4097, crcErrors := 0, sbBlock := 0, gcTick := 0, update := Update.cold,
    unlocked := 0, challenge := none, measure7 := List.replicate 64 0, debugBlock := 0, debugArm := false, pips := [],
    reports := [], failedList := [], clearPending := [], linkCr1 := [], linkEncrypt := [], coeffs := [],
    ddrSaved := [], securityMin := [], settingsSeq := 0, lastSummary := 0, summary := [],
    powerSamples := [], coolSince := 0, peakTick := 0, trayCoords := none, bankFormat := none,
    otherFormat := none, migrating := false }

/-- The module right after its first cold start from input power: every register at its Cold column, memory with nothing
listed, no command waiting (log entries 3 to 5). -/
def State.reset : State :=
  { pending := [], tick := 0, dealer := Dealer.cold, units := Units.cold, counters := Counters.cold,
    tiers := { Tiers.cold with layers := formattingLayers }, unlia := Unlia.cold, conceal := Conceal.cold, host := HostIf.cold,
    resets := { Resets.cold with firstStart := false }, glaren := Glaren.cold, out := [], framed := 0, free := 0 }

end Sys2Proof.Machine
end

