-- ==== Sys2Proof/Machine/Ops.lean ====
section
/-! DEFINITION. The named operations that the meanings share: sparse tables, memory, marks, completions, events, the
scorebook, register rejection, and raising a fault of a step. -/

namespace Sys2Proof.Machine

/-- What a meaning answers. -/
abbrev Out := Host.Outcome State Fault Refusal

/-! ### Sparse tables -/

/-- The entry at index `k`; `d` gives what an unlisted index holds. -/
def Tab.get {α : Type} (d : Nat → α) : Tab α → Nat → α
  | [], k => d k
  | (j, v) :: t, k => if j = k then v else Tab.get d t k

/-- Insert or replace the entry at `k`, keeping the list in ascending index. -/
def Tab.put {α : Type} (k : Nat) (v : α) : Tab α → Tab α
  | [] => [(k, v)]
  | (j, w) :: t => if k < j then (k, v) :: (j, w) :: t else if k = j then (k, v) :: t else (j, w) :: Tab.put k v t

/-- Remove the entry at `k`. -/
def Tab.drop {α : Type} (k : Nat) (t : Tab α) : Tab α := t.filter (fun e => decide (e.1 ≠ k))

/-- Write `v` at `k`: an entry equal to what the index holds unlisted is not listed. -/
def Tab.set {α : Type} [DecidableEq α] (d : Nat → α) (t : Tab α) (k : Nat) (v : α) : Tab α :=
  if v = d k then Tab.drop k t else Tab.put k v t

/-- Update the entry at `k`. -/
def Tab.mod {α : Type} [DecidableEq α] (d : Nat → α) (t : Tab α) (k : Nat) (f : α → α) : Tab α :=
  Tab.set d t k (f (Tab.get d t k))

/-- The canonical form: indices strictly rising, no entry equal to what its index holds unlisted. -/
def Tab.wf {α : Type} [DecidableEq α] (d : Nat → α) : Tab α → Bool
  | [] => true
  | (j, v) :: t => decide (v ≠ d j) && t.all (fun e => decide (j < e.1)) && Tab.wf d t

/-- A counter table holds 0 where nothing is listed. -/
def zero64 : Nat → W64 := fun _ => 0
/-- Add `n` to the 64-bit counter at `k`. -/
def bump (t : Tab W64) (k : Nat) (n : Nat) : Tab W64 := Tab.mod zero64 t k (· + BitVec.ofNat 64 n)
/-- The number at `k` of a table of numbers that start at 0. -/
def natAt (t : Tab Nat) (k : Nat) : Nat := Tab.get (fun _ => 0) t k
/-- Write a number table. -/
def natSet (t : Tab Nat) (k v : Nat) : Tab Nat := Tab.set (fun _ => 0) t k v
/-- Add 1, stopping at the largest value of the width ("saturating"). -/
def satInc {w : Nat} (x : BitVec w) : BitVec w := if x = BitVec.allOnes w then x else x + 1

/-! ### Firmware -/

/-- The component c that runs (0 G, 1 D, 2 M, 3 L, 4 F). -/
def running (s : State) (c : Nat) : ManifestEntry := Tab.get Config.factory s.glaren.update.running c

/-- The numerics epoch: that of the running firmware D (R73). -/
def epochOf (s : State) : W32 := (running s 1).epoch

/-! ### Bits and bytes (R13: little-endian) -/

/-- The `n` low bytes of `v`, least significant first. -/
def leBytes : Nat → Nat → List Byte
  | 0, _ => []
  | n + 1, v => BitVec.ofNat 8 v :: leBytes n (v / 256)

/-- The number that little-endian bytes spell. -/
def ofLe : List Byte → Nat
  | [] => 0
  | b :: t => b.toNat + 256 * ofLe t

/-- Bits [lo + n - 1 : lo] of a number. -/
def bitsOf (v lo n : Nat) : Nat := (v / 2 ^ lo) % 2 ^ n

/-- A Boolean as a number. -/
def flag (b : Bool) : Nat := if b then 1 else 0

/-- The field of `n` bytes at offset `o` of a structure. -/
def fieldAt (bs : List Byte) (o n : Nat) : Nat := ofLe ((bs.drop o).take n)

/-- Round up to a multiple of `m`. -/
def alignUp (m v : Nat) : Nat := (v + m - 1) / m * m

/-! ### The module address map (R206, R207) and memory -/

/-- Size of the bonded SRAM range. -/
def sramEnd : Nat := 0x400000000
/-- The LPDDR5X direct view. -/
def directBase : Nat := 0x10000000000
def directEnd : Nat := 0x28000000000
/-- The LPDDR5X die-interleaved view. -/
def interBase : Nat := 0x40000000000
def interEnd : Nat := 0x58000000000

/-- The physical address of a module address: SRAM as it is, LPDDR5X by its direct view; none in a reserved range
(R207). -/
def physOf (a : Nat) : Option Nat :=
  if a < sramEnd then some a
  else if directBase ≤ a ∧ a < directEnd then some a
  else if interBase ≤ a ∧ a < interEnd then
    let o := a - interBase
    let d := o / 0x6000000000
    let w := o % 0x6000000000
    let l := w / 256
    some (directBase + (3 * d + l % 3) * 0x2000000000 + 256 * (l / 3) + w % 256)
  else none

/-- Whether the `n` bytes from `a` lie in one range of Table 7.2. -/
def inMap (a n : Nat) : Bool :=
  decide (a + n ≤ sramEnd) || (decide (directBase ≤ a) && decide (a + n ≤ directEnd)) ||
    (decide (interBase ≤ a) && decide (a + n ≤ interEnd))

/-- What an unlisted byte reads as: +0, the reset contents of bonded SRAM (R211); LPDDR5X: log entry 4. -/
def emptyByte : Nat → Byte := fun _ => 0

/-- The canonical form of the memory. -/
def Memory.wf (m : Tab Byte) : Bool := Tab.wf emptyByte m

/-- One byte of memory at a module address; a reserved address reads 0. -/
def readByte (m : Tab Byte) (a : Nat) : Byte :=
  match physOf a with
  | some p => Tab.get emptyByte m p
  | none => 0

/-- Write one byte at a module address. -/
def writeByte (m : Tab Byte) (a : Nat) (v : Byte) : Tab Byte :=
  match physOf a with
  | some p => Tab.set emptyByte m p v
  | none => m

/-- `n` bytes from a module address. -/
def readBytes (m : Tab Byte) (a : Nat) : Nat → List Byte
  | 0 => []
  | n + 1 => readByte m a :: readBytes m (a + 1) n

/-- Store bytes from a module address on. -/
def writeBytes (m : Tab Byte) (a : Nat) : List Byte → Tab Byte
  | [] => m
  | b :: t => writeBytes (writeByte m a b) (a + 1) t

/-- A 32-bit word of memory. -/
def readWord (m : Tab Byte) (a : Nat) : W32 := BitVec.ofNat 32 (ofLe (readBytes m a 4))
/-- Store a 32-bit word. -/
def writeWord (m : Tab Byte) (a : Nat) (v : W32) : Tab Byte := writeBytes m a (leBytes 4 v.toNat)
/-- Read `n` consecutive 32-bit words. -/
def readWords (m : Tab Byte) (a : Nat) : Nat → List W32
  | 0 => []
  | n + 1 => readWord m a :: readWords m (a + 4) n

/-- Free bytes: the values that the manual leaves undefined, `n` of them from counter `c`. -/
def freeBytes (c n : Nat) : List Byte := (List.range n).map (fun i => Config.freeByte (c + i))

/-- Bytes that reach bonded SRAM through the fill ports, or LPDDR5X, in the running step's current ac: the step's own writes that land in
that ac or later remain (R209). The write has landed, so an abort keeps it (R164; log entry 76). -/
def fillWrite (a : Nat) (bs : List Byte) (s : State) : State :=
  match s.dealer.run with
  | some r =>
    if sramEnd ≤ a then { s with tiers := { s.tiers with mem := writeBytes s.tiers.mem a bs } }
    else
      let own := r.writes.filter (fun x => !x.fill && decide (r.nowAc ≤ x.ac))
      let w : SramWrite :=
        { fill := true, ac := r.nowAc, cluster := none, src := 0, addr := a, bytes := bs, old := readBytes s.tiers.mem a bs.length }
      { s with
        tiers := { s.tiers with mem := own.foldl (fun m x => writeBytes m x.addr x.bytes) (writeBytes s.tiers.mem a bs) },
        dealer := { s.dealer with run := some { r with writes := r.writes ++ [w] } } }
  | none => { s with tiers := { s.tiers with mem := writeBytes s.tiers.mem a bs } }

/-- Leave `n` bytes from `a` undefined: each takes a fresh free value. -/
def undefineBytes (a n : Nat) (s : State) : State :=
  { fillWrite a (freeBytes s.free n) s with free := s.free + n }

/-! ### Emission, events, the scorebook -/

def Port.idx : Port → Nat
  | .A => 0
  | .B => 1

def Port.other : Port → Port
  | .A => .B
  | .B => .A

/-- The per-port copy of a port. -/
def portSt (s : State) (p : Port) : PortSt := Tab.get (fun _ => PortSt.cold) s.host.ports (Port.idx p)

/-- Send something out of the module; an interrupt to a port whose link is down is discarded (R412). -/
def emit (e : Emit) (s : State) : State :=
  match e with
  | .msix f v => if (portSt s f.port).linkUp then { s with out := s.out ++ [.msix f v] } else s
  | e => { s with out := s.out ++ [e] }

/-- Update the per-port copy of a port. -/
def setPort (p : Port) (f : PortSt → PortSt) (s : State) : State :=
  { s with host := { s.host with ports := Tab.mod (fun _ => PortSt.cold) s.host.ports (Port.idx p) f } }

/-- Set event bit `n` in one port's EVENT_STATUS; a bit that goes from 0 to 1 unmasked sends vector 0 (R409). -/
def raiseEventAt (p : Port) (n : Nat) (s : State) : State :=
  let st := portSt s p
  let b : BitVec 12 := BitVec.ofNat 12 (2 ^ n)
  let s1 := setPort p (fun x => { x with events := x.events ||| b }) s
  if st.events &&& b = 0 ∧ st.mask &&& b = 0 then emit (.msix { port := p, num := 0 } 0) s1 else s1

/-- Raise an event to both hosts (R409). -/
def raiseEvent (n : Nat) (s : State) : State := raiseEventAt .B n (raiseEventAt .A n s)

namespace Event
def moveChanged : Nat := 0
def queueError : Nat := 1
def clusterExhausted : Nat := 2
def sramExhausted : Nat := 3
def bindingFault : Nat := 4
def objectPoisoned : Nat := 5
def peerLost : Nat := 6
def twinMismatch : Nat := 7
def replayDiverged : Nat := 8
def halfFenced : Nat := 9
def flashAlert : Nat := 10
def otherPortDown : Nat := 11
end Event

/-- The index at which the record of SEQUENCE `n` lies (R452). -/
def scoreIndex (n : Nat) : Nat := if n < 4096 then n else 4096 + (n - 4096) % 258048

/-- A place of the ring that no record has been written to. -/
def Score.blank : Score :=
  { seq := 0, boot := 0, gcTick := 0, tick := 0, source := 0, outcome := 0, code := 0, step := 0, data := [] }

/-- Commit one record at the next SEQUENCE (R452, R455). -/
def commitScore (r : Score) (s : State) : State :=
  let r' := { r with seq := s.glaren.sbNext }
  { s with glaren := { s.glaren with
      sb := Tab.set (fun _ => Score.blank) s.glaren.sb (scoreIndex s.glaren.sbNext.toNat) r',
      sbNext := s.glaren.sbNext + 1 } }

/-- A record of the present moment (Table 15.5). -/
def mkScore (s : State) (source outcome code : Nat) (step : W64) (data : List Byte) : Score :=
  { seq := 0, boot := s.resets.bootCount, gcTick := s.glaren.gcTick, tick := s.tick, source := BitVec.ofNat 8 source,
    outcome := BitVec.ofNat 8 outcome, code := BitVec.ofNat 16 code, step := step,
    data := (data ++ List.replicate 16 0).take 16 }

/-- DATA of a STATE record: the holder, EPOCH and the failed-start count (R454). -/
def stateData (s : State) : List Byte :=
  (match s.host.holder with | none => 0 | some .A => 1 | some .B => 2) ::
    (leBytes 4 s.host.epoch.toNat ++ [BitVec.ofNat 8 s.resets.failedStarts])

/-- Write a scorebook record. A STATE record is written every 65,536 records (R454). While Glaren is in self-reset the
record is held, up to 256 of them; later ones are dropped and counted (R431). -/
def score (source outcome code : Nat) (step : W64) (data : List Byte) (s : State) : State :=
  let r := mkScore s source outcome code step data
  if s.resets.glarenReady then
    let s1 := if s.glaren.sbNext.toNat % 65536 = 0 then commitScore (mkScore s 0 0 0x0008 0 (stateData s)) s else s
    commitScore r s1
  else if s.resets.heldRecords.length < 256 then
    { s with resets := { s.resets with heldRecords := s.resets.heldRecords ++ [r] } }
  else { s with resets := { s.resets with droppedRecords := s.resets.droppedRecords + 1 } }

/-- SOURCE of a record of the lead dealer: die 0 or die 3 (Tables 1.2 and 15.5). -/
def leadSource (s : State) : Nat := if s.dealer.lead = .west then 1 else 4

/-! The model's numbers for the kinds of message on MGMT and BULK, which the manual names and does not number (log entry
12). -/

namespace Msg
def hello : Nat := 1
def query : Nat := 2
def queryReply : Nat := 3
def probe : Nat := 4
def probeReply : Nat := 5
def loss : Nat := 6
def digestReport : Nat := 7
def encapsulationKey : Nat := 8
def ciphertext : Nat := 9
def keySwitch : Nat := 10
def updateImage : Nat := 12
def updateResult : Nat := 13
def applyToken : Nat := 14
def buddyData : Nat := 20
def buddyLog : Nat := 21
def buddyCommit : Nat := 22
def restoreRead : Nat := 23
def restoreData : Nat := 24
def refused : Nat := 25
def repairRequest : Nat := 26
def repairLine : Nat := 27
def snapshotData : Nat := 28
def snapshotAck : Nat := 29
end Msg

/-! ### Marks, queues and completions -/

def queue (s : State) (q : Nat) : Queue := Tab.get Queue.cold s.host.queues q
def setQueue (q : Nat) (f : Queue → Queue) (s : State) : State :=
  { s with host := { s.host with queues := Tab.mod Queue.cold s.host.queues q f } }
def mark (s : State) (m : Nat) : Mark := Tab.get Mark.cold s.host.marks m
def setMark (m : Nat) (f : Mark → Mark) (s : State) : State :=
  { s with host := { s.host with marks := Tab.mod Mark.cold s.host.marks m f } }

/-- MARK_NOTIFY: an armed mark at or above its threshold sends one message and disarms (Table 13.8). -/
def markNotify (m : Nat) (s : State) : State :=
  let k := mark s m
  if k.armed ∧ k.notifyAt ≤ k.value then
    emit (.msix k.owner k.vector.toNat) (setMark m (fun x => { x with armed := false }) s)
  else s

/-- A mark's value after an addition: it stays at 2^64 - 1 rather than pass it (R401). -/
def markSum (v : W64) (n : Nat) : W64 := if v.toNat + n < 2 ^ 64 then v + BitVec.ofNat 64 n else BitVec.allOnes 64

/-- Add to a mark (R401) and notify. -/
def addMark (m n : Nat) (s : State) : State :=
  markNotify m (setMark m (fun x => { x with value := markSum x.value n }) s)

namespace Status
def ok : Byte := 0x00
def badOpcode : Byte := 0x01
def notMove : Byte := 0x02
def notOwner : Byte := 0x03
def addrRange : Byte := 0x04
def objectFormat : Byte := 0x05
def entryFormat : Byte := 0x06
def fenced : Byte := 0x07
def reset : Byte := 0x08
def abandoned : Byte := 0x09
def objectPoisoned : Byte := 0x0A
def notIdle : Byte := 0x0B
def wrongQueue : Byte := 0x0C
def flushed : Byte := 0x0D
def hostAbort : Byte := 0x0E
def bookAbsent : Byte := 0x10
def noLiveSlot : Byte := 0x11
def bookBusy : Byte := 0x12
def bookFormat : Byte := 0x13
def bookDigest : Byte := 0x14
def epochMismatch : Byte := 0x15
def bookTooLarge : Byte := 0x16
def bindingFault : Byte := 0x17
def overlap : Byte := 0x20
def pinned : Byte := 0x21
def busy : Byte := 0x22
def poisonState : Byte := 0x23
def sramEcc : Byte := 0x24
def flashUncorrectable : Byte := 0x25
def flashWorn : Byte := 0x26
def slotLive : Byte := 0x30
def versionOrder : Byte := 0x31
def adoptRefused : Byte := 0x32
def mapFormat : Byte := 0x33
def castleFlagged : Byte := 0x34
def castleChunk : Byte := 0x35
def castleSourceLost : Byte := 0x36
def cancelled : Byte := 0x40
def lateCancel : Byte := 0x41
def noMatch : Byte := 0x42
def entryState : Byte := 0x43
def pageRange : Byte := 0x44
def entryClass : Byte := 0x45
def entryBusy : Byte := 0x46
def requestFormat : Byte := 0x47
def ringFull : Byte := 0x48
def collFormat : Byte := 0x50
def groupAbsent : Byte := 0x51
def seqOrder : Byte := 0x52
def collMismatch : Byte := 0x53
def collStall : Byte := 0x54
def collLost : Byte := 0x55
def groupBusy : Byte := 0x56
def ckptFormat : Byte := 0x60
def ckptDigest : Byte := 0x61
def ckptStep : Byte := 0x62
end Status

/-- Where entry `i` of a ring of the host lies (R394). -/
def ringAddr (base : W64) (size : Nat) (n : BitVec 17) (i : W32) : W64 := base + BitVec.ofNat 64 (size * (i.toNat % n.toNat))

/-- PHASE of a completion record: 1 on the first pass through the ring after ENABLE, then alternating (Table 13.6). -/
def passBit (k : Queue) : Nat :=
  let n := k.cqSize.toNat
  if n = 0 then 1 else (k.cqTail.toNat / n + k.passBase.toNat / n + 1) % 2

/-- End a taken command: its record enters the completion ring, its place is given back, and its mark advances when it
succeeded with DONE set (R397). CANCEL succeeds with CANCELLED or LATE_CANCEL (Table 9.2). A queue in error, or without a
ring since its port's reset, discards the record (R399, R412). -/
def complete (t : Ticket) (status : Byte) (result : W64) (nonfinite : Bool) (s : State) : State :=
  let k := queue s t.q
  let good := status = Status.ok ∨ status = Status.cancelled ∨ status = Status.lateCancel
  let marked : Bool := t.hdr.done && decide good
  let flags := passBit k + 2 * flag marked + 4 * flag nonfinite
  let s1 := setQueue t.q (fun x => { x with inFlight := x.inFlight - 1 }) s
  let s2 := if k.error ∨ k.cqSize = 0 then s1 else
    let s2 := emit (.completion t.q t.hdr.tag (BitVec.ofNat 16 t.index.toNat) status (BitVec.ofNat 8 flags) result
        (ringAddr k.cqBase 16 k.cqSize k.cqTail))
      (setQueue t.q (fun x => { x with cqTail := x.cqTail + 1 }) s1)
    if t.hdr.irq ∧ k.vector.getLsbD 6 then emit (.msix k.owner (k.vector.toNat % 64)) s2 else s2
  if marked then addMark t.hdr.doneMark.toNat 1 s2 else s2

/-- Completion with a plain result of 0. -/
def finish (t : Ticket) (status : Byte) (s : State) : State := complete t status 0 false s

/-- Completion of an optional command. -/
def finishOpt (t : Option Ticket) (status : Byte) (s : State) : State :=
  match t with
  | some t => finish t status s
  | none => s

/-! ### Register writes -/

/-- Discard a register write and count it (R495). -/
def reject (f : Fn) (offset : Nat) (s : State) : State :=
  { s with host := { s.host with rejected := s.host.rejected + 1, rejOffset := BitVec.ofNat 26 offset, rejPort := f.port } }

/-- The holder of the move, as a function (R408). -/
def isHolder (s : State) (f : Fn) : Bool := decide (f.num = 0) && decide (s.host.holder = some f.port)

/-- A write of a module-wide control: applied only for the holder (R39, R408). In recovery mode the register is not
served (R437). -/
def control (f : Fn) (offset : Nat) (apply : State → State) (s : State) : State :=
  if s.resets.recovery then s
  else if f.num ≠ 0 then s
  else if isHolder s f then apply s else reject f offset s

/-- Run a meaning when the unit index exists; no unit, no event (DESIGN CHOICE, log entry 2). -/
def withUnit (i n : Nat) (s : State) (k : State → State) : Out := .next (if i < n then k s else s)

/-! ### Objects -/

def obj (s : State) (o : Nat) : Obj := Tab.get (fun _ => Obj.none) s.tiers.objects o
def setObj (o : Nat) (f : Obj → Obj) (s : State) : State :=
  { s with tiers := { s.tiers with objects := Tab.mod (fun _ => Obj.none) s.tiers.objects o f } }

def Obj.roShared (o : Obj) : Bool := o.attr.getLsbD 0
def Obj.pinnedAttr (o : Obj) : Bool := o.attr.getLsbD 1
def Obj.versioned (o : Obj) : Bool := o.attr.getLsbD 2
def Obj.training (o : Obj) : Bool := o.attr.getLsbD 3
def Obj.kv (o : Obj) : Bool := o.attr.getLsbD 4
def Obj.scratch (o : Obj) : Bool := o.attr.getLsbD 5
/-- Valid in tier 0 or 1. -/
def Obj.inMem (o : Obj) : Bool := o.valid && decide (o.tier.toNat ≤ 1)
/-- Valid in tier 2. -/
def Obj.inFlash (o : Obj) : Bool := o.valid && decide (o.tier = 2)
def Obj.base (o : Obj) : Nat := o.address.toNat % 2 ^ 48
def Obj.len (o : Obj) : Nat := o.size.toNat

/-- The flash object of a handle. -/
def flashOf (s : State) (h : W32) : Option FlashObj := s.tiers.flash.find? (fun x => decide (x.handle = h))
/-- The flash object that a tier-2 placement entry names. -/
def flashObj (s : State) (o : Obj) : Option FlashObj := flashOf s (BitVec.ofNat 32 o.address.toNat)
/-- Replace a flash object's data. -/
def setFlash (h : W32) (f : List Byte → List Byte) (s : State) : State :=
  { s with tiers := { s.tiers with
      flash := s.tiers.flash.map (fun x => if x.handle = h then { x with data := f x.data } else x) } }

/-- The bytes of a valid object: memory for tiers 0 and 1, durable data for tier 2. -/
def objBytes (s : State) (o : Obj) (off n : Nat) : List Byte :=
  if o.tier = 2 then
    match flashObj s o with
    | some x => (x.data.drop off).take n
    | none => []
  else readBytes s.tiers.mem (o.base + off) n

/-- The physical memory of a module range as spans (unit, first, past last): unit 0 to 11 a port with its lines, whichever
view names it (R207); unit 12 bonded SRAM with its bytes. -/
def physSpans (a n : Nat) : List (Nat × Nat × Nat) :=
  if n = 0 then []
  else if a < sramEnd then [(12, a, a + n)]
  else if a < interBase then
    (List.range 12).filterMap (fun m =>
      let base := directBase + m * 0x2000000000
      let lo := max a base
      let hi := min (a + n) (base + 0x2000000000)
      if lo < hi then some (m, (lo - base) / 256, (hi - base + 255) / 256) else none)
  else
    (List.range 12).filterMap (fun m =>
      let base := interBase + m / 3 * 0x6000000000
      let lo := max a base
      let hi := min (a + n) (base + 0x6000000000)
      let l1 := (lo - base) / 256
      let l2 := (hi - base + 255) / 256
      let p1 := (l1 + 2 - m % 3) / 3
      let p2 := (l2 + 2 - m % 3) / 3
      if lo < hi ∧ p1 < p2 then some (m, p1, p2) else none)

/-- Whether two module ranges share a byte of physical memory. -/
def physOverlap (a n b m : Nat) : Bool :=
  (physSpans a n).any (fun x => (physSpans b m).any (fun y =>
    decide (x.1 = y.1) && decide (x.2.1 < y.2.2) && decide (y.2.1 < x.2.2)))

/-- The valid objects of tiers 0 and 1 that share memory with a module range. -/
def objectsIn (s : State) (a n : Nat) : List (Nat × Obj) :=
  s.tiers.objects.filter (fun e => e.2.inMem && physOverlap e.2.base e.2.len a n)

/-- The valid objects that hold the byte at a module address. -/
def objectsAt (s : State) (p : Nat) : List (Nat × Obj) := objectsIn s p 1

/-- The LINE_TAG expected of a physical line: its object's, or 0 (R215). -/
def expectedTag (s : State) (line : Nat) : Byte :=
  match objectsAt s (line * 256) with
  | e :: _ => e.2.lineTag
  | [] => 0

/-- F(L), the part of a stored tag that depends on the port line (R215). -/
def lineHash (l : Nat) : BitVec 7 :=
  BitVec.ofNat 7 l ^^^ BitVec.ofNat 7 (l / 128) ^^^ BitVec.ofNat 7 (l / 16384) ^^^ BitVec.ofNat 7 (l / 2097152) ^^^
    BitVec.ofNat 7 (l / 268435456 % 2)

/-- Store bytes as module engines and hosts do: data, and in tier 1 the line tag of the containing object, and POISON
cleared by the clean write (R215, R216). Tier 0 has neither tag nor poison. -/
def storeLines (a : Nat) (bs : List Byte) (s : State) : State :=
  let lines := ((List.range ((bs.length + a % 256 + 255) / 256)).filterMap
    (fun i => physOf (a / 256 * 256 + 256 * i))).filter (fun p => decide (sramEnd ≤ p))
  let t := (fillWrite a bs s).tiers
  { fillWrite a bs s with tiers := lines.foldl (fun t p =>
      { t with lineTag := Tab.set (fun _ => 0) t.lineTag (p / 256) (expectedTag s (p / 256)),
               linePoison := Tab.set (fun _ => false) t.linePoison (p / 256) false }) t }

/-- Whether a physical line reads back uncorrectable: POISON set, or its stored tag is not the expected one. -/
def lineBad (s : State) (line : Nat) : Bool :=
  Tab.get (fun _ => false) s.tiers.linePoison line || decide (Tab.get (fun _ => 0) s.tiers.lineTag line ≠ expectedTag s line)

/-- Whether the running step has a stream request queued on a port. -/
def portStreams (s : State) (m : Nat) : Bool :=
  s.dealer.run.isSome && s.host.ops.any (fun e => match e.2 with
    | .stream x => !x.served && x.ports.contains m
    | _ => false)

/-- Count the slots that a background access to a module range takes, one a line (R217, MEM_BG_SLOTS). Where a stream is
queued on the port the slots are those that FRAME_EDGE gave and counted (log entry 21). -/
def bgTouch (a n : Nat) (s : State) : State :=
  { s with tiers := { s.tiers with bgSlots := (physSpans a n).foldl (fun t x =>
      if x.1 < 12 ∧ ¬portStreams s x.1 then bump t x.1 (x.2.2 - x.2.1) else t) s.tiers.bgSlots } }

/-- A background read of an object's bytes, in tier 1. -/
def bgObj (o : Obj) (off n : Nat) (s : State) : State := if o.inMem then bgTouch (o.base + off) n s else s

/-- Store bytes as background traffic. -/
def storeBg (a : Nat) (bs : List Byte) (s : State) : State := bgTouch a bs.length (storeLines a bs s)

/-! ### Requests, slots and references -/

def request (s : State) (e : Nat) : Request := Tab.get (fun _ => Request.cold) s.dealer.requests e
def setRequest (e : Nat) (f : Request → Request) (s : State) : State :=
  { s with dealer := { s.dealer with requests := Tab.mod (fun _ => Request.cold) s.dealer.requests e f } }
def slot (s : State) (i : Nat) : Slot := Tab.get (fun _ => Slot.cold) s.dealer.slots i
def setSlot (i : Nat) (f : Slot → Slot) (s : State) : State :=
  { s with dealer := { s.dealer with slots := Tab.mod (fun _ => Slot.cold) s.dealer.slots i f } }

/-- The live slot (R257). -/
def liveSlot (s : State) : Option Nat :=
  if (slot s 0).state = .live then some 0 else if (slot s 1).state = .live then some 1 else none

/-- LIVE_VERSION: the live slot's version, 0 with none. -/
def liveVersion (s : State) : W32 := match liveSlot s with | some i => (slot s i).version | none => 0

/-- Whether an object is a member of slot i; 0xFFFF names none (Table 8.7). -/
def isMember (s : State) (i o : Nat) : Bool :=
  decide (o ≠ 0xFFFF) && (decide ((slot s i).base.toNat = o) || decide ((slot s i).adapter.toNat = o))

/-- Occupied entries pinned to slot i (Table 8.7). -/
def pinnedTo (s : State) (i : Nat) : Nat :=
  (s.dealer.requests.filter (fun e => decide (e.2.state ≠ .free) && e.2.pinBound && decide (e.2.pinSlot = i))).length

/-- A slot state that counts a reference on its members (R244). -/
def SlotState.refs : SlotState → Bool
  | .building | .ready | .live | .mirror => true
  | _ => false

/-! ### Clusters, programs and the running step -/

/-- The engine map of a cluster as of the last launch: failed physical engines (R98, Table 3.10). -/
def engFailed (s : State) (k : Nat) : BitVec 9 := Tab.get (fun _ => 0) s.units.engMap k

/-- Number of failed engines in a mask. -/
def failCount (m : BitVec 9) : Nat := ((List.range 9).filter (fun i => m.getLsbD i)).length

/-- The physical engine that serves logical index j: E8 stands in for a failed one (R98). -/
def physEngine (s : State) (k j : Nat) : Nat := if (engFailed s k).getLsbD j then 8 else j

def prog (r : Run) (p : Nat) : Prog := Tab.get (fun _ => Prog.cold) r.progs p
def setProg (p : Nat) (f : Prog → Prog) (r : Run) : Run := { r with progs := Tab.mod (fun _ => Prog.cold) r.progs p f }
def setRun (f : Run → Run) (s : State) : State := { s with dealer := { s.dealer with run := s.dealer.run.map f } }

/-- Die of a program: 8d + c, or 32 + d. -/
def dieOf (p : Nat) : Nat := if p < 32 then p / 8 else p - 32

/-- Links between two dies: 0, 1 or 2 (R20). -/
def hops (a b : Nat) : Nat := if a = b then 0 else if a + b = 3 then 2 else 1

/-- Arrival of a SIGNAL after its issue (Table 5.13). -/
def signalDelay (a b : Nat) : Nat :=
  if a = b then 2 else match hops (dieOf a) (dieOf b) with | 0 => 8 | 1 => 48 | _ => 88

/-- Arrival of a completion from a unit of die `d` at program `p` (R159, R182). -/
def completionDelay (d p : Nat) : Nat := match hops d (dieOf p) with | 0 => 8 | 1 => 48 | _ => 88

/-- A governor step in MHz (Table 6.2). -/
def freqMHz (f : Nat) : Nat := if f = 0 then 2500 else if f = 1 then 2250 else if f = 2 then 2000 else 1500

/-- The shortest and the longest crossing into the AC domain, in ps (Table 6.3). -/
def Crossing.times : Crossing → Nat × Nat
  | .none => (0, 0)
  | .mc => (1550, 1950)
  | .fc => (3020, 3420)
  | .lc => (1400, 1800)
  | .pc => (1800, 2200)

/-- The whole AC cycles of a time at a governor step: ⌈time ÷ period⌉. -/
def acOfPs (f ps : Nat) : Nat := (ps * freqMHz f + 999999) / 1000000

/-- Whether a crossing at a governor step can take `n` ac (R186, Table 6.3). -/
def Crossing.takes (c : Crossing) (f n : Nat) : Bool := decide (acOfPs f c.times.1 ≤ n) && decide (n ≤ acOfPs f c.times.2)

/-- The programs that CMASK and DMASK name (Table 5.12). -/
def maskProgs (cmask : W32) (dmask : BitVec 4) : List Nat :=
  (List.range 32).filter (fun i => cmask.getLsbD i) ++ ((List.range 4).filter (fun i => dmask.getLsbD i)).map (32 + ·)

/-- Sum of a lag vector (R198). -/
def lagSum (l : Tab Nat) : Nat := (l.map (fun e => e.2)).foldl (· + ·) 0

/-- Reduce a lag vector by `n`, taking from the counts in descending cause code (R198). -/
def lagReduce (l : Tab Nat) (n : Nat) : Tab Nat :=
  (l.reverse.foldl (fun (acc : Tab Nat × Nat) e =>
    let take := Nat.min acc.2 e.2
    (if e.2 - take = 0 then acc.1 else (e.1, e.2 - take) :: acc.1, acc.2 - take)) ([], n)).1

namespace FaultCode
def illegal : Nat := 0x01
def operandFormat : Nat := 0x02
def accEmpty : Nat := 0x03
def kRange : Nat := 0x04
def addrRange : Nat := 0x05
def align : Nat := 0x06
def vregRange : Nat := 0x07
def treeGroup : Nat := 0x08
def treeBusy : Nat := 0x09
def treePartner : Nat := 0x0A
def topkRange : Nat := 0x0B
def rowRange : Nat := 0x0C
def diffMode : Nat := 0x0D
def sideStale : Nat := 0x0E
def sideEcc : Nat := 0x0F
def engineEcc : Nat := 0x10
def storeEcc : Nat := 0x11
def wpKind : Nat := 0x12
def waitError : Nat := 0x13
def waitTimeout : Nat := 0x14
def loopRange : Nat := 0x15
def pcRange : Nat := 0x16
def deadlock : Nat := 0x17
end FaultCode

/-- Set the abort of the running step 80 ac after an ac, unless an earlier one is set (R164). -/
def abortAt (ac : Nat) (r : Run) : Run :=
  { r with abortAc := some (match r.abortAc with | some a => min a (ac + 80) | none => ac + 80) }

/-- Whether a fault at an ac in program `p` takes the place of the recorded one at ac `a`: it is earlier, or in the same ac and in a
program of lower index (R165). -/
def faultBefore (rec_ : FaultRec) (a ac p : Nat) : Bool := decide (ac < a) || (decide (ac = a) && decide (p < rec_.prog.toNat))

/-- Raise a fault in program `p` at an ac before the abort: the abort is 80 ac after the step's first fault, and the first since VALID was
last cleared is recorded (R164, R165, R180). Nothing that an abort has stopped faults. -/
def raiseFault (code p ac pc : Nat) (s : State) : State :=
  match s.dealer.run with
  | none => s
  | some r =>
    if (match r.abortAc with | some a => decide (a ≤ ac) | none => false) then s else
    let rec_ : FaultRec :=
      { valid := true, code := BitVec.ofNat 7 code, prog := BitVec.ofNat 6 p, pc := BitVec.ofNat 16 pc, step := r.step }
    let keeps : Bool := s.dealer.fault.valid && (match r.recorded with | some a => !faultBefore s.dealer.fault a ac p | none => true)
    { s with dealer := { s.dealer with
        fault := if keeps then s.dealer.fault else rec_,
        run := some { abortAt ac r with recorded := if keeps then r.recorded else some ac } } }

/-- Abandon the running step without a fault record, as an uncorrectable SRAM line does (R210) and a block reset (R426). -/
def abandonRun (s : State) : State := setRun (fun r => abortAt r.nowAc r) s

/-- The number of the running step, 0 with none. -/
def runStep (s : State) : W64 := match s.dealer.run with | some r => r.step | none => 0

/-- Mark an engine failed in Glaren's list, with its scorebook record of the running step (R361); it takes effect at the next launch
(R99, R100). -/
def failEngine (k e : Nat) (s : State) : State :=
  let m := Tab.get (fun _ => 0) s.glaren.failedList k
  if m.getLsbD e then s else
    score (1 + k / 8) 2 0x0020 (runStep s) [BitVec.ofNat 8 k, BitVec.ofNat 8 e]
      { s with glaren := { s.glaren with
          failedList := Tab.set (fun _ => 0) s.glaren.failedList k (m ||| BitVec.ofNat 9 (2 ^ e)),
          settingsSeq := s.glaren.settingsSeq + 1 } }

/-- Count a corrected error of an on-die array during a step (R87, R409, Table 12.10): `k` 0 engine, 1 stores. -/
def onchipCorrected (die k : Nat) (s : State) : State :=
  let old := (Tab.get zero64 s.counters.onchip die).toNat
  let new := if k = 0 then old / 2 ^ 32 * 2 ^ 32 + (old + 1) % 2 ^ 32
    else if bitsOf old 32 16 = 0xFFFF then old else old + 2 ^ 32
  { s with
    counters := { s.counters with onchip := Tab.set zero64 s.counters.onchip die (BitVec.ofNat 64 new) },
    conceal := { s.conceal with healthCorrected := satInc s.conceal.healthCorrected } }

/-- A double-bit error on an SRAM read: SRAM_LAST_ERROR, a scorebook record, and the line waits for the next boundary to
be mapped to a spare (R210 steps 2 and 3). -/
def sramDouble (line : Nat) (s : State) : State :=
  let d := line / 0x100000000
  let old := Tab.get (fun _ => (0, 0)) s.tiers.sramLast d
  score (1 + d) 2 0x0021 s.dealer.stepNumber (leBytes 8 line)
    { s with tiers := { s.tiers with
        sramLast := Tab.set (fun _ => (0, 0)) s.tiers.sramLast d
          (BitVec.ofNat 32 (line % 0x100000000 / 512 * 512), old.2 + 1),
        sramPend := if s.tiers.sramPend.contains (line / 512) then s.tiers.sramPend else s.tiers.sramPend ++ [line / 512] } }

/-- The line of a double-bit error that a read of some SRAM ranges (address, bytes) meets: one not yet mapped to a spare line, or a new
one (R210). -/
def sramTouched (s : State) (ecc : Ecc) (xs : List (Nat × Nat)) : Option Nat :=
  let new := match ecc with | .sramDouble a => [a / 512 * 512] | _ => []
  (s.tiers.sramPend.map (fun l => 512 * l) ++ new).find? (fun a => xs.any (fun x => decide (a < x.1 + x.2) && decide (x.1 < a + 512)))

/-- An object becomes POISONED: event, record, POISON_STATUS (R238). -/
def poisonObject (o line : Nat) (s : State) : State :=
  let s1 := setObj o (fun x => { x with poison := .poisoned }) s
  raiseEvent Event.objectPoisoned (score 5 2 0x0024 s.dealer.stepNumber (leBytes 2 o ++ leBytes 8 (line * 256))
    { s1 with tiers := { s1.tiers with lastPoisoned := BitVec.ofNat 16 o } })

/-! ### Positions, groups, and the module's own position -/

def position (s : State) (p : Nat) : Position := Tab.get (fun _ => Position.cold) s.unlia.positions p
def group (s : State) (g : Nat) : Group := Tab.get (fun _ => Group.cold) s.unlia.groups g
def setGroup (g : Nat) (f : Group → Group) (s : State) : State :=
  { s with unlia := { s.unlia with groups := Tab.mod (fun _ => Group.cold) s.unlia.groups g f } }

/-- The module's own position and copy: the entry, not UNUSED, whose NODE or TWIN_NODE is its node ID (R340). -/
def ownPosition (s : State) : Option (Nat × Nat) :=
  let n := s.unlia.nodeId.toNat
  (s.unlia.positions.find? (fun e => decide (e.2.state ≠ 0) && (decide (e.2.node.toNat = n) || decide (e.2.twin.toNat = n)))).map
    (fun e => (e.1, if e.2.node.toNat = n then 0 else 1))

/-- Membership of a position in a group's masks, RESERVE and UNUSED excluded (R345). -/
def memberOf (s : State) (g : Group) (p : Nat) : Bool :=
  g.rackMask.getLsbD (p / 64) && g.trayMask.getLsbD (p / 8 % 8) && g.moduleMask.getLsbD (p % 8) &&
    decide ((position s p).state ≠ 0) && !(position s p).reserve

/-- The member positions of a group in ascending order. -/
def membersOf (s : State) (g : Group) : List Nat :=
  (s.unlia.positions.map (fun e => e.1)).filter (fun p => memberOf s g p)

/-- The node to which copy c sends for position q (R340). -/
def holderNode (s : State) (c q : Nat) : Option (BitVec 15) :=
  let x := position s q
  let n := if c = 0 then x.node else x.twin
  if n = 0xFFFF ∨ x.state = 0 then none else some (BitVec.ofNat 15 n.toNat)

def uport (s : State) (u : Nat) : UPort := Tab.get (fun i => UPort.cold (Tab.get (fun _ => false) s.glaren.linkEncrypt i)) s.unlia.ports u
def setUPort (u : Nat) (f : UPort → UPort) (s : State) : State :=
  { s with unlia := { s.unlia with ports := Tab.mod (fun i => UPort.cold (Tab.get (fun _ => false) s.glaren.linkEncrypt i)) s.unlia.ports u f } }

def layer (s : State) (d : Nat) : FlashLayer := Tab.get (fun _ => FlashLayer.cold) s.tiers.layers d
def setLayer (d : Nat) (f : FlashLayer → FlashLayer) (s : State) : State :=
  { s with tiers := { s.tiers with layers := Tab.mod (fun _ => FlashLayer.cold) s.tiers.layers d f } }
def block (s : State) (b : Nat) : Block := Tab.get (fun _ => Block.cold) s.resets.blocks b
def setBlock (b : Nat) (f : Block → Block) (s : State) : State :=
  { s with resets := { s.resets with blocks := Tab.mod (fun _ => Block.cold) s.resets.blocks b f } }

/-- Whether a block's wrapper is closed: its reset is under way, or it is FENCED (R427, R429). -/
def blockShut (s : State) (b : Nat) : Bool := decide ((block s b).state ≠ .open_) && decide ((block s b).state ≠ .pending)

/-- Add an outstanding operation; its id is the counter's value. -/
def addOp (o : Op) (s : State) : State :=
  { s with host := { s.host with ops := Tab.put s.host.nextOp o s.host.ops, nextOp := s.host.nextOp + 1 } }
def setOp (id : Nat) (o : Op) (s : State) : State := { s with host := { s.host with ops := Tab.put id o s.host.ops } }
def opAt (s : State) (id : Nat) : Option Op := (s.host.ops.find? (fun e => decide (e.1 = id))).map (fun e => e.2)
/-- Replace an outstanding stream. -/
def setStream (id : Nat) (f : StreamOp → StreamOp) (s : State) : State :=
  match opAt s id with
  | some (.stream x) => setOp id (.stream (f x)) s
  | _ => s
def dropOp (id : Nat) (s : State) : State := { s with host := { s.host with ops := Tab.drop id s.host.ops } }

end Sys2Proof.Machine
end

