-- ==== Sys2Proof/Machine/Hash.lean ====
section
/-! DEFINITION. The codes and hashes that the manual names: CRC-64 (R362), CRC-32C (R493), SECDED (39,32) (R205) and
SHAKE256. -/

namespace Sys2Proof.Machine

/-! ### Cyclic codes -/

/-- One reflected byte step of a w-bit CRC with reflected polynomial `poly`. -/
def crcBits {w : Nat} (poly : BitVec w) : Nat → BitVec w → BitVec w
  | 0, r => r
  | n + 1, r => crcBits poly n (if r.getLsbD 0 then (r >>> 1) ^^^ poly else r >>> 1)

/-- Run a CRC over bytes in ascending order. -/
def crcRun {w : Nat} (poly : BitVec w) : BitVec w → List Byte → BitVec w
  | r, [] => r
  | r, b :: t => crcRun poly (crcBits poly 8 (r ^^^ b.zeroExtend w)) t

/-- CRC-64 (R362): polynomial 0x42F0E1EBA9EA3693, reflected. -/
def crc64 (bs : List Byte) : W64 := crcRun 0xC96C5795D7870F42 (BitVec.allOnes 64) bs ^^^ BitVec.allOnes 64

/-- CRC-32C (R493): polynomial 0x1EDC6F41, reflected. -/
def crc32c (bs : List Byte) : W32 := crcRun 0x82F63B78 (BitVec.allOnes 32) bs ^^^ BitVec.allOnes 32

/-! ### SECDED (39,32) (R205) -/

/-- The positions 3 to 38 that are no power of two: those of d0 to d31. -/
def dataPositions : List Nat :=
  [3, 5, 6, 7, 9, 10, 11, 12, 13, 14, 15, 17, 18, 19, 20, 21, 22, 23, 24, 25, 26, 27, 28, 29, 30, 31, 33, 34, 35, 36,
   37, 38]

/-- XOR of the positions of the set data bits: check bits c0 to c5. -/
def syndromeOf (w : W32) : Nat :=
  dataPositions.zipIdx.foldl (fun a e => if w.getLsbD e.2 then Nat.xor a e.1 else a) 0

/-- Parity of a number's low n bits. -/
def parityOf (v : Nat) : Nat → Bool
  | 0 => false
  | n + 1 => (decide (v / 2 ^ n % 2 = 1)) != parityOf v n

/-- The 7 check bits of a word: c0 to c5, and c6 the XOR of all 38 positions. -/
def checkBits (w : W32) : BitVec 7 :=
  let s := syndromeOf w
  BitVec.ofNat 7 (s + 64 * flag (parityOf w.toNat 32 != parityOf s 6))

/-- What a decoder makes of a word. -/
inductive EccResult where
  | clean (w : W32)
  | corrected (w : W32)
  | bad
  deriving DecidableEq, Repr

/-- The decoder of R205. -/
def eccDecode (w : W32) (c : BitVec 7) : EccResult :=
  let s := Nat.xor (syndromeOf w) (c.toNat % 64)
  let p := parityOf w.toNat 32 != parityOf c.toNat 7
  if s = 0 then (if p then .corrected w else .clean w)
  else if !p then .bad
  else if 38 < s then .bad
  else match dataPositions.findIdx? (fun x => decide (x = s)) with
    | some j => .corrected (w ^^^ BitVec.ofNat 32 (2 ^ j))
    | none => .corrected w

/-! ### SHAKE256 -/

/-- Round constants of Keccak-f[1600]. -/
def keccakRc : List W64 :=
  [0x0000000000000001, 0x0000000000008082, 0x800000000000808A, 0x8000000080008000, 0x000000000000808B,
   0x0000000080000001, 0x8000000080008081, 0x8000000000008009, 0x000000000000008A, 0x0000000000000088,
   0x0000000080008009, 0x000000008000000A, 0x000000008000808B, 0x800000000000008B, 0x8000000000008089,
   0x8000000000008003, 0x8000000000008002, 0x8000000000000080, 0x000000000000800A, 0x800000008000000A,
   0x8000000080008081, 0x8000000000008080, 0x0000000080000001, 0x8000000080008008]

/-- Rotation offsets of lane 5y + x. -/
def keccakRot : List Nat :=
  [0, 1, 62, 28, 27, 36, 44, 6, 55, 20, 3, 10, 43, 25, 39, 41, 45, 15, 21, 8, 18, 2, 61, 56, 14]

def lane (a : List W64) (i : Nat) : W64 := (a[i]?).getD 0

/-- One round: theta, rho and pi, chi, iota. -/
def keccakRound (a : List W64) (rc : W64) : List W64 :=
  let cs := (List.range 5).map (fun x => lane a x ^^^ lane a (x + 5) ^^^ lane a (x + 10) ^^^ lane a (x + 15) ^^^ lane a (x + 20))
  let ds := (List.range 5).map (fun x => lane cs ((x + 4) % 5) ^^^ (lane cs ((x + 1) % 5)).rotateLeft 1)
  let th := (List.range 25).map (fun i => lane a i ^^^ lane ds (i % 5))
  -- B[y, 2x + 3y] = rot(A[x, y]): lane 5Y + X of B comes from x = X + 3Y, y = X (all modulo 5)
  let b := (List.range 25).map (fun i =>
    let x := (i % 5 + 3 * (i / 5)) % 5
    let j := 5 * (i % 5) + x
    (lane th j).rotateLeft ((keccakRot[j]?).getD 0))
  let ch := (List.range 25).map (fun i =>
    let y := i / 5 * 5
    lane b i ^^^ (~~~lane b (y + (i + 1) % 5) &&& lane b (y + (i + 2) % 5)))
  (lane ch 0 ^^^ rc) :: ch.drop 1

def keccakF (a : List W64) : List W64 := keccakRc.foldl keccakRound a

/-- XOR a 136-byte block into the state. -/
def absorbBlock (a : List W64) (bs : List Byte) : List W64 :=
  keccakF ((List.range 25).map (fun i => if i < 17 then lane a i ^^^ BitVec.ofNat 64 (fieldAt bs (8 * i) 8) else lane a i))

/-- Absorb a padded message block by block. -/
def absorb : Nat → List W64 → List Byte → List W64
  | 0, a, _ => a
  | n + 1, a, bs => if bs = [] then a else absorb n (absorbBlock a (bs.take 136)) (bs.drop 136)

/-- Pad with 1111 and 10*1: 0x1F … 0x80. -/
def shakePad (bs : List Byte) : List Byte :=
  let n := 136 - bs.length % 136
  if n = 1 then bs ++ [0x9F] else bs ++ [0x1F] ++ List.replicate (n - 2) 0 ++ [0x80]

/-- The first `n` ≤ 136 bytes of SHAKE256. -/
def shake256 (n : Nat) (bs : List Byte) : List Byte :=
  let a := absorb (bs.length / 136 + 1) (List.replicate 25 0) (shakePad bs)
  ((a.map (fun w => leBytes 8 w.toNat)).flatten).take n

end Sys2Proof.Machine
end

