-- ==== Sys2Proof/Machine/Pages.lean ====
section
/-! DEFINITION. The page map, the pools that hold the pages' shares, and the view through which die programs stream them
(R271, R272, R276). -/

namespace Sys2Proof.Machine

/-! ### The page map (R271) -/

def page (s : State) (p : Nat) : Page := Tab.get (Page.init s.dealer.frames) s.dealer.pageTab p
def setPage (p : Nat) (f : Page → Page) (s : State) : State :=
  { s with dealer := { s.dealer with pageTab := Tab.mod (Page.init s.dealer.frames) s.dealer.pageTab p f } }

/-- A page-map entry as its 64 bits (Table 9.5). -/
def Page.word (x : Page) : Nat :=
  x.next % 2 ^ 20 + x.tier % 4 * 2 ^ 20 + x.owner % 2 ^ 13 * 2 ^ 22 + x.gen.toNat * 2 ^ 35 + x.frame % 2 ^ 21 * 2 ^ 43

/-- The `n` bytes from offset `o` of the map as each die's copy in the top 4 MiB of its bonded SRAM holds them. The table is the map and every
copy of it: neither program nor placed object reaches a copy, and BAR2 shows LPDDR5X alone (R271, R389). -/
def pageMapBytes (s : State) (o n : Nat) : List Byte :=
  (List.range n).map (fun i => BitVec.ofNat 8 ((page s ((o + i) / 8)).word / 2 ^ (8 * ((o + i) % 8))))

/-- The pages of a list from its head, at most `n` of them. -/
def listPages (s : State) : Nat → Nat → List Nat
  | _, 0 => []
  | p, n + 1 => if p = noPage then [] else p :: listPages s (page s p).next n

/-- The pages of an entry in list order. -/
def entryPages (s : State) (e : Nat) : List Nat := listPages s (request s e).headPage (request s e).pages

/-! ### Pools (R272) -/

/-- FRAME_SHARE in bytes (Table 9.12). -/
def frameShareBytes (s : State) : Nat := s.dealer.frameShare.toNat * 256
def pool (s : State) (d : Nat) : Pool := Tab.get (fun _ => Pool.cold) s.dealer.pools d
def dramPool (s : State) (d : Nat) : Obj := obj s (pool s d).dram.toNat
def dramPoolOk (s : State) (d : Nat) : Bool := (dramPool s d).valid && decide ((dramPool s d).tier = 1)

/-- SLOT_PAGES of a ply. -/
def slotPages (p : Ply) : Nat := 32 * 2 ^ p.contextClass.toNat

/-- Extend bytes with zeros to a length. -/
def padTo (n : Nat) (bs : List Byte) : List Byte := bs ++ List.replicate (n - bs.length) 0

/-- Where page p's share lies on die d in a tier: an object and an offset (R272). -/
def pagePlace (s : State) (d p tier frame : Nat) : Nat × Nat :=
  let f := frameShareBytes s
  if tier = 0 then ((pool s d).sram.toNat, frame * f)
  else if tier = 2 then ((pool s d).flash.toNat, frame * f)
  else ((pool s d).dram.toNat, p * f)

/-- Write into an object of any tier. -/
def writeObj (o off : Nat) (bs : List Byte) (s : State) : State :=
  let x := obj s o
  if x.inFlash then
    setFlash (BitVec.ofNat 32 x.address.toNat) (fun d => padTo off (d.take off) ++ bs ++ d.drop (off + bs.length)) s
  else if x.inMem then storeLines (x.base + off) bs s
  else s

/-! ### Page streams (R276) -/

/-- A piece of a page stream: an object and an offset in it, or none where the view holds no page; and its bytes. -/
abbrev Piece := Option (Nat × Nat) × Nat

/-- Whether a program's LPDDR5X address on die d lies in the die's LPDDR5X pool object. -/
def inPool (s : State) (d a : Nat) : Bool :=
  dramPoolOk s d && decide ((dramPool s d).base ≤ a) && decide (a < (dramPool s d).base + (dramPool s d).len)

/-- Where view offset `o` of die d lies: none when the slot is empty or holds no such page. -/
def viewPlace (s : State) (r : Run) (d o : Nat) : Option (Nat × Nat) :=
  let f := frameShareBytes s
  let m := slotPages r.ply * f
  match r.batch[o / m]? with
  | none => none
  | some x =>
    match (entryPages s x.entry)[o % m / f]? with
    | none => none
    | some p =>
      let g := page s p
      let place := pagePlace s d p g.tier g.frame
      some (place.1, place.2 + o % f)

/-- The pieces of `n` bytes from view offset `o`, each within one page; at most `fuel` of them. -/
def viewPieces (s : State) (r : Run) (d : Nat) : Nat → Nat → Nat → List Piece
  | 0, _, _ => []
  | fuel + 1, o, n =>
    if n = 0 then []
    else
      let f := frameShareBytes s
      let l := if f = 0 then n else min n (f - o % f)
      (viewPlace s r d o, l) :: viewPieces s r d fuel (o + l) (n - l)

/-- The pieces of a die program's stream from address `a`; none where it is no page stream. -/
def streamPieces (s : State) (r : Run) (p a n : Nat) : Option (List Piece) :=
  let d := dieOf p
  if inPool s d a then some (viewPieces s r d n (a - (dramPool s d).base) n) else none

/-- The bytes of a piece: +0 where there is no page, or where a flash frame holds nothing yet. -/
def readPiece (s : State) (x : Piece) : List Byte :=
  match x.1 with
  | none => List.replicate x.2 0
  | some (o, off) => if (obj s o).valid then padTo x.2 (objBytes s (obj s o) off x.2) else List.replicate x.2 0

/-- Write the bytes of a stream into its pieces; where there is no page they are discarded. -/
def writePieces : List Piece → List Byte → State → State
  | [], _, s => s
  | x :: t, bs, s =>
    writePieces t (bs.drop x.2) (match x.1 with
      | none => s
      | some (o, off) => writeObj o off (bs.take x.2) s)

/-- What a die program's stream reads from LPDDR5X address `a`. -/
def streamBytes (s : State) (r : Run) (p a n : Nat) : List Byte :=
  match streamPieces s r p a n with
  | some ps => (ps.map (readPiece s)).flatten
  | none => readBytes s.tiers.mem a n

/-- Store a die program's stream at LPDDR5X address `a`. -/
def streamStore (r : Run) (p a : Nat) (bs : List Byte) (s : State) : State :=
  match streamPieces s r p a bs.length with
  | some ps => writePieces ps bs s
  | none => storeLines a bs s

/-- The LPDDR5X ranges that a stream touches. -/
def streamSpans (s : State) (r : Run) (p a n : Nat) : List (Nat × Nat) :=
  match streamPieces s r p a n with
  | some ps => ps.filterMap (fun x => match x.1 with
      | some (o, off) => if (obj s o).tier = 1 then some ((obj s o).base + off, x.2) else none
      | none => none)
  | none => [(a, n)]

/-- The memory ports that a stream's requests go to. -/
def streamPorts (s : State) (r : Run) (p a n : Nat) : List Nat :=
  let spans := ((streamSpans s r p a n).map (fun x => physSpans x.1 x.2)).flatten
  (List.range 12).filter (fun m => spans.any (fun x => decide (x.1 = m)))

/-- Parts of a module range that lie each within one line: address and bytes; at most `fuel` of them. -/
def linePieces : Nat → Nat → Nat → List (Nat × Nat)
  | 0, _, _ => []
  | fuel + 1, a, n =>
    if n = 0 then []
    else
      let l := min n (256 - a % 256)
      (a, l) :: linePieces fuel (a + l) (n - l)

/-- The parts of a stream of LPDDR5X address `a`: the offset in the stream, the address and the bytes of each. -/
def streamParts (s : State) (r : Run) (p a n : Nat) : List (Nat × Nat × Nat) :=
  let pieces := match streamPieces s r p a n with
    | some ps => ps
    | none => [(none, n)]
  let range (x : Piece) : Option Nat := match x.1 with
    | some (o, off) => if (obj s o).tier = 1 then some ((obj s o).base + off) else none
    | none => if (streamPieces s r p a n).isNone then some a else none
  (pieces.foldl (fun (acc : Nat × List (Nat × Nat × Nat)) x =>
    (acc.1 + x.2, match range x with
      | some b => acc.2 ++ (linePieces (x.2 / 256 + 2) b x.2).map (fun y => (acc.1 + (y.1 - b), y.1, y.2))
      | none => acc.2)) (0, [])).2

/-- The locations that a stream of an abandoned step would have written are undefined (R164). -/
def streamUndefine (r : Run) (p a n : Nat) (s : State) : State :=
  streamStore r p a (freeBytes s.free n) { s with free := s.free + n }

end Sys2Proof.Machine
end

