-- ==== Sys2Proof/Machine/Tick.lean ====
section
/-! DEFINITION. The passing of a module tick, and what makes a boundary due. -/

namespace Sys2Proof.Machine

/-- One module tick of 1 µs passes (R12; DESIGN CHOICE, log entry 1): MODULE_TICK and GC_TICK advance, FREQ_TICKS counts the
frequency in force while the dies run, IDLE_TICKS the time since an idle boundary (Table 6.7). -/
def passTick (s : State) : State :=
  if s.resets.powered then
    let c := s.counters
    { s with
      tick := s.tick + 1
      glaren := { s.glaren with gcTick := s.glaren.gcTick + 1 }
      counters := { c with
        freqTicks := if s.resets.mgood then bump c.freqTicks s.glaren.freq 1 else c.freqTicks
        idleTicks := if s.dealer.idle && s.resets.mgood then c.idleTicks + 1 else c.idleTicks } }
  else s

/-- An event of R34: an idle dealer runs its next boundary. -/
def wake (s : State) : State := { s with dealer := { s.dealer with due := true } }

/-- Whether a boundary is under way: a launch is held for the governor (R37), or a learning boundary stands before step 6. -/
def inBoundary (s : State) : Bool := s.dealer.held.isSome || s.dealer.midway

end Sys2Proof.Machine
end

