-- ==== Sys2Proof/Machine/Numeric.lean ====
section
/-! DEFINITION. Element formats, exact values, rounding, conversion and the block encoder (chapter 2). -/

namespace Sys2Proof.Machine

/-- An exact value: NaN, an infinity, or m × 2^e. A zero has no sign: a negative zero equals zero (R61). -/
inductive Exact where
  | nan
  | inf (neg : Bool)
  | fin (m e : Int)
  deriving DecidableEq, Repr

/-- The element formats (Table 2.1), in the order of SFMT (Table 5.9). -/
inductive Fmt where
  | fp32 | bf16 | e4m3 | e5m2 | pb6 | pb4
  deriving DecidableEq, Repr

/-- SFMT and DFMT codes (Table 5.9). -/
def Fmt.ofCode : Nat → Option Fmt
  | 0 => some .fp32
  | 1 => some .bf16
  | 2 => some .e4m3
  | 3 => some .e5m2
  | 4 => some .pb6
  | 5 => some .pb4
  | _ => none

/-- Whether a format is a Pleide block format. -/
def Fmt.isPb : Fmt → Bool
  | .pb6 | .pb4 => true
  | _ => false

/-- Parameters of a floating-point format: width, fraction bits, exponent of the smallest non-zero value, largest finite
code, NaN code, infinity code (Tables 2.1 and 2.4). -/
structure FloatFmt where
  bits : Nat
  frac : Nat
  low  : Int
  maxCode : Nat
  nan  : Nat
  inf  : Option Nat
  deriving DecidableEq, Repr

/-- Table 2.1; a block format's elements are read and written through FP32. -/
def Fmt.params : Fmt → FloatFmt
  | .bf16 => { bits := 16, frac := 7, low := -133, maxCode := 0x7F7F, nan := 0x7FC0, inf := some 0x7F80 }
  | .e4m3 => { bits := 8, frac := 3, low := -9, maxCode := 0x7E, nan := 0x7F, inf := none }
  | .e5m2 => { bits := 8, frac := 2, low := -16, maxCode := 0x7B, nan := 0x7E, inf := some 0x7C }
  | _ => { bits := 32, frac := 23, low := -149, maxCode := 0x7F7FFFFF, nan := 0x7FC00000, inf := some 0x7F800000 }

/-- The value of a code (R49): codes above the largest finite one are the infinity or a NaN. -/
def Fmt.num (f : Fmt) (c : Nat) : Exact :=
  let p := f.params
  let half := 2 ^ (p.bits - 1)
  let neg := decide (c / half % 2 = 1)
  let a := c % half
  if p.maxCode < a then (if p.inf = some a then .inf neg else .nan)
  else
    let e := a / 2 ^ p.frac
    let m : Nat := if e = 0 then a else 2 ^ p.frac + a % 2 ^ p.frac
    let x : Int := if e = 0 then p.low else p.low + (e : Int) - 1
    .fin (if neg then -(m : Int) else m) x

/-- m ÷ 2^s to the nearest integer, ties to even (R58). -/
def rne (m s : Nat) : Nat :=
  let d := 2 ^ s
  let h := m / d
  let r := m % d
  if d < 2 * r ∨ (2 * r = d ∧ h % 2 = 1) then h + 1 else h

/-- The magnitude code of m × 2^e rounded once to a format's precision, with an unbounded exponent (R58, R63). -/
def FloatFmt.round (p : FloatFmt) (m : Nat) (e : Int) : Nat :=
  if m = 0 then 0 else
    let q := max (e + (Nat.log2 m : Int) - (p.frac : Int)) p.low
    let r := if q ≤ e then m * 2 ^ (e - q).toNat else rne m (q - e).toNat
    (q - p.low).toNat * 2 ^ p.frac + r

/-- Kinds of a flagged value (Table 3.9). -/
def kindNan : Nat := 0
def kindInf : Nat := 1
def kindSat : Nat := 2

/-- The code written for a value, and the kind under which it is flagged (R61, R63, R64, R65, Table 2.4). -/
def Fmt.write (f : Fmt) (sat : Bool) (x : Exact) : Nat × Option Nat :=
  let p := f.params
  let ovf (neg : Bool) : Nat × Option Nat :=
    let s := if neg then 2 ^ (p.bits - 1) else 0
    if sat then (s + p.maxCode, some kindSat)
    else match p.inf with
      | some i => (s + i, some kindInf)
      | none => (p.nan, some kindNan)
  match x with
  | .nan => (p.nan, some kindNan)
  | .inf neg => ovf neg
  | .fin m e =>
    let a := p.round m.natAbs e
    if p.maxCode < a then ovf (decide (m < 0))
    else if a = 0 then (0, none)
    else ((if m < 0 then 2 ^ (p.bits - 1) else 0) + a, none)

/-- An FP32 value. -/
def f32 (w : W32) : Exact := Fmt.fp32.num w.toNat
/-- One rounding to FP32 inside a unit: no saturation (R62). -/
def toF32 (x : Exact) : W32 := BitVec.ofNat 32 (Fmt.fp32.write false x).1

/-! ### Exact arithmetic on values (R62) -/

def Exact.neg : Exact → Exact
  | .nan => .nan
  | .inf s => .inf (!s)
  | .fin m e => .fin (-m) e

def Exact.abs : Exact → Exact
  | .nan => .nan
  | .inf _ => .inf false
  | .fin m e => .fin m.natAbs e

/-- The exact sum; ∞ − ∞ gives NaN. -/
def Exact.add : Exact → Exact → Exact
  | .nan, _ => .nan
  | _, .nan => .nan
  | .inf a, .inf b => if a = b then .inf a else .nan
  | .inf a, .fin _ _ => .inf a
  | .fin _ _, .inf b => .inf b
  | .fin m e, .fin n d =>
    if m = 0 then .fin n d else if n = 0 then .fin m e else
    let q := min e d
    .fin (m * 2 ^ (e - q).toNat + n * 2 ^ (d - q).toNat) q

/-- The exact product; 0 × ∞ gives NaN. -/
def Exact.mul : Exact → Exact → Exact
  | .nan, _ => .nan
  | _, .nan => .nan
  | .inf a, .inf b => .inf (a != b)
  | .inf a, .fin m _ => if m = 0 then .nan else .inf (a != decide (m < 0))
  | .fin m _, .inf b => if m = 0 then .nan else .inf (b != decide (m < 0))
  | .fin m e, .fin n d => .fin (m * n) (e + d)

def Exact.isNan : Exact → Bool
  | .nan => true
  | _ => false

def Exact.isZero : Exact → Bool
  | .fin m _ => decide (m = 0)
  | _ => false

/-- The sign of a − b for two values that are not NaN: −1, 0 or 1. -/
def Exact.cmp (a b : Exact) : Int :=
  match a, b with
  | .inf s, .inf t => if s = t then 0 else if s then -1 else 1
  | .inf s, _ => if s then -1 else 1
  | _, .inf t => if t then 1 else -1
  | x, y =>
    match x.add y.neg with
    | .fin m _ => m.sign
    | _ => 0

/-- FP32 operations, each with one rounding (R62, R72). -/
def fAdd (a b : W32) : W32 := toF32 ((f32 a).add (f32 b))
def fSub (a b : W32) : W32 := toF32 ((f32 a).add (f32 b).neg)
def fMul (a b : W32) : W32 := toF32 ((f32 a).mul (f32 b))
def fFma (a b c : W32) : W32 := toF32 (((f32 a).mul (f32 b)).add (f32 c))

/-- A value rounded with a sticky part: m × 2^e plus a positive remainder below 2^e when `sticky`. -/
def stickyExact (neg : Bool) (m : Nat) (e : Int) (sticky : Bool) : Exact :=
  let v : Int := ((2 * m + flag sticky : Nat) : Int)
  .fin (if neg then -v else v) (e - 1)

/-- Division, correctly rounded (R72). A division by zero and ∞ ÷ ∞ have no exact result that the manual states: the
value is free, one function of the operands (log entry 17). -/
def fDiv (a b : W32) : W32 :=
  match f32 a, f32 b with
  | .nan, _ => 0x7FC00000
  | _, .nan => 0x7FC00000
  | .fin m e, .fin n d =>
    if n = 0 then toF32 (f32 (Config.divOpen a b))
    else if m = 0 then 0
    else
      let k := Nat.log2 n.natAbs + 34 - Nat.log2 m.natAbs
      let x := m.natAbs * 2 ^ k
      toF32 (stickyExact (decide (m < 0) != decide (n < 0)) (x / n.natAbs) (e - d - (k : Int))
        (decide (x % n.natAbs ≠ 0)))
  | .fin _ _, .inf _ => 0
  | .inf s, .fin n _ => if n = 0 then toF32 (f32 (Config.divOpen a b)) else if s != decide (n < 0) then 0xFF800000 else 0x7F800000
  | .inf _, .inf _ => toF32 (f32 (Config.divOpen a b))

/-- The integer square root below 2^k, bit by bit from bit k − 1. -/
def isqrt (n : Nat) : Nat → Nat → Nat
  | 0, r => r
  | k + 1, r => let t := r + 2 ^ k; isqrt n k (if t * t ≤ n then t else r)

/-- The value m × 2^e with an even exponent and at least 2^60 in m. -/
def evenScale (m : Nat) (e : Int) : Nat × Int :=
  let k := 62 - Nat.log2 m
  let m1 := m * 2 ^ k
  let e1 := e - (k : Int)
  if e1 % 2 = 0 then (m1, e1) else (2 * m1, e1 - 1)

/-- Square root, correctly rounded (R72). The root of a negative value is a value that the manual does not state: it is
free (log entry 17). -/
def fSqrt (a : W32) : W32 :=
  match f32 a with
  | .nan => 0x7FC00000
  | .inf s => if s then toF32 (f32 (Config.sqrtOpen a)) else 0x7F800000
  | .fin m e =>
    if m = 0 then 0
    else if m < 0 then toF32 (f32 (Config.sqrtOpen a))
    else
      let (x, y) := evenScale m.natAbs e
      let r := isqrt x (Nat.log2 x / 2 + 1) 0
      toF32 (stickyExact false r (y / 2) (decide (r * r ≠ x)))

/-- Reciprocal square root, correctly rounded, with the special results of R72. -/
def fRsqrt (a : W32) : W32 :=
  match f32 a with
  | .nan => 0x7FC00000
  | .inf s => if s then 0x7FC00000 else 0
  | .fin m e =>
    if m = 0 then 0x7F800000
    else if m < 0 then 0x7FC00000
    else
      let (x, y) := evenScale m.natAbs e
      let t := Nat.log2 x / 2 + 40
      let n := 2 ^ (2 * t) / x
      let r := isqrt n (Nat.log2 n / 2 + 1) 0
      toF32 (stickyExact false r (-(y / 2) - (t : Int)) (decide (r * r * x ≠ 2 ^ (2 * t))))

/-- Minimum and maximum, exact; a NaN operand gives NaN (R72). -/
def fMin (a b : W32) : W32 :=
  if (f32 a).isNan ∨ (f32 b).isNan then 0x7FC00000 else toF32 (if (f32 a).cmp (f32 b) ≤ 0 then f32 a else f32 b)
def fMax (a b : W32) : W32 :=
  if (f32 a).isNan ∨ (f32 b).isNan then 0x7FC00000 else toF32 (if 0 ≤ (f32 a).cmp (f32 b) then f32 a else f32 b)

/-- CMP (Table 5.8): 1.0 where the predicate holds, +0 elsewhere; a NaN operand gives NaN (R72). -/
def fCmp (pred : Nat) (a b : W32) : W32 :=
  if (f32 a).isNan ∨ (f32 b).isNan then 0x7FC00000 else
    let c := (f32 a).cmp (f32 b)
    let holds : Bool := match pred with
      | 0 => decide (c = 0)
      | 1 => decide (c < 0)
      | 2 => decide (c ≤ 0)
      | _ => decide (c ≠ 0)
    if holds then 0x3F800000 else 0

/-! ### Pleide blocks (R51 to R54, R60) -/

/-- Bits of an element of a block format, and the largest magnitude M. -/
def Fmt.elemBits : Fmt → Nat
  | .pb6 => 6
  | _ => 4
def Fmt.maxMag (f : Fmt) : Nat := 2 ^ (f.elemBits - 1) - 1

/-- Bytes of one row of 64 elements, or of one block (R155). -/
def Fmt.rowBytes : Fmt → Nat
  | .fp32 => 256
  | .bf16 => 128
  | .e4m3 => 64
  | .e5m2 => 64
  | .pb6 => 51
  | .pb4 => 35

/-- Element i of a block given as one little-endian number (R51 to R53). -/
def pbElem (f : Fmt) (blk i : Nat) : Exact :=
  let w := f.elemBits
  let code := bitsOf blk (24 + w * i) w
  let mag := code % 2 ^ (w - 1)
  let neg := decide (code / 2 ^ (w - 1) = 1)
  if neg ∧ mag = 0 then .nan
  else .fin (if neg then -(mag : Int) else mag) ((bitsOf blk 0 8 : Nat) - 127 + (bitsOf blk (8 + 2 * (i / 8)) 2 : Nat))

/-- e_g of R60 for the largest finite magnitude of a group, none for 0. -/
def groupExp (f : Fmt) (xs : List Exact) : Option Int :=
  let mags := xs.filterMap (fun x => match x with
    | .fin m e => if m = 0 then none else some (m.natAbs, e)
    | _ => none)
  let es := mags.map (fun me =>
    let l := Nat.log2 me.1
    let w := f.elemBits - 2
    if 2 * me.1 * 2 ^ w < (2 * f.maxMag + 1) * 2 ^ l then me.2 + (l : Int) - (w : Int) else me.2 + (l : Int) - (w : Int) + 1)
  match es with
  | [] => none
  | e :: t => some (t.foldl max e)

/-- The block encoder (R60): the block as one number, and the kinds of its flagged elements in order. -/
def pbEncode (f : Fmt) (sat : Bool) (xs : List Exact) : Nat × List (Option Nat) :=
  let big : Exact := .fin (2 ^ 24 - 1) 104
  let src := xs.map (fun x => match x with
    | .inf neg => if sat then (if neg then big.neg else big, some kindSat) else (.nan, some kindNan)
    | .nan => (.nan, some kindNan)
    | y => (y, none))
  let groups := (List.range 8).map (fun g => groupExp f (((src.drop (8 * g)).take 8).map (fun e => e.1)))
  let tops := groups.filterMap id
  let b : Int := match tops with
    | [] => -127
    | e :: t => max (-127) (t.foldl max e - 3)
  let sub (g : Nat) : Int := match (groups[g]?).join with
    | none => 0
    | some e => min 3 (max 0 (e - b))
  let w := f.elemBits
  let code (i : Nat) (x : Exact) : Nat := match x with
    | .fin m e =>
      let s := b + sub (i / 8)
      let v := if s ≤ e then m.natAbs * 2 ^ (e - s).toNat else rne m.natAbs (s - e).toNat
      let v := Nat.min f.maxMag v
      if v = 0 then 0 else if m < 0 then 2 ^ (w - 1) + v else v
    | _ => 2 ^ (w - 1)
  let elems := (List.range src.length).zipWith (fun i e => code i e.1 * 2 ^ (24 + w * i)) src
  let subs := (List.range 8).map (fun g => (sub g).toNat * 2 ^ (8 + 2 * g))
  ((b + 127).toNat + subs.foldl (· + ·) 0 + elems.foldl (· + ·) 0, src.map (fun e => e.2))

end Sys2Proof.Machine
end

