-- ==== Sys2Proof/Machine/Transc.lean ====
section
/-! DEFINITION. The transcendental functions of Table 2.6, correctly rounded: a fixed-point enclosure of the exact value
is computed at growing precision until both its ends round to the same FP32 value (log entry 9). -/

namespace Sys2Proof.Machine

/-- x × y in fixed point with w fraction bits, rounded down. -/
def fxMul (w x y : Nat) : Nat := x * y / 2 ^ w

/-- The series sum of t × z^k ÷ ((step·1 + off) ⋯) used by exp: terms t·r^k ÷ k! from term k on. -/
def expSeries (w r : Nat) : Nat → Nat → Nat → Nat → Nat
  | 0, _, _, acc => acc
  | n + 1, k, term, acc => expSeries w r n (k + 1) (fxMul w term r / (k + 1)) (acc + term)

/-- exp of a fixed-point r in [0, 1). -/
def expFix (w r : Nat) : Nat := expSeries w r (w / 2) 0 (2 ^ w) 0

/-- The sum of z^(2k+1) ÷ (2k+1), which is artanh z. -/
def artanhSeries (w z2 : Nat) : Nat → Nat → Nat → Nat → Nat
  | 0, _, _, acc => acc
  | n + 1, k, pow, acc => artanhSeries w z2 n (k + 2) (fxMul w pow z2) (acc + pow / k)

/-- artanh of a fixed-point z in [0, 1/3]. -/
def artanhFix (w z : Nat) : Nat := artanhSeries w (fxMul w z z) (w / 3 + 2) 1 z 0

/-- ln 2 = 2 artanh (1/3). -/
def ln2Fix (w : Nat) : Nat := 2 * artanhFix w (2 ^ w / 3)

/-- arctan of 1/n: the alternating sum of 1 ÷ ((2k+1) n^(2k+1)). -/
def arctanSeries (n : Nat) : Nat → Nat → Nat → Int → Int → Int
  | 0, _, _, _, acc => acc
  | f + 1, k, pow, s, acc => arctanSeries n f (k + 2) (pow / (n * n)) (-s) (acc + s * ((pow / k : Nat) : Int))

/-- π by Machin's formula. -/
def piFix (w : Nat) : Nat :=
  (16 * arctanSeries 5 (w / 4) 1 (2 ^ w / 5) 1 0 - 4 * arctanSeries 239 (w / 4) 1 (2 ^ w / 239) 1 0).toNat

/-- A value m × 2^e in fixed point, rounded down. -/
def toFix (w : Nat) (m : Nat) (e : Int) : Nat :=
  let s := e + (w : Int)
  if 0 ≤ s then m * 2 ^ s.toNat else m / 2 ^ (-s).toNat

/-- e^x for a signed fixed-point x, as a mantissa in [1, 2) and a binary exponent. -/
def expScaled (w : Nat) (x : Int) : Nat × Int :=
  let l : Int := ln2Fix w
  let k := x / l
  (expFix w (x - k * l).toNat, k)

/-- e^(−x) in fixed point for a fixed-point x ≥ 0. -/
def expNegFix (w x : Nat) : Nat :=
  let (m, k) := expScaled w (-(x : Int))
  m / 2 ^ (-k).toNat

/-- ln of m × 2^e, m > 0, in signed fixed point. -/
def lnFix (w m : Nat) (e : Int) : Int :=
  let l := Nat.log2 m
  -- y = m ÷ 2^l in [1, 2); above 3/2 use y ÷ 2
  let up := decide (3 * 2 ^ l < 2 * m)
  let a : Int := m
  let b : Int := if up then 2 ^ (l + 1) else 2 ^ l
  let z := (a - b).natAbs * 2 ^ w / (a + b).natAbs
  let s : Int := 2 * artanhFix w z
  let r : Int := if a < b then -s else s
  (e + (l : Int) + (if up then 1 else 0)) * (ln2Fix w : Int) + r

/-- The functions of FUNC in the order of FN (Table 5.8). -/
inductive Func where
  | exp | exp2 | log | log2 | sigmoid | tanh | erf
  deriving DecidableEq, Repr

def Func.ofCode : Nat → Option Func
  | 0 => some .exp
  | 1 => some .exp2
  | 2 => some .log
  | 3 => some .log2
  | 4 => some .sigmoid
  | 5 => some .tanh
  | 6 => some .erf
  | _ => none

/-- erf x for a fixed-point 0 ≤ x < 5: 2x ÷ √π × e^(−x²) × the sum of (2x²)^k ÷ (1·3·5⋯(2k+1)). -/
def erfSeries (w x2 : Nat) : Nat → Nat → Nat → Nat → Nat
  | 0, _, _, acc => acc
  | n + 1, k, term, acc => erfSeries w x2 n (k + 2) (fxMul w term (2 * x2) / (k + 2)) (acc + term)

def erfFix (w x : Nat) : Nat :=
  let x2 := fxMul w x x
  let s := erfSeries w x2 w 1 (2 ^ w) 0
  let root := isqrt (piFix w * 2 ^ w) (w + 2) 0
  fxMul w (fxMul w (2 * x) s) (expNegFix w x2) * 2 ^ w / root

/-- A value of `f` at m × 2^e (m ≠ 0) as sign × mantissa × 2^exponent, with an error below 2^40 units of the mantissa,
at `w` fraction bits; the argument lies in the range where FP32 neither overflows nor reaches a limit. -/
def Func.approx (f : Func) (w : Nat) (m e : Int) : Int × Int :=
  let ax := toFix w m.natAbs e
  let x : Int := if m < 0 then -(ax : Int) else ax
  let one : Nat := 2 ^ w
  match f with
  | .exp => let (v, k) := expScaled w x; (v, k - (w : Int))
  | .exp2 =>
    let k := x / (one : Int)
    (expFix w (fxMul w (x - k * (one : Int)).toNat (ln2Fix w)), k - (w : Int))
  | .log => (lnFix w m.natAbs e, -(w : Int))
  | .log2 =>
    let v := lnFix w m.natAbs e
    (v * (one : Int) / (ln2Fix w : Int), -(w : Int))
  | .sigmoid =>
    let u := expNegFix w ax
    ((if m < 0 then u * one / (one + u) else one * one / (one + u) : Nat), -(w : Int))
  | .tanh =>
    let u := expNegFix w (2 * ax)
    let v : Nat := (one - u) * one / (one + u)
    ((if m < 0 then -(v : Int) else (v : Int)), -(w : Int))
  | .erf =>
    let v := erfFix w ax
    ((if m < 0 then -(v : Int) else (v : Int)), -(w : Int))

/-- Round the enclosure's two ends; widen the working precision while they differ. -/
def Func.refine (f : Func) (m e : Int) : List Nat → W32
  | [] => 0
  | w :: t =>
    let (v, x) := f.approx w m e
    let lo := toF32 (.fin (v - 2 ^ 40) x)
    let hi := toF32 (.fin (v + 2 ^ 40) x)
    if lo = hi ∨ t = [] then lo else f.refine m e t

/-- Whether |m × 2^e| is at least k. -/
def atLeast (m e : Int) (k : Nat) : Bool := decide (0 ≤ (Exact.fin m.natAbs e).cmp (.fin k 0))

/-- FUNC, correctly rounded, with the special results of R72. -/
def Func.apply (f : Func) (a : W32) : W32 :=
  let nan : W32 := 0x7FC00000
  let pinf : W32 := 0x7F800000
  let one : W32 := 0x3F800000
  let ws := [256, 448, 832]
  match f32 a, f with
  | .nan, _ => nan
  | .inf s, .exp => if s then 0 else pinf
  | .inf s, .exp2 => if s then 0 else pinf
  | .inf s, .log => if s then nan else pinf
  | .inf s, .log2 => if s then nan else pinf
  | .inf s, .sigmoid => if s then 0 else one
  | .inf s, .tanh => if s then 0xBF800000 else one
  | .inf s, .erf => if s then 0xBF800000 else one
  | .fin m e, f =>
    if m = 0 then
      match f with
      | .exp => one
      | .exp2 => one
      | .log => 0xFF800000
      | .log2 => 0xFF800000
      | .sigmoid => 0x3F000000
      | .tanh => 0
      | .erf => 0
    else match f with
      | .exp => if atLeast m e 128 then (if m < 0 then 0 else pinf) else f.refine m e ws
      | .exp2 => if atLeast m e 192 then (if m < 0 then 0 else pinf) else f.refine m e ws
      | .log => if m < 0 then nan else f.refine m e ws
      | .log2 => if m < 0 then nan else f.refine m e ws
      | .sigmoid => if atLeast m e 128 then (if m < 0 then 0 else one) else f.refine m e ws
      | .tanh => if atLeast m e 16 then (if m < 0 then 0xBF800000 else one) else f.refine m e ws
      | .erf => if atLeast m e 5 then (if m < 0 then 0xBF800000 else one) else f.refine m e ws

end Sys2Proof.Machine
end

