-- ==== Sys2Proof/Machine/Requests.lean ====
section
/-! DEFINITION. Requests and pages: the page lists, ending an entry, output records, the dice and the draw, and the choice
of the batch (chapter 9). -/

namespace Sys2Proof.Machine

/-! ### The free list (R274, R275) -/

/-- Append one page to the tail of the free list; it returns to tier 1 (R275). -/
def freePage (p : Nat) (s : State) : State :=
  let s1 := setPage p (fun _ => { next := noPage, tier := 1, owner := 0x1FFF, gen := 0, frame := 0 }) s
  let s2 := if s.dealer.freeCount = 0 then { s1 with dealer := { s1.dealer with freeHead := p } }
    else setPage s.dealer.freeTail (fun x => { x with next := p }) s1
  { s2 with dealer := { s2.dealer with freeTail := p, freeCount := s2.dealer.freeCount + 1 } }

/-- Free an entry's pages; a page of another owner is not freed but counted and recorded (R275). -/
def freePages (e : Nat) (s : State) : State :=
  let g := (request s e).gen
  (entryPages s e).foldl (fun s p =>
    let x := page s p
    if x.owner = e ∧ x.gen = g then freePage p s
    else score (leadSource s) 2 0x0025 s.dealer.stepNumber (leBytes 4 p ++ leBytes 2 e)
      { s with dealer := { s.dealer with pageErrors := s.dealer.pageErrors + 1 } }) s

/-- Take the head of the free list for an entry and append it to the entry's list in tier 1 (R274). -/
def allocPage (e : Nat) (s : State) : State :=
  let p := s.dealer.freeHead
  let r := request s e
  let s1 := { s with dealer := { s.dealer with freeHead := (page s p).next, freeCount := s.dealer.freeCount - 1 } }
  let s2 := setPage p (fun _ => { next := noPage, tier := 1, owner := e, gen := r.gen, frame := 0 }) s1
  let s3 := if r.pages = 0 then s2 else setPage r.tailPage (fun x => { x with next := p }) s2
  setRequest e (fun r => { r with headPage := if r.pages = 0 then p else r.headPage, tailPage := p, pages := r.pages + 1 }) s3

def allocPages (e : Nat) : Nat → State → State
  | 0, s => s
  | n + 1, s => allocPages e n (allocPage e s)

/-! ### Output records (R290, R291, R398) -/

/-- Requests that hold an entry. -/
def occupied (s : State) : List Nat := (s.dealer.requests.filter (fun e => decide (e.2.state ≠ .free))).map (fun e => e.1)

/-- Record slots of ring q that a batch has reserved: that of the running step, of the step that has ended until step 1 retires it, and
of a held launch (R291). -/
def batchReserved (s : State) (q : Nat) : Nat :=
  let run := match s.dealer.run with
    | some r => r.batch
    | none => s.dealer.lastBatch
  let held := match s.dealer.held with
    | some h => h.batch
    | none => []
  ((run ++ held).filter (fun x => decide ((request s x.entry).outRing = q))).length

/-- Whether the END reservation of a request still stands: it ends with the END record (R291). -/
def holdsEnd (r : Request) : Bool :=
  decide (r.state = .queued) || decide (r.state = .prefill) || decide (r.state = .decode)

/-- Free record slots of output ring q, less the records not yet written, the END reservations (R398) and the batch's (R291). -/
def ringFree (s : State) (q : Nat) : Nat :=
  let k := queue s q
  k.orSize.toNat - (k.orTail - k.orHead).toNat -
    (s.dealer.requests.filter (fun e => decide (e.2.outRing = q) && holdsEnd e.2)).length - batchReserved s q -
    (s.dealer.records.filter (fun e => decide (e.1 = q))).length

/-- Commit one record to ring q: the port writes it after the launch (R290). -/
def commitRecord (q : Nat) (bs : List Byte) (s : State) : State :=
  { s with dealer := { s.dealer with records := s.dealer.records ++ [(q, bs)] } }

/-- Write one record into ring q. A queue in error discards it (R399, R412). -/
def writeRecord (q : Nat) (bs : List Byte) (s : State) : State :=
  let k := queue s q
  if k.error ∨ k.orSize = 0 then s
  else emit (.output q (ringAddr k.orBase 32 k.orSize k.orTail) bs) (setQueue q (fun x => { x with orTail := x.orTail + 1 }) s)

/-- One message for each output ring that has received records (Q_VECTOR.OR_IRQ). -/
def ringInterrupts (before : State) (s : State) : State :=
  s.host.queues.foldl (fun s' e =>
    if e.2.vector.getLsbD 14 ∧ e.2.orTail ≠ (queue before e.1).orTail then
      emit (.msix e.2.owner (e.2.vector.toNat / 256 % 64)) s'
    else s') s

/-- The records that a boundary has committed enter their rings in commit order (R290, R398). -/
def writeRecords (s : State) : State :=
  ringInterrupts s (s.dealer.records.foldl (fun s e => writeRecord e.1 e.2 s) { s with dealer := { s.dealer with records := [] } })

/-- An output record (Table 9.8). -/
def outputRecord (r : Request) (e kind code : Nat) (token : BitVec 24) (logprob version : W32) (step : W64) (pos : Nat)
    (late : Bool) : List Byte :=
  leBytes 4 r.key.toNat ++ leBytes 4 (token.toNat + kind * 2 ^ 24 + code * 2 ^ 28) ++ leBytes 4 logprob.toNat ++
    leBytes 4 version.toNat ++ leBytes 8 step.toNat ++ leBytes 4 pos ++
    leBytes 2 (e + flag late * 4096 + flag r.eval * 8192 + flag r.pin * 16384) ++ leBytes 2 r.tenant

/-- END_COUNT index of a terminal state. -/
def endIndex : ReqState → Nat
  | .finished => 0
  | .cancelled => 1
  | .expired => 2
  | _ => 3

/-- End an entry (R270): terminal state with its code, pages freed, pin released, END record, the CANCEL commands that wait
on it. `late` says that step 1 ended an entry whose CANCEL is set (Table 9.7). -/
def endEntry (e : Nat) (st : ReqState) (code : Nat) (late : Bool) (s : State) : State :=
  let r := request s e
  let s1 := freePages e s
  let s2 := setRequest e (fun r =>
    { r with state := st, reason := BitVec.ofNat 8 code, pinBound := false, cancels := [], headPage := noPage,
             tailPage := noPage, pages := 0 }) s1
  let s3 := { s2 with dealer := { s2.dealer with ends := bump s2.dealer.ends (endIndex st) 1 } }
  let s4 := commitRecord r.outRing (outputRecord r e 1 code 0 0 r.lastVersion r.lastStep (r.promptLen + r.delivered) late) s3
  let s5 := { s4 with dealer := { s4.dealer with
    ends := if late then bump s4.dealer.ends 4 r.cancels.length else s4.dealer.ends } }
  r.cancels.foldl (fun s t => finish t (if late then Status.lateCancel else Status.cancelled) s) s5

/-! ### The dice and the draw (R287, R289) -/

/-- mix of R287. -/
def diceMix (x : W64) : W64 :=
  let x := (x ^^^ (x >>> 32)) * 0xA24BAED4963EE407
  let x := (x ^^^ (x >>> 29)) * 0x9FB21C651E98DF25
  x ^^^ (x >>> 32)

/-- dice(seed, key, pos) of R287. -/
def dice (seed : W64) (key : W32) (pos : Nat) : W64 :=
  diceMix (diceMix (seed ^^^ (key.zeroExtend 64 * 0x8F1BBCDC6D2A3E91)) ^^^ (BitVec.ofNat 64 pos * 0xE3A59C174B62D0F9))

/-- The uniform value of a draw, exact in FP32. -/
def uniform (d : W64) : W32 := toF32 (.fin (bitsOf d.toNat 40 24 : Nat) (-24))

def fOne : W32 := 0x3F800000

/-- exp of the dice unit (Table 2.6). -/
def fExp (x : W32) : W32 := Func.exp.apply x

/-- Whether a value is finite. -/
def isFiniteW (x : W32) : Bool := decide (bitsOf x.toNat 23 8 ≠ 255)

/-- c_0, c_1, … of R289. -/
def cumul (v0 : W32) (c : W32) : List W32 → List W32
  | [] => []
  | v :: t => let c' := fAdd c (fExp (fSub v v0)); c' :: cumul v0 c' t

/-- The number of candidates that TOP_P keeps: the first j + 1 at which the mass reaches p. -/
def nucleus (l p : W32) : List W32 → W32 → Nat → Option Nat
  | [], _, _ => none
  | v :: t, q, j =>
    let q' := fAdd q (fExp (fSub v l))
    if fCmp 2 p q' = fOne then some (j + 1) else nucleus l p t q' (j + 1)

/-- The draw of R289 over records (value, position): token and log-probability, none for NONFINITE. -/
def draw (recs : List (W32 × Nat)) (l temp : W32) (topK : Nat) (topP : W16) (u : W32) : Option (BitVec 24 × W32) :=
  match recs.take topK with
  | [] => none
  | v0 :: rest =>
    if ¬(isFiniteW v0.1 ∧ isFiniteW l) then none
    else
      let vs := v0 :: rest
      let i := if temp = 0 then 0 else
        let cs := fOne :: cumul v0.1 fOne (rest.map (fun x => x.1))
        let p : W32 := toF32 (.fin topP.toNat (-16))
        let jj := if topP = 0 then vs.length else (nucleus l p (vs.map (fun x => x.1)) 0 0).getD vs.length
        let t := fMul u ((cs[jj - 1]?).getD fOne)
        ((cs.take jj).findIdx? (fun c => decide (fCmp 1 t c = fOne))).getD (jj - 1)
      let w := (vs[i]?).getD v0
      some (BitVec.ofNat 24 w.2, fSub w.1 l)

/-! ### Tokens of a step (R282) -/

/-- Tokens that a dealt entry inputs. -/
def stepTokens (s : State) (r : Request) : Nat :=
  if r.state = .decode then 1 else min s.dealer.chunk.toNat (r.promptLen - r.curLen)

/-- Whether the step draws a token for it. -/
def stepDraws (r : Request) (t : Nat) : Bool := decide (r.promptLen ≤ r.curLen + t)

/-- New pages that it needs (R274). -/
def newPages (r : Request) (t : Nat) : Nat := (r.curLen + t + 15) / 16 - r.pages

/-! ### Ranking and the walk (R280, R281) -/

/-- Ranks before: PRIORITY, then DEADLINE, then ADMIT_SEQ. -/
def ranksBefore (a b : Request) : Bool :=
  decide (b.priority < a.priority) || (decide (a.priority = b.priority) &&
    (decide (a.deadline < b.deadline) || (decide (a.deadline = b.deadline) && decide (a.admitSeq < b.admitSeq))))

def rankInto (s : State) (e : Nat) : List Nat → List Nat
  | [] => [e]
  | x :: t => if ranksBefore (request s e) (request s x) then e :: x :: t else x :: rankInto s e t

/-- The occupied entries in ranking order. -/
def ranking (s : State) (es : List Nat) : List Nat := es.foldl (fun l e => rankInto s e l) []

/-- The slot rule of a boundary (Table 9.6): the slot fixed at step 3, and whether it is the HELD one. -/
def slotRule (s : State) (slotNo : Nat) (old : Bool) (r : Request) : Bool :=
  if old then r.pin && r.pinBound && decide (r.pinSlot = slotNo)
  else !r.pin || !r.pinBound || (decide (r.pinSlot = slotNo) && decide ((slot s slotNo).state = .live))

/-- What the walk has dealt so far. -/
structure Walk where
  dealt   : List Nat
  pages   : Nat
  prefill : Nat
  skip    : Tab W64

/-- Which limit of Table 9.6 an entry meets, in table order; none when it can be dealt. -/
def limitMet (s : State) (w : Walk) (e : Nat) : Option Nat :=
  let r := request s e
  let t := stepTokens s r
  let pre := decide (r.state ≠ .decode)
  if (entryPages s e).any (fun p => decide (1 < (page s p).tier)) then some 3
  else if ringFree s r.outRing ≤ (w.dealt.filter (fun x => decide ((request s x).outRing = r.outRing))).length then some 2
  else if !r.eval && decide ((Tab.get (fun _ => (0xFFFFFFFF : W32)) s.dealer.budgets r.tenant).toNat ≤
      (w.dealt.filter (fun x => decide ((request s x).tenant = r.tenant) && !(request s x).eval)).length) then some 0
  else if pre && decide (s.dealer.prefillSlots.toNat ≤ w.prefill) then some 4
  else if s.dealer.freeCount < w.pages + newPages r t then some 1
  else none

/-- The conditions of Table 9.6 that have no counter: live state, CANCEL and MOVING 0, slot rule, EVAL in LEARN. -/
def openEntry (s : State) (slotNo : Nat) (old evalOnly : Bool) (e : Nat) : Bool :=
  let r := request s e
  holdsEnd r && !r.cancel && !r.moving && slotRule s slotNo old r && (!evalOnly || r.eval)

/-- Walk a ranking, up to `cap` sequences in the batch. -/
def walk (s : State) (cap : Nat) : List Nat → Walk → Walk
  | [], w => w
  | e :: t, w =>
    if cap ≤ w.dealt.length then w
    else match limitMet s w e with
      | some k => walk s cap t { w with skip := bump w.skip k 1 }
      | none =>
        let r := request s e
        walk s cap t { w with
          dealt := w.dealt ++ [e], pages := w.pages + newPages r (stepTokens s r),
          prefill := if r.state = .decode then w.prefill else w.prefill + 1 }

/-- Step 5's walk: eval entries up to 128, then ordinary ones up to 1,024 in all. -/
def chooseBatch (s : State) (slotNo : Nat) (old evalOnly : Bool) (es : List Nat) : Walk :=
  let rk := (ranking s es).filter (openEntry s slotNo old evalOnly)
  let w := walk s 128 (rk.filter (fun e => (request s e).eval)) { dealt := [], pages := 0, prefill := 0, skip := s.dealer.skip }
  walk s 1024 (rk.filter (fun e => !(request s e).eval)) w

/-- Whether an entry is dealable at a boundary of the given slot, alone (R280). -/
def dealable (s : State) (slotNo : Nat) (old evalOnly : Bool) (e : Nat) : Bool :=
  openEntry s slotNo old evalOnly e &&
    decide (limitMet s { dealt := [], pages := 0, prefill := 0, skip := [] } e = none)

/-- Dealable requests pinned to a HELD slot (WEIGHT_POINTER.OLD_DEALABLE, R260). -/
def oldDealable (s : State) (i : Nat) : Bool :=
  decide ((slot s i).state = .held) && (occupied s).any (dealable s i true false)

end Sys2Proof.Machine
end

