-- ==== Sys2Proof/Machine/Fail.lean ====
section
/-! DEFINITION. How castles, collectives and outstanding operations fail; the move; the loss of a PCIe link (R255, R357,
R406, R412). -/

namespace Sys2Proof.Machine

/-! ### Castles -/

/-- The member objects that a castle writes. -/
def castleMembers (c : Castle) : List Nat :=
  (if c.body.flags.getLsbD 0 then [] else [c.body.base.toNat]) ++
    (if c.body.adapter = 0xFFFF then [] else [c.body.adapter.toNat])

/-- Leave a whole object's data undefined. -/
def undefineObject (o : Nat) (s : State) : State :=
  let x := obj s o
  if x.inMem then undefineBytes x.base x.len s else s

/-- The slot that a castle writes; none for send only. -/
def castleTarget (b : CastleBody) : Option Nat := if b.role = 2 then none else some (b.target.toNat % 2)

/-- The running castle ends short: its target is EMPTY, its members' data undefined (R255). -/
def dropBuilding (s : State) : State :=
  match s.dealer.building with
  | none => s
  | some c =>
    let s1 := { s with dealer := { s.dealer with building := none } }
    match castleTarget c.body with
    | some t => (castleMembers c).foldl (fun s o => undefineObject o s) (setSlot t (fun _ => Slot.cold) s1)
    | none => s1

/-- The running castle fails (R255). -/
def failBuilding (status : Byte) (s : State) : State :=
  match s.dealer.building with
  | none => s
  | some c => complete c.ticket status (BitVec.ofNat 64 c.flagged) false (dropBuilding s)

/-- The first flagged value of a castle with ABORT_ON_FLAG fails it (R251). -/
def failFlagged (s : State) : State :=
  failBuilding Status.castleFlagged { s with dealer := { s.dealer with
    building := s.dealer.building.map (fun c => { c with flagged := c.flagged + 1 }) } }

/-! ### Collectives (R357) -/

/-- COLL_ERRORS index of a failure. -/
def collErrorIndex (status : Byte) : Option Nat :=
  if status = Status.collMismatch then some 0 else if status = Status.collStall then some 1
  else if status = Status.collLost then some 2 else if status = Status.seqOrder then some 3 else none

/-- SOURCE of a collective's completion: 3 for SEND and RECV, else 4 (R167). -/
def collSource (b : CollBody) : Nat := if b.kind = 6 ∨ b.kind = 7 then 3 else 4

/-- The programs that a COLL_START completion signals: its own, CMASK and DMASK (R159). -/
def collPrograms (p : Nat) (cmask : W32) (dmask : BitVec 4) : List Nat :=
  let ms := maskProgs cmask dmask
  if ms.contains p then ms else ms ++ [p]

/-- Report the end of a collective: its command's record, or the completion on its way to the wait points (R159). -/
def endColl (c : Coll) (status : Byte) (nonfinite : Bool) (s : State) : State :=
  let s1 := match c.ticket with
    | some t => complete t status 0 nonfinite s
    | none => s
  match c.prog with
  | some (p, wp, cmask, dmask) =>
    addOp (.ext (dieOf p) (if collSource c.body = 3 then .lc else .none) (collPrograms p cmask dmask) wp (collSource c.body) [] (decide (status ≠ Status.ok)) (some p)) s1
  | none => s1

/-- A collective fails. -/
def failColl (c : Coll) (status : Byte) (s : State) : State :=
  let s1 := { s with unlia := { s.unlia with
    colls := s.unlia.colls.filter (fun x => decide (x.id ≠ c.id))
    collErrors := match collErrorIndex status with
      | some k => bump s.unlia.collErrors k 1
      | none => s.unlia.collErrors } }
  endColl c status false s1

/-! ### Outstanding commands -/

/-- The command of an outstanding operation, when it has one. -/
def opTicket : Op → Option Ticket
  | .move t _ _ _ | .hostCopy t _ | .pageMove t _ | .flashWait t _ | .repairWait t _ => some t
  | _ => none

/-- End an outstanding command with a failing status. -/
def failOp (id : Nat) (status : Byte) (s : State) : State :=
  match opAt s id with
  | none => s
  | some o =>
    let s1 := match o with
      | .pageMove _ b => setRequest b.entry.toNat (fun r => { r with moving := false }) s
      | _ => s
    finishOpt (opTicket o) status (dropOp id s1)

/-! ### The move (R406) -/

/-- Change the holder: EPOCH + 1, a MOVE_CHANGE record, MOVE_CHANGED to both hosts. -/
def changeHolder (h : Option Port) (s : State) : State :=
  let s1 := { s with host := { s.host with holder := h, epoch := s.host.epoch + 1, leaseStart := s.tick } }
  raiseEvent Event.moveChanged (score 0 0 0x0009 0 (stateData s1) s1)

/-! ### Loss of a PCIe link (R412) -/

/-- The queues that functions of a port own and that run: stopped with CAUSE 4. -/
def stopQueues (p : Port) (s : State) : State :=
  let qs := (s.host.queues.filter (fun e => e.2.enable && decide (e.2.owner.port = p))).map (fun e => e.1)
  qs.foldl (fun s q => setQueue q (fun x => { x with error := true, cause := 4 }) s) s

/-- Set CANCEL on every occupied entry of a port's functions. -/
def cancelPort (p : Port) (s : State) : State :=
  let es := (s.dealer.requests.filter (fun e => holdsEnd e.2 && decide (e.2.owner.port = p))).map (fun e => e.1)
  let s1 := es.foldl (fun s e => setRequest e (fun r => { r with cancel := true }) s) s
  if es = [] then s1 else wake s1

/-- One port's link goes down while the module runs (R412). -/
def portDown (p : Port) (s : State) : State :=
  let s1 := setPort p (fun x => { x with linkUp := false, rate := 0, width := 0 }) s
  let s2 := cancelPort p (stopQueues p s1)
  let s3 := if s2.host.holder = some p then changeHolder none s2 else s2
  raiseEventAt (Port.other p) Event.otherPortDown s3

/-- After PERST# or a block reset of a port: queue pages, EVENT registers and BAR2_WINDOW take their Cold values; owners
and marks are kept (R412). DEDUCED (log 80): BAR2_REFUSED, LAST_RESULT, the read latches and the settings of configuration space go the
same way (R427, Table 14.4). -/
def portCold (p : Port) (s : State) : State :=
  let qs := (s.host.queues.filter (fun e => decide (e.2.owner.port = p))).map (fun e => e.1)
  let s1 := qs.foldl (fun s q => setQueue q (fun x => { Queue.cold q with owner := x.owner, inFlight := x.inFlight }) s) s
  setPort p (fun x =>
    { x with events := 0, mask := 0, base := 0x400, refused := 0, result := .none, latchHi := [], latchLo := [],
             barReads := [], d3hot := false, numVfs := 0, bar2Log2 := 34, ready := false }) s1

end Sys2Proof.Machine
end

