-- ==== Sys2Proof/Machine/CollShape.lean ====
section
/-! DEFINITION. What a collective's descriptor means: formats, dies, leaves, buffers; the failure of one that has started; and the
objects that outstanding commands read (R244, R347, R351, R357, Table 11.8). -/

namespace Sys2Proof.Machine

/-- SEND or RECV. -/
def isP2p (b : CollBody) : Bool := decide (6 ≤ b.kind.toNat)
/-- ALL_REDUCE or REDUCE_SCATTER. -/
def isReduction (b : CollBody) : Bool := decide (b.kind.toNat ≤ 1)

def collIn (b : CollBody) : Option Fmt := Fmt.ofCode (b.fmt.toNat % 16)
def collOut (b : CollBody) : Option Fmt := Fmt.ofCode (b.fmt.toNat / 16)

/-- Bytes of `n` elements of a format. -/
def fmtBytes (f : Option Fmt) (n : Nat) : Nat :=
  match f with
  | none => 0
  | some f => if f.isPb then n / 64 * f.rowBytes else n * (f.params.bits / 8)

/-- Dies of DIE_MASK. -/
def collDies (b : CollBody) : List Nat := (List.range 4).filter (fun d => b.dieMask.getLsbD d)
def lowestDie (b : CollBody) : Nat := ((collDies b).head?).getD 0

/-- Member positions of the collective's group. -/
def collMembers (s : State) (b : CollBody) : List Nat :=
  if b.group.toNat < 1024 then membersOf s (group s b.group.toNat) else []

/-- Leaf indices in ascending order: 4p + d (R351). -/
def collLeaves (s : State) (b : CollBody) : List Nat :=
  ((collMembers s b).map (fun p => (collDies b).map (fun d => 4 * p + d))).flatten

/-- The module's own position. -/
def ownPos (s : State) : Option Nat := (ownPosition s).map (fun x => x.1)
def ownCopy (s : State) : Nat := ((ownPosition s).map (fun x => x.2)).getD 0

/-- Elements that this module's leaf of die d supplies and receives (Table 11.8). -/
def supplied (s : State) (b : CollBody) : Nat :=
  let n := b.count.toNat
  let g := (collLeaves s b).length
  match b.kind.toNat with
  | 2 | 4 => n / g
  | 3 => if ownPos s = some b.peer.toNat then n else 0
  | 7 => 0
  | _ => n

def received (s : State) (b : CollBody) (d : Nat) : Nat :=
  let n := b.count.toNat
  let g := (collLeaves s b).length
  match b.kind.toNat with
  | 1 => n / g
  | 4 => if ownPos s = some b.peer.toNat ∧ d = lowestDie b then n else 0
  | 6 => 0
  | _ => n

/-- The source and the destination of die d as (address, bytes). -/
def collSrc (s : State) (b : CollBody) (d : Nat) : Nat × Nat :=
  (b.src.toNat + 64 * b.dieStride.toNat * d, fmtBytes (collIn b) (supplied s b))
def collDst (s : State) (b : CollBody) (d : Nat) : Nat × Nat :=
  (b.dst.toNat + 64 * b.dieStride.toNat * d, fmtBytes (collOut b) (received s b d))

/-- The dies' sources and destinations that hold bytes. -/
def collSources (s : State) (b : CollBody) : List (Nat × Nat) := ((collDies b).map (collSrc s b)).filter (fun x => decide (x.2 ≠ 0))
def collDests (s : State) (b : CollBody) : List (Nat × Nat) := ((collDies b).map (collDst s b)).filter (fun x => decide (x.2 ≠ 0))

/-- A collective fails with its destinations undefined (R357); COLL_MISMATCH leaves them unchanged (R355). -/
def breakColl (status : Byte) (c : Coll) (s : State) : State :=
  let s1 := if status = Status.collMismatch then s
    else (collDests s c.body).foldl (fun s' x => undefineBytes x.1 x.2 s') s
  failColl c status s1

/-- Whether a buffer of a collective lies, in part, on memory port m. -/
def collOnPort (s : State) (b : CollBody) (m : Nat) : Bool :=
  (collDies b).any (fun d => [collSrc s b d, collDst s b d].any (fun x => (physSpans x.1 x.2).any (fun y => decide (y.1 = m))))

/-- Whether a buffer lies on a memory port that is closed (R427). -/
def collShut (s : State) (b : CollBody) : Bool := (List.range 12).any (fun m => blockShut s (32 + m) && collOnPort s b m)

/-! ### Readers and references (R244) -/

/-- The objects that an outstanding operation of a command reads. -/
def opReads (s : State) : Op → List Nat
  | .move _ b _ _ => [b.src.toNat]
  | .hostCopy _ b => if b.dir = 0 then [b.object.toNat] else []
  | .pageMove _ b =>
    ((((entryPages s b.entry.toNat).drop b.first.toNat).take b.count.toNat).map (fun p =>
      (List.range 4).map (fun d => (pagePlace s d p (page s p).tier (page s p).frame).1))).flatten
  | _ => []

/-- The sources of the running castle's own chunks that are still to be sent. -/
def castleSources (c : Castle) : List Nat := c.toSend.filterMap (fun i => (c.map[i]?).map (fun e => e.sourceObject))

/-- The objects that the running castle reads: its map and its sources, or its image. -/
def castleReads (c : Castle) : List Nat :=
  if c.body.mode = 0 then c.body.map.toNat :: castleSources c
  else if c.body.mode = 1 then [c.body.source.toNat] else []

/-- The objects that a command's collective reads, once it has started. -/
def collReads (s : State) (c : Coll) : List Nat :=
  if c.active ∧ c.ticket.isSome then
    ((collDies c.body).map (fun d => (objectsIn s (collSrc s c.body d).1 (collSrc s c.body d).2).map (fun e => e.1))).flatten
  else []

/-- The objects that each outstanding command reads. -/
def commandReads (s : State) : List (List Nat) :=
  s.host.ops.map (fun e => opReads s e.2) ++ s.unlia.colls.map (collReads s) ++
    (match s.dealer.building with | some c => [castleReads c] | none => []) ++
    s.dealer.loading.map (fun x => [x.2.2.toNat]) ++ s.conceal.jobs.map (fun j => j.body.list.toNat :: j.reading) ++
    s.conceal.restores.map (fun x => if x.2.source = 0 then [x.2.object.toNat] else []) ++
    s.conceal.snapshots.map (fun j => [j.slot.base.toNat, j.slot.adapter.toNat])

/-- Outstanding commands that read an object. -/
def readersOf (s : State) (o : Nat) : Nat := (commandReads s).countP (fun os => os.contains o)

/-- Outstanding commands that read a member of slot i (SLOT_INFO.READERS). -/
def slotReaders (s : State) (i : Nat) : Nat := (commandReads s).countP (fun os => os.any (isMember s i))

/-- PIN_COUNT of an object (R244). -/
def pinCount (s : State) (o : Nat) : Nat :=
  flag ((slot s 0).state.refs && isMember s 0 o) + flag ((slot s 1).state.refs && isMember s 1 o) +
  flag (isMember s 0 o) * pinnedTo s 0 + flag (isMember s 1 o) * pinnedTo s 1 + readersOf s o +
  (s.dealer.requests.filter (fun e => (decide (e.2.state = .queued) || decide (e.2.state = .prefill)) &&
    decide (e.2.promptObject.toNat = o))).length

end Sys2Proof.Machine
end

