-- ==== Sys2Proof/Machine/Blocks.lean ====
section
/-! DEFINITION. Blocks and their resets: what a closing wrapper fails and what a block reset sets (section 14.5). -/

namespace Sys2Proof.Machine

/-- The die of a memory port's or a flash group's block. -/
def blockDie (b : Nat) : Nat := if b < 44 then (b - 32) / 3 else b - 44

/-- Whether a ply's RESOURCE_MAP names a block, or its die for a memory port or flash group (R426, R428). -/
def mapNames (m : W64) (b : Nat) : Bool :=
  if b < 32 then m.getLsbD b
  else if b < 48 then m.getLsbD (32 + blockDie b)
  else if b < 64 then m.getLsbD (36 + (b - 48))
  else false

/-- Whether an object lies, in part, on memory port m. -/
def onPort (o : Obj) (m : Nat) : Bool := o.inMem && (physSpans o.base o.len).any (fun x => decide (x.1 = m))

/-- Whether an outstanding operation needs a block: a memory port's lines, or a flash group's units. -/
def opNeeds (s : State) (b : Nat) (o : Op) : Bool :=
  let ids := match o with
    | .move _ x _ _ => [x.src.toNat, x.dst.toNat]
    | .hostCopy _ x => [x.object.toNat]
    | _ => []
  if 32 ≤ b ∧ b < 44 then
    (match o with
      | .stream x => !x.served && x.ports.contains (b - 32)
      | .pageMove _ _ => true
      | _ => ids.any (fun i => onPort (obj s i) (b - 32)))
  else if 44 ≤ b ∧ b < 48 then
    (match o with
      | .pageMove _ x => decide (x.tier = 2)
      | .flashWait _ _ => true
      | _ => ids.any (fun i => (obj s i).inFlash))
  else false

/-- Whether the running castle needs a block. -/
def castleNeeds (s : State) (b : Nat) (c : Castle) : Bool :=
  if 32 ≤ b ∧ b < 44 then
    ((if c.body.role = 2 then [] else castleMembers c) ++ castleSources c).any (fun i => onPort (obj s i) (b - 32))
  else if 44 ≤ b ∧ b < 48 then decide (c.body.mode = 1)
  else false

/-- The first closed block that an operation needs. -/
def shutFor (s : State) (o : Op) : Option Nat :=
  ((List.range 16).map (32 + ·)).find? (fun b => blockShut s b && opNeeds s b o)

/-- Start an operation, unless a block that it needs is closed: its command then completes with RESET (R427 step 2). -/
def startOp (o : Op) (s : State) : State :=
  match shutFor s o with
  | none => addOp o s
  | some b => finishOpt (opTicket o) Status.reset (setBlock b (fun x => { x with errors := satInc x.errors }) s)

/-- Whether a castle needs a closed block. -/
def castleShut (s : State) (c : Castle) : Bool := ((List.range 16).map (32 + ·)).any (fun b => blockShut s b && castleNeeds s b c)

/-- The collectives that have started and whose buffers lie on a memory port fail. -/
def failColls (b : Nat) (s : State) : State :=
  if 32 ≤ b ∧ b < 44 then
    (s.unlia.colls.filter (fun c => c.active && collOnPort s c.body (b - 32))).foldl (fun s c => breakColl Status.reset c s) s
  else s

/-- Every outstanding transfer into a block ends with an error: its command completes with RESET (R427 step 2). -/
def failBlockOps (b : Nat) (s : State) : State :=
  let ids := (s.host.ops.filter (fun e => opNeeds s b e.2)).map (fun e => e.1)
  let s1 := ids.foldl (fun s id => failOp id Status.reset s) s
  let s2 := match (failColls b s1).dealer.building with
    | some c => if castleNeeds s1 b c then failBuilding Status.reset (failColls b s1) else failColls b s1
    | none => failColls b s1
  setBlock b (fun x => { x with errors := if x.errors.toNat + ids.length < 0xFFFF then x.errors + BitVec.ofNat 16 ids.length else 0xFFFF }) s2

/-- Drop the entries of a table whose index meets a condition. -/
def Tab.clear {α : Type} (p : Nat → Bool) (t : Tab α) : Tab α := t.filter (fun e => !p e.1)

/-- The units of one cluster at their Cold values: buffers, banks, side memory (+0, tags 0: R133), flag summary. A running step's abort puts
nothing back into them. -/
def clusterCold (k : Nat) (s : State) : State :=
  let u := s.units
  let inE (w i : Nat) : Bool := decide (9 * w * k ≤ i) && decide (i < 9 * w * (k + 1))
  let inK (w i : Nat) : Bool := decide (w * k ≤ i) && decide (i < w * (k + 1))
  let own (x : Undo) : Bool := match x.store with
    | .buf => inE (4 * 65536) x.start
    | .bank => inE (2 * 16384) x.start
    | .side => inK 262144 x.start
    | _ => inK 65536 x.start
  setRun (fun r => { r with undo := r.undo.filter (fun x => !own x), flagged := r.flagged.filter (fun x => decide (x.1 ≠ k)) })
    { s with units := { u with
      buf := Tab.clear (inE (4 * 65536)) u.buf, bufFmt := Tab.clear (inE 4) u.bufFmt, bufRead := Tab.clear (inE 4) u.bufRead,
      bufReady := Tab.clear (inE 4) u.bufReady, bank := Tab.clear (inE (2 * 16384)) u.bank,
      bankHas := Tab.clear (inE 2) u.bankHas, bankFree := Tab.clear (inE 2) u.bankFree,
      bankLoaded := Tab.clear (inE 2) u.bankLoaded, side := Tab.clear (inK 262144) u.side,
      sideTag := Tab.clear (inK 65536) u.sideTag, param := Tab.clear (inK 65536) u.param,
      grad := Tab.clear (inK 65536) u.grad, flags := Tab.clear (inK 1) u.flags } }

/-- A memory port's registers at their Cold values; the lines are kept in self-refresh (Table 14.4). -/
def memPortCold (m : Nat) (s : State) : State :=
  let t := s.tiers
  { s with tiers := { t with
      corrected := Tab.drop m t.corrected, reread := Tab.drop m t.reread, dropped := Tab.drop m t.dropped,
      repaired := Tab.drop m t.repaired, tagMiss := Tab.drop m t.tagMiss, bgSlots := Tab.drop m t.bgSlots,
      scrub := Tab.drop m t.scrub, lastErr := Tab.drop m t.lastErr, corrQueue := Tab.drop m t.corrQueue } }

/-- The settings that a port of Unlia takes at reset. -/
def uportCold (s : State) (u : Nat) : UPort := UPort.cold (Tab.get (fun _ => false) s.glaren.linkEncrypt u)

/-- A translation layer that a reset stops: a format that it ends has still to be made (R232; DEDUCED, log entry 79). -/
def FlashLayer.stopped (x : FlashLayer) : FlashLayer := { FlashLayer.cold with formatting := x.formatting }

/-- The layers that still have to format their packages. -/
def unformatted (t : Tab FlashLayer) : Tab FlashLayer :=
  (t.filter (fun e => e.2.formatting)).map (fun e => (e.1, e.2.stopped))

/-- What the reset of a block sets (R427 step 3). -/
def blockCold (b : Nat) (s : State) : State :=
  if b < 32 then clusterCold b s
  else if b < 44 then memPortCold (b - 32) s
  else if b < 48 then setLayer (b - 44) FlashLayer.stopped s
  else if b < 64 then setUPort (b - 48) (fun _ => uportCold s (b - 48)) s
  else if b = 64 then portCold .A s
  else portCold .B s

/-- Abandon the running step when its RESOURCE_MAP names the block (R426). -/
def abandonIfNamed (b : Nat) (s : State) : State :=
  match s.dealer.run with
  | some r => if mapNames r.ply.resourceMap b then abandonRun s else s
  | none => s

/-- A block reset starts: the wrapper closes, transfers end with an error, the block is held in reset (R427 steps 1 to 3).
A reset of a block whose reset is under way is merged into it (R426). -/
def startBlock (b : Nat) (s : State) : State :=
  match (block s b).state with
  | .closing | .inReset | .waitClock | .init => s
  | _ =>
    let s0 := if b = 64 then portDown .A s else if b = 65 then portDown .B s else s
    blockCold b (failBlockOps b (setBlock b (fun x => { x with state := .inReset, early := false }) (abandonIfNamed b s0)))

/-- Block resets that wait for the boundary start at its step 1 (R426). -/
def startPendingBlocks (s : State) : State :=
  ((s.resets.blocks.filter (fun e => decide (e.2.state = .pending))).map (fun e => e.1)).foldl (fun s b => startBlock b s) s

/-- Whether a ply may launch: every block that it names is OPEN (R428). -/
def blocksOpen (s : State) (m : W64) : Bool :=
  s.resets.blocks.all (fun e => !mapNames m e.1 || decide (e.2.state = .open_) || decide (e.2.state = .pending))

end Sys2Proof.Machine
end

