-- ==== Sys2Proof/Machine/Conceal.lean ====
section
/-! DEFINITION. Twins, the checkpoint schedule, the replay log and replay (chapter 12). -/

namespace Sys2Proof.Machine

/-! ### Positions of this module (R340, R341, R365) -/

/-- The node ID of the partner copy of a twinned position; none when the position is not twinned. -/
def twinNode (s : State) : Option W16 :=
  match ownPosition s with
  | none => none
  | some (p, c) =>
    let x := position s p
    let n := if c = 0 then x.twin else x.node
    if n = 0xFFFF then none else some n

/-- TWIN_STATUS.ALONE: armed with no TWIN_NODE. -/
def twinAlone (s : State) : Bool := s.conceal.armed && decide (twinNode s = none)

/-- The 16 bytes of a position entry (Table 11.5). -/
def Position.toBytes (p : Position) : List Byte :=
  leBytes 2 p.node.toNat ++ leBytes 2 p.twin.toNat ++ leBytes 1 (p.state + 4 * flag p.reserve) ++ leBytes 3 0 ++
    leBytes 4 p.gen.toNat ++ leBytes 4 0

/-! ### Digest reports (R366 to R369) -/

/-- Payload of a DIGEST_REPORT (Table 12.2). -/
def Report.toBytes (r : Report) : List Byte :=
  leBytes 8 r.step.toNat ++ leBytes 4 r.plyId.toNat ++ leBytes 2 r.health.toNat ++ leBytes 1 (flag r.abandoned) ++
    leBytes 1 0 ++ leBytes 8 r.digest.toNat

/-- Two reports agree when STEP, PLY_ID and DIGEST are equal and neither is ABANDONED (R367). -/
def Report.agrees (a b : Report) : Bool :=
  decide (a.step = b.step) && decide (a.plyId = b.plyId) && decide (a.digest = b.digest) && !a.abandoned && !b.abandoned

/-- Compare the reports of steps that both sides have given, in order of step (R367, R369). -/
def compareReports : Nat → State → State
  | 0, s => s
  | n + 1, s =>
    match s.conceal.ownReports with
    | [] => s
    | a :: rest =>
      match s.conceal.twinReports.find? (fun b => decide (b.step = a.step)) with
      | none => s
      | some b =>
        let c := s.conceal
        let c1 := { c with ownReports := rest, twinReports := c.twinReports.erase b }
        if c.mismatch then compareReports n { s with conceal := c1 }
        else if a.agrees b then compareReports n (wake { s with conceal := { c1 with matched := a.step } })
        else
          compareReports n (raiseEvent Event.twinMismatch (score (leadSource s) 2 0x0032 a.step [] { s with conceal :=
            { c1 with mismatch := true, mismatchStep := a.step, mismatchOwn := a.digest, mismatchTwin := b.digest } }))

/-- Compare every pair of reports that can be compared. -/
def compareAll (s : State) : State := compareReports s.conceal.ownReports.length s

/-- STEP_HEALTH as reported. -/
def healthWord (c : Conceal) : Nat :=
  c.healthCorrected.toNat + 256 * flag c.healthClock + 512 * flag c.healthSupply + 1024 * flag c.healthRepair

/-- Report a step's end to the twin while ARMED (R366). -/
def sendReport (r : Report) (s : State) : State :=
  if s.conceal.armed then
    match twinNode s with
    | some n =>
      compareAll (emit (.mgmt (BitVec.ofNat 15 n.toNat) Msg.digestReport r.toBytes)
        { s with conceal := { s.conceal with ownReports := s.conceal.ownReports ++ [r] } })
    | none => s
  else s

/-- Whether a launch of the next step waits on the twin: the window (R368) or a mismatch (R369). -/
def twinHolds (s : State) : Bool :=
  let c := s.conceal
  c.mismatch || (c.armed && !twinAlone s && decide (c.matched.toNat + c.window.toNat < s.dealer.stepNumber.toNat + 1))

/-! ### The replay log (R379, R380) -/

/-- The current log object of the checkpoint command in force, when it keeps a log. -/
def logObject (s : State) : Option W16 :=
  match s.conceal.ckpt with
  | some (_, b) => if b.flags.getLsbD 0 then some (if s.conceal.logCurrent then b.logB else b.logA) else none
  | none => none

/-- A record's 64 bytes (Table 12.6). -/
def LogRec.toBytes (r : LogRec) : List Byte :=
  let b := leBytes 8 r.step.toNat ++ leBytes 4 r.plyId.toNat ++ leBytes 1 r.kind.toNat ++ leBytes 1 r.variant.toNat ++
    leBytes 1 r.flags.toNat ++ leBytes 1 0 ++ leBytes 8 r.inputId.toNat ++ leBytes 4 r.version.toNat ++
    leBytes 4 r.epoch.toNat ++ leBytes 8 r.posDigest.toNat ++ leBytes 8 r.digest.toNat ++ leBytes 8 r.tick.toNat ++ leBytes 4 0
  b ++ leBytes 4 (crc32c b).toNat

/-- The metadata of translation layer d. -/
def mediaOf (s : State) (d : Nat) : FlashLayer := Tab.get (fun _ => FlashLayer.blank) s.tiers.media d

/-- Update a translation layer: its metadata, and its registers once READY. -/
def setMedia (d : Nat) (f : FlashLayer → FlashLayer) (s : State) : State :=
  let s1 := { s with tiers := { s.tiers with media := Tab.mod (fun _ => FlashLayer.blank) s.tiers.media d f } }
  if (layer s d).ready then setLayer d f s1 else s1

/-- The channel of unit u of a flash object, F0 to F63, and the die it lies on, 16 channels each (R227). -/
def unitChannel (h : W32) (u : Nat) : Nat := 16 * ((u + h.toNat % 64) % 4) + (u + h.toNat % 64) / 4 % 16
def unitDie (h : W32) (u : Nat) : Nat := unitChannel h u / 16

/-- The 16 KiB pages that an append of n bytes at length `len` begins, counted at the die that R227 gives each. -/
def countPages (h : W32) (len n : Nat) (s : State) : State :=
  let p0 := (len + 16383) / 16384
  (List.range ((len + n + 16383) / 16384 - p0)).foldl (fun s i =>
    setMedia (unitDie h ((p0 + i) / 4)) (fun x => { x with programmed := x.programmed + 1 }) s) s

/-- Append data to the flash object that a placement entry names. -/
def appendFlash (o : Nat) (bs : List Byte) (s : State) : State :=
  let x := obj s o
  let h : W32 := BitVec.ofNat 32 x.address.toNat
  if x.inFlash then
    countPages h (match flashOf s h with | some y => y.data.length | none => 0) bs.length (setFlash h (fun d => d ++ bs) s)
  else s

/-- Reset a flash object to length 0, which keeps its handle (R376). -/
def truncateFlash (o : Nat) (s : State) : State :=
  let x := obj s o
  if x.inFlash then setFlash (BitVec.ofNat 32 x.address.toNat) (fun _ => []) s else s

/-- Whether a translation layer is WORN: it refuses appends (R231). -/
def flashWorn (s : State) : Bool := (List.range 4).any (fun d => (layer s d).worn)

/-- Send a piece of the log to the buddy, when the command names one; `fresh` says that the log starts anew with it (R379). -/
def sendLog (fresh : Bool) (bs : List Byte) (s : State) : State :=
  match s.conceal.ckpt with
  | some (_, b) =>
    if b.buddyPos ≠ 0xFFFF ∧ b.buddyLogA ≠ 0xFFFF then
      emit (.bulk b.buddyPos Msg.buddyLog
        (leBytes 2 (if s.conceal.logCurrent then b.buddyLogB else b.buddyLogA).toNat ++ leBytes 1 (flag fresh) ++ bs)) s
    else s
  | none => s

/-- Append the buffered records to the current log, and to the buddy's (R379, R380). While a layer is WORN the local append is refused and
the unit is lost here (R231). -/
def flushLog (s : State) : State :=
  match logObject s with
  | none => s
  | some o =>
    let bs := (s.conceal.logBuffer.map LogRec.toBytes).flatten
    let s1 := if bs = [] then s else sendLog false bs (if flashWorn s then s else appendFlash o.toNat bs s)
    { s1 with conceal := { s1.conceal with logBuffer := [], logTick := s1.tick } }

/-- One record for a launch, kept until its unit is appended (R379, R380). -/
def addLog (r : LogRec) (s : State) : State :=
  match logObject s with
  | none => s
  | some _ =>
    { s with conceal := { s.conceal with logBuffer := s.conceal.logBuffer ++ [r], logCount := s.conceal.logCount + 1 } }

/-! ### Replay (R382) -/

/-- The 64-byte records of a log object. -/
def logRecords (s : State) (o : W16) : List (List Byte) :=
  match flashObj s (obj s o.toNat) with
  | some x => if (obj s o.toNat).inFlash then (List.range (x.data.length / 64)).map (fun i => (x.data.drop (64 * i)).take 64) else []
  | none => []

/-- The log record of a step, from LOG_A, LOG_B or LOCAL_LOG. -/
def logOf (s : State) (step : W64) : Option (List Byte) :=
  let os := (match s.conceal.ckpt with
    | some (_, b) => if b.flags.getLsbD 0 then [b.logA, b.logB] else []
    | none => []) ++ (if s.conceal.localLog = 0xFFFF then [] else [s.conceal.localLog])
  (os.map (logRecords s)).flatten.find? (fun r => decide (fieldAt r 0 8 = step.toNat))

/-- The module diverges from the log at a step and a field: it launches no further step. -/
def diverge (step : W64) (field : Nat) (s : State) : State :=
  if s.conceal.diverged then s
  else raiseEvent Event.replayDiverged (score (leadSource s) 2 0x0033 step (leBytes 1 field)
    { s with conceal := { s.conceal with diverged := true, divField := BitVec.ofNat 3 field, divStep := step } })

/-- Compare a launch with its log record. -/
def checkLaunch (step : W64) (plyId : W32) (variant : Byte) (inputId : W64) (version : W32) (s : State) : State :=
  if step < s.conceal.until_ then
    match logOf s step with
    | none => s
    | some r =>
      if fieldAt r 8 4 ≠ plyId.toNat then diverge step 0 s
      else if fieldAt r 13 1 ≠ variant.toNat then diverge step 1 s
      else if fieldAt r 16 8 ≠ inputId.toNat then diverge step 2 s
      else if fieldAt r 24 4 ≠ version.toNat then diverge step 3 s
      else s
  else s

/-- Compare a step's digest, 0 when abandoned, with its log record. -/
def checkDigest (step digest : W64) (s : State) : State :=
  if step < s.conceal.until_ then
    match logOf s step with
    | none => s
    | some r => if fieldAt r 40 8 ≠ digest.toNat then diverge step 4 s else s
  else s

/-- REPLAY_STATUS.ACTIVE: replay runs while STEP_NUMBER is below UNTIL. -/
def replaying (s : State) : Bool := decide (s.dealer.stepNumber < s.conceal.until_)

/-! ### The checkpoint schedule (R374 to R376) -/

/-- The listed object IDs of a checkpoint command. -/
def ckptList (s : State) (b : CkptBody) : List Nat :=
  let bs := objBytes s (obj s b.list.toNat) 0 (2 * b.objCount.toNat)
  (List.range b.objCount.toNat).map (fun i => fieldAt bs (2 * i) 2)

/-- The durable data of a tier-2 object. -/
def flashData (s : State) (o : W16) : List Byte := (match flashObj s (obj s o.toNat) with | some x => x.data | none => [])

/-- Whether bytes are a committed checkpoint: a valid trailer with a matching DIGEST (R377). -/
def ckptCommitted (bs : List Byte) : Bool :=
  let n := bs.length - 128
  let t := bs.drop n
  decide (256 + 128 ≤ bs.length) && decide (fieldAt bs 0 4 = 0x4B484331) && decide (fieldAt t 0 4 = 0x4B484354) &&
    decide (fieldAt t 4 2 = 1) && decide (fieldAt t 8 8 = fieldAt bs 8 8) && decide (fieldAt t 16 8 = n) &&
    decide ((t.drop 64).take 64 = shake256 64 (bs.take n))

/-- The later committed checkpoint of two targets, as their data show it: false the first, true the second, none when neither holds
one. Where both have the same STEP the second counts (DESIGN CHOICE, log entry 69). -/
def lastCommitted (s : State) (a b : W16) : Option Bool :=
  let x := flashData s a
  let y := flashData s b
  match ckptCommitted x, ckptCommitted y with
  | true, true => some (decide (fieldAt x 8 8 ≤ fieldAt y 8 8))
  | true, false => some false
  | false, true => some true
  | false, false => none

/-- The target that does not hold the last committed checkpoint (R376): LAST_TARGET says which does, and before the first commit since the
reset the targets' own contents (log entry 69); A when neither holds one. -/
def nextTarget (s : State) (b : CkptBody) : Bool :=
  if s.conceal.commits ≠ 0 then !s.conceal.lastTarget
  else match lastCommitted s b.targetA b.targetB with
  | some x => !x
  | none => false

/-- Switch to the other log when the checkpoint before has committed, or none has been taken (R379). -/
def switchLog (s : State) : State :=
  match s.conceal.ckpt with
  | some (_, b) =>
    if b.flags.getLsbD 0 ∧ (s.conceal.ckptPrevDone ∨ ¬s.conceal.ckptTaken) then
      let s1 := flushLog s
      let cur := !s1.conceal.logCurrent
      sendLog true [] (truncateFlash (if cur then b.logB else b.logA).toNat
        { s1 with conceal := { s1.conceal with logCurrent := cur, logCount := 0 } })
    else s
  | none => s

/-- A checkpoint of a command is taken now: the engine holds a reader reference on each listed object until it has read it (R375). -/
def takeJob (b : CkptBody) (t : Option Ticket) (s : State) : State :=
  bgObj (obj s b.list.toNat) 0 (2 * b.objCount.toNat) { s with conceal := { s.conceal with
    jobs := s.conceal.jobs ++ [{ step := s.dealer.stepNumber, target := none, body := b, ticket := t, reading := ckptList s b }] } }

/-- Writing of the oldest checkpoint begins: its target is reset to length 0 (R376). -/
def startJob (s : State) : State :=
  match s.conceal.jobs with
  | j :: rest =>
    if j.target.isSome then s
    else
      let x := nextTarget s j.body
      truncateFlash (if x then j.body.targetB else j.body.targetA).toNat
        { s with conceal := { s.conceal with jobs := { j with target := some x } :: rest } }
  | [] => s

/-- The checkpoint that the command in force makes due. -/
def takeDue (s : State) : State :=
  match s.conceal.ckpt with
  | some (tk, b) =>
    if s.conceal.ckptDue then
      let s1 := takeJob b (if s.conceal.ckptFirst then some tk else none) (switchLog s)
      { s1 with conceal := { s1.conceal with
          ckptFirst := false, ckptDue := false, ckptTaken := true, ckptPrevDone := false, optCount := 0 } }
    else s
  | none => s

/-- The checkpoints that are due are taken at a boundary, those of replaced ONCE commands first; they are written in that order (R375,
R376). -/
def takeCheckpoint (s : State) : State :=
  let s1 := s.conceal.onces.foldl (fun s e => takeJob e.2 (some e.1) s) s
  startJob (takeDue { s1 with conceal := { s1.conceal with onces := [] } })

/-- An OPT ply that binds an object that a checkpoint has not read is held (R375). -/
def ckptHolds (s : State) (p : Ply) : Bool :=
  decide (p.kind = .opt) && s.conceal.jobs.any (fun j => p.binds.any (fun b => decide (b.kind = 0) && j.reading.contains b.object.toNat))

end Sys2Proof.Machine
end

