-- ==== Sys2Proof/Machine/Flags.lean ====
section
/-! DEFINITION. Flag summaries of the clusters (sections 2.5 and 3.8). -/

namespace Sys2Proof.Machine

/-- Sources of a flag beside the logical engines 0 to 7 (Table 3.9). -/
def srcVector : Nat := 8
def srcRow : Nat := 9
def srcTopk : Nat := 10
def srcClusterTree : Nat := 11
def srcDieTree : Nat := 12

/-- The first flagged value of a list of rows of kinds: kind, row, column (R65, R66). -/
def firstFlag : List (List (Option Nat)) → Nat → Option (Nat × Nat × Nat)
  | [], _ => none
  | row :: t, r =>
    match row.findIdx? (fun k => k.isSome) with
    | some c => some (((row[c]?).join).getD 0, r, c)
    | none => firstFlag t (r + 1)

/-- Whether record `a` comes before `b` within one step: the earlier ac, then the source order of R110. -/
def FlagRec.before (a b : FlagRec) : Bool :=
  decide (a.step = b.step) && (decide (a.ac < b.ac) || (decide (a.ac = b.ac) && decide (a.source < b.source)))

/-- Count one flagged tile or instruction, and keep the earliest as the first record (R67, R111). -/
def FlagSum.add (x : FlagSum) (r : FlagRec) : FlagSum :=
  { count := x.count + 1,
    first := match x.first with
      | none => some r
      | some f => if r.before f then some r else some f }

def flagSum (s : State) (k : Nat) : FlagSum := Tab.get (fun _ => FlagSum.cold) s.units.flags k

/-- Report a flag to cluster k's summary (R110). -/
def reportFlag (k : Nat) (r : FlagRec) (s : State) : State :=
  setRun (fun x => { x with flagged := x.flagged ++ [(k, r)] }) { s with units := { s.units with flags := Tab.mod (fun _ => FlagSum.cold) s.units.flags k (fun x => x.add r) } }

/-- A summary of some records alone. -/
def FlagSum.of (rs : List FlagRec) : FlagSum := rs.foldl FlagSum.add FlagSum.cold

/-- The flags of cluster k among those of a step. -/
def flagsOf (k : Nat) (xs : List (Nat × FlagRec)) : List FlagRec := (xs.filter (fun x => decide (x.1 = k))).map (fun x => x.2)

/-- The flags of work that an abort at `a` discards are not reported (R164). -/
def dropFlags (a k : Nat) (s : State) : State :=
  match s.dealer.run with
  | none => s
  | some r =>
    let late := (flagsOf k r.flagged).filter (fun x => decide (a ≤ x.ac))
    let kept := (flagsOf k r.flagged).filter (fun x => decide (x.ac < a))
    let f (x : FlagSum) : FlagSum :=
      { count := x.count - BitVec.ofNat 64 late.length, first := if late.any (fun l => decide (x.first = some l)) then (FlagSum.of kept).first else x.first }
    { s with units := { s.units with flags := Tab.mod (fun _ => FlagSum.cold) s.units.flags k f } }

/-- Clear cluster k's summary in the running step's current ac: a flag whose write completes in that ac or later is recorded after the clear
(R112; log entry 76). -/
def clearFlags (k : Nat) (s : State) : State :=
  let now := match s.dealer.run with | some r => r.nowAc | none => 0
  let keeps (x : Nat × FlagRec) : Bool := decide (x.1 ≠ k) || decide (now ≤ x.2.ac)
  let kept := match s.dealer.run with | some r => flagsOf k (r.flagged.filter keeps) | none => []
  setRun (fun r => { r with flagged := r.flagged.filter keeps })
    { s with units := { s.units with flags := Tab.set (fun _ => FlagSum.cold) s.units.flags k (FlagSum.of kept) } }

/-- Report the first flagged value, if any, of an output whose drain or writes complete at `ac` (R67); a row longer than 64 values counts its
lanes modulo 64 (R66). -/
def flagRows (k src pc : Nat) (tileM tileN : W16) (ac : Nat) (rows : List (List (Option Nat))) (s : State) : State :=
  match s.dealer.run, firstFlag rows 0 with
  | some r, some (kind, row, col) =>
    reportFlag k { kind := kind, source := src, col := col % 64, row := row, pc := pc, tileM := tileM, tileN := tileN,
                   ac := ac, step := r.step } s
  | _, _ => s

/-- FLAG_MAP: bit 8d + c is VALID of the cluster (Table 3.10). -/
def flagMap (s : State) : Nat :=
  ((List.range 32).filter (fun k => (flagSum s k).first.isSome)).foldl (fun a k => a + 2 ^ k) 0

end Sys2Proof.Machine
end

