-- ==== Sys2Proof/Machine/Operands.lean ====
section
/-! DEFINITION. Operand access of the instruction set: unit stores, reach, address registers, rows of values, and the
delivery of results to bonded SRAM and to the unit stores. -/

namespace Sys2Proof.Machine

/-! ### Byte stores -/

/-- `n` bytes of a sparse store from `k` on; an unlisted byte is 0. -/
def tabSlice : Nat → Nat → Tab Byte → List Byte
  | 0, _, _ => []
  | n + 1, k, t =>
    match t.dropWhile (fun e => decide (e.1 < k)) with
    | (j, v) :: t' => if j = k then v :: tabSlice n (k + 1) t' else 0 :: tabSlice n (k + 1) ((j, v) :: t')
    | [] => 0 :: tabSlice n (k + 1) []

/-- Store bytes from `k` on. -/
def tabStore (k : Nat) : List Byte → Tab Byte → Tab Byte
  | [], t => t
  | b :: bs, t => tabStore (k + 1) bs (Tab.set emptyByte t k b)

/-- Consecutive groups of `n` bytes; a last shorter group is kept. -/
def chunksOf (n : Nat) : Nat → List Byte → List (List Byte)
  | 0, _ => []
  | f + 1, bs => if bs = [] ∨ n = 0 then [] else bs.take n :: chunksOf n f (bs.drop n)

/-- The bytes of one unit store. -/
def Units.bytes (u : Units) : Store → Tab Byte
  | .buf => u.buf
  | .bank => u.bank
  | .side => u.side
  | .tag => u.sideTag
  | .param => u.param
  | .grad => u.grad

def Units.setBytes (u : Units) (st : Store) (t : Tab Byte) : Units :=
  match st with
  | .buf => { u with buf := t }
  | .bank => { u with bank := t }
  | .side => { u with side := t }
  | .tag => { u with sideTag := t }
  | .param => { u with param := t }
  | .grad => { u with grad := t }

/-- Deliver bytes into a unit store at an ac; what they replace is kept for an abort (R164). -/
def deliver (st : Store) (start ac : Nat) (bs : List Byte) (s : State) : State :=
  if bs = [] then s else
  let old := tabSlice bs.length start (s.units.bytes st)
  setRun (fun r => { r with undo := r.undo ++ [{ ac := ac, store := st, start := start, old := old }] })
    { s with units := s.units.setBytes st (tabStore start bs (s.units.bytes st)) }

/-- Write bytes to bonded SRAM at an ac (R363, R364); what they replace is kept for an abort (R164). -/
def sramStore (ac : Nat) (cluster : Option Nat) (src a : Nat) (bs : List Byte) (s : State) : State :=
  setRun (fun r => { r with writes := r.writes ++
      [{ fill := false, ac := ac, cluster := cluster, src := src, addr := a, bytes := bs, old := readBytes s.tiers.mem a bs.length }] })
    { s with tiers := { s.tiers with mem := writeBytes s.tiers.mem a bs } }

/-! ### Addresses (R140, R206) -/

/-- A(n) of a program. -/
def areg (pr : Prog) (n : Nat) : Nat := (Tab.get (fun _ => (0 : Addr)) pr.areg n).toNat

/-- Addresses wrap modulo 2^48. -/
def wrap48 (a : Nat) : Nat := a % 2 ^ 48

/-- Bonded SRAM of one die, less the page map in its top 4 MiB, which no program reaches (R271). -/
def inSram (die a n : Nat) : Bool :=
  decide (die * 0x100000000 ≤ a) && decide (a + n ≤ die * 0x100000000 + 0xFFC00000)

/-- LPDDR5X of one die's ports, in either view. -/
def inDram (die a n : Nat) : Bool :=
  (decide (directBase + 3 * die * 0x2000000000 ≤ a) && decide (a + n ≤ directBase + (3 * die + 3) * 0x2000000000)) ||
    (decide (interBase + die * 0x6000000000 ≤ a) && decide (a + n ≤ interBase + (die + 1) * 0x6000000000))

/-- Whether a range meets an object with RO_SHARED = 1 (R224). -/
def roShared (s : State) (a n : Nat) : Bool := (objectsIn s a n).any (fun e => e.2.roShared)

/-- A source a program may read, and a destination it may write, in bonded SRAM of a die. -/
def canRead (die a n : Nat) : Bool := inSram die a n
def canWrite (s : State) (die a n : Nat) : Bool := inSram die a n && !roShared s a n

/-! ### Engine-local indices -/

/-- Physical engines of the logical engines in a mask, by the cluster's engine map (R98): (logical, global engine). -/
def maskEngines (s : State) (k : Nat) (mask : Byte) : List (Nat × Nat) :=
  ((List.range 8).filter (fun j => mask.getLsbD j)).map (fun j => (j, 9 * k + physEngine s k j))

/-- Index of an operand half: side 0 is OPA, side 1 OPB. -/
def halfIdx (e side half : Nat) : Nat := 4 * e + 2 * side + half
/-- Index of an accumulator bank. -/
def bankIdx (e bank : Nat) : Nat := 2 * e + bank

/-! ### Values in memory -/

/-- Values of a run of elements of a floating-point format. -/
def decodeVals (f : Fmt) : Nat → List Byte → List Exact
  | 0, _ => []
  | n + 1, bs =>
    let w := f.params.bits / 8
    f.num (ofLe (bs.take w)) :: decodeVals f n (bs.drop w)

/-- The 64 values of one row of a format: a block is decoded to FP32 first, which can overflow (R59). -/
def rowVals (f : Fmt) (sat : Bool) (bs : List Byte) : List Exact :=
  if f.isPb then
    let blk := ofLe bs
    (List.range 64).map (fun i => Fmt.fp32.num (Fmt.fp32.write sat (pbElem f blk i)).1)
  else decodeVals f 64 bs

/-- The kinds of the values of a row whose decoding to FP32 overflows (R59, R63): of a block format alone. -/
def rowKinds (f : Fmt) (sat : Bool) (bs : List Byte) : List (Option Nat) :=
  if f.isPb then
    let blk := ofLe bs
    (List.range 64).map (fun i => (Fmt.fp32.write sat (pbElem f blk i)).2)
  else List.replicate 64 none

/-- One row written in a format: its bytes and the kinds of its flagged values (R61, R63, R60). -/
def encodeRow (f : Fmt) (sat : Bool) (xs : List Exact) : List Byte × List (Option Nat) :=
  if f.isPb then
    let (blk, kinds) := pbEncode f sat xs
    (leBytes f.rowBytes blk, kinds)
  else
    let cs := xs.map (f.write sat)
    ((cs.map (fun c => leBytes (f.params.bits / 8) c.1)).flatten, cs.map (fun c => c.2))

/-- FP32 words of a run of bytes. -/
def wordsOf : Nat → List Byte → List W32
  | 0, _ => []
  | n + 1, bs => BitVec.ofNat 32 (ofLe (bs.take 4)) :: wordsOf n (bs.drop 4)

def bytesOfWords (ws : List W32) : List Byte := (ws.map (fun w => leBytes 4 w.toNat)).flatten

/-- FP32 words written out under a saturation mode (R61, R63): the words and the kinds of the flagged ones. -/
def writeWords (sat : Bool) (ws : List W32) : List W32 × List (Option Nat) :=
  let cs := ws.map (fun w => Fmt.fp32.write sat (f32 w))
  (cs.map (fun c => BitVec.ofNat 32 c.1), cs.map (fun c => c.2))

/-- The rows of 64 of a list of values. -/
def rowsOf {α : Type} : Nat → List α → List (List α)
  | 0, _ => []
  | n + 1, xs => xs.take 64 :: rowsOf n (xs.drop 64)

end Sys2Proof.Machine
end

