-- ==== Sys2Proof/Machine/Issue.lean ====
section
/-! DEFINITION. Issue of sequencer and die-program instructions: fetch, gating, interlocks, ports, SRAM banks, lag. -/

namespace Sys2Proof.Machine

/-- Whether program p of the running step can issue: it has not ended and no abort has come (R162, R164). -/
def canIssue (r : Run) (p : Nat) : Bool :=
  let pr := prog r p
  !r.stopped && !pr.ended && !pr.atEnd &&
    (match r.abortAc with
     | none => true
     | some a => decide (pr.ready < a))

/-- The instruction at pc issued at ac `t` and occupies the issue slot for `cost` ac; the program goes to `pc`. -/
def advanceTo (p t cost pc : Nat) (s : State) : State :=
  setRun (fun r => setProg p (fun x => { x with pc := pc, ready := t + cost, issued := t, hold := none })
    { r with nowAc := max r.nowAc t }) s

/-- As `advanceTo`, to the next instruction. -/
def advance (p t cost : Nat) (s : State) : State :=
  setRun (fun r => setProg p (fun x => { x with pc := x.pc + 1, ready := t + cost, issued := t, hold := none })
    { r with nowAc := max r.nowAc t }) s

/-- The latest completion of the program's work (R162). -/
def doneAt (p ac : Nat) (s : State) : State :=
  setRun (setProg p (fun x => { x with lastDone := max x.lastDone ac })) s

/-- What an instruction's meaning leaves, or the state before it where the program would issue it at or after the abort (R164). -/
def beforeAbort (r : Run) (p : Nat) (s t : State) : State :=
  match r.abortAc, t.dealer.run with
  | some a, some x => if a ≤ (prog x p).issued then s else t
  | _, _ => t

/-- Issue one instruction row: it takes place when the program's next instruction is this very one (log entry 6).
A word that decodes to nothing is ILLEGAL (R144), none at all is PC_RANGE (R161), a double-bit error on fetch is
STORE_ECC (R143); a gated instruction is a no-op of 1 ac (R145). -/
def issue (i : Issue) (c : Common) (x : Insn) (body : Run → Prog → State → State) (s : State) : Out :=
  withUnit i.prog 36 s (fun s =>
    match s.dealer.run with
    | none => s
    | some r =>
      let pr := prog r i.prog
      if canIssue r i.prog then
        match pr.code[pr.pc]? with
        | none => raiseFault FaultCode.pcRange i.prog pr.ready pr.pc s
        | some w =>
          if i.ecc = .storeDouble then raiseFault FaultCode.storeEcc i.prog pr.ready pr.pc s else
          match decodeFor i.prog w with
          | none => raiseFault FaultCode.illegal i.prog pr.ready pr.pc s
          | some cx =>
            if cx = (c, x) then
              let s1 := if i.ecc = .storeSingle then onchipCorrected (dieOf i.prog) 1 s else s
              beforeAbort r i.prog s (if c.vg ∧ r.variant.getLsbD c.vb.toNat ≠ c.vp then advance i.prog pr.ready 1 s1 else body r pr s1)
            else s
      else s)

/-- A double-bit error in a side-memory record or tag (R136). -/
def isSideDouble (e : Ecc) : Bool :=
  match e with
  | .sideDouble => true
  | _ => false

/-- What an instruction's read of some SRAM ranges met: a corrected word is counted, a double-bit error abandons the step without a
fault record (R210). -/
def sramEcc (i : Issue) (xs : List (Nat × Nat)) (t : Nat) (s : State) : State :=
  match sramTouched s i.ecc xs with
  | some line => sramDouble line (setRun (abortAt t) s)
  | none =>
    match i.ecc with
    | .sramSingle =>
      { s with tiers := { s.tiers with sramCorrected := bump s.tiers.sramCorrected (dieOf i.prog) 1 } }
    | _ => s

/-- A corrected error of an operand buffer or bank is counted (R87), of a side-memory record or tag likewise (R136). -/
def arrayEcc (i : Issue) (s : State) : State :=
  match i.ecc with
  | .engineSingle => onchipCorrected (dieOf i.prog) 0 s
  | .sideSingle => onchipCorrected (dieOf i.prog) 1 s
  | _ => s

/-! ### Bank conflicts (R208) -/

/-- The SRAM bank of a byte, over all dies: 64 per die, 512-byte interleave (Table 7.3). -/
def bankOf (a : Nat) : Nat := a / 0x100000000 * 64 + a % 0x100000000 / 512 % 64

/-- The banks that an access of up to 512 bytes touches. -/
def banksOf (a n : Nat) : List Nat :=
  if n = 0 ∨ bankOf a = bankOf (a + n - 1) then [bankOf a] else [bankOf a, bankOf (a + n - 1)]

/-- The first ac from `ac` on in which the banks serve no earlier access. -/
def freeAc (used : List (Nat × Nat)) (bs : List Nat) : Nat → Nat → Nat
  | 0, ac => ac
  | f + 1, ac => if bs.any (fun b => used.contains (b, ac)) then freeAc used bs f (ac + 1) else ac

/-- Accesses of `w` bytes, one per ac from `ac` on, each held while its bank is taken: the ac of each, and the use. -/
def claimRun (w : Nat) : Nat → Nat → Nat → Nat → List (Nat × Nat) → List Nat × List (Nat × Nat)
  | _, 0, _, _, used => ([], used)
  | a, f + 1, n, ac, used =>
    if n = 0 then ([], used)
    else
      let bs := banksOf a (min n w)
      let x := freeAc used bs (used.length + 1) ac
      let rest := claimRun w (a + w) f (n - w) (x + 1) (used ++ bs.map (fun b => (b, x)))
      (x :: rest.1, rest.2)

/-- Make `n` bytes' accesses of `w` bytes from `ac` on; the held ac are counted in SRAM_BANK_HOLD of the die. -/
def claimBanks (w a n ac : Nat) (s : State) : List Nat × State :=
  match s.dealer.run with
  | none => ([], s)
  | some r =>
    let beats := (n + w - 1) / w
    let (xs, used) := claimRun w a beats n ac r.bankUse
    let held := match xs.getLast? with
      | some x => x + 1 - (ac + beats)
      | none => 0
    (xs, { s with
      dealer := { s.dealer with run := some { r with bankUse := used } },
      tiers := { s.tiers with sramHold := bump s.tiers.sramHold (a / 0x100000000) held } })

/-! ### Ports (R497) -/

/-- Port queue index: 4k + p for port Pp of cluster k, 128 + d for the port sequencer of die d. -/
def clusterPort (k port : Nat) : Nat := 4 * k + port
def diePort (d : Nat) : Nat := 128 + d

/-- The ac in which a transfer on a port issues, given the ac `t` at which it may: while 16 transfers wait it is held
until one of them has started. -/
def portIssueAc (s : State) (q t : Nat) : Nat :=
  let waiting := (Tab.get (fun _ => []) s.units.portStarts q).filter (fun x => decide (t < x))
  if waiting.length < 16 then t else (waiting[waiting.length - 16]?).getD t

/-- The ac in which its reads start. -/
def portStart (s : State) (q t : Nat) : Nat := max t (natAt s.units.portFree q)

/-- Take the port from `start` until the ac after its last read. -/
def usePort (q start past : Nat) (s : State) : State :=
  { s with units := { s.units with
      portFree := natSet s.units.portFree q past,
      portStarts := Tab.mod (fun _ => []) s.units.portStarts q (fun xs => xs ++ [start]) } }

/-! ### Record interlocks of the side memory (R135) -/

/-- The ac in which a use has finished with the records from lo to hi − 1 of cluster k; 0 where it uses none of them. -/
def RecordUse.done (u : RecordUse) (k lo hi : Nat) : Nat :=
  if u.cluster = k ∧ u.lo < hi ∧ lo < u.hi then u.ac + u.step * (min u.hi hi - 1 - u.lo) else 0

/-- The first ac after all listed uses have finished with records lo to hi − 1 of cluster k, 0 where none uses them (log entry 76). -/
def recordsFree (uses : List RecordUse) (k lo hi : Nat) : Nat :=
  uses.foldl (fun a u => max a (if u.done k lo hi = 0 then 0 else u.done k lo hi + 1)) 0

/-! ### Lag (R196 to R198) -/

/-- The stall cause that a wait on a source has when nothing else applies (Tables 5.16 and 6.5): stream, staged object,
peer, collective. -/
def baseCause (source : Nat) : Nat :=
  match source with
  | 1 => 0
  | 2 => 2
  | 3 => 4
  | _ => 5

/-- PRIORITY of a stall cause (Table 6.5). -/
def causePriority (c : Nat) : Nat := if c = 8 then 1 else if c = 6 then 2 else if c = 1 ∨ c = 3 then 3 else 5

/-- Whether a cause applies in ac `x`. -/
def CauseSpan.covers (g : CauseSpan) (x : Nat) : Bool :=
  decide (g.first ≤ x) && (match g.past with | some b => decide (x < b) | none => true)

/-- The cause of ac `x`: of the source's own and those that apply, the one of the smallest priority number. -/
def causeAt (base : Nat) (segs : List CauseSpan) (x : Nat) : Nat :=
  (segs.filter (fun g => g.covers x)).foldl (fun c g => if causePriority g.cause < causePriority c then g.cause else c) base

/-- Insert a number into an ascending list without repeats. -/
def insertNat (x : Nat) : List Nat → List Nat
  | [] => [x]
  | y :: t => if x < y then x :: y :: t else if x = y then y :: t else y :: insertNat x t

/-- The held ac [a, r) by cause: where a cause begins or ends the interval is cut, and each part counts for its cause. -/
def heldByCause (base : Nat) (segs : List CauseSpan) (a r : Nat) : Tab Nat :=
  let ends := (segs.map (fun g => g.first :: (match g.past with | some b => [b] | none => []))).flatten
  let cuts := ((ends.filter (fun x => decide (a < x) && decide (x < r))).foldl (fun l x => insertNat x l) [a]) ++ [r]
  (cuts.zip (cuts.drop 1)).foldl (fun t e => Tab.mod (fun _ => 0) t (causeAt base segs e.1) (· + (e.2 - e.1))) []

/-- Sum of two count tables. -/
def addCounts (t u : Tab Nat) : Tab Nat := u.foldl (fun t e => Tab.mod (fun _ => 0) t e.1 (· + e.2)) t

/-- Count the raw held ac [a, r) of program p on wait point w, by an AWAIT or at END (R197, R198 step 1). -/
def countHold (p w : Nat) (await : Bool) (base : Nat) (segs : List CauseSpan) (a r : Nat) (s : State) : State :=
  if r ≤ a then s else
    let h := heldByCause base segs a r
    let c := s.counters
    let hac := h.foldl (fun t e => bump t e.1 e.2) c.holdAc
    let cnt := if await then bump c.holdCount (causeAt base segs a) 1 else c.holdCount
    let s1 := { s with counters := { c with holdAc := hac, holdCount := cnt } }
    setRun (fun r =>
      let r1 := setProg p (fun x => { x with lag := addCounts x.lag h }) r
      { r1 with wpHolds := Tab.mod (fun _ => { byCause := [], progs := [] }) r1.wpHolds w (fun x =>
          { byCause := addCounts x.byCause h,
            progs := if x.progs.contains p then x.progs else x.progs ++ [p] }) }) s1

/-- R198 step 3: the lag of a program that issued at `r` after reaching issue at `a`, released by an arrival at `s` that
carried lag μ. -/
def mergeLag (own : Tab Nat) (a r s : Nat) (mu : Tab Nat) : Tab Nat :=
  let l := (r : Int) - max ((a : Int) - lagSum own) ((s : Int) - lagSum mu)
  if (lagSum own : Int) < l then lagReduce mu (lagSum mu - l.toNat) else own

end Sys2Proof.Machine
end

