-- ==== Sys2Proof/Machine/Sync.lean ====
section
/-! DEFINITION. SYNC, CTRL and STAT instructions, wait points and their completions (sections 5.7, 5.8, 6.6). -/

namespace Sys2Proof.Machine

/-- KIND and SOURCE of wait point w of the running ply (R167); an entry past WAIT_COUNT is none. -/
def waitKind (r : Run) (w : Nat) : Option (Byte × Byte) := r.ply.waits[w]?

def waitPt (pr : Prog) (w : Nat) : WaitPt := Tab.get (fun _ => WaitPt.cold) pr.waits w

/-- Insert an arrival in order of its ac. -/
def insertArrival (x : Arrival) : List Arrival → List Arrival
  | [] => [x]
  | y :: t => if x.ac < y.ac then x :: y :: t else y :: insertArrival x t

/-- Add 1 to wait point w of program p. -/
def addArrival (p w : Nat) (x : Arrival) (s : State) : State :=
  setRun (setProg p (fun pr => { pr with
    waits := Tab.mod (fun _ => WaitPt.cold) pr.waits w (fun v => { v with arrivals := insertArrival x v.arrivals }) })) s

/-- Mark wait point w of program p failed (R159, R233). -/
def failWait (p w : Nat) (s : State) : State :=
  setRun (setProg p (fun pr => { pr with
    waits := Tab.mod (fun _ => WaitPt.cold) pr.waits w (fun v => { v with failed := true }) })) s

/-- SYNC.SIGNAL (R157, Table 5.13): one addition on its way to every program of CMASK and DMASK, with the sender's lag. -/
def execSyncSignal (i : Issue) (c : Common) (wp : BitVec 10) (cmask : W32) (dmask : BitVec 4) (s : State) : Out :=
  issue i c (.signal wp cmask dmask) (fun _ pr s =>
    let p := i.prog
    let t := pr.ready
    let sigs := (maskProgs cmask dmask).map (fun q =>
      ({ prog := q, wp := wp.toNat, arrival := { ac := t + signalDelay p q, lag := pr.lag, segs := [] } } : Signal))
    advance p t 1 (setRun (fun r => { r with signals := r.signals ++ sigs }) s)) s

/-- SIGNAL_ARRIVAL: the n-th signal on its way adds 1 to its wait point; an EXTERNAL one faults with WP_KIND (R157, R158).
A signal that would arrive at or after the abort is discarded (R164). -/
def execSignalArrival (n : Nat) (s : State) : Out :=
  .next (match s.dealer.run with
    | none => s
    | some r =>
      match r.signals[n]? with
      | none => s
      | some g =>
        let s1 := setRun (fun r => { r with signals := r.signals.eraseIdx n, nowAc := max r.nowAc g.arrival.ac }) s
        if (match r.abortAc with | some a => decide (a ≤ g.arrival.ac) | none => false) then s1
        else match waitKind r g.wp with
          | some (0, _) => addArrival g.prog g.wp g.arrival s1
          | _ => raiseFault FaultCode.wpKind g.prog g.arrival.ac (prog r g.prog).pc s1)

/-- A completion reaches program q: an addition, a failed mark, or WP_KIND where the wait point is EXACT, past WAIT_COUNT
or of another source (R158, R159, R167). -/
def deliverCompletion (wp source : Nat) (failed : Bool) (segs : List CauseSpan) (ac : Nat) (q : Nat) (s : State) : State :=
  match s.dealer.run with
  | none => s
  | some r =>
    match waitKind r wp with
    | some (k, src) =>
      if k = 1 ∧ src.toNat = source then
        if failed then failWait q wp s else addArrival q wp { ac := ac, lag := [], segs := segs } s
      else raiseFault FaultCode.wpKind q ac (prog r q).pc s
    | none => raiseFault FaultCode.wpKind q ac (prog r q).pc s

/-- EXTERNAL_COMPLETION: the completion of operation `op` leaves its crossing at `ac`, `crossing` ac after it entered, as many as Table 6.3
lets it take (R186), and reaches each program after the count of R182. -/
def execExternalCompletion (op ac crossing : Nat) (s : State) : Out :=
  .next (match opAt s op with
    | some (.ext die cross progs wp source segs failed owner) =>
      let s0 := dropOp op s
      match s.dealer.run with
      | none => s0
      | some r =>
        if r.stopped then s0
        else if ¬cross.takes r.freq crossing then s
        else
          let segs' := segs ++ [{ cause := 6, first := ac - crossing, past := some ac }]
          let s1 := progs.foldl (fun s q => deliverCompletion wp source failed segs' (ac + completionDelay die q) q s) s0
          let last := progs.foldl (fun a q => max a (ac + completionDelay die q)) ac
          let s2 := setRun (fun r => { r with nowAc := max r.nowAc ac }) s1
          match owner with
          | some p => setRun (setProg p (fun x => { x with
              extOpen := x.extOpen - 1,
              extLast := match x.extLast with
                | some y => if y.2.ac < last then some (wp, { ac := last, lag := [], segs := segs' }) else some y
                | none => some (wp, { ac := last, lag := [], segs := segs' }) })) s2
          | none => s2
    | _ => s)

/-- SYNC.AWAIT (R157 to R160, R196 to R198): issues once its counter has reached TARGET, at the ac of the addition that
brought it there or at once; until then the program holds. -/
def execSyncAwait (i : Issue) (c : Common) (wp : BitVec 10) (target : W16) (s : State) : Out :=
  issue i c (.await wp target) (fun r pr s =>
    let p := i.prog
    let a := pr.ready
    let w := waitPt pr wp.toNat
    if w.failed then raiseFault FaultCode.waitError p (max a r.nowAc) pr.pc s
    else if target = 0 then advance p a 1 s
    else match w.arrivals[target.toNat - 1]? with
      | none => setRun (setProg p (fun x => { x with hold := some { wp := some wp.toNat, since := a } })) s
      | some x =>
        let t := max a x.ac
        match waitKind r wp.toNat with
        | some (1, src) => advance p t 1 (countHold p wp.toNat true (baseCause src.toNat) x.segs a t s)
        | _ => advance p t 1 (setRun (setProg p (fun y => { y with lag := mergeLag y.lag a t x.ac x.lag })) s)) s

/-- WAIT_TIMEOUT: a hold on a stream's or staged object's wait point exceeds WAIT_BOUND × 1,024 ac (R160). -/
def execWaitTimeout (p : Nat) (s : State) : Out :=
  withUnit p 36 s (fun s =>
    match s.dealer.run with
    | none => s
    | some r =>
      match (prog r p).hold with
      | some { wp := some w, since := a } =>
        match waitKind r w with
        | some (1, src) =>
          if src = 1 ∨ src = 2 then
            raiseFault FaultCode.waitTimeout p (a + s.dealer.waitBound.toNat * 1024 + 1) (prog r p).pc s
          else s
        | _ => s
      | _ => s)

/-! ### CTRL (Table 5.14, R161) -/

/-- Loop counter n. -/
def lreg (pr : Prog) (n : Nat) : BitVec 24 := Tab.get (fun _ => 0) pr.lreg n
def setLreg (p n : Nat) (v : BitVec 24) (s : State) : State :=
  setRun (setProg p (fun x => { x with lreg := Tab.set (fun _ => 0) x.lreg n v })) s
def setAreg (p n : Nat) (v : Addr) (s : State) : State :=
  setRun (setProg p (fun x => { x with areg := Tab.set (fun _ => 0) x.areg n v })) s

/-- The target PC + OFF of a branch, when it lies in the program (R161). -/
def branchTarget (pr : Prog) (off : W16) : Option Nat :=
  let t := (pr.pc : Int) + off.toInt
  if 0 ≤ t ∧ t < pr.code.length then some t.toNat else none

/-- Take a branch (3 ac), or fault with PC_RANGE. -/
def takeBranch (p : Nat) (pr : Prog) (off : W16) (s : State) : State :=
  match branchTarget pr off with
  | some t => advanceTo p pr.ready 3 t s
  | none => raiseFault FaultCode.pcRange p pr.ready pr.pc s

/-- LSET. -/
def execLset (i : Issue) (c : Common) (ln : BitVec 4) (imm : BitVec 24) (s : State) : Out :=
  issue i c (.lset ln imm) (fun _ pr s => advance i.prog pr.ready 1 (setLreg i.prog ln.toNat imm s)) s

/-- BNZ: LOOP_RANGE on a counter that holds 0. -/
def execBnz (i : Issue) (c : Common) (ln : BitVec 4) (off : W16) (s : State) : Out :=
  issue i c (.bnz ln off) (fun _ pr s =>
    let v := lreg pr ln.toNat
    if v = 0 then raiseFault FaultCode.loopRange i.prog pr.ready pr.pc s
    else
      let s1 := setLreg i.prog ln.toNat (v - 1) s
      if v = 1 then advance i.prog pr.ready 1 s1 else takeBranch i.prog pr off s1) s

/-- JUMP. -/
def execJump (i : Issue) (c : Common) (off : W16) (s : State) : Out :=
  issue i c (.jump off) (fun _ pr s => takeBranch i.prog pr off s) s

/-- BVAR. -/
def execBvar (i : Issue) (c : Common) (vb : BitVec 3) (p : Bool) (off : W16) (s : State) : Out :=
  issue i c (.bvar vb p off) (fun r pr s =>
    if r.variant.getLsbD vb.toNat = p then takeBranch i.prog pr off s else advance i.prog pr.ready 1 s) s

/-- SETA. -/
def execSeta (i : Issue) (c : Common) (an : BitVec 5) (imm : BitVec 48) (s : State) : Out :=
  issue i c (.seta an imm) (fun _ pr s => advance i.prog pr.ready 1 (setAreg i.prog an.toNat imm s)) s

/-- ADDA: the immediate is sign-extended, the sum wraps modulo 2^48 (R140). -/
def execAdda (i : Issue) (c : Common) (an : BitVec 5) (imm : W32) (s : State) : Out :=
  issue i c (.adda an imm) (fun _ pr s =>
    let v : Addr := Tab.get (fun _ => 0) pr.areg an.toNat
    advance i.prog pr.ready 1 (setAreg i.prog an.toNat (v + imm.signExtend 48) s)) s

/-- CTRL.NOP: IMM24 + 1 ac. -/
def execCtrlNop (i : Issue) (c : Common) (imm : BitVec 24) (s : State) : Out :=
  issue i c (.nop imm) (fun _ pr s => advance i.prog pr.ready (imm.toNat + 1) s) s

/-- END: the program issues nothing further; it has ended once its work and external completions are done (R162). -/
def execCtrlEnd (i : Issue) (c : Common) (s : State) : Out :=
  issue i c .stop (fun _ pr s =>
    setRun (setProg i.prog (fun x => { x with atEnd := true })) (advance i.prog pr.ready 1 s)) s

/-! ### STAT (R163) -/

def statReg (pr : Prog) (n : Nat) : W64 := Tab.get zero64 pr.stats n
def setStat (p n : Nat) (v : W64) (s : State) : State :=
  setRun (setProg p (fun x => { x with stats := Tab.set zero64 x.stats n v })) s

/-- STAT.INC. -/
def execInc (i : Issue) (c : Common) (sn : BitVec 3) (imm : W32) (s : State) : Out :=
  issue i c (.inc sn imm) (fun _ pr s =>
    advance i.prog pr.ready 1 (setStat i.prog sn.toNat (statReg pr sn.toNat + imm.zeroExtend 64) s)) s

/-- STAT.STAMP. -/
def execStamp (i : Issue) (c : Common) (sn : BitVec 3) (s : State) : Out :=
  issue i c (.stamp sn) (fun _ pr s =>
    advance i.prog pr.ready 1 (setStat i.prog sn.toNat (BitVec.ofNat 64 pr.ready) s)) s

/-- STAT.DUMP: S0 to S7 to A(DREG) at +20 ac; ALIGN where the address is not 64-byte aligned. -/
def execDump (i : Issue) (c : Common) (dreg : BitVec 5) (s : State) : Out :=
  issue i c (.dump dreg) (fun _ pr s =>
    let p := i.prog
    let a := areg pr dreg.toNat
    if a % 64 ≠ 0 then raiseFault FaultCode.align p pr.ready pr.pc s
    else if ¬canWrite s (dieOf p) a 64 then raiseFault FaultCode.addrRange p pr.ready pr.pc s
    else
      let bs := ((List.range 8).map (fun n => leBytes 8 (statReg pr n).toNat)).flatten
      advance p pr.ready 1 (doneAt p (pr.ready + 20) (sramStore (pr.ready + 20) none 0 a bs s))) s

end Sys2Proof.Machine
end

