-- ==== Sys2Proof/Machine/Launch.lean ====
section
/-! DEFINITION. The governor's choice, ply selection, bindings and the launch: steps 6 and 7 of a boundary (sections 5.12,
9.10, 15.3). -/

namespace Sys2Proof.Machine

/-! ### The governor (R448 to R451) -/

/-- k_f × 10,000 (R448). -/
def govK (f : Nat) : Nat := if f = 0 then 10000 else if f = 1 then 9216 else if f = 2 then 8464 else 7056

/-- Index of a ply in GOV_TABLE. -/
def govIndex (book : BookKind) (i : Nat) : Nat := match book with | .gen => i | .learn => 256 + i

def loadedBook (s : State) (k : BookKind) : Option Book := match k with | .gen => s.dealer.genBook | .learn => s.dealer.learnBook

/-- The index of a ply in its book. -/
def plyIndex (s : State) (k : BookKind) (id : W32) : Nat :=
  match loadedBook s k with
  | some b => (b.plies.findIdx? (fun p => decide (p.plyId = id))).getD 0
  | none => 0

def govEntry (s : State) (k : Nat) : GovEntry := Tab.get (fun _ => GovEntry.cold) s.glaren.table k

/-- Sixteen times the predicted energy, in 0.1 nJ: measured from the 16th execution on, else from ENERGY_MAX. -/
def energy16 (e : GovEntry) (p : Ply) : Nat :=
  if e.energies.length < 16 then 16 * 10000 * p.energyMax.toNat else e.energies.foldl (· + ·) 0

/-- Whether a governor step meets POWER_LIMIT, the 2,100 W of PEAK_POWER, MAX_FREQ and both caps (R450, R451). -/
def freqAllowed (s : State) (e : GovEntry) (p : Ply) (f : Nat) : Bool :=
  decide (energy16 e p * govK f * freqMHz f ≤ s.glaren.powerLimit.toNat * p.totalAc.toNat * 16 * 10000 * 10000) &&
    decide (p.peakPower.toNat * govK f * freqMHz f ≤ 2100 * 2500 * 10000) && decide (s.glaren.maxFreq.toNat ≤ f) &&
    decide (s.glaren.thermalCap ≤ f) && decide (s.glaren.peakCap.getD 0 ≤ f)

/-- ALLOWED of a ply: the highest step that qualifies, 1,500 MHz when none does. -/
def govAllowed (s : State) (k : Nat) (p : Ply) : Nat :=
  ([0, 1, 2].find? (freqAllowed s (govEntry s k) p)).getD 3

/-- The frequency of the next launch, and whether the choice is an overshoot (R450 parts 2 and 3). -/
def chooseFreq (s : State) (allowed : Nat) : Nat × Bool :=
  let c := s.glaren.freq
  let b := s.glaren.standby
  if allowed = c then (c, false)
  else if allowed = b then (b, false)
  else if allowed ≤ c ∧ allowed ≤ b then (min c b, false)
  else if allowed ≤ c then (c, false)
  else if allowed ≤ b then (b, false)
  else (max c b, true)

/-- The governor switches to the standby PLL; the other becomes the standby. -/
def switchFreq (s : State) : State :=
  { s with glaren := { s.glaren with freq := s.glaren.standby, standby := s.glaren.freq, standbyStable := true } }

/-- During a step the standby PLL is relocked to the forecast frequency (R450 part 1). -/
def forecast (f : Nat) (s : State) : State :=
  if s.glaren.standby = f then s
  else { s with glaren := { s.glaren with standby := f, standbyStable := false } }

/-! ### Ply selection (R175) -/

/-- The context of an entry in its step: CUR_LEN + T. -/
def slotContext (s : State) (e : Nat) : Nat := (request s e).curLen + stepTokens s (request s e)

/-- Whether a ply covers a number of sequences and a longest context (Table 5.16). -/
def Ply.covers (p : Ply) (n ctx : Nat) : Bool :=
  decide (n ≤ 64 * (p.batchClass.toNat + 1)) && decide (ctx ≤ 512 * 2 ^ p.contextClass.toNat)

/-- Of two plies the one of less TOTAL_AC; the earlier on a tie. -/
def lessAc (a : Option Ply) (p : Ply) : Option Ply :=
  match a with
  | none => some p
  | some q => if p.totalAc < q.totalAc then some p else some q

/-- The covering ply of least TOTAL_AC, lowest index on a tie. -/
def selectPly (b : Book) (n ctx : Nat) : Option Ply := (b.plies.filter (fun p => p.covers n ctx)).foldl lessAc none

def longest (s : State) (es : List Nat) : Nat := es.foldl (fun a e => max a (slotContext s e)) 0

/-- Drop the lowest-ranked sequences until a ply covers the batch. -/
def shrinkBatch (s : State) (b : Book) : Nat → List Nat → Option (List Nat × Ply)
  | 0, _ => none
  | f + 1, es =>
    if es = [] then none
    else match selectPly b es.length (longest s es) with
      | some p => some (es, p)
      | none => shrinkBatch s b f es.dropLast

/-- Sequences that no ply of the book covers alone: removed first when the batch is not covered. -/
def uncovered (s : State) (b : Book) (es : List Nat) : List Nat :=
  match selectPly b es.length (longest s es) with
  | some _ => []
  | none => es.filter (fun e => (selectPly b 1 (slotContext s e)).isNone)

/-! ### Bindings (R168, R169, R242, R276, R277, R292) -/

/-- The batch-block object of a die. -/
def batchObject (s : State) (d : Nat) : Obj := obj s (Tab.get (fun _ => (0xFFFF : W16)) s.dealer.batchObj d).toNat

/-- A batch-block object must be valid, tier 0, on its die and of 593,984 B. -/
def batchObjectOk (s : State) (d : Nat) : Bool :=
  let o := batchObject s d
  o.valid && decide (o.tier = 0) && decide (o.base / 0x100000000 = d) && decide (593984 ≤ o.len)

/-- The object that a binding names, and the die it must lie on for a BATCH_BLOCK; none is a binding fault. -/
def bindObject (s : State) (slotNo : Option Nat) (d : Nat) (b : Bind) : Option Obj :=
  if b.kind = 0 then some (obj s b.object.toNat)
  else if b.kind = 1 then
    match slotNo with
    | none => none
    | some i =>
      if b.object = 0 then some (obj s (slot s i).base.toNat)
      else if b.object = 1 ∧ (slot s i).adapter ≠ 0xFFFF then some (obj s (slot s i).adapter.toNat)
      else none
  else
    let o := batchObject s d
    if o.valid ∧ o.tier = 0 ∧ o.base / 0x100000000 = d then some o else none

/-- A binding fault: an object that is invalid, POISONED or tier 2 (R169). -/
def bindFault (s : State) (slotNo : Option Nat) (b : Bind) : Bool :=
  (List.range 4).any (fun d =>
    match bindObject s slotNo d b with
    | none => true
    | some o => !o.inMem || decide (o.poison = .poisoned))

/-- A binding to an object in REPAIRING (R223). -/
def bindRepairing (s : State) (slotNo : Option Nat) (b : Bind) : Bool :=
  (List.range 4).any (fun d =>
    match bindObject s slotNo d b with
    | none => false
    | some o => decide (o.poison = .repairing))

/-- What a generation ply needs beside its bindings: batch objects and LPDDR5X pools (R277, R292). -/
def genFault (s : State) (p : Ply) : Bool :=
  (List.range 4).any (fun d => !batchObjectOk s d || !dramPoolOk s d ||
    decide ((dramPool s d).len < 1024 * slotPages p * frameShareBytes s))

/-- Whether a ply has a binding fault in a step of the given slot. -/
def plyFault (s : State) (slotNo : Option Nat) (p : Ply) : Bool :=
  p.binds.any (bindFault s slotNo) || (decide (p.kind = .gen) && genFault s p)

/-- Address registers of program q at launch (R168). -/
def launchRegs (s : State) (slotNo : Option Nat) (p : Ply) (q : Nat) : Tab Addr :=
  p.binds.foldl (fun t b =>
    let d := dieOf q
    let c := if q < 32 then q % 8 else 0
    match bindObject s slotNo d b with
    | none => t
    | some o => Tab.set (fun _ => 0) t b.areg.toNat (BitVec.ofNat 48
        (o.base + 64 * (b.offset.toNat + d * b.dieStride.toNat + c * b.clusterStride.toNat)))) []

/-! ### What keeps a ply from launching (R101, R211, R223, R295, R368, R369, R375, R382, R428) -/

/-- A cluster with two failed engines is exhausted (R101). -/
def clusterExhausted (s : State) (k : Nat) : Bool :=
  decide (2 ≤ failCount (Tab.get (fun _ => 0) s.glaren.failedList k))
def anyExhausted (s : State) : Bool := s.glaren.failedList.any (fun e => clusterExhausted s e.1)

/-- Resources of the half that has fenced: its dies, clusters and Unlia ports (R295). -/
def namesHalf (m : W64) (h : Half) : Bool :=
  let d0 := match h with | .west => 0 | .east => 2
  (List.range 16).any (fun i => m.getLsbD (8 * d0 + i)) || (List.range 2).any (fun i => m.getLsbD (32 + d0 + i)) ||
    (List.range 8).any (fun i => m.getLsbD (36 + 4 * d0 + i))

/-- The half that has fenced. -/
def fencedHalf (s : State) : Option Half :=
  if s.dealer.westFenced then some .west else if s.dealer.eastFenced then some .east else none

/-- No step launches at all. -/
def noLaunch (s : State) : Bool :=
  anyExhausted s || s.dealer.sramExhausted || twinHolds s || s.conceal.diverged ||
    (s.dealer.split && !s.dealer.halfFenced)

/-- This ply does not launch now; the boundary is an idle boundary. -/
def plyHeld (s : State) (slotNo : Option Nat) (p : Ply) : Bool :=
  !blocksOpen s p.resourceMap || ckptHolds s p || p.binds.any (bindRepairing s slotNo) ||
    (match fencedHalf s with | some h => namesHalf p.resourceMap h | none => false)

/-! ### Step 7 (R292, R498) -/

/-- 1 ÷ TEMP, or 1.0 when TEMP = +0 (R288). -/
def invTemp (t : W32) : W32 := if t = 0 then fOne else fDiv fOne t

/-- A slot entry (Table 9.10). -/
def slotBytes (s : State) (x : BatchSlot) : List Byte :=
  let r := request s x.entry
  let prompt := if x.decode then 0 else (obj s r.promptObject.toNat).base + r.promptOffset + 4 * r.curLen
  leBytes 2 (x.entry + 0x8000) ++ leBytes 1 (if x.decode then 1 else 2) ++ leBytes 1 (flag x.draw) ++ leBytes 4 r.curLen ++
    leBytes 4 x.tokens ++ leBytes 4 (if x.decode then r.lastToken.toNat else 0) ++ leBytes 8 prompt ++ leBytes 4 r.headPage ++
    leBytes 4 r.pages ++ leBytes 4 (invTemp r.temp).toNat ++ leBytes 28 0

/-- The header and slot table of the batch block (Table 9.9), less the empty slots, which are 0. -/
def batchBytes (s : State) (h : Held) (version : W32) : List Byte :=
  leBytes 8 s.dealer.stepNumber.toNat ++ leBytes 4 version.toNat ++ leBytes 2 h.batch.length ++
    leBytes 1 (flag (decide (h.cls = .old)) + 2 * flag (decide (h.cls = .eval))) ++ leBytes 1 h.ply.contextClass.toNat ++
    leBytes 4 (slotPages h.ply) ++ leBytes 44 0 ++ (h.batch.map (slotBytes s)).flatten

/-- Write the batch block of one die; the empty slots read 0. -/
def writeBatch (bs : List Byte) (d : Nat) (s : State) : State :=
  let a := (batchObject s d).base
  { s with tiers := { s.tiers with
      mem := writeBytes (Tab.clear (fun i => decide (a ≤ i) && decide (i < a + 65600)) s.tiers.mem) a bs } }

/-- Apply step 5's effects to one entry of the launched batch: PREFILL, pages, binding, RAN (R498). -/
def applyDeal (h : Held) (version : W32) (step : W64) (x : BatchSlot) (s : State) : State :=
  let r := request s x.entry
  let s1 := setRequest x.entry (fun r =>
    { r with state := if r.state = .queued then .prefill else r.state, ran := true, lastVersion := version, lastStep := step,
             pinBound := r.pinBound || r.pin, pinSlot := if r.pin ∧ ¬r.pinBound then h.slot else r.pinSlot,
             pinVersion := if r.pin ∧ ¬r.pinBound then version else r.pinVersion }) s
  allocPages x.entry (newPages r x.tokens) s1

/-- INPUT_ID of a generation step: CRC-64 over KEY, SEED, POSITION and TOKENS of each dealt slot (Table 12.6). -/
def batchInput (s : State) (b : List BatchSlot) : W64 :=
  crc64 ((b.map (fun x =>
    let r := request s x.entry
    leBytes 4 r.key.toNat ++ leBytes 8 r.seed.toNat ++ leBytes 4 r.curLen ++ leBytes 4 x.tokens)).flatten)

/-- The units' timing at launch: everything is free. -/
def launchUnits (s : State) : Units :=
  { s.units with bufRead := [], bufReady := [], bankFree := [], bankLoaded := [], engDone := [], rowUse := [], fillUse := [],
                 portFree := [], portStarts := [], rowFree := [], topkFree := [], engMap := s.glaren.failedList }

/-- The programs of a ply at launch (Table 5.1). -/
def launchProgs (s : State) (slotNo : Option Nat) (p : Ply) : Tab Prog :=
  p.progs.map (fun e => (e.1, { Prog.cold with code := e.2, areg := launchRegs s slotNo p e.1, ended := decide (e.2 = []) }))

/-- Signals of object moves that completed before this step launched are added at the launch (R404). -/
def launchSignals (step : W64) (s : State) : State :=
  let now := s.dealer.later.filter (fun x => decide (x.1 = step))
  let s1 := { s with dealer := { s.dealer with later := s.dealer.later.filter (fun x => decide (step < x.1)) } }
  now.foldl (fun s x => x.2.2.foldl (fun s q => deliverCompletion x.2.1 2 false [] 0 q s) s) s1

/-- The slot of a launch: none for a learning ply when no slot is live. -/
def launchSlot (s : State) (h : Held) : Option Nat :=
  if h.cls = .learn then liveSlot s else some h.slot

/-- Entries that ended at this boundary become FREE (Table 9.4). -/
def freeEnded (s : State) : State :=
  (s.dealer.requests.filter (fun e => decide (e.2.state ≠ .free) && !holdsEnd e.2)).foldl
    (fun s e => setRequest e.1 (fun r => { r with state := .free }) s) s

/-- Step 7: the launch. `changed` and `cancelled` are FREQ_CHANGED and FREQ_CANCELLED; `hold` the ac held for the governor
(R201). -/
def launch (h : Held) (changed cancelled : Bool) (hold : Nat) (s : State) : State :=
  let step := s.dealer.stepNumber + 1
  let sl := launchSlot s h
  let version := match sl with | some i => (slot s i).version | none => 0
  let s0 := { s with
    tiers := { s.tiers with bgInForce := s.tiers.bgShare }
    units := launchUnits s
    dealer := { s.dealer with
      stepNumber := step, held := none, idle := false, due := false, abandoned := false,
      lastPly := h.ply.plyId, lastVariant := h.variant, lastBook := h.book,
      refillCount := s.dealer.refillCount + 1,
      sinceOld := (match h.cls with | .old => 0 | .learn => s.dealer.sinceOld | _ => s.dealer.sinceOld + 1),
      sinceEval := (match h.cls with | .eval => 0 | .learn => s.dealer.sinceEval + 1 | _ => s.dealer.sinceEval),
      requests := s.dealer.requests.map (fun e => (e.1, { e.2 with ran := false })),
      plyRuns := match h.ticket with
        | some t => s.dealer.plyRuns.filter (fun x => decide (x.1 ≠ t))
        | none => s.dealer.plyRuns } }
  let inputId := if h.cls = .learn then h.inputId else batchInput s0 h.batch
  let ranked := (ranking s0 (h.batch.map (fun x => x.entry))).filterMap (fun e => h.batch.find? (fun x => decide (x.entry = e)))
  let s1 := ranked.foldl (fun s x => applyDeal h version step x s) s0
  let s2 := if h.cls = .learn then s1
    else (List.range 4).foldl (fun s d => writeBatch (batchBytes s1 h version) d s) s1
  let run : Run :=
    { step := step, ply := h.ply, book := h.book, cls := h.cls, variant := h.variant, slot := sl.getD 0, version := version,
      inputId := inputId, ticket := h.ticket, batch := h.batch, progs := h.progs, signals := [], drains := [],
      trees := [], nodes := [], matched := [], wpHolds := [], writes := [], undo := [], bankUse := [], nowAc := 0,
      abortAc := none, recorded := none, stopped := false, launchTick := s2.tick, freq := s2.glaren.freq,
      freqChanged := changed, freqCancelled := cancelled, govHold := hold, energy := 0, extDst := [],
      flagged := [] }
  let s3 := { s2 with
    dealer := { s2.dealer with run := some run }
    conceal := { s2.conceal with healthCorrected := 0, healthClock := false, healthSupply := false, healthRepair := false } }
  let s4 := checkLaunch step h.ply.plyId h.variant inputId version s3
  let s5 := launchSignals step s4
  forecast (govAllowed s5 (govIndex h.book (plyIndex s5 h.book h.ply.plyId)) h.ply) (freeEnded s5)

end Sys2Proof.Machine
end

