-- ==== Sys2Proof/Machine/ReqOps.lean ====
section
/-! DEFINITION. The request operations ADMIT, CANCEL and PAGE_MOVE as the lead dealer applies them, outside boundary work (sections 9.2 and
9.4). -/

namespace Sys2Proof.Machine

/-! ### ADMIT (Tables 9.2 and 9.3) -/

/-- TEMP is finite and not negative; −0 is accepted. -/
def tempOk (t : W32) : Bool := isFiniteW t && (!t.getLsbD 31 || decide (t = 0x80000000))

/-- Check 3. -/
def admitFormatOk (b : AdmitBody) : Bool :=
  !b.reserved && decide (1 ≤ b.topK.toNat ∧ b.topK.toNat ≤ 64) && decide (1 ≤ b.promptLen.toNat) &&
    decide (b.promptLen.toNat < b.maxLen.toNat) && decide (b.promptOffset.toNat % 4 = 0) && tempOk b.temp

/-- Check 5: the prompt's 4-byte tokens lie in a valid, CLEAN object of tier 0 or 1. -/
def promptOk (s : State) (b : AdmitBody) : Bool :=
  let o := obj s b.promptObject.toNat
  o.inMem && decide (o.poison = .clean) && decide (b.promptOffset.toNat + 4 * b.promptLen.toNat ≤ o.len)

/-- The first failing check of Table 9.3. -/
def admitFault (s : State) (owner : Fn) (b : AdmitBody) : Option Byte :=
  if 4096 ≤ b.entry.toNat ∨ decide (3840 ≤ b.entry.toNat) ≠ b.eval then some Status.entryClass
  else if (request s b.entry.toNat).state ≠ .free then some Status.entryBusy
  else if ¬admitFormatOk b then some Status.requestFormat
  else if (queue s b.outRing.toNat).owner ≠ owner then some Status.notOwner
  else if ¬promptOk s b then some Status.objectFormat
  else if ringFree s b.outRing.toNat = 0 then some Status.ringFull
  else none

/-- The entry as written (Table 9.2); a DEADLINE of all ones means none. -/
def admitEntry (owner : Fn) (seq : W64) (b : AdmitBody) (old : Request) : Request :=
  { Request.cold with
    state := .queued, eval := b.eval, pin := b.pin, priority := b.priority.toNat, outRing := b.outRing.toNat,
    tenant := b.tenant.toNat, gen := old.gen + 1, key := b.key, promptLen := b.promptLen.toNat, maxLen := b.maxLen.toNat,
    headPage := noPage, tailPage := noPage,
    deadline := if b.deadline = BitVec.allOnes 48 then BitVec.allOnes 64 else b.deadline.zeroExtend 64,
    seed := b.seed, admitSeq := seq, temp := if b.temp = 0x80000000 then 0 else b.temp, topK := b.topK.toNat,
    topP := b.topP, stop0 := b.stop0, stop1 := b.stop1, promptObject := b.promptObject, owner := owner,
    promptOffset := b.promptOffset.toNat }

def admitBody (b : AdmitBody) (t : Ticket) (s : State) : State :=
  let owner := (queue s t.q).owner
  match admitFault s owner b with
  | some st => finish t st s
  | none =>
    let seq := s.dealer.admitSeq
    let s1 := setRequest b.entry.toNat (admitEntry owner seq b) { s with dealer := { s.dealer with admitSeq := seq + 1 } }
    complete t Status.ok seq false (wake s1)

/-! ### CANCEL and the checks of R267 -/

/-- The first failing check of an operation that names an entry and its KEY. -/
def entryFault (s : State) (owner : Fn) (entry : W16) (key : W32) : Option Byte :=
  let r := request s entry.toNat
  if 4096 ≤ entry.toNat then some Status.entryFormat
  else if r.state = .free ∨ r.key ≠ key then some Status.noMatch
  else if r.owner ≠ owner then some Status.notOwner
  else none

def cancelBody (entry : W16) (key : W32) (t : Ticket) (s : State) : State :=
  match entryFault s (queue s t.q).owner entry key with
  | some st => finish t st s
  | none => wake (setRequest entry.toNat (fun r => { r with cancel := true, cancels := r.cancels ++ [t] }) s)

/-! ### PAGE_MOVE (R278) -/

/-- Bytes of the target pool that the frames need, on one die. -/
def framesFit (s : State) (b : PageMoveBody) (d : Nat) : Bool :=
  let need := (b.frame.toNat + b.count.toNat) * frameShareBytes s
  if b.tier = 0 then (let o := obj s (pool s d).sram.toNat; o.valid && decide (o.tier = 0) && decide (need ≤ o.len))
  else if b.tier = 2 then (let o := obj s (pool s d).flash.toNat; o.inFlash && decide (need ≤ o.len))
  else true

/-- The first failing check after R267's. -/
def pageMoveFault (s : State) (b : PageMoveBody) : Option Byte :=
  let r := request s b.entry.toNat
  let dealt : Bool := match s.dealer.run with | some x => x.batch.any (fun y => decide (y.entry = b.entry.toNat)) | none => false
  if ¬holdsEnd r ∨ dealt then some Status.entryState
  else if 3 ≤ b.tier.toNat ∨ b.count.toNat = 0 ∨ 4096 < b.count.toNat then some Status.entryFormat
  else if r.pages < b.first.toNat + b.count.toNat then some Status.pageRange
  else if ¬(List.range 4).all (framesFit s b) then some Status.objectFormat
  else none

def pageMoveBody (b : PageMoveBody) (t : Ticket) (s : State) : State :=
  match entryFault s (queue s t.q).owner b.entry b.key with
  | some st => finish t st s
  | none =>
    match pageMoveFault s b with
    | some st => finish t st s
    | none =>
      if (shutFor s (.pageMove t b)).isSome then startOp (.pageMove t b) s
      else wake (addOp (.pageMove t b) (setRequest b.entry.toNat (fun r => { r with moving := true }) s))

/-! ### Operations that come while a boundary runs (R266) -/

/-- Apply a taken request operation. -/
def applyReqOp (t : Ticket) (i : Instr) (s : State) : State :=
  match i with
  | .admitEntry _ _ b => admitBody b t s
  | .cancel _ _ entry key => cancelBody entry key t s
  | .pageMove _ _ b => pageMoveBody b t s
  | _ => s

/-- A taken request operation: it waits for the launch while a boundary runs. -/
def reqOp (i : Instr) (t : Ticket) (s : State) : State :=
  if inBoundary s then { s with dealer := { s.dealer with reqOps := s.dealer.reqOps ++ [(t, i)] } } else applyReqOp t i s

/-- Apply what has waited, in the order of taking. -/
def drainReqOps (s : State) : State :=
  s.dealer.reqOps.foldl (fun s e => applyReqOp e.1 e.2 s) { s with dealer := { s.dealer with reqOps := [] } }

end Sys2Proof.Machine
end

