-- ==== Sys2Proof/Machine/Boundary.lean ====
section
/-! DEFINITION. The boundary procedure, step 1 to step 7, and the governor slot (sections 1.3, 5.13, 8.5, 9.5 to 9.10). -/

namespace Sys2Proof.Machine

/-! ### Spare lines of bonded SRAM (R210, R211) -/

/-- Map one line with a double-bit error to a spare of its bank, filled with +0; objects without SCRATCH that share the
line become POISONED. A bank that needs a seventeenth spare is failed. -/
def mapSpare (line : Nat) (s : State) : State :=
  let a := 512 * line
  let b := bankOf a
  if 16 ≤ natAt s.tiers.spares b then
    if s.dealer.sramExhausted then s
    else raiseEvent Event.sramExhausted (score (1 + a / 0x100000000) 3 0x0022 s.dealer.stepNumber (leBytes 8 a)
      { s with dealer := { s.dealer with sramExhausted := true } })
  else
    let s1 := { s with
      tiers := { s.tiers with
        spares := natSet s.tiers.spares b (natAt s.tiers.spares b + 1),
        mem := Tab.clear (fun i => decide (a ≤ i) && decide (i < a + 512)) s.tiers.mem }
      glaren := { s.glaren with settingsSeq := s.glaren.settingsSeq + 1 } }
    ((objectsIn s a 512).filter (fun e => !e.2.scratch)).foldl (fun s e => poisonObject e.1 (a / 256) s) s1

def mapSpares (s : State) : State :=
  s.tiers.sramPend.foldl (fun s l => mapSpare l s) { s with tiers := { s.tiers with sramPend := [] } }

/-! ### Step 1: retire (R269, R289, R290) -/

/-- The top-k records and log-sum-exp that the ply wrote for slot i (Table 9.9). -/
def slotResults (s : State) (i : Nat) : List (W32 × Nat) × W32 :=
  let a := (batchObject s (i / 256)).base
  ((List.range 64).map (fun j =>
      (readWord s.tiers.mem (a + 0x10040 + 512 * i + 8 * j), (readWord s.tiers.mem (a + 0x10044 + 512 * i + 8 * j)).toNat)),
    readWord s.tiers.mem (a + 0x90040 + 4 * i))

/-- Retire one slot of the last step: the draw, its TOKEN record, and the end of the entry where Table 9.4 gives one.
Answers the tenants that a drawn token charges (R285). -/
def retireSlot (acc : State × List Nat) (ix : BatchSlot × Nat) : State × List Nat :=
  let s := acc.1
  let x := ix.1
  let e := x.entry
  let r := request s e
  let len := r.curLen + x.tokens
  if ¬x.draw then (setRequest e (fun r => { r with curLen := len }) s, acc.2)
  else
    let res := slotResults s ix.2
    match draw res.1 res.2 r.temp r.topK r.topP (uniform (dice r.seed r.key len)) with
    | none => (endEntry e .failed 4 r.cancel s, acc.2)
    | some (tok, lp) =>
      let s1 := commitRecord r.outRing (outputRecord r e 0 0 tok lp r.lastVersion r.lastStep len false) s
      let s2 := setRequest e (fun r =>
        { r with state := .decode, curLen := len, lastToken := tok, delivered := r.delivered + 1 }) s1
      let s3 := if tok = r.stop0 ∨ tok = r.stop1 then endEntry e .finished 0 r.cancel s2
        else if r.maxLen ≤ len + 1 then endEntry e .finished 1 r.cancel s2
        else s2
      (s3, if r.eval then acc.2 else acc.2 ++ [r.tenant])

/-- Insert a slot by ascending entry. -/
def slotInto (x : BatchSlot × Nat) : List (BatchSlot × Nat) → List (BatchSlot × Nat)
  | [] => [x]
  | y :: t => if x.1.entry < y.1.entry then x :: y :: t else y :: slotInto x t

/-- Step 1. -/
def stepRetire (s : State) : State × List Nat :=
  let s0 := { s with dealer := { s.dealer with lastBatch := [] } }
  if s.dealer.abandoned then (s0, [])
  else (s.dealer.lastBatch.zipIdx.foldl (fun l x => slotInto x l) []).foldl retireSlot (s0, [])

/-! ### Step 2: cancellations and deadlines (R286) -/

def stepExpire (tick : W64) (es : List Nat) (s : State) : State :=
  es.foldl (fun s e =>
    let r := request s e
    if ¬holdsEnd r then s
    else if r.cancel then endEntry e .cancelled 2 false s
    else if r.deadline ≤ tick then endEntry e .expired 3 false s
    else s) s

/-! ### Step 3: the castle (R245, R257, R260) -/

/-- References on a slot's members from requests pinned to it and from commands (R245). -/
def slotRefs (s : State) (i : Nat) : Nat := pinnedTo s i + slotReaders s i

/-- A HELD slot without references becomes STANDBY (R245). -/
def releaseHeld (i : Nat) (s : State) : State :=
  if (slot s i).state = .held ∧ slotRefs s i = 0 then setSlot i (fun x => { x with state := .standby }) s else s

/-- Apply a pending castle: pointer, LAST_SWITCH_STEP, record, mark. -/
def applyCastle (s : State) : State :=
  match s.dealer.castlePending with
  | none => s
  | some c =>
    let t := c.body.target.toNat % 2
    let old := 1 - t
    let s1 := if (slot s old).state = .live then
        setSlot old (fun x => { x with state := if slotRefs s old = 0 then .standby else .held }) s else s
    let s2 := setSlot t (fun x => { x with state := .live }) s1
    let step := s.dealer.stepNumber + 1
    let s3 := { s2 with dealer := { s2.dealer with castlePending := none, lastSwitch := step, sinceOld := 0 } }
    complete c.ticket Status.ok (BitVec.ofNat 64 c.flagged) false
      (score (leadSource s) 0 0x0011 step (leBytes 1 t ++ leBytes 4 c.body.version.toNat) s3)

/-- The phase that holds after step 5. -/
def nextPhase (s : State) : Phase := match s.dealer.pending with | some p => p.1 | none => s.dealer.phase

/-- The slot fixed at step 3, and whether the boundary is an old-version boundary (R260). -/
def fixSlot (applied : Bool) (s : State) : Option Nat × Bool :=
  let iv := s.dealer.pinInterval.toNat
  let ok := !applied && decide (nextPhase s = .generate) && (decide (iv = 0) || decide (s.dealer.sinceOld = iv))
  if ok && oldDealable s 0 then (some 0, true)
  else if ok && oldDealable s 1 then (some 1, true)
  else (liveSlot s, false)

/-! ### Step 4: budgets (R284, R285) -/

/-- The budget of tenant t after a refill: a pending BUDGET_SET wins over the automatic one. -/
def refilled (s : State) (auto : Bool) (t : Nat) : W32 :=
  match s.dealer.budgetSets.find? (fun e => decide (e.1 = t)) with
  | some e => e.2
  | none =>
    match s.dealer.budgetAll with
    | some v => v
    | none => if auto then Tab.get (fun _ => (0xFFFFFFFF : W32)) s.dealer.refills t
        else Tab.get (fun _ => (0xFFFFFFFF : W32)) s.dealer.budgets t

def stepCharge (tenants : List Nat) (s : State) : State :=
  let auto := decide (s.dealer.refillPeriod ≠ 0) && decide (s.dealer.refillPeriod.toNat ≤ s.dealer.refillCount)
  let due := auto || s.dealer.budgetAll.isSome || !s.dealer.budgetSets.isEmpty
  let b := if due then
      (List.range 1024).foldl (fun b t => Tab.set (fun _ => (0xFFFFFFFF : W32)) b t (refilled s auto t)) s.dealer.budgets
    else s.dealer.budgets
  let b' := tenants.foldl (fun b t => Tab.mod (fun _ => (0xFFFFFFFF : W32)) b t (fun n => if n = 0 then 0 else n - 1)) b
  { s with dealer := { s.dealer with
      budgets := b', budgetSets := [], budgetAll := none, refillCount := if auto then 0 else s.dealer.refillCount } }

/-! ### Step 5: the phase (R27, R38) -/

/-- PHASE of TURN_STATUS (Table 1.7). -/
def Phase.code : Phase → Nat
  | .idle => 0
  | .generate => 1
  | .learn => 2
  | .fenced => 3

def stepPhase (s : State) : State :=
  match s.dealer.pending with
  | none => s
  | some (p, q, t) =>
    let s1 := { s with dealer := { s.dealer with
      phase := p, pending := none, learnQueue := if p = .learn then some q else none,
      sinceEval := if p = .learn ∧ s.dealer.phase ≠ .learn then 0 else s.dealer.sinceEval } }
    finish t Status.ok (score (leadSource s) 0 0x0010 (s.dealer.stepNumber + 1) (leBytes 1 p.code) s1)

/-! ### Steps 5 and 6: batch and ply -/

/-- EVAL_DUE: the count condition of R32. Outside LEARN it is not met: the count starts anew when the phase becomes LEARN. -/
def evalDue (s : State) : Bool :=
  decide (s.dealer.phase = .learn) && decide (s.dealer.evalInterval ≠ 0) && decide (s.dealer.sinceEval = s.dealer.evalInterval.toNat)

/-- The batch slots of dealt entries. -/
def batchSlots (s : State) (es : List Nat) : List BatchSlot :=
  es.map (fun e =>
    let r := request s e
    let t := stepTokens s r
    { entry := e, tokens := t, decode := decide (r.state = .decode), draw := stepDraws r t })

/-- What step 6 found: nothing, or a launch. -/
abbrev Choice := State × Option Held

/-- Settle a generation batch: NO_PLY entries end, the ply is selected, its bindings are checked (R175, R177). -/
def settle (cls : StepClass) (sl : Nat) (es : List Nat) (s : State) : Choice :=
  match s.dealer.genBook with
  | none => (s, none)
  | some b =>
    let bad := uncovered s b es
    let s1 := bad.foldl (fun s e => endEntry e .failed 5 false s) s
    match shrinkBatch s1 b (es.length + 1) (es.filter (fun e => !bad.contains e)) with
    | none => (s1, none)
    | some (es', p) =>
      if plyFault s1 (some sl) p then (raiseEvent Event.bindingFault s1, none)
      else if plyHeld s1 (some sl) p then (s1, none)
      else (s1, some { cls := cls, slot := sl, book := .gen, ply := p, variant := p.variant, inputId := 0, ticket := none,
                       batch := batchSlots s1 es', freq := 0, since := s1.tick, progs := launchProgs s1 (some sl) p })

/-- The oldest taken ply-run command (R31, R74, R176, R177). -/
def chooseLearn (s : State) : Choice :=
  match s.dealer.plyRuns with
  | [] => (s, none)
  | (t, id, mask, val, input) :: rest =>
    let drop := { s with dealer := { s.dealer with plyRuns := rest } }
    match s.dealer.learnBook.bind (fun b => b.plies.find? (fun p => decide (p.plyId = id))) with
    | none => (finish t Status.bookAbsent drop, none)
    | some p =>
      if p.epoch ≠ (epochOf s) then (finish t Status.epochMismatch drop, none)
      else if plyFault s (liveSlot s) p then (finish t Status.bindingFault drop, none)
      else if plyHeld s (liveSlot s) p then (s, none)
      else (s, some { cls := .learn, slot := (liveSlot s).getD 0, book := .learn, ply := p,
                      variant := (val &&& mask) ||| (p.variant &&& ~~~mask), inputId := input, ticket := some t,
                      batch := [], freq := 0, since := s.tick, progs := launchProgs s (liveSlot s) p })

/-- Step 6 of a learning boundary. Where the count of R32 is met and no eval step is possible, the count restarts at 0 as the boundary
launches a learning ply, and that ply is the first of the new count; a boundary that launches nothing leaves it as it is (DESIGN
CHOICE, log entry 32). -/
def learnChoice (s : State) : Choice :=
  let c := chooseLearn s
  match c.2 with
  | some h => (if evalDue s then { c.1 with dealer := { c.1.dealer with sinceEval := 0 } } else c.1, some h)
  | none => c

/-- Whether queue q has an untaken command and runs. -/
def queueOpen (s : State) (q : Nat) : Bool :=
  let k := queue s q
  (s.resets.mgood || decide (s.dealer.phase = .fenced)) && !s.resets.recovery && k.enable && !k.error && decide (k.sqHead ≠ k.sqTail) &&
    !(portSt s k.owner.port).d3hot

/-- Whether step 6 stands before a learning boundary whose ply-run command is still in its queue (R31, R395). -/
def waitsPlyRun (sl : Option Nat) (es : List Nat) (s : State) : Bool :=
  !noLaunch s && decide (s.dealer.phase = .learn) && s.dealer.plyRuns.isEmpty &&
    !(evalDue s && sl.isSome && !(chooseBatch s (sl.getD 0) false true es).dealt.isEmpty) &&
    (match s.dealer.learnQueue with
      | some q => queueOpen s q
      | none => false)

/-- Steps 5 and 6 after the phase change (Table 1.5). -/
def choose (sl : Option Nat) (old : Bool) (es : List Nat) (s : State) : Choice :=
  if noLaunch s then (s, none)
  else match s.dealer.phase, sl with
  | .generate, some i =>
    let w := chooseBatch s i old false es
    let s1 := { s with dealer := { s.dealer with skip := w.skip } }
    if w.dealt = [] then (s1, none) else settle (if old then .old else .generate) i w.dealt s1
  | .learn, i =>
    let w := chooseBatch s (i.getD 0) false true es
    if evalDue s && i.isSome && !w.dealt.isEmpty then
      settle .eval (i.getD 0) w.dealt { s with dealer := { s.dealer with skip := w.skip } }
    else learnChoice s
  | _, _ => (s, none)

/-! ### The end of a boundary -/

/-- The tables that the follower mirrors (R23, R265). -/
def mirrorOf (s : State) : Mirror :=
  let d := s.dealer
  { requests := d.requests, pageTab := d.pageTab, freeHead := d.freeHead, freeTail := d.freeTail, freeCount := d.freeCount,
    budgets := d.budgets }

/-- The boundary record to the follower, while there is one (R23, R293). -/
def sendBoundaryRecord (step : W64) (s : State) : State :=
  if s.dealer.split ∨ (fencedHalf s).isSome then s
  else emit (.boundaryRecord step) { s with dealer := { s.dealer with needAck := some step } }

/-- What follows a boundary: the ports write its records, and the request operations that came during it are applied (R266, R290). -/
def afterBoundary (s : State) : State := drainReqOps (writeRecords s)

/-- An idle boundary ends (R34). -/
def idleBoundary (s : State) : State :=
  let s1 := freeEnded (sendBoundaryRecord s.dealer.stepNumber s)
  afterBoundary { s1 with
    dealer := { s1.dealer with idle := true, idleSince := s1.tick, abandoned := false, held := none }
    conceal := { s1.conceal with waiting := !s1.conceal.mismatch && twinHolds s1 }
    counters := { s1.counters with idleBoundaries := s1.counters.idleBoundaries + 1 } }

/-- Whether a chosen launch does not take place after all: the dealers have stopped launching, or the half that it needs has fenced. -/
def launchStopped (s : State) (h : Held) : Bool :=
  noLaunch s || (match fencedHalf s with | some x => namesHalf h.ply.resourceMap x | none => false)

/-- The launch that ends a boundary: the record to the follower, the batch block, the launch (R178). -/
def launchBoundary (h : Held) (changed cancelled : Bool) (hold : Nat) (s : State) : State :=
  if launchStopped s h then idleBoundary s
  else afterBoundary (launch h changed cancelled hold
    (sendBoundaryRecord (s.dealer.stepNumber + 1) { s with conceal := { s.conceal with waiting := false } }))

/-- The governor slot between step 6 and step 7 (R37, R183, R450). -/
def governorSlot (h : Held) (s : State) : State :=
  let (f, ovr) := chooseFreq s (govAllowed s (govIndex h.book (plyIndex s h.book h.ply.plyId)) h.ply)
  let s1 := if ovr then { s with glaren := { s.glaren with overshoots := satInc s.glaren.overshoots } } else s
  if f = s.glaren.freq then launchBoundary h false false 0 s1
  else if s.glaren.standbyStable then launchBoundary h true false 0 (switchFreq s1)
  else { s1 with dealer := { s1.dealer with held := some { h with freq := f, since := s.tick } } }

/-- CLUSTER_EXHAUSTED to both hosts when a cluster has become exhausted; the engine map shows it, since no launch will (R100, R101). -/
def reportExhausted (s : State) : State :=
  let s1 := if anyExhausted s then { s with units := { s.units with engMap := s.glaren.failedList } } else s
  if anyExhausted s1 ∧ ¬s1.dealer.exhausted then
    raiseEvent Event.clusterExhausted { s1 with dealer := { s1.dealer with exhausted := true } }
  else s1

/-- A boundary while the peak cap stands; the second one starts its 100 ms (R451). -/
def countPeak (s : State) : State :=
  let g := s.glaren
  if g.peakCap.isSome then
    { s with glaren := { g with
        peakBoundaries := g.peakBoundaries + 1, peakTick := if g.peakBoundaries = 1 then s.tick else g.peakTick } }
  else s

/-- Step 7, or an idle boundary's end. -/
def endBoundary (c : Choice) : State :=
  match c.2 with
  | some h => governorSlot h c.1
  | none => idleBoundary c.1

/-- The boundary procedure of R29 and R178. -/
def runBoundary (s : State) : State :=
  let es := occupied s
  let s0 := { s with
    dealer := { s.dealer with due := false, idle := false, before := if s.dealer.needAck.isNone ∧ ¬s.dealer.split then mirrorOf s else s.dealer.before }
    counters := { s.counters with
      boundaries := s.counters.boundaries + 1,
      boundaryAc := s.counters.boundaryAc + BitVec.ofNat 64 (2400 + 14 * es.length) } }
  let (s1, tenants) := stepRetire (startPendingBlocks (mapSpares (reportExhausted (countPeak s0))))
  let s2 := stepExpire s.tick es s1
  let s3 := releaseHeld 1 (releaseHeld 0 (applyCastle s2))
  let (sl, old) := fixSlot s2.dealer.castlePending.isSome s3
  let s4 := takeCheckpoint (stepPhase (stepCharge tenants s3))
  if waitsPlyRun sl es s4 then { s4 with dealer := { s4.dealer with midway := true } }
  else endBoundary (choose sl old es s4)

/-- Whether the half that holds the dealer role has fenced itself: no dealer runs a boundary until the other half has HOLD (R22, R294). -/
def leadFenced (s : State) : Bool := match s.dealer.lead with | .west => s.dealer.westFenced | .east => s.dealer.eastFenced

/-- Whether the lead dealer is between two steps, with no launch held for the governor. -/
def betweenSteps (s : State) : Bool :=
  s.resets.mgood && !leadFenced s && !s.resets.recovery && decide (s.dealer.phase ≠ .fenced) && s.dealer.run.isNone && s.dealer.held.isNone

/-- Whether the lead dealer runs a boundary now. -/
def boundaryDue (s : State) : Bool := betweenSteps s && s.dealer.due && !s.dealer.midway

/-- Whether a learning boundary stands before its step 6. -/
def boundaryOpen (s : State) : Bool := betweenSteps s && s.dealer.midway

/-- Steps 6 and 7 of such a boundary, with the ply-run commands that have been taken. -/
def closeBoundary (s : State) : State :=
  let s1 := { s with dealer := { s.dealer with midway := false } }
  endBoundary (if noLaunch s1 then (s1, none) else learnChoice s1)

/-- BOUNDARY (R29, R178; where one stands before step 6, its ply-run command is not to be taken, and it ends). -/
def execBoundary (s : State) : Out :=
  .next (if boundaryOpen s then closeBoundary s else if boundaryDue s then runBoundary s else s)

/-- IDLE_BOUNDARY_TIMEOUT: 1,000 module ticks pass after an idle boundary (R34). -/
def execIdleBoundaryTimeout (s : State) : Out :=
  .next (if s.dealer.idle ∧ 1000 ≤ (s.tick - s.dealer.idleSince).toNat then wake s else s)

/-- Bounds of the ac since step 6 of a held launch: the module ticks that have passed, less and plus one. -/
def govAcLow (s : State) (h : Held) : Nat := ((s.tick - h.since).toNat - 1) * freqMHz s.glaren.freq
def govAcHigh (s : State) (h : Held) : Nat := ((s.tick - h.since).toNat + 1) * freqMHz s.glaren.freq

/-- The ac that a launch has been held after its 64 ac governor slot, at most 250,000 − 64 (R37, R185, R201). Module ticks do not give it
exactly: within their bounds it is a free value (DESIGN CHOICE, log entry 68). -/
def govHeldAc (s : State) (h : Held) : Nat :=
  min (govAcLow s h + Config.freeNat s.free % (govAcHigh s h - govAcLow s h)) 250000 - 64

/-- Launch what the governor holds, its held ac counted. -/
def launchHeld (h : Held) (changed : Bool) (s : State) : State :=
  launchBoundary h changed (!changed) (govHeldAc s h)
    (if changed then switchFreq { s with free := s.free + 1 } else score 0 0 0x0013 (s.dealer.stepNumber + 1) [] { s with free := s.free + 1 })

/-- GOV_CONFIRM: the standby PLL is stable; a held launch goes on at the new frequency, or at the old one where 250,000 ac have passed
(R37, R185, R201). -/
def execGovConfirm (s : State) : Out :=
  .next (let s1 := { s with glaren := { s.glaren with standbyStable := true } }
    match s.dealer.held with
    | some h => launchHeld h (decide (govAcLow s h < 250000)) s1
    | none => s1)

/-- GOV_CONFIRM_TIMEOUT: 250,000 ac after step 6 the change is cancelled; 64 of them are the governor slot (R185, R201). -/
def execGovConfirmTimeout (s : State) : Out :=
  .next (match s.dealer.held with
    | some h =>
      if 250000 < govAcHigh s h then
        launchBoundary h false true (250000 - 64) (score 0 0 0x0013 (s.dealer.stepNumber + 1) [] s)
      else s
    | none => s)

end Sys2Proof.Machine
end

