-- ==== Sys2Proof/Machine/Command.lean ====
section
/-! DEFINITION. Taking a command from a queue, and the commands that steer the dealer: NOP, PHASE, PLY_RUN (sections 1.3,
13.3, 13.5, 13.6). -/

namespace Sys2Proof.Machine

/-! ### Taking (R395, R401, R408, R411, R434) -/

/-- Whether the wait mark of a header is satisfied. -/
def waitOk (s : State) (h : Hdr) : Bool := !h.wait || decide (h.waitValue ≤ (mark s h.waitMark.toNat).value)

/-- Whether the completion ring has an entry that no taken, incomplete command has reserved. -/
def hasRoom (k : Queue) : Bool := decide (k.inFlight + (k.cqTail - k.cqHead).toNat < k.cqSize.toNat)

/-- Whether queue q's next command, with this header, can be taken. -/
def canTake (s : State) (q : Nat) (h : Hdr) : Bool := queueOpen s q && waitOk s h && hasRoom (queue s q)

/-- Whether a half has fenced, or the module is FENCED. -/
def halfFenced (s : State) (p : Port) : Bool :=
  decide (s.dealer.phase = .fenced) || (match p with | .A => s.dealer.westFenced | .B => s.dealer.eastFenced)

/-- The first command taken after MGOOD makes the start a success (R434). -/
def startOk (s : State) : State :=
  if s.resets.startOk then s
  else score 0 0 0x0002 0 [BitVec.ofNat 8 s.resets.startKind]
    { s with
      resets := { s.resets with startOk := true, failedStarts := 0, startKind := 0 }
      glaren := { s.glaren with migrating := false } }

/-- Take the next command of queue q when it can be taken now, and run it: its ticket, then the checks that every command
meets (FENCED, NOT_OWNER, NOT_MOVE). -/
def takeCmd (q : Nat) (h : Hdr) (wide : Bool) (ready : State → Bool) (k : Ticket → State → State) (s : State) : State :=
  if canTake s q h && ready s then
    let x := queue s q
    let t : Ticket := { q := q, index := x.sqHead, hdr := h }
    let s1 := startOk (setQueue q (fun x => { x with sqHead := x.sqHead + 1, inFlight := x.inFlight + 1, waiting := false }) s)
    if halfFenced s1 x.owner.port then finish t Status.fenced s1
    else if h.done ∧ (mark s1 h.doneMark.toNat).owner ≠ x.owner then finish t Status.notOwner s1
    else if wide ∧ ¬isHolder s1 x.owner then finish t Status.notMove s1
    else k t s1
  else setQueue q (fun x => { x with waiting := queueOpen s q && !waitOk s h }) s

/-- A command that nothing but R395 holds. -/
def always : State → Bool := fun _ => true

/-! ### NOP -/

def takeNop (q : Nat) (h : Hdr) : State → State := takeCmd q h false always (fun t s => finish t Status.ok s)

/-- NOP (Table 13.7). -/
def execNop (q : Nat) (h : Hdr) (s : State) : Out := withUnit q 256 s (takeNop q h)

/-! ### PHASE (R25 to R28, R40) -/

/-- The phase that a TARGET code names. -/
def phaseOf (target : Byte) : Option Phase :=
  if target = 0 then some .idle else if target = 1 then some .generate else if target = 2 then some .learn else none

/-- The change becomes pending (R27), an event of R34. -/
def pendPhase (p : Phase) (q : Nat) (t : Ticket) (s : State) : State :=
  wake { s with dealer := { s.dealer with pending := some (p, q, t) } }

def phaseBody (target : Byte) (lq : W16) (t : Ticket) (s : State) : State :=
  match phaseOf target with
  | none => finish t Status.entryFormat s
  | some .generate =>
    if s.dealer.genBook.isNone then finish t Status.bookAbsent s
    else if (liveSlot s).isNone ∧ s.dealer.castlePending.isNone then finish t Status.noLiveSlot s
    else pendPhase .generate 0 t s
  | some .learn =>
    if s.dealer.learnBook.isNone then finish t Status.bookAbsent s
    else if 256 ≤ lq.toNat then finish t Status.entryFormat s
    else pendPhase .learn lq.toNat t s
  | some p => pendPhase p 0 t s

/-- A PHASE waits in its queue while another change is pending (R28). -/
def takePhase (q : Nat) (h : Hdr) (target : Byte) (lq : W16) : State → State :=
  takeCmd q h true (fun s => s.dealer.pending.isNone || halfFenced s (queue s q).owner.port) (phaseBody target lq)

def execPhase (q : Nat) (h : Hdr) (target : Byte) (lq : W16) (s : State) : Out := withUnit q 256 s (takePhase q h target lq)

/-! ### PLY_RUN (R31, R176, R395, R403) -/

/-- Whether the pending or applied PHASE(LEARN) names queue q (Q_CTRL.LEARNING). -/
def learningQueue (s : State) (q : Nat) : Bool :=
  decide (s.dealer.learnQueue = some q) ||
    (match s.dealer.pending with
      | some (.learn, p, _) => decide (p = q)
      | _ => false)

/-- The dealer has reached a learning boundary, and its learning queue is q (R31, R395). -/
def learnBoundary (s : State) (q : Nat) : Bool := boundaryOpen s && decide (s.dealer.learnQueue = some q)

/-- Whether the dealer lets a ply-run command of queue q be taken. -/
def plyRunReady (q : Nat) (s : State) : Bool :=
  !learningQueue s q || halfFenced s (queue s q).owner.port || learnBoundary s q

def plyRunBody (plyId : W32) (mask value : Byte) (inputId : W64) (t : Ticket) (s : State) : State :=
  if ¬learningQueue s t.q then finish t Status.wrongQueue s
  else closeBoundary { s with dealer := { s.dealer with plyRuns := s.dealer.plyRuns ++ [(t, plyId, mask, value, inputId)] } }

/-- A ply-run command of the learning queue whose marks are satisfied starts an idle dealer's next boundary (R34). -/
def plyRunWakes (q : Nat) (h : Hdr) (s : State) : State :=
  if s.dealer.idle ∧ canTake s q h ∧ learningQueue s q ∧ ¬plyRunReady q s then wake s else s

def takePlyRun (q : Nat) (h : Hdr) (plyId : W32) (mask value : Byte) (inputId : W64) (s : State) : State :=
  takeCmd q h true (plyRunReady q) (plyRunBody plyId mask value inputId) (plyRunWakes q h s)

/-- PLY_RUN: taken at a learning boundary, whose step 6 then takes up its ply. -/
def execPlyRun (q : Nat) (h : Hdr) (plyId : W32) (mask value : Byte) (inputId : W64) (s : State) : Out :=
  withUnit q 256 s (takePlyRun q h plyId mask value inputId)

end Sys2Proof.Machine
end

