-- ==== Sys2Proof/Machine/Lines.lean ====
section
/-! DEFINITION. Reading LPDDR5X lines: the check image and what the controller decodes, the correction queue, the poisoned-line path with its
repair agents, and the reads of engine commands (R205, R214 to R216, R219, R222, R223, R233 to R238). Lines are keyed by physical module address ÷ 256. -/

namespace Sys2Proof.Machine

/-! ### A line as received (Tables 7.4 and 7.5) -/

/-- The key of port line L of port m, the port of a key, and its port line. -/
def lineKey (m l : Nat) : Nat := (directBase + m * 0x2000000000) / 256 + l
def linePort (k : Nat) : Nat := (256 * k - directBase) / 0x2000000000
def portLine (k : Nat) : Nat := (256 * k - directBase) % 0x2000000000 / 256

/-- Data word w of a line: bytes 4w + 3 to 4w (R214). -/
def lineWord (data : List Byte) (w : Nat) : W32 := BitVec.ofNat 32 (fieldAt data (4 * w) 4)

/-- Beat i of the check image, eight bytes: ECC_j of its eight words at [7j+6:7j], then the spare byte, TAG and POISON (Table 7.5). -/
def checkBeat (data : List Byte) (spare : Byte) (i : Nat) : List Byte :=
  leBytes 8 ((List.range 8).foldl (fun a j => a + 2 ^ (7 * j) * (checkBits (lineWord data (8 * i + j))).toNat) 0 + 2 ^ 56 * spare.toNat)

/-- The check image of a line: the spare byte stands in all eight beats (R214, R215). -/
def checkImage (data : List Byte) (spare : Byte) : List Byte := ((List.range 8).map (checkBeat data spare)).flatten

/-- The check bits of word w and the spare byte of beat i, as received. -/
def imageBits (check : List Byte) (w : Nat) : BitVec 7 := BitVec.ofNat 7 (fieldAt check (8 * (w / 8)) 8 / 2 ^ (7 * (w % 8)))
def spareOf (check : List Byte) (i : Nat) : Byte := BitVec.ofNat 8 (fieldAt check (8 * i) 8 / 2 ^ 56)

/-- The 64 data words with their check bits, and the eight spare bytes, of a line as received. -/
def rawWords (r : RawLine) : List (W32 × BitVec 7) := (List.range 64).map (fun w => (lineWord r.data w, imageBits r.check w))
def rawSpares (r : RawLine) : List Byte := (List.range 8).map (spareOf r.check)

/-- How many of the spare bytes have bit i. -/
def spareVotes (xs : List Byte) (i : Nat) : Nat := (xs.filter (fun x => x.getLsbD i)).length
/-- The spare byte by majority over its copies; none on a tie. -/
def spareByte (xs : List Byte) : Option Byte :=
  if (List.range 8).any (fun i => decide (2 * spareVotes xs i = xs.length)) then none
  else some (BitVec.ofNat 8 ((List.range 8).foldl (fun a i => a + 2 ^ i * flag (decide (xs.length < 2 * spareVotes xs i))) 0))

/-- What a read of a line finds: clean, corrected, or uncorrectable with its KIND (Table 7.14). -/
inductive LineRead where
  | clean | corrected
  | bad (kind : Nat)
  deriving DecidableEq, Repr

/-- The check of a line at key k as received. -/
def checkLine (s : State) (k : Nat) (raw : RawLine) : LineRead :=
  let words := (rawWords raw).map (fun x => eccDecode x.1 x.2)
  match spareByte (rawSpares raw) with
  | none => .bad 4
  | some b =>
    if b.getLsbD 7 then .bad 3
    else if words.any (fun w => match w with | .bad => true | _ => false) then .bad 1
    else if b ≠ (expectedTag s k ^^^ (lineHash (portLine k)).zeroExtend 8) then .bad 2
    else if words.any (fun w => match w with | .corrected _ => true | _ => false) then .corrected
    else .clean

/-- The spare byte that a port stores with a line: LINE_TAG ⊕ F(L) and POISON (R215). -/
def storedSpare (s : State) (k : Nat) : Byte :=
  (Tab.get (fun _ => 0) s.tiers.lineTag k ^^^ (lineHash (portLine k)).zeroExtend 8) |||
    (if Tab.get (fun _ => false) s.tiers.linePoison k then 0x80 else 0)

/-- The line at key k as its port stores it. -/
def storedLine (s : State) (k : Nat) : RawLine :=
  let d := readBytes s.tiers.mem (256 * k) 256
  { data := d, check := checkImage d (storedSpare s k) }

/-- The KIND with which the stored line at key k fails, whatever its bits: POISON, or a tag that is not its object's. -/
def storedFault (s : State) (k : Nat) : Option Nat :=
  if Tab.get (fun _ => false) s.tiers.linePoison k then some 3
  else if Tab.get (fun _ => 0) s.tiers.lineTag k ≠ expectedTag s k then some 2
  else none

/-- The keys of the tier-1 lines of a module range. -/
def rangeLines (a n : Nat) : List Nat :=
  ((List.range ((n + a % 256 + 255) / 256)).filterMap (fun i => physOf (a / 256 * 256 + 256 * i))).filterMap
    (fun p => if sramEnd ≤ p then some (p / 256) else none)

/-! ### Counts and logs -/

def setTiers (f : Tiers → Tiers) (s : State) : State := { s with tiers := f s.tiers }

/-- A corrected line: counted, and logged for a rewrite while the port's queue has room (R216). -/
def lineCorrected (k : Nat) (s : State) : State :=
  let m := linePort k
  let q := Tab.get (fun _ => []) s.tiers.corrQueue m
  setTiers (fun t => { t with
    corrected := bump t.corrected m 1,
    corrQueue := if q.length < 64 then Tab.set (fun _ => []) t.corrQueue m (q ++ [k]) else t.corrQueue,
    dropped := if q.length < 64 then t.dropped else bump t.dropped m 1 }) s

/-- An uncorrectable line (Table 7.14). -/
def lineFailed (k kind : Nat) (s : State) : State :=
  let m := linePort k
  setTiers (fun t => { t with
    tagMiss := if kind = 2 then bump t.tagMiss m 1 else t.tagMiss,
    lastErr := Tab.set (fun _ => LastErr.cold) t.lastErr m
      { address := BitVec.ofNat 48 (256 * k), kind := BitVec.ofNat 3 kind, repaired := false } }) s

/-- The row of a line: its key without the column bits (Table 7.4). -/
def rowKey (k : Nat) : Nat := k - (portLine k / 2 % 2 * 2 + portLine k / 128 % 32 * 128)

/-- A line that fails again after a repair that read back clean: its row waits for hard repair (R219). -/
def markHard (k : Nat) (s : State) : State :=
  if s.tiers.refailed.contains k ∧ ¬s.tiers.hardRepair.contains (rowKey k) then
    let s1 := setTiers (fun t => { t with hardRepair := t.hardRepair ++ [rowKey k] }) s
    score 5 2 0x0023 s.dealer.stepNumber (leBytes 8 (256 * k)) { s1 with glaren := { s1.glaren with settingsSeq := s1.glaren.settingsSeq + 1 } }
  else s

/-! ### Repair sources (Table 7.11) -/

/-- Whether a copy has the version that the failing object needs. -/
def versionFits (o x : Obj) : Bool := !o.versioned || decide (x.version = o.version)

/-- Offset of a line in its object. -/
def offsetIn (o : Obj) (k : Nat) : Nat :=
  ((List.range (o.len / 256)).find? (fun i => decide (physOf (o.base + 256 * i) = some (256 * k)))).getD 0 * 256

/-- Whether source i (0 ALT_OBJECT, 1 FLASH_COPY, 2 peer) is usable for line k of object `id`. -/
def sourceUsable (s : State) (id k i : Nat) : Bool :=
  let o := obj s id
  if o.kv || o.training then false
  else match i with
  | 0 =>
    let x := obj s o.altObject.toNat
    decide (o.altObject ≠ 0xFFFF) && x.inMem && decide (x.poison = .clean) && versionFits o x
  | 1 =>
    let x := obj s o.flashCopy.toNat
    decide (o.flashCopy ≠ 0xFFFF) && x.inFlash && versionFits o x && !s.tiers.failedWords.contains (id, offsetIn o k / 4096)
  | _ => decide (o.peerPos ≠ 0xFFFF) && decide (o.peerObject ≠ 0xFFFF) && decide ((position s o.peerPos.toNat).state = 1)

/-- The first usable source from number i on. -/
def nextSource (s : State) (id k i : Nat) : Option Nat :=
  (List.range 3).find? (fun j => decide (i ≤ j) && sourceUsable s id k j)

/-- Ask a peer for the line (R234, R235). -/
def askPeer (o : Obj) (k : Nat) (s : State) : State :=
  emit (.bulk o.peerPos Msg.repairRequest (leBytes 2 o.peerObject.toNat ++ leBytes 8 (offsetIn o k) ++ leBytes 4 o.version.toNat)) s

/-! ### The poisoned-line path (R233) -/

/-- The failed read's effect on what waits for it: a stream's wait point will be marked failed; other readers see the object. -/
def failReader (op : Option Nat) (s : State) : State :=
  match op with
  | none => s
  | some id => setStream id (fun x => { x with failed := true }) s

/-- Whether the line at key k is being repaired and no good data has come yet. -/
def lineInRepair (s : State) (k : Nat) : Bool := s.tiers.repairs.any (fun r => decide (r.line = k) && !r.rewriting)

/-- Those of some lines whose stored check fails and that have no good data yet, with their KIND. -/
def badLines (s : State) (ks : List Nat) : List (Nat × Nat) :=
  ks.filterMap (fun k =>
    if s.tiers.repairs.any (fun r => decide (r.line = k) && r.rewriting) then none
    else (storedFault s k).map (fun x => (k, x)))

/-- Answer the BAR2 reads that wait for a line: with poisoned data when it has no good copy, else once no line of theirs waits (R391). -/
def answerBar (k : Nat) (poisoned : Bool) (s : State) : State :=
  [Port.A, Port.B].foldl (fun s p =>
    let ends (r : BarRead) : Bool := (rangeLines r.addr r.length).contains k &&
      (poisoned || !(rangeLines r.addr r.length).any (lineInRepair s))
    let rs := (portSt s p).barReads
    (rs.filter ends).foldl (fun s r => emit (.barData p (readBytes s.tiers.mem r.addr r.length) poisoned) s)
      (setPort p (fun x => { x with barReads := x.barReads.filter (fun r => !ends r) }) s)) s

/-- No source gave a good line: the object is POISONED, the line is written with POISON = 1, its readers fail. -/
def giveUp (o k : Nat) (op : Option Nat) (s : State) : State :=
  let s1 := setTiers (fun t => { t with linePoison := Tab.set (fun _ => false) t.linePoison k true }) s
  let s2 := if (obj s1 o).poison = .poisoned then s1 else poisonObject o k s1
  wake (answerBar k true (failReader op s2))

/-- A line is uncorrectable: the repair agent takes it (R233). An object that is
POISONED stays so, since only a host takes it back to CLEAN (R222; DEDUCED, log entry 70). -/
def poisonedLine (k : Nat) (op : Option Nat) (s : State) : State :=
  let s0 := markHard k s
  match objectsAt s (256 * k) with
  | [] => answerBar k true (failReader op s0)
  | (o, x) :: _ =>
    if x.scratch then answerBar k true (failReader op s0)
    else match nextSource s o k 0 with
      | none => giveUp o k op s0
      | some i =>
        let s1 := if x.poison = .poisoned then s0 else setObj o (fun x => { x with poison := .repairing }) s0
        let s2 := { s1 with
          host := { s1.host with nextOp := s1.host.nextOp + 1 }
          tiers := { s1.tiers with repairs := s1.tiers.repairs ++
            [{ id := s1.host.nextOp, object := o, line := k, op := op, source := i, rewriting := false }] } }
        if i = 2 then askPeer x k s2 else s2

/-- A stored line fails its check: a tag mismatch fails its one re-read too (R195); POISON is not re-read (R216). -/
def badRead (op : Option Nat) (k kind : Nat) (s : State) : State :=
  let s1 := if kind = 3 then lineFailed k kind s
    else lineFailed k kind (setTiers (fun t => { t with reread := bump t.reread (linePort k) 1 }) (lineFailed k kind s))
  poisonedLine k op s1

/-- Replace a repair. -/
def setRepair (id : Nat) (f : Repair → Repair) (s : State) : State :=
  setTiers (fun t => { t with repairs := t.repairs.map (fun r => if r.id = id then f r else r) }) s
def dropRepair (id : Nat) (s : State) : State :=
  setTiers (fun t => { t with repairs := t.repairs.filter (fun r => decide (r.id ≠ id)) }) s

/-- The line that a source gives: the copy's bytes, or the peer's answer. A copy whose own line fails is not clean. -/
def sourceLine (s : State) (r : Repair) (clean : Option (List Byte)) : Option (List Byte) :=
  let o := obj s r.object
  let off := offsetIn o r.line
  match clean with
  | none => none
  | some bs =>
    if ¬sourceUsable s r.object r.line r.source then none
    else match r.source with
    | 0 =>
      let x := obj s o.altObject.toNat
      if x.len < off + 256 ∨ (rangeLines (x.base + off) 256).any (fun k => (storedFault s k).isSome) then none
      else some (objBytes s x off 256)
    | 1 =>
      let x := obj s o.flashCopy.toNat
      if (objBytes s x off 256).length = 256 then some (objBytes s x off 256) else none
    | _ => if bs.length = 256 then some bs else none

/-- End the earliest of a stream's refetches under the poisoned-line path at an ac (R196). -/
def endRefetch (op : Option Nat) (ac : Nat) (s : State) : State :=
  let close : List CauseSpan → List CauseSpan := fun gs =>
    match gs.findIdx? (fun g => decide (g.cause = 8) && g.past.isNone) with
    | some i => gs.zipIdx.map (fun e => if e.2 = i then { e.1 with past := some ac } else e.1)
    | none => gs
  match op with
  | none => s
  | some id => setStream id (fun x => { x with segs := close x.segs }) s

/-- A good line: delivered to what waits for it, and queued for its rewrite (R236). -/
def lineRepaired (r : Repair) (bs : List Byte) (ac : Nat) (s : State) : State :=
  let m := linePort r.line
  let s1 := setTiers (fun t => { t with
    mem := writeBytes t.mem (256 * r.line) bs,
    repaired := bump t.repaired m 1,
    repairFrom := bump t.repairFrom r.source 1,
    lastErr := Tab.mod (fun _ => LastErr.cold) t.lastErr m
      (fun x => if x.address.toNat = 256 * r.line then { x with repaired := true } else x) }) s
  let s2 := setRepair r.id (fun r => { r with rewriting := true }) (setObj r.object (fun x => { x with repairs := x.repairs + 1 }) s1)
  let s3 := match r.op.bind (opAt s) with
    | some (.stream _) => { s2 with conceal := { s2.conceal with healthRepair := true } }
    | _ => s2
  answerBar r.line false (endRefetch r.op ac s3)

/-- A codeword of FLASH_COPY that has failed is not read again in this repair (R234). -/
def noteCodeword (r : Repair) (s : State) : State :=
  if r.source = 1 then
    setTiers (fun t => { t with failedWords := t.failedWords ++ [(r.object, offsetIn (obj s r.object) r.line / 4096)] }) s
  else s

/-- The repair of an object is over when no line of it is under repair. -/
def forgetCodewords (o : Nat) (s : State) : State :=
  if s.tiers.repairs.any (fun r => decide (r.object = o)) then s
  else setTiers (fun t => { t with failedWords := t.failedWords.filter (fun x => decide (x.1 ≠ o)) }) s

/-- REPAIR_SOURCE_DONE: a source has answered, `clean` with the line's data where it was clean. -/
def repairSourceDone (id : Nat) (clean : Option (List Byte)) (ac : Nat) (s : State) : State :=
  match s.tiers.repairs.find? (fun r => decide (r.id = id) && !r.rewriting) with
  | none => s
  | some r =>
    match sourceLine s r clean with
    | some bs => lineRepaired r bs ac (if r.source = 0 then bgObj (obj s (obj s r.object).altObject.toNat) (offsetIn (obj s r.object) r.line) 256 s else s)
    | none =>
      let s0 := noteCodeword r s
      match nextSource s0 r.object r.line (r.source + 1) with
      | some i =>
        let s1 := setRepair id (fun r => { r with source := i }) s0
        if i = 2 then askPeer (obj s r.object) r.line s1 else s1
      | none => forgetCodewords r.object (giveUp r.object r.line r.op (endRefetch r.op ac (dropRepair id s0)))

/-- REPAIR_REQUEST: a peer asks for a line of an object; no repair starts for it (R235). -/
def execRepairRequest (node : BitVec 15) (object : W16) (offset : Nat) (version : W32) (s : State) : Out :=
  .next (let x := obj s object.toNat
    let a := x.base + offset / 256 * 256
    let ok := x.inMem && decide (x.poison = .clean) && decide (x.version = version) && decide (offset / 256 * 256 + 256 ≤ x.len) &&
      !(rangeLines a 256).any (fun k => (storedFault s k).isSome)
    if ¬s.resets.mgood then s
    else if ok then emit (.bulkNode node Msg.repairLine (readBytes s.tiers.mem a 256)) (bgTouch a 256 s)
    else emit (.bulkNode node Msg.refused []) s)

/-- An object whose every repaired line is rewritten returns to CLEAN (R236, R223). -/
def endRepairing (o : Nat) (s : State) : State :=
  if (obj s o).poison = .repairing ∧ ¬s.tiers.repairs.any (fun r => decide (r.object = o)) then
    wake (setObj o (fun x => { x with poison := .clean }) (forgetCodewords o s))
  else forgetCodewords o s

/-- REPAIR_REWRITE_DONE: the rewrite of a repaired line reads back; one that does not read back clean is written again. -/
def rewriteDone (k : Nat) (clean : Bool) (s : State) : State :=
  let rs := s.tiers.repairs.filter (fun r => decide (r.line = k) && r.rewriting)
  if ¬clean ∨ rs = [] then s
  else
    let s1 := setTiers (fun t => { t with
      linePoison := Tab.set (fun _ => false) t.linePoison k false,
      lineTag := Tab.set (fun _ => 0) t.lineTag k (expectedTag s k),
      refailed := if t.refailed.contains k then t.refailed else t.refailed ++ [k],
      repairs := t.repairs.filter (fun r => !(decide (r.line = k) && r.rewriting)) }) s
    rs.foldl (fun s r => endRepairing r.object s) (bgTouch (256 * k) 256 s1)

/-! ### Background rewrites and scrub (R216, R219) -/

/-- CORRECTION_REWRITE: the oldest logged line of a port is rewritten. -/
def execCorrectionRewrite (port : Nat) (s : State) : Out :=
  withUnit port 12 s (fun s => match Tab.get (fun _ => []) s.tiers.corrQueue port with
    | [] => s
    | k :: _ => bgTouch (256 * k) 256 (setTiers (fun t =>
        { t with corrQueue := Tab.mod (fun _ => []) t.corrQueue port (fun q => q.drop 1) }) s))

/-- PATROL_SCRUB: in autonomous mode the port's next line is read. -/
def patrolScrub (m : Nat) (raw : RawLine) (s : State) : State :=
  if s.dealer.run.isSome ∨ ¬s.resets.powered ∨ blockShut s (32 + m) then s
  else
    let l := natAt s.tiers.scrubNext m
    let k := lineKey m l
    let x := match storedFault s k with | some i => LineRead.bad i | none => checkLine s k raw
    let step (t : Tiers) : Tiers := { t with
      scrubNext := natSet t.scrubNext m ((l + 1) % 2 ^ 29),
      scrub := Tab.mod (fun _ => (0, 0)) t.scrub m (fun c =>
        (if l + 1 = 2 ^ 29 then c.1 + 1 else c.1, if x = .corrected then c.2 + 1 else c.2)) }
    let s1 := bgTouch (256 * k) 256 (setTiers step s)
    match x with
    | .clean => s1
    | .corrected => bgTouch (256 * k) 256 (setTiers (fun t => { t with corrected := bump t.corrected m 1 }) s1)
    | .bad i => poisonedLine k none (lineFailed k i s1)

def execPatrolScrub (port : Nat) (raw : RawLine) (s : State) : Out := withUnit port 12 s (patrolScrub port raw)

/-! ### Reads of engine commands (R210, R215, R216, R238) -/

/-- The tier-1 lines of a part of an object. -/
def objLines (o : Obj) (off n : Nat) : List Nat := if o.inMem then rangeLines (o.base + off) n else []

/-- A part of an object that an engine command reads. -/
structure ReadSpan where
  object : Nat
  off    : Nat
  bytes  : Nat
  deriving DecidableEq, Repr

/-- All that a read touches: objects, keys of tier-1 lines, and ranges of SRAM (address, bytes). -/
structure ReadSet where
  objects : List Nat
  lines   : List Nat
  sram    : List (Nat × Nat)
  deriving DecidableEq, Repr

/-- What the parts of some objects touch. -/
def spanSet (s : State) (xs : List ReadSpan) : ReadSet :=
  { objects := xs.map (fun x => x.object),
    lines := (xs.map (fun x => objLines (obj s x.object) x.off x.bytes)).flatten,
    sram := xs.filterMap (fun x =>
      let o := obj s x.object
      if o.valid ∧ o.tier = 0 then some (o.base + x.off, x.bytes) else none) }

/-- What some module ranges touch. -/
def rangeSet (s : State) (xs : List (Nat × Nat)) : ReadSet :=
  { objects := (xs.map (fun x => (objectsIn s x.1 x.2).map (fun e => e.1))).flatten,
    lines := (xs.map (fun x => rangeLines x.1 x.2)).flatten,
    sram := xs.filter (fun x => decide (x.1 < sramEnd)) }

/-- A single-bit error that the read corrected is counted on its die (R210). -/
def countSingle (r : ReadSet) (ecc : Ecc) (s : State) : State :=
  match ecc, r.sram with
  | .sramSingle, x :: _ => setTiers (fun t => { t with sramCorrected := bump t.sramCorrected (x.1 / 0x100000000) 1 }) s
  | _, _ => s

/-- What an engine command's read of its source finds: good data; a line under repair, whose outcome it waits for; or a status that ends
the command. -/
inductive EngineRead where
  | good (s : State)
  | waits (s : State)
  | fails (status : Byte) (s : State)

/-- Read the source of an engine command. Every bad line takes the poisoned-line path (R216, R238); of a SCRATCH object, which has none,
the command ends as if it were POISONED (DESIGN CHOICE, log entry 70). -/
def engineReadSet (r : ReadSet) (ecc : Ecc) (s : State) : EngineRead :=
  let poisoned (s : State) : Bool := r.objects.any (fun o => decide ((obj s o).poison = .poisoned))
  if poisoned s then .fails Status.objectPoisoned s
  else match sramTouched s ecc r.sram with
  | some a => .fails Status.sramEcc (wake (sramDouble a s))
  | none =>
    if r.lines.any (lineInRepair s) then .waits s
    else match badLines s r.lines with
    | [] => .good (countSingle r ecc s)
    | bad =>
      let s1 := bad.foldl (fun s x => badRead none x.1 x.2 s) s
      if poisoned s1 ∨ ¬r.lines.any (lineInRepair s1) then .fails Status.objectPoisoned s1 else .waits s1

def engineRead (xs : List ReadSpan) (ecc : Ecc) (s : State) : EngineRead := engineReadSet (spanSet s xs) ecc s

end Sys2Proof.Machine
end

