-- ==== Sys2Proof/Machine/Book.lean ====
section
/-! DEFINITION. Books: the image's layout, the load checks in order, the load (sections 5.10 and 5.11). -/

namespace Sys2Proof.Machine

/-- Whether a run of bytes is 0. -/
def allZero (bs : List Byte) : Bool := bs.all (fun b => decide (b = 0))

/-- `n` bytes of an image from offset `o`. -/
def part (bs : List Byte) (o n : Nat) : List Byte := (bs.drop o).take n

/-- An index entry (Table 5.18). -/
structure BookIndex where
  plyId   : Nat
  offset  : Nat
  size    : Nat
  kind    : Nat
  batch   : Nat
  context : Nat
  variant : Nat

def indexEntry (bs : List Byte) (o : Nat) : BookIndex :=
  { plyId := fieldAt bs o 4, offset := fieldAt bs (o + 4) 4, size := fieldAt bs (o + 8) 4, kind := fieldAt bs (o + 12) 1,
    batch := fieldAt bs (o + 13) 1, context := fieldAt bs (o + 14) 1, variant := fieldAt bs (o + 15) 1 }

/-- The index of a book image. -/
def bookIndex (bs : List Byte) : List BookIndex :=
  (List.range (fieldAt bs 0x10 2)).map (fun i => indexEntry bs (fieldAt bs 0x18 4 + 16 * i))

/-- The 36 pairs (offset, length) of a ply's PROG_TABLE. -/
def progTable (p : List Byte) : List (Nat × Nat) :=
  (List.range 36).map (fun i => (fieldAt p (0x50 + 8 * i) 4, fieldAt p (0x54 + 8 * i) 4))

/-! ### Check 2: layouts -/

/-- Header of a book. -/
def bookHeaderOk (bs : List Byte) : Bool :=
  let size := fieldAt bs 0x14 4
  let n := fieldAt bs 0x10 2
  decide (256 ≤ bs.length) && decide (fieldAt bs 0 4 = 0x4B484231) && decide (fieldAt bs 4 2 = 1) &&
    decide (fieldAt bs 6 1 ≤ 1) && decide (1 ≤ n ∧ n ≤ 256) && decide (256 ≤ size ∧ size ≤ bs.length) &&
    decide (fieldAt bs 0x18 4 % 16 = 0) && decide (fieldAt bs 0x18 4 + 16 * n ≤ size) &&
    allZero (part bs 7 1) && allZero (part bs 0x12 2) && allZero (part bs 0x1C 36) && allZero (part bs 0x80 128)

/-- Ranges of BATCH_CLASS and CONTEXT_CLASS by kind (Table 5.16). -/
def classesOk (kind batch context : Nat) : Bool :=
  if kind = 0 then decide (batch ≤ 15) && decide (context ≤ 8)
  else if kind ≤ 2 then decide (batch ≤ 7) && decide (context = 0)
  else decide (batch = 0) && decide (context = 0)

/-- Header and tables of a ply of `size` bytes. -/
def plyHeaderOk (p : List Byte) (size : Nat) : Bool :=
  let waits := fieldAt p 0x24 2
  let binds := fieldAt p 0x26 2
  decide (512 ≤ size) && decide (p.length = size) && decide (size % 64 = 0) && decide (fieldAt p 0 4 = 0x4B485031) &&
    decide (fieldAt p 4 2 = 1) && decide (fieldAt p 6 1 ≤ 4) && allZero (part p 7 1) && allZero (part p 0x23 1) &&
    classesOk (fieldAt p 6 1) (fieldAt p 0x20 1) (fieldAt p 0x21 1) && decide (waits ≤ 1024) && decide (binds ≤ 32) &&
    decide (fieldAt p 0x28 8 < 2 ^ 52) && decide (fieldAt p 0x170 4 + 4 * waits ≤ size) &&
    decide (fieldAt p 0x174 4 + 16 * binds ≤ size) && decide (fieldAt p 0x178 4 = size) && allZero (part p 0x1C0 64) &&
    (progTable p).all (fun e => decide (e.1 % 16 = 0) && decide (e.2 = 0 ∨ e.1 + 16 * e.2 ≤ size))

/-- RESOURCE_MAP names exactly the clusters and dies whose programs are not empty. -/
def mapAgrees (p : List Byte) : Bool :=
  (progTable p).zipIdx.all (fun e => (fieldAt p 0x28 8).testBit e.2 == decide (e.1.2 ≠ 0))

/-- An index entry repeats its ply's fields, and the ply belongs into the book. -/
def plyAgrees (bs : List Byte) (x : BookIndex) : Bool :=
  let p := part bs x.offset x.size
  let size := fieldAt bs 0x14 4
  decide (x.offset % 64 = 0) && decide (x.offset + x.size ≤ size) && plyHeaderOk p x.size && mapAgrees p &&
    decide (fieldAt p 6 1 = x.kind) && decide (fieldAt p 8 4 = x.plyId) && decide (fieldAt p 0x20 1 = x.batch) &&
    decide (fieldAt p 0x21 1 = x.context) && decide (fieldAt p 0x22 1 = x.variant) &&
    decide (fieldAt p 0x0C 4 = fieldAt bs 0x0C 4) && (decide (x.kind = 0) == decide (fieldAt bs 6 1 = 0))

/-- No two entries of a list are equal. -/
def noRepeat : List Nat → Bool
  | [] => true
  | a :: t => !t.contains a && noRepeat t

def bookLayoutOk (bs : List Byte) : Bool :=
  bookHeaderOk bs && (bookIndex bs).all (plyAgrees bs) && noRepeat ((bookIndex bs).map (fun x => x.plyId))

/-! ### Check 3: digests -/

/-- SHAKE256, 64 bytes, of an image with its own DIGEST field at `o` as 0. -/
def imageDigest (bs : List Byte) (o : Nat) : List Byte := shake256 64 (bs.take o ++ List.replicate 64 0 ++ bs.drop (o + 64))

def bookDigestOk (bs : List Byte) : Bool :=
  let b := bs.take (fieldAt bs 0x14 4)
  decide (imageDigest b 0x40 = part b 0x40 64) &&
    (bookIndex bs).all (fun x => let p := part bs x.offset x.size; decide (imageDigest p 0x180 = part p 0x180 64))

/-! ### The parsed ply -/

def plyKindOf (n : Nat) : PlyKind :=
  if n = 0 then .gen else if n = 1 then .fwd else if n = 2 then .bwd else if n = 3 then .opt else .aux

/-- 128-bit words of a run of bytes. -/
def words128 : Nat → List Byte → List W128
  | 0, _ => []
  | n + 1, bs => BitVec.ofNat 128 (ofLe (bs.take 16)) :: words128 n (bs.drop 16)

/-- A binding (R168). -/
def bindAt (p : List Byte) (o : Nat) : Bind :=
  { areg := BitVec.ofNat 8 (fieldAt p o 1), kind := BitVec.ofNat 8 (fieldAt p (o + 1) 1),
    object := BitVec.ofNat 16 (fieldAt p (o + 2) 2), offset := BitVec.ofNat 32 (fieldAt p (o + 4) 4),
    dieStride := BitVec.ofNat 32 (fieldAt p (o + 8) 4), clusterStride := BitVec.ofNat 32 (fieldAt p (o + 12) 4) }

/-- The ply of an image. -/
def plyOf (p : List Byte) : Ply :=
  { plyId := BitVec.ofNat 32 (fieldAt p 8 4), kind := plyKindOf (fieldAt p 6 1), epoch := BitVec.ofNat 32 (fieldAt p 0x0C 4),
    totalAc := BitVec.ofNat 64 (fieldAt p 0x10 8), energyEst := BitVec.ofNat 32 (fieldAt p 0x18 4),
    energyMax := BitVec.ofNat 32 (fieldAt p 0x1C 4), batchClass := BitVec.ofNat 8 (fieldAt p 0x20 1),
    contextClass := BitVec.ofNat 8 (fieldAt p 0x21 1), variant := BitVec.ofNat 8 (fieldAt p 0x22 1),
    resourceMap := BitVec.ofNat 64 (fieldAt p 0x28 8), diffMode := BitVec.ofNat 256 (fieldAt p 0x30 32),
    peakPower := BitVec.ofNat 32 (fieldAt p 0x17C 4),
    waits := (List.range (fieldAt p 0x24 2)).map (fun w => let o := fieldAt p 0x170 4 + 4 * w
      (BitVec.ofNat 8 (fieldAt p o 1), BitVec.ofNat 8 (fieldAt p (o + 1) 1))),
    binds := (List.range (fieldAt p 0x26 2)).map (fun i => bindAt p (fieldAt p 0x174 4 + 16 * i)),
    progs := (progTable p).zipIdx.filterMap (fun e =>
      if e.1.2 = 0 then none else some (e.2, words128 e.1.2 (p.drop e.1.1))) }

/-! ### Check 5: instructions, branches, wait points, bindings -/

/-- The wait point that an instruction names. -/
def insnWait : Insn → Option Nat
  | .await wp _ => some wp.toNat
  | .signal wp _ _ => some wp.toNat
  | .collStart _ wp _ _ => some wp.toNat
  | .move op f => if op = 10 ∨ op = 11 then some (f.tagWp.toNat % 1024) else none
  | _ => none

/-- The branch offset of an instruction. -/
def insnBranch : Insn → Option W16
  | .bnz _ off => some off
  | .jump off => some off
  | .bvar _ _ off => some off
  | _ => none

/-- One instruction of program p at pc: it decodes, its branch lies in the program, its wait point in the table. -/
def insnOk (p len waits : Nat) (e : W128 × Nat) : Bool :=
  match decodeFor p e.1 with
  | none => false
  | some (_, x) =>
    (match insnBranch x with
      | some off => decide (0 ≤ (e.2 : Int) + off.toInt) && decide ((e.2 : Int) + off.toInt < len)
      | none => true) &&
    (match insnWait x with
      | some w => decide (w < waits)
      | none => true)

/-- Wait-point entries: KIND and SOURCE as R167 allows, bytes 2 and 3 zero. -/
def waitEntryOk (p : List Byte) (w : Nat) : Bool :=
  let o := fieldAt p 0x170 4 + 4 * w
  let k := fieldAt p o 1
  let src := fieldAt p (o + 1) 1
  decide ((k = 0 ∧ src = 0) ∨ (k = 1 ∧ 1 ≤ src ∧ src ≤ 4)) && decide (fieldAt p (o + 2) 2 = 0)

/-- Bindings: AREG 0 to 31, no two alike, KIND 0 to 2 (R168, R169). -/
def bindsOk (bs : List Bind) : Bool :=
  bs.all (fun b => decide (b.areg.toNat < 32) && decide (b.kind.toNat ≤ 2)) && noRepeat (bs.map (fun b => b.areg.toNat))

def plyContentOk (p : List Byte) : Bool :=
  let y := plyOf p
  y.progs.all (fun e => e.2.zipIdx.all (insnOk e.1 e.2.length y.waits.length)) &&
    (List.range y.waits.length).all (waitEntryOk p) && bindsOk y.binds

/-! ### Check 6: the stores (R142, R174) -/

/-- The distinct programs of one cluster or die in a book, and whether they fit its region (Table 5.2). -/
def fitsStore (plies : List Ply) (p : Nat) : Bool :=
  let all := plies.filterMap (fun y => (y.progs.find? (fun e => decide (e.1 = p))).map (fun e => e.2))
  let distinct : List (List W128) := all.foldl (fun l c => if l.contains c then l else l ++ [c]) []
  let used : Nat := distinct.foldl (fun n c => n + c.length) 0
  let region : Nat := if p < 32 then 65536 else 16384
  decide (used ≤ region)

/-! ### BOOK_LOAD -/

/-- Whether the kind's book is in use (check 1 of Table 5.19). -/
def bookInUse (s : State) (k : BookKind) : Bool :=
  match k, s.dealer.phase with
  | .gen, .idle => false
  | .gen, .learn => decide (s.dealer.evalInterval ≠ 0)
  | .learn, .idle => false
  | .learn, .generate => false
  | _, _ => true

/-- The book of an image whose layout is right. -/
def bookOf (bs : List Byte) (k : BookKind) : Book :=
  { kind := k, modelId := BitVec.ofNat 32 (fieldAt bs 8 4), epoch := BitVec.ofNat 32 (fieldAt bs 0x0C 4),
    digestLo := BitVec.ofNat 32 (fieldAt bs 0x40 4),
    plies := (bookIndex bs).map (fun x => plyOf (part bs x.offset x.size)) }

/-- The first failing check of Table 5.19, in its order. -/
def bookFault (s : State) (bs : List Byte) : Option Byte :=
  let k : BookKind := if fieldAt bs 6 1 = 1 then .learn else .gen
  if bookInUse s k then some Status.bookBusy
  else if ¬bookLayoutOk bs then some Status.bookFormat
  else if ¬bookDigestOk bs then some Status.bookDigest
  else if BitVec.ofNat 32 (fieldAt bs 0x0C 4) ≠ (epochOf s) then some Status.epochMismatch
  else if ¬(bookIndex bs).all (fun x => plyContentOk (part bs x.offset x.size)) then some Status.bookFormat
  else if ¬(List.range 36).all (fitsStore (bookOf bs k).plies) then some Status.bookTooLarge
  else none

/-- From the first store write on, the book of that kind is absent (R174). -/
def dropBook (k : BookKind) (d : Dealer) : Dealer :=
  match k with
  | .gen => { d with genBook := none }
  | .learn => { d with learnBook := none }

/-- Read the image of an engine command's object `o` whole, or wait with the command `i` until a bad line of it is repaired (R238). -/
def readWhole (o off n : Nat) (ecc : Ecc) (t : Ticket) (i : Instr) (k : State → State) (s : State) : State :=
  match engineRead [{ object := o, off := off, bytes := n }] ecc s with
  | .waits s1 => addOp (.repairWait t i) s1
  | .fails st s1 => finish t st s1
  | .good s1 => k s1

/-- The load starts: its image is checked, and the book of its kind becomes absent. -/
def bookLoadStart (o : W16) (t : Ticket) (s : State) : State :=
  let x := obj s o.toNat
  let bs := objBytes s x 0 x.len
  match bookFault s bs with
  | some st => finish t st s
  | none =>
    let k : BookKind := if fieldAt bs 6 1 = 1 then .learn else .gen
    bgObj x 0 x.len { s with dealer := { dropBook k s.dealer with loading := s.dealer.loading ++ [(bookOf bs k, t, o)] } }

def bookLoadBody (h : Hdr) (o : W16) (t : Ticket) (s : State) : State :=
  if ¬(obj s o.toNat).inMem then finish t Status.objectFormat s
  else readWhole o.toNat 0 (obj s o.toNat).len .clean t (.bookLoad t.q h o) (bookLoadStart o t) s

def takeBookLoad (q : Nat) (h : Hdr) (o : W16) : State → State := takeCmd q h true always (bookLoadBody h o)

/-- BOOK_LOAD (R173, Table 5.19). -/
def execBookLoad (q : Nat) (h : Hdr) (o : W16) (s : State) : Out := withUnit q 256 s (takeBookLoad q h o)

/-- GOV_TABLE's history of a book kind is kept by a reload of the same MODEL_ID and DIGEST, cleared by another book (R449). -/
def loadHistory (b : Book) (s : State) : State :=
  let k := match b.kind with | .gen => 0 | .learn => 1
  let lo := match b.kind with | .gen => 0 | .learn => 256
  if Tab.get (fun _ => ((0 : W32), (0 : W32))) s.glaren.govKeys k = (b.modelId, b.digestLo) then s
  else { s with glaren := { s.glaren with
    govKeys := Tab.set (fun _ => ((0 : W32), (0 : W32))) s.glaren.govKeys k (b.modelId, b.digestLo)
    table := Tab.clear (fun i => decide (lo ≤ i) && decide (i < lo + 256)) s.glaren.table } }

/-- The book of a kind after its oldest load: present when no other load of that kind is under way (R174). -/
def bookPresent (b : Book) (rest : List (Book × Ticket × W16)) (d : Dealer) : Dealer :=
  let x := if rest.any (fun e => decide (e.1.kind = b.kind)) then none else some b
  match b.kind with
  | .gen => { d with genBook := x }
  | .learn => { d with learnBook := x }

/-- BOOK_LOAD_DONE: the last store of the oldest load of a kind is written (R174). -/
def execBookLoadDone (x : BookRead) (s : State) : Out :=
  .next (match s.dealer.loading.find? (fun e => decide (e.1.kind = x.kind)) with
    | none => s
    | some (b, t, o) =>
      let rest := s.dealer.loading.erase (b, t, o)
      let s0 := { s with dealer := { s.dealer with loading := rest } }
      let read := spanSet s [{ object := o.toNat, off := 0, bytes := (obj s o.toNat).len }]
      match sramTouched s x.ecc read.sram with
      | some a => finish t Status.sramEcc (wake (sramDouble a s0))
      | none =>
        let s1 := countSingle read x.ecc s0
        finish t Status.ok (loadHistory b { s1 with dealer := bookPresent b rest s1.dealer }))

end Sys2Proof.Machine
end

