-- ==== Sys2Proof/Machine/Objects.lean ====
section
/-! DEFINITION. Objects: PLACE, OBJECT_MOVE, FLASH_OBJ and HOST_COPY with what completes them (sections 7.5, 7.6, 13.5). -/

namespace Sys2Proof.Machine

/-! ### PLACE (R221, R222, R246, Table 7.7) -/

/-- VALID and POISON as a PLACE writes them. -/
def placeValid (b : PlaceBody) : Bool := b.state.getLsbD 0
def placePoison (b : PlaceBody) : Nat := b.state.toNat / 2 % 4

/-- The code of a poison state (Table 7.6). -/
def Poison.code : Poison → Nat
  | .clean => 0
  | .repairing => 1
  | .poisoned => 2
def poisonOf (n : Nat) : Poison := if n = 1 then .repairing else if n = 2 then .poisoned else .clean

/-- Check 1: reserved bits, TIER, POISON, and the alignment of a valid entry. -/
def placeFormatOk (b : PlaceBody) : Bool :=
  let a := b.address.toNat
  let n := b.size.toNat
  decide (a < (if b.tier = 2 then 2 ^ 32 else 2 ^ 48)) && decide (b.tier.toNat ≤ 2) && decide (b.attr.toNat < 64) &&
    decide (b.state.toNat < 8) && decide (b.lineTag.toNat < 128) && decide (placePoison b ≠ 3) &&
    (!(placeValid b) || (if b.tier = 0 then decide (a % 64 = 0 ∧ n % 64 = 0)
      else if b.tier = 1 then decide (a % 256 = 0 ∧ n % 256 = 0) else true))

/-- Check 2: the range of the tier, the page map excluded (R271); the handle of tier 2. -/
def placeRangeOk (s : State) (b : PlaceBody) : Bool :=
  let a := b.address.toNat
  let n := b.size.toNat
  if b.tier = 0 then (List.range 4).any (fun d => decide (d * 0x100000000 ≤ a) && decide (a + n ≤ d * 0x100000000 + 0xFFC00000))
  else if b.tier = 1 then decide (directBase ≤ a) && inMap a n
  else (flashOf s (BitVec.ofNat 32 a)).isSome

/-- Check 3: another valid entry shares memory. -/
def placeOverlaps (s : State) (b : PlaceBody) : Bool :=
  decide (b.tier.toNat ≤ 1) &&
    (objectsIn s b.address.toNat b.size.toNat).any (fun e => decide (e.1 ≠ b.objectId.toNat))

/-- A change that checks 4 and 5 guard. -/
def placeMoves (o : Obj) (b : PlaceBody) : Bool :=
  o.valid && (decide (o.address ≠ b.address) || decide (o.size ≠ b.size) || decide (o.tier ≠ b.tier) ||
    decide (o.lineTag ≠ b.lineTag) || !(placeValid b))

/-- A change of VERSION of a member of a slot that is in use (R246). -/
def placeReversions (s : State) (o : Obj) (b : PlaceBody) : Bool :=
  decide (o.version ≠ b.version) && (List.range 2).any (fun i =>
    isMember s i b.objectId.toNat && decide ((slot s i).state ≠ .empty) && decide ((slot s i).state ≠ .standby))

/-- Whether the running step binds an object (R168). -/
def stepBinds (s : State) (o : Nat) : Bool :=
  match s.dealer.run with
  | none => false
  | some r => r.ply.binds.any (fun b =>
      if b.kind = 0 then decide (b.object.toNat = o)
      else if b.kind = 1 then
        decide ((if b.object = 0 then (slot s r.slot).base else (slot s r.slot).adapter).toNat = o)
      else (List.range 4).any (fun d => decide ((Tab.get (fun _ => (0xFFFF : W16)) s.dealer.batchObj d).toNat = o)))

/-- The first failing check of Table 7.7. -/
def placeFault (s : State) (b : PlaceBody) : Option Byte :=
  let o := obj s b.objectId.toNat
  if ¬placeFormatOk b then some Status.entryFormat
  else if placeValid b ∧ ¬placeRangeOk s b then some Status.addrRange
  else if placeValid b ∧ placeOverlaps s b then some Status.overlap
  else if (placeMoves o b ∧ (o.pinnedAttr ∨ 0 < pinCount s b.objectId.toNat)) ∨ placeReversions s o b then some Status.pinned
  else if placeMoves o b ∧ stepBinds s b.objectId.toNat then some Status.busy
  else if o.poison.code ≠ placePoison b ∧ ¬(o.poison = .poisoned ∧ placePoison b = 0) then some Status.poisonState
  else none

/-- The entry as written; REPAIR_COUNT counts since the entry became valid. -/
def placeEntry (o : Obj) (b : PlaceBody) : Obj :=
  { address := b.address, size := b.size, tier := b.tier, attr := b.attr, valid := placeValid b, poison := poisonOf (placePoison b),
    lineTag := b.lineTag, version := b.version, altObject := b.altObject, flashCopy := b.flashCopy, peerPos := b.peerPos,
    peerObject := b.peerObject, repairs := if o.valid then o.repairs else 0 }

def placeBodyRun (b : PlaceBody) (t : Ticket) (s : State) : State :=
  match placeFault s b with
  | some st => finish t st s
  | none =>
    let o := obj s b.objectId.toNat
    let s1 := setObj b.objectId.toNat (fun o => placeEntry o b) s
    finish t Status.ok (if o.poison.code ≠ placePoison b then wake s1 else s1)

def takePlace (q : Nat) (h : Hdr) (b : PlaceBody) : State → State := takeCmd q h true always (placeBodyRun b)

/-- PLACE. -/
def execPlace (q : Nat) (h : Hdr) (b : PlaceBody) (s : State) : Out := withUnit q 256 s (takePlace q h b)

/-! ### Flash readiness (R421, R231) -/

/-- Whether every translation layer serves moves: an object is striped over all four (R227). -/
def flashReady (s : State) : Bool := (List.range 4).all (fun d => (layer s d).ready)

/-- Run a command that touches tier 2 now, or when every layer is READY (R421). -/
def whenFlash (t : Ticket) (i : Instr) (k : State → State) (s : State) : State :=
  if flashReady s then k s else startOp (.flashWait t i) s

/-! ### OBJECT_MOVE (R404, Table 13.9) -/

/-- The alignment of offsets and sizes in a tier. -/
def tierAlign (t : Byte) : Nat := if t = 0 then 64 else if t = 1 then 256 else 4096

/-- The end of an object's readable bytes: its SIZE, and for tier 2 no more than its durable length. -/
def readEnd (s : State) (o : Obj) : Nat :=
  if o.tier = 2 then min o.len (match flashObj s o with | some x => x.data.length | none => 0) else o.len

/-- Whether the objects of a move are valid, in the right tiers, and the source CLEAN. -/
def moveObjectsOk (b : MoveBody) (src dst : Obj) : Bool :=
  decide (src.poison = .clean) &&
    (if b.mode = 0 then src.inMem && dst.inMem
     else if b.mode = 1 then src.inFlash && dst.valid && decide (dst.tier = 1)
     else src.inMem && dst.inFlash)

/-- Whether the ranges of a move lie inside its objects. -/
def moveRangeOk (s : State) (b : MoveBody) (src dst : Obj) : Bool :=
  decide (b.srcOffset.toNat + b.bytes.toNat ≤ readEnd s src) &&
    (if b.mode = 2 then
      (match flashObj s dst with
        | some x => decide (x.data.length + b.bytes.toNat ≤ x.size.toNat)
        | none => false)
     else decide (b.dstOffset.toNat + b.bytes.toNat ≤ dst.len))

/-- Alignment by tier; DST_OFFSET is ignored for APPEND. -/
def moveAligned (b : MoveBody) (src dst : Obj) : Bool :=
  decide (b.srcOffset.toNat % tierAlign src.tier = 0) && (decide (b.mode = 2) || decide (b.dstOffset.toNat % tierAlign dst.tier = 0)) &&
    decide (b.bytes.toNat % max (tierAlign src.tier) (tierAlign dst.tier) = 0)

/-- The first failing check of a move. -/
def moveFault (s : State) (b : MoveBody) : Option Byte :=
  let src := obj s b.src.toNat
  let dst := obj s b.dst.toNat
  if 3 ≤ b.mode.toNat then some Status.entryFormat
  else if ¬moveObjectsOk b src dst then some Status.objectFormat
  else if ¬moveRangeOk s b src dst then some Status.addrRange
  else if ¬moveAligned b src dst then some Status.entryFormat
  else if b.mode = 0 ∧ dst.roShared then some Status.addrRange
  else if b.mode = 1 ∧ dst.roShared ∧ 0 < pinCount s b.dst.toNat then some Status.pinned
  else if b.mode = 2 ∧ flashWorn s then some Status.flashWorn
  else none

def moveStart (b : MoveBody) (t : Ticket) (s : State) : State :=
  match moveFault s b with
  | some st => finish t st s
  | none => startOp (.move t b [] []) s

def objectMoveBody (h : Hdr) (b : MoveBody) (t : Ticket) (s : State) : State :=
  if b.mode = 0 then moveStart b t s else whenFlash t (.objectMove t.q h b) (moveStart b t) s

def takeObjectMove (q : Nat) (h : Hdr) (b : MoveBody) : State → State := takeCmd q h true always (objectMoveBody h b)

/-- OBJECT_MOVE: it is outstanding until OBJECT_MOVE_DONE and holds a reader reference on its source. -/
def execObjectMove (q : Nat) (h : Hdr) (b : MoveBody) (s : State) : Out := withUnit q 256 s (takeObjectMove q h b)

/-- The die of a module address. -/
def addrDie (a : Nat) : Nat :=
  match physOf a with
  | some p => if p < sramEnd then p / 0x100000000 else (p - directBase) / 0x2000000000 / 3
  | none => 0

/-- The die that owns the port or the flash group which takes the move's last byte (R182), and the crossing from there: an APPEND's last
unit in flash, else the destination's last byte in its memory. -/
def moveEnd (b : MoveBody) (s : State) : Nat × Crossing :=
  let o := obj s b.dst.toNat
  if b.mode = 2 then (unitDie (BitVec.ofNat 32 o.address.toNat) (((match flashObj s o with | some x => x.data.length | none => 0) - 1) / 65536), .fc)
  else (addrDie (o.base + b.dstOffset.toNat + b.bytes.toNat - 1), if o.tier = 0 then .none else .mc)

/-- The signal of a completed move (R404). -/
def moveSignal (b : MoveBody) (segs : List CauseSpan) (s : State) : State :=
  if ¬b.wp.getLsbD 15 then s
  else
    let progs := maskProgs b.cmask (b.dmask.extractLsb' 0 4)
    let w := b.wp.toNat % 1024
    let wait := { s with dealer := { s.dealer with later := s.dealer.later ++ [(b.signalStep, w, progs)] } }
    match s.dealer.run with
    | some r =>
      if r.step = b.signalStep then
        (if r.stopped then s else addOp (.ext (moveEnd b s).1 (moveEnd b s).2 progs w 2 segs false none) s)
      else if r.step < b.signalStep then wait else s
    | none => if s.dealer.stepNumber < b.signalStep then wait else s

/-- Write a line of tier 1 with POISON = 1 (R229, R233). -/
def poisonLine (a : Nat) (s : State) : State :=
  match physOf a with
  | some p => if p < sramEnd then s else
      { s with tiers := { s.tiers with linePoison := Tab.set (fun _ => false) s.tiers.linePoison (p / 256) true } }
  | none => s

/-- The lines of an uncorrectable codeword at source offset `o` (R229). -/
def poisonCodeword (b : MoveBody) (dst : Nat) (o : Nat) (s : State) : State :=
  (List.range 16).foldl (fun s i =>
    let x := o / 4096 * 4096 + 256 * i
    if b.srcOffset.toNat ≤ x ∧ x < b.srcOffset.toNat + b.bytes.toNat then
      poisonLine (dst + b.dstOffset.toNat + (x - b.srcOffset.toNat)) s
    else s) s

/-- OBJECT_MOVE_DONE: the last byte is written, or durable (R226, R228, R229). The source is read as every engine command's is (R210,
R238); `ecc` is what its reads of SRAM met. -/
def execObjectMoveDone (op : Nat) (ecc : Ecc) (s : State) : Out :=
  .next (match opAt s op with
    | some (.move t b bad segs) =>
      let src := obj s b.src.toNat
      let dst := obj s b.dst.toNat
      match engineRead [{ object := b.src.toNat, off := b.srcOffset.toNat, bytes := b.bytes.toNat }] ecc s with
      | .waits s1 => s1
      | .fails st s1 => finish t st (dropOp op s1)
      | .good s0 =>
        let bs := objBytes s src b.srcOffset.toNat b.bytes.toNat
        let s1 := if b.mode = 2 then appendFlash b.dst.toNat bs (dropOp op s0) else storeBg (dst.base + b.dstOffset.toNat) bs (dropOp op s0)
        let s2 := bad.foldl (fun s o => poisonCodeword b dst.base o s) (bgObj src b.srcOffset.toNat b.bytes.toNat s1)
        finish t (if bad = [] then Status.ok else Status.flashUncorrectable) (moveSignal b segs s2)
    | _ => s)

/-! ### FLASH_OBJ (R226, R231, R403) -/

/-- A handle that no flash object has, from a number on. -/
def freshHandle (fs : List FlashObj) : Nat → Nat → W32
  | 0, n => BitVec.ofNat 32 n
  | f + 1, n => if fs.any (fun x => decide (x.handle = BitVec.ofNat 32 n)) then freshHandle fs f (n + 1) else BitVec.ofNat 32 n

/-- Create an object of `size` bytes; the translation layer chooses its handle. -/
def flashCreate (size : W64) (t : Ticket) (s : State) : State :=
  if size = 0 ∨ size.toNat % 65536 ≠ 0 ∨ 2 ^ 44 < size.toNat then finish t Status.entryFormat s
  else if flashWorn s then finish t Status.flashWorn s
  else
    let n := freshHandle s.tiers.flash s.tiers.flash.length (Config.freeNat s.free)
    complete t Status.ok (n.zeroExtend 64) false
      { s with tiers := { s.tiers with flash := s.tiers.flash ++ [{ handle := n, size := size, data := [] }] }, free := s.free + 1 }

def flashObjCreateBody (h : Hdr) (size : W64) (t : Ticket) : State → State :=
  whenFlash t (.flashObjCreate t.q h size) (flashCreate size t)

def takeFlashObjCreate (q : Nat) (h : Hdr) (size : W64) : State → State := takeCmd q h true always (flashObjCreateBody h size)

/-- FLASH_OBJ CREATE. -/
def execFlashObjCreate (q : Nat) (h : Hdr) (size : W64) (s : State) : Out := withUnit q 256 s (takeFlashObjCreate q h size)

/-- Whether a valid entry, or an outstanding command, names a handle. -/
def handleInUse (s : State) (x : W32) : Bool :=
  let names (o : Nat) : Bool := decide ((obj s o).tier = 2) && decide ((obj s o).address.toNat = x.toNat)
  s.tiers.objects.any (fun e => e.2.inFlash && decide (e.2.address.toNat = x.toNat)) ||
    s.host.ops.any (fun e => match e.2 with | .move _ b _ _ => names b.src.toNat || names b.dst.toNat | _ => false) ||
    (match s.dealer.building with | some c => decide (c.body.mode = 1) && names c.body.source.toNat | none => false) ||
    s.conceal.jobs.any (fun j => names j.body.targetA.toNat || names j.body.targetB.toNat) ||
    s.conceal.restores.any (fun e => (decide (e.2.source = 0) && names e.2.object.toNat) || names e.2.localLog.toNat) ||
    s.conceal.snapshots.any (fun j => names j.body.image.toNat || names j.body.manifest.toNat)

/-- Delete an object; its blocks are freed. -/
def flashDelete (x : W32) (t : Ticket) (s : State) : State :=
  if (flashOf s x).isNone then finish t Status.addrRange s
  else if handleInUse s x then finish t Status.busy s
  else finish t Status.ok { s with tiers := { s.tiers with flash := s.tiers.flash.filter (fun f => decide (f.handle ≠ x)) } }

def flashObjDeleteBody (h : Hdr) (x : W32) (t : Ticket) : State → State :=
  whenFlash t (.flashObjDelete t.q h x) (flashDelete x t)

def takeFlashObjDelete (q : Nat) (h : Hdr) (x : W32) : State → State := takeCmd q h true always (flashObjDeleteBody h x)

/-- FLASH_OBJ DELETE. -/
def execFlashObjDelete (q : Nat) (h : Hdr) (handle : W32) (s : State) : Out := withUnit q 256 s (takeFlashObjDelete q h handle)

/-! ### HOST_COPY (R387, R403) -/

/-- The first failing check of a host copy. -/
def hostCopyFault (s : State) (b : HostCopyBody) : Option Byte :=
  let o := obj s b.object.toNat
  if 2 ≤ b.dir.toNat then some Status.entryFormat
  else if ¬o.inMem then some Status.objectFormat
  else if o.len < b.offset.toNat + b.bytes.toNat then some Status.addrRange
  else if b.dir = 1 ∧ o.roShared then some Status.addrRange
  else none

def hostCopyBodyRun (b : HostCopyBody) (t : Ticket) (s : State) : State :=
  match hostCopyFault s b with
  | some st => finish t st s
  | none => startOp (.hostCopy t b) s

/-- A copy into an object is a module-wide control. -/
def takeHostCopy (q : Nat) (h : Hdr) (b : HostCopyBody) : State → State :=
  takeCmd q h (decide (b.dir = 1)) always (hostCopyBodyRun b)

/-- HOST_COPY: outstanding until HOST_COPY_DONE. -/
def execHostCopy (q : Nat) (h : Hdr) (b : HostCopyBody) (s : State) : Out := withUnit q 256 s (takeHostCopy q h b)

/-- HOST_COPY_DONE: the last byte is written; `data` is what host memory gave (DIR 1), `aborted` a failed host access, `ecc` what the reads
of SRAM met (DIR 0). -/
def execHostCopyDone (op : Nat) (data : List Byte) (aborted : Bool) (ecc : Ecc) (s : State) : Out :=
  .next (match opAt s op with
    | some (.hostCopy t b) =>
      let o := obj s b.object.toNat
      let s0 := dropOp op s
      if aborted then finish t Status.hostAbort s0
      else if b.dir = 1 then finish t Status.ok (storeBg (o.base + b.offset.toNat) (data.take b.bytes.toNat) s0)
      else match engineRead [{ object := b.object.toNat, off := b.offset.toNat, bytes := b.bytes.toNat }] ecc s with
      | .waits s1 => s1
      | .fails st s1 => finish t st (dropOp op s1)
      | .good s1 => finish t Status.ok
        (emit (.hostWrite (queue s t.q).owner b.hostAddr (objBytes s o b.offset.toNat b.bytes.toNat)) (bgObj o b.offset.toNat b.bytes.toNat (dropOp op s1)))
    | _ => s)

end Sys2Proof.Machine
end

