-- ==== Sys2Proof/Machine/Coll.lean ====
section
/-! DEFINITION. Collectives: descriptors and checks, eligibility, the canonical tree, completion and failure, and the
commands that write routes, positions and groups (sections 11.4 to 11.10). -/

namespace Sys2Proof.Machine

/-! ### Descriptors (R347) -/

/-- Bytes 16 to 63 of a descriptor, given from byte 16 on. -/
def collOf (bs : List Byte) : CollBody :=
  { kind := BitVec.ofNat 8 (fieldAt bs 0 1), fmt := BitVec.ofNat 8 (fieldAt bs 1 1), flags := BitVec.ofNat 8 (fieldAt bs 2 1),
    dieMask := BitVec.ofNat 8 (fieldAt bs 3 1), group := BitVec.ofNat 16 (fieldAt bs 4 2),
    peer := BitVec.ofNat 16 (fieldAt bs 6 2), seq := BitVec.ofNat 32 (fieldAt bs 8 4),
    group2 := BitVec.ofNat 16 (fieldAt bs 12 2), tag := BitVec.ofNat 16 (fieldAt bs 14 2),
    seq2 := BitVec.ofNat 32 (fieldAt bs 16 4), count := BitVec.ofNat 64 (fieldAt bs 24 8),
    src := BitVec.ofNat 48 (fieldAt bs 32 6), dst := BitVec.ofNat 48 (fieldAt bs 38 6),
    dieStride := BitVec.ofNat 32 (fieldAt bs 44 4),
    reserved := decide (fieldAt bs 20 4 ≠ 0) || decide (4 ≤ fieldAt bs 2 1) || decide (16 ≤ fieldAt bs 3 1) }

/-! ### The checks of R348 -/

/-- A group is valid and holds this module. -/
def groupHolds (s : State) (g : W16) : Bool :=
  decide (g.toNat < 1024) && (group s g.toNat).valid &&
    (match ownPos s with | some p => memberOf s (group s g.toNat) p | none => false)

/-- GROUP2 is valid and every member of it is a member of GROUP. -/
def group2Ok (s : State) (b : CollBody) : Bool :=
  b.group2 = 0xFFFF || (decide (b.group2.toNat < 1024) && (group s b.group2.toNat).valid &&
    (membersOf s (group s b.group2.toNat)).all (fun p => memberOf s (group s b.group.toNat) p))

/-- This module's position is a member of GROUP2. -/
def inGroup2 (s : State) (b : CollBody) : Bool := decide (b.group2 ≠ 0xFFFF) && groupHolds s b.group2

/-- A sequence number not yet consumed. -/
def seqOpen (seq next : W32) : Bool := decide ((seq - next).toNat < 2 ^ 31)

def collFormatOk (s : State) (b : CollBody) : Bool :=
  let g := (collLeaves s b).length
  !b.reserved && decide (b.kind.toNat ≤ 7) && !(collDies b).isEmpty && decide (b.count ≠ 0) &&
    (if isReduction b then decide (b.fmt.toNat % 16 = 0) && decide (b.fmt.toNat / 16 ≤ 1)
     else decide (b.fmt.toNat % 16 = b.fmt.toNat / 16) && (collIn b).isSome) &&
    (if isP2p b then decide (b.count.toNat % 64 = 0) else decide (g = 0) || decide (b.count.toNat % (64 * g) = 0))

/-- A range within the module's map and outside the page map's copies (R271; DEDUCED, log entry 71). -/
def collReach (a n : Nat) : Bool :=
  inMap a n && (decide (sramEnd ≤ a) || decide (a % 0x100000000 + n ≤ 0xFFC00000))

/-- Every buffer within reach, and no destination in an RO_SHARED object, which no collective writes (R224, R241; the status is DEDUCED,
log entry 71). -/
def collRangeOk (s : State) (b : CollBody) : Bool :=
  (collSources s b).all (fun x => collReach x.1 x.2) && (collDests s b).all (fun x => collReach x.1 x.2 && !roShared s x.1 x.2)

def collGroupOk (s : State) (b : CollBody) : Bool :=
  isP2p b || (groupHolds s b.group && group2Ok s b &&
    (decide (b.kind ≠ 3 ∧ b.kind ≠ 4) || memberOf s (group s b.group.toNat) b.peer.toNat))

def collSeqOk (s : State) (b : CollBody) : Bool :=
  isP2p b || (seqOpen b.seq (group s b.group.toNat).nextSeq &&
    (!inGroup2 s b || seqOpen b.seq2 (group s b.group2.toNat).nextSeq))

/-- The first failing check; `fenced` says that the issuing half is FENCED. -/
def collFault (s : State) (fenced : Bool) (b : CollBody) : Option Byte :=
  if ¬collFormatOk s b then some Status.collFormat
  else if ¬collRangeOk s b then some Status.addrRange
  else if ¬collGroupOk s b then some Status.groupAbsent
  else if ¬collSeqOk s b then some Status.seqOrder
  else if fenced then some Status.fenced
  else none

/-! ### The digest (R355) -/

/-- Masks and GEN of a group, as the digest covers them. -/
def groupBytes (g : Group) : List Byte :=
  leBytes 32 g.rackMask.toNat ++ leBytes 1 g.trayMask.toNat ++ leBytes 1 g.moduleMask.toNat ++ leBytes 4 g.gen.toNat

/-- First 8 bytes of SHAKE256 over the descriptor's fields, the groups named and the epoch, in the order of R355. -/
def collHash (s : State) (b : CollBody) : W64 :=
  let named (g : W16) : List Byte := if g.toNat < 1024 then groupBytes (group s g.toNat) else []
  BitVec.ofNat 64 (ofLe (shake256 8 (leBytes 1 b.kind.toNat ++ leBytes 1 b.fmt.toNat ++ leBytes 1 (b.flags.toNat % 2) ++
    leBytes 1 b.dieMask.toNat ++ leBytes 2 b.group.toNat ++ leBytes 2 b.peer.toNat ++ leBytes 4 b.seq.toNat ++
    leBytes 2 b.group2.toNat ++ leBytes 4 b.seq2.toNat ++ leBytes 2 b.tag.toNat ++ leBytes 8 b.count.toNat ++
    named b.group ++ named b.group2 ++ leBytes 4 (epochOf s).toNat)))

/-- The digest expected of the partners: for SEND and RECV, that of the matching RECV or SEND, which names this module. -/
def partnerHash (s : State) (b : CollBody) : W64 :=
  if isP2p b then collHash s { b with kind := 13 - b.kind, peer := BitVec.ofNat 16 ((ownPos s).getD 0xFFFF) }
  else collHash s b

/-! ### The canonical tree (R351, R352) -/

/-- The value held of a node. -/
def nodeAt (nodes : List (Nat × Nat × List W32)) (l i : Nat) : Option (List W32) :=
  (nodes.find? (fun n => decide (n.1 = l) && decide (n.2.1 = i))).map (fun n => n.2.2)

/-- Whether a sub-tree holds a leaf of the collective. -/
def holdsLeaf (leaves : List Nat) (l i : Nat) : Bool := leaves.any (fun x => decide (x / 2 ^ l = i))

/-- The value of node i of level l: `none` while an operand is missing, `some none` for padding, which is +0. -/
def treeValue (leaves : List Nat) (nodes : List (Nat × Nat × List W32)) : Nat → Nat → Option (Option (List W32))
  | 0, i => if holdsLeaf leaves 0 i then (nodeAt nodes 0 i).map some else some none
  | l + 1, i =>
    if ¬holdsLeaf leaves (l + 1) i then some none
    else match nodeAt nodes (l + 1) i with
      | some v => some (some v)
      | none =>
        match treeValue leaves nodes l (2 * i), treeValue leaves nodes l (2 * i + 1) with
        | some (some a), some (some b) => some (some ((a.zip b).map (fun p => fAdd p.1 p.2)))
        | some none, some b => some b
        | some a, some none => some a
        | _, _ => none

/-! ### Messages (R340, R347, R350, R354, R355, R358) -/

/-- How a collective is named here, and at the other members. -/
def collName (b : CollBody) : CollName :=
  if b.kind = 6 then .send b.peer b.tag else if b.kind = 7 then .recv b.peer b.tag else .group b.group b.seq
def nameThere (s : State) (b : CollBody) : CollName :=
  let own := BitVec.ofNat 16 ((ownPos s).getD 0xFFFF)
  if b.kind = 6 then .recv own b.tag else if b.kind = 7 then .send own b.tag else .group b.group b.seq

/-- The channel: COLL, P2P, or BULK by FLAGS[1]. -/
def collChannel (b : CollBody) : BitVec 2 := if b.flags.getLsbD 1 then 2 else if isP2p b then 1 else 0

/-- The other members, or the partner. -/
def collOthers (s : State) (b : CollBody) : List Nat :=
  if isP2p b then [b.peer.toNat] else (collMembers s b).filter (fun p => decide (ownPos s ≠ some p))

/-- Send a message of a collective to a position: to its holder for the module's own copy (R340). -/
def sendColl (b : CollBody) (m : CollMsg) (s : State) (q : Nat) : State :=
  match holderNode s (ownCopy s) q with
  | some n => emit (.coll (collChannel b) n (nameThere s b) m) s
  | none => s
def sendAll (b : CollBody) (m : CollMsg) (s : State) : State := (collOthers s b).foldl (sendColl b m) s

/-- Whether this module gives the verdict over the digests: the member of lowest position (DESIGN CHOICE, log entry 72). -/
def givesVerdict (s : State) (b : CollBody) : Bool :=
  (collOthers s b).all (fun p => match ownPos s with | some q => decide (q < p) | none => false)

/-- Whether every other member's digest has come and agrees. -/
def digestsIn (s : State) (c : Coll) : Bool := (collOthers s c.body).all (fun p => c.digests.contains (BitVec.ofNat 16 p))

/-- The members that take this module's value of level `lo` in the stage that joins sub-trees of that level to level `hi`: the lowest member of
each sub-tree sends it to the members of the others (DESIGN CHOICE, log entry 72). -/
def stageTo (s : State) (b : CollBody) (lo hi : Nat) : List Nat :=
  let p := (ownPos s).getD 0
  let sub (k q : Nat) : Nat := 4 * q / 2 ^ k
  let ms := collMembers s b
  if ms.find? (fun q => decide (sub lo q = sub lo p)) = some p then
    ms.filter (fun q => decide (sub hi q = sub hi p) && decide (sub lo q ≠ sub lo p))
  else []

/-- The blocks of an ALL_TO_ALL leaf that go to position q. -/
def blocksFor (s : State) (b : CollBody) (q : Nat) (ws : List W32) : List W32 :=
  let leaves := collLeaves s b
  let e := fmtBytes (collIn b) (b.count.toNat / leaves.length)
  let k := (leaves.findIdx? (fun x => decide (x / 4 = q))).getD 0
  let n := (collDies b).length * e
  wordsOf (n / 4) (((bytesOfWords ws).drop (k * e)).take n)

/-- The leaves' values that a kind other than a reduction sends, each with its receiver (Table 11.8); a RECV acknowledges its last flit. -/
def leafSends (s : State) (c : Coll) : List (Nat × ValueMsg) :=
  let b := c.body
  let others := collOthers s b
  let p := (ownPos s).getD 0
  let own := c.nodes.filter (fun n => isP2p b || decide (n.2.1 / 4 = p))
  let each (qs : List Nat) : List (Nat × ValueMsg) :=
    (qs.map (fun q => own.map (fun n => (q, ValueMsg.value n.1 n.2.1 n.2.2)))).flatten
  match b.kind.toNat with
  | 3 => (each others).filter (fun x => decide (ownPos s = some b.peer.toNat) &&
      (match x.2 with | .value _ i _ => decide (i = 4 * p + lowestDie b) | _ => false))
  | 4 => if ownPos s = some b.peer.toNat then [] else each [b.peer.toNat]
  | 5 => (others.map (fun q => own.map (fun n => (q, ValueMsg.value n.1 n.2.1 (blocksFor s b q n.2.2))))).flatten
  | 7 => [(b.peer.toNat, .taken)]
  | _ => each others

/-- The stages whose value this module holds, with the messages of each: a reduction's package, tray and rack values, or the leaves. -/
def collSends (s : State) (c : Coll) : List (Nat × List (Nat × ValueMsg)) :=
  let b := c.body
  if isReduction b then
    let p := (ownPos s).getD 0
    [(2, 5), (5, 8), (8, 16)].filterMap (fun x =>
      let i := 4 * p / 2 ^ x.1
      match treeValue (collLeaves s b) c.nodes x.1 i with
      | some (some v) => some (x.1, (stageTo s b x.1 x.2).map (fun q => (q, ValueMsg.value x.1 i v)))
      | _ => none)
  else if c.reading ∨ (b.kind = 7 ∧ ¬(collDies b).all (fun d => (nodeAt c.nodes 0 d).isSome)) then []
  else [(0, leafSends s c)]

/-! ### Completion -/

/-- Whether every value that this module needs is present. -/
def dataReady (s : State) (c : Coll) : Bool :=
  let b := c.body
  let leaves := collLeaves s b
  let has (i : Nat) : Bool := (nodeAt c.nodes 0 i).isSome
  !c.reading && (match b.kind.toNat with
  | 0 | 1 => (treeValue leaves c.nodes 16 0).isSome
  | 3 => has (4 * b.peer.toNat + lowestDie b)
  | 4 => decide (ownPos s ≠ some b.peer.toNat) || leaves.all has
  | 6 => c.granted && c.taken
  | 7 => (collDies b).all has
  | _ => leaves.all has)

/-- Bytes of a leaf's value: `n` elements of the format. -/
def leafBytes (b : CollBody) (n : Nat) (ws : List W32) : List Byte := (bytesOfWords ws).take (fmtBytes (collIn b) n)

/-- Reduced elements written in OUT_FMT with R61 and R63 (R349). -/
def reducedBytes (b : CollBody) (ws : List W32) : List Byte :=
  ((rowsOf (ws.length / 64) ws).map (fun r =>
    (encodeRow ((collOut b).getD .fp32) (b.flags.getLsbD 0) (r.map f32)).1)).flatten

/-- What die d of this module receives, as bytes (Table 11.8). -/
def collResult (s : State) (c : Coll) (d : Nat) : List Byte :=
  let b := c.body
  let n := b.count.toNat
  let leaves := collLeaves s b
  let own := 4 * (ownPos s).getD 0 + d
  let k := (leaves.findIdx? (fun x => decide (x = own))).getD 0
  let each := n / leaves.length
  let val (i : Nat) : List W32 := (nodeAt c.nodes 0 i).getD []
  let root : List W32 := match treeValue leaves c.nodes 16 0 with | some (some v) => v | _ => []
  match b.kind.toNat with
  | 0 => reducedBytes b root
  | 1 => reducedBytes b ((root.drop (k * each)).take each)
  | 2 => (leaves.map (fun i => leafBytes b each (val i))).flatten
  | 3 => leafBytes b n (val (4 * b.peer.toNat + lowestDie b))
  | 4 => if received s b d = 0 then [] else (leaves.map (fun i => leafBytes b each (val i))).flatten
  | 5 =>
    let p := (ownPos s).getD 0
    let e := fmtBytes (collIn b) each
    let r := ((collDies b).findIdx? (fun x => decide (x = d))).getD 0
    (leaves.map (fun i => part (bytesOfWords (if i / 4 = p then blocksFor s b p (val i) else val i)) (r * e) e)).flatten
  | 7 => leafBytes b n (val d)
  | _ => []
where
  /-- `n` bytes from `o`. -/
  part (bs : List Byte) (o n : Nat) : List Byte := (bs.drop o).take n

/-- Whether what this module writes contains a NaN or an infinity (R68), after the rounding to OUT_FMT (R349). -/
def collNonfinite (s : State) (c : Coll) : Bool :=
  match collOut c.body with
  | some f => (collDies c.body).any (fun d => (decodeVals f (received s c.body d) (collResult s c d)).any (fun x => !isFiniteW (toF32 x)))
  | none => false

/-- Remove a collective. -/
def dropColl (c : Coll) (s : State) : State :=
  { s with unlia := { s.unlia with colls := s.unlia.colls.filter (fun x => decide (x.id ≠ c.id)) } }

/-- Whether the step of a collective's program is abandoned: what it receives is no longer written (R164). -/
def collAbandoned (s : State) (c : Coll) : Bool :=
  c.prog.isSome && (match s.dealer.run with | some r => r.abortAc.isSome | none => true)

/-- A collective completes once the verdict is in and its data is there: the destinations are written (R159, R355). -/
def finishColl (c : Coll) (s : State) : State :=
  if c.active ∧ c.agreed ∧ dataReady s c then
    let s1 := if collAbandoned s c then s
      else (collDies c.body).foldl (fun s' d => storeBg (collDst s c.body d).1 (collResult s c d) s') s
    endColl c Status.ok (collNonfinite s c) (dropColl c s1)
  else s

/-- Replace a collective. -/
def putColl (c : Coll) (s : State) : State :=
  { s with unlia := { s.unlia with colls := s.unlia.colls.map (fun x => if x.id = c.id then c else x) } }

/-- Send every stage whose value is there and has not been sent; then complete when it can. -/
def sendStages (c : Coll) (s : State) : State :=
  let xs := (collSends s c).filter (fun x => !c.sent.contains x.1)
  let ms := (xs.map (fun x => x.2)).flatten
  let c1 := { c with sent := c.sent ++ xs.map (fun x => x.1), last := if ms = [] then c.last else s.tick }
  finishColl c1 (putColl c1 (ms.foldl (fun s m => sendColl c.body (.value m.2) s m.1) s))

/-- The verdict, once every digest has come to the member that gives it (R355). -/
def passVerdict (c : Coll) (s : State) : Coll × State :=
  if ¬c.agreed ∧ givesVerdict s c.body ∧ digestsIn s c then
    ({ c with agreed := true, last := s.tick }, sendAll c.body (.digest (.verdict true)) s)
  else (c, s)

/-- The source of die d as 32-bit words. -/
def sourceWords (s : State) (b : CollBody) (d : Nat) : List W32 :=
  readWords s.tiers.mem (collSrc s b d).1 (((collSrc s b d).2 + 3) / 4)

/-- The values of this module's own leaves. -/
def ownNodes (s : State) (b : CollBody) : List (Nat × Nat × List W32) :=
  (collDies b).map (fun d => (0, if isP2p b then d else 4 * (ownPos s).getD 0 + d, sourceWords s b d))

/-- A collective goes as far as it can: the verdict, the source (R349), what the others need, the end. -/
def advanceColl (c0 : Coll) (s0 : State) : State :=
  let c := (passVerdict c0 s0).1
  let s := (passVerdict c0 s0).2
  if c.reading ∧ (c.body.kind ≠ 6 ∨ c.granted) then
    match engineReadSet (rangeSet s (collSources s c.body)) .clean s with
    | .waits s1 => putColl c s1
    | .fails st s1 => breakColl st c (if st = Status.objectPoisoned then sendAll c.body (.value .poisoned) s1 else s1)
    | .good s1 => sendStages { c with reading := false, nodes := c.nodes ++ ownNodes s1 c.body } s1
  else sendStages c s

def collAt (s : State) (id : Nat) : Option Coll := s.unlia.colls.find? (fun c => decide (c.id = id))

/-! ### Arrival (R352, R355 to R358) -/

/-- Whether an active collective still lacks a message. -/
def Coll.lacks (c : Coll) (source : W16) : CollMsg → Bool
  | .digest (.digest _) => !c.digests.contains source
  | .digest (.verdict _) => !c.agreed
  | .value (.value l i _) => (nodeAt c.nodes l i).isNone
  | .value .taken => decide (c.body.kind = 6) && c.granted && !c.taken
  | .grant => decide (c.body.kind = 6) && !c.granted
  | .value .poisoned | .abort => true

/-- An active collective takes a message. -/
def takeMsg (c0 : Coll) (source : W16) (m : CollMsg) (s : State) : State :=
  let c := { c0 with last := s.tick }
  match m with
  | .digest (.digest d) =>
    if d ≠ partnerHash s c.body then breakColl Status.collMismatch c (sendAll c.body (.digest (.verdict false)) s)
    else advanceColl { c with digests := c.digests ++ [source] } s
  | .digest (.verdict agree) => if agree then advanceColl { c with agreed := true } s else breakColl Status.collMismatch c s
  | .value (.value l i ws) => advanceColl { c with nodes := c.nodes ++ [(l, i, ws)] } s
  | .value .poisoned => breakColl Status.objectPoisoned c s
  | .value .taken => advanceColl { c with taken := true } s
  | .grant => advanceColl { c with granted := true } s
  | .abort => breakColl Status.collStall c s

/-- Whether a message that no active collective lacks waits for one to start: of a group, while the sequence number is not consumed; of a SEND or
RECV, its digest and its grant. -/
def keepsEarly (s : State) (name : CollName) (m : CollMsg) : Bool :=
  match name with
  | .group g seq => decide (g.toNat < 1024) && seqOpen seq (group s g.toNat).nextSeq
  | _ => (match m with | .digest (.digest _) | .grant => true | _ => false)

/-- A message arrives: equal names match in issue order (R358). -/
def collArrive (name : CollName) (source : W16) (m : CollMsg) (s : State) : State :=
  match s.unlia.colls.find? (fun c => c.active && decide (collName c.body = name) && c.lacks source m) with
  | some c => takeMsg c source m s
  | none => if keepsEarly s name m then { s with unlia := { s.unlia with early := s.unlia.early ++ [(name, source, m)] } } else s

/-- The messages that came before the start. -/
def collEarly (name : CollName) (s : State) : State :=
  (s.unlia.early.filter (fun e => decide (e.1 = name))).foldl (fun s e => collArrive e.1 e.2.1 e.2.2 s)
    { s with unlia := { s.unlia with early := s.unlia.early.filter (fun e => decide (e.1 ≠ name)) } }

/-- COLL_DIGEST: a member's digest, or the verdict. -/
def execCollDigest (sender : CollSender) (digest : DigestMsg) (s : State) : Out := .next (collArrive sender.name sender.source (.digest digest) s)

/-- The message that brings this for a place of the tree. -/
def collValue (level index : Nat) : CollData → ValueMsg
  | .elements ws => .value level index ws
  | .poisoned => .poisoned
  | .taken => .taken

/-- COLL_MESSAGE: the value of a complete sub-tree, a leaf's elements, word of a source without a good copy, or the acknowledgement of a SEND's
last flit. -/
def execCollMessage (sender : CollSender) (level index : Nat) (data : CollData) (s : State) : Out :=
  .next (collArrive sender.name sender.source (.value (collValue level index data)) s)

/-- COLL_GRANT: the matching RECV grants a SEND, which sends its elements. -/
def execCollGrant (sender : CollSender) (s : State) : Out := .next (collArrive sender.name sender.source .grant s)

/-- COLL_ABORT: another member's ABORT arrives. -/
def execCollAbort (sender : CollSender) (s : State) : Out := .next (collArrive sender.name sender.source .abort s)

/-- Whether no message of a collective has moved for 2^32 ac, by whole module ticks at the frequency in force (log entry 66). -/
def collQuiet (s : State) (c : Coll) : Bool := decide (2 ^ 32 ≤ ((s.tick - c.last).toNat + 1) * freqMHz s.glaren.freq)

/-- COLL_STALL_TIMEOUT: 2^32 ac without a message; ABORT goes to every member (R356). -/
def execCollStallTimeout (op : Nat) (s : State) : Out :=
  .next (match collAt s op with
    | some c => if c.active ∧ collQuiet s c then breakColl Status.collStall c (sendAll c.body .abort s) else s
    | none => s)

/-! ### Start (R353, R354) -/

/-- Whether a member, or the partner, is ABSENT or PAUSED or has no holder for this copy (R340, R345). -/
def collBroken (s : State) (b : CollBody) : Bool :=
  let others := if isP2p b then [b.peer.toNat] else (collMembers s b).filter (fun p => decide (ownPos s ≠ some p))
  others.any (fun p => decide ((position s p).state ≠ 1) || (holderNode s (ownCopy s) p).isNone) ||
    (!isP2p b && (collMembers s b).any (fun p => decide ((position s p).state ≠ 1))) || (ownPos s).isNone

/-- The messages that a start sends: the digest, and a RECV's grant. -/
def startSends (b : CollBody) (s : State) : State :=
  let s1 := sendAll b (.digest (.digest (collHash s b))) s
  if b.kind = 7 then sendAll b .grant s1 else s1

/-- A collective starts: NEXT_SEQ advances, its digest leaves, its own leaves' values are read, and it takes the messages that have come. -/
def startColl (c : Coll) (s : State) : State :=
  let b := c.body
  let s1 := if isP2p b then s
    else
      let s' := setGroup b.group.toNat (fun g => { g with nextSeq := g.nextSeq + 1 }) s
      if inGroup2 s b then setGroup b.group2.toNat (fun g => { g with nextSeq := g.nextSeq + 1 }) s' else s'
  if collBroken s1 b then breakColl Status.collLost c s1
  else if collShut s1 b then breakColl Status.reset c s1
  else
    collEarly (collName b) (advanceColl { c with active := true, reading := decide (supplied s1 b ≠ 0), last := s1.tick } (startSends b s1))

def activeColls (s : State) : Nat := (s.unlia.colls.filter (fun c => c.active)).length
/-- Whether a further collective may start: fewer than 16 active, no position write waiting (R341, R354). -/
def mayStart (s : State) : Bool := decide (activeColls s < 16) && decide (s.unlia.posSets = [])

/-- Hand a descriptor to the collective engine. -/
def submitColl (t : Option Ticket) (p : Option (Nat × Nat × W32 × BitVec 4)) (fenced : Bool) (b : CollBody) (s : State) : State :=
  let c : Coll := { id := s.host.nextOp, ticket := t, prog := p, body := b, active := false, reading := false, granted := false,
                    taken := false, digests := [], agreed := false, sent := [], last := s.tick, nodes := [] }
  let s1 := { s with host := { s.host with nextOp := s.host.nextOp + 1 } }
  match collFault s fenced b with
  | some st => failColl c st s1
  | none =>
    let s2 := { s1 with unlia := { s1.unlia with colls := s1.unlia.colls ++ [c] } }
    if isP2p b ∧ mayStart s2 then startColl c s2 else s2

/-- Waiting collectives that queues issued: 192 places (R354). -/
def queueWaiting (s : State) : Nat := (s.unlia.colls.filter (fun c => !c.active && c.ticket.isSome)).length

def takeCollective (q : Nat) (h : Hdr) (b : CollBody) : State → State :=
  takeCmd q h true (fun s => decide (queueWaiting s < 192)) (fun t s => submitColl (some t) none false b s)

/-- COLLECTIVE. -/
def execCollective (q : Nat) (h : Hdr) (b : CollBody) (s : State) : Out := withUnit q 256 s (takeCollective q h b)

/-- COLL.START (R159): the 64-byte descriptor at A(SREG). -/
def execCollStart (i : Issue) (c : Common) (sreg : BitVec 5) (wp : BitVec 10) (cmask : W32) (dmask : BitVec 4) (s : State) : Out :=
  issue i c (.collStart sreg wp cmask dmask) (fun _ pr s =>
    let p := i.prog
    let d := dieOf p
    let a := wrap48 (areg pr sreg.toNat)
    if a % 64 ≠ 0 then raiseFault FaultCode.align p pr.ready pr.pc s
    else if ¬canRead d a 64 then raiseFault FaultCode.addrRange p pr.ready pr.pc s
    else
      let bs := readBytes s.tiers.mem a 64
      let b0 := collOf (bs.drop 16)
      let b := { b0 with reserved := b0.reserved || (bs.take 16).any (fun x => decide (x ≠ 0)) }
      let fenced := decide (s.dealer.phase = .fenced) || (if d ≤ 1 then s.dealer.westFenced else s.dealer.eastFenced)
      let dsts := (collDests s b).filter (fun x => decide (b.kind ≠ 7) || decide (sramEnd ≤ x.1))
      let s1 := setRun (fun r => { r with extDst := r.extDst ++ dsts.map (fun x => (none, x)) }) (sramEcc i [(a, 64)] pr.ready s)
      let s2 := advance p pr.ready 1 (setRun (setProg p (fun x => { x with extOpen := x.extOpen + 1 })) s1)
      submitColl none (some (p, wp.toNat, cmask, dmask)) fenced b s2) s

/-- Whether a waiting collective is eligible (R353). -/
def eligible (s : State) (c : Coll) : Bool :=
  !c.active && (isP2p c.body || (decide (c.body.seq = (group s c.body.group.toNat).nextSeq) &&
    (!inGroup2 s c.body || decide (c.body.seq2 = (group s c.body.group2.toNat).nextSeq))))

/-- COLL_ELIGIBLE_START: of the eligible collectives the one of lowest GROUP starts. -/
def execCollEligibleStart (s : State) : Out :=
  .next (if mayStart s then
      match (s.unlia.colls.filter (eligible s)).foldl (fun (a : Option Coll) c =>
        match a with
        | none => some c
        | some x => if c.body.group < x.body.group then some c else some x) none with
      | some c => startColl c s
      | none => s
    else s)

/-- Whether a collective involves a position (R343). -/
def collInvolves (s : State) (p : Nat) (c : Coll) : Bool :=
  if isP2p c.body then decide (c.body.peer.toNat = p) || decide (ownPos s = some p)
  else memberOf s (group s c.body.group.toNat) p

/-! ### The tables (Table 11.9) -/

/-- Read the entries that a table-writing command names, `w` bytes each, and give them to `k`; a command whose object has a bad line waits for its
repair (R238). -/
def readTable (o first count : W16) (w limit : Nat) (t : Ticket) (i : Instr) (k : List (List Byte) → State → State) (s : State) : State :=
  let x := obj s o.toNat
  if ¬x.inMem ∨ x.poison ≠ .clean ∨ x.len < count.toNat * w then finish t Status.objectFormat s
  else if count = 0 ∨ limit < first.toNat + count.toNat then finish t Status.entryFormat s
  else readWhole o.toNat 0 (count.toNat * w) .clean t i
    (fun s => k ((List.range count.toNat).map (fun i => objBytes s x (w * i) w)) s) s

/-- Reserved bits of a route entry (Table 11.4). -/
def routeOk (bs : List Byte) : Bool := let v := fieldAt bs 0 8; !v.testBit 15 && decide (v < 2 ^ 41)

/-- Write route entries. -/
def writeRoutes (first : W16) (es : List (List Byte)) (s : State) : State :=
  { s with unlia := { s.unlia with
    routes := es.zipIdx.foldl (fun r e => Tab.set zero64 r (first.toNat + e.2) (BitVec.ofNat 64 (fieldAt e.1 0 8))) s.unlia.routes } }

def routeSetBody (h : Hdr) (o first count : W16) (t : Ticket) : State → State :=
  readTable o first count 8 4096 t (.routeSet t.q h o first count) (fun es s =>
    if ¬es.all routeOk then finish t Status.entryFormat s else finish t Status.ok (writeRoutes first es s))

def takeRouteSet (q : Nat) (h : Hdr) (o first count : W16) : State → State := takeCmd q h true always (routeSetBody h o first count)

/-- ROUTE_SET: applied at once. -/
def execRouteSet (q : Nat) (h : Hdr) (object first count : W16) (s : State) : Out :=
  withUnit q 256 s (takeRouteSet q h object first count)

/-- A position entry and whether its reserved bits are 0 (Table 11.5). -/
def positionAt (bs : List Byte) : Position :=
  { node := BitVec.ofNat 16 (fieldAt bs 0 2), twin := BitVec.ofNat 16 (fieldAt bs 2 2), state := fieldAt bs 4 1 % 4,
    reserve := (fieldAt bs 4 1).testBit 2, gen := BitVec.ofNat 32 (fieldAt bs 8 4) }

def positionOk (bs : List Byte) : Bool :=
  decide (fieldAt bs 0 2 < 0x8000) && (decide (fieldAt bs 2 2 < 0x8000) || decide (fieldAt bs 2 2 = 0xFFFF)) &&
    decide (fieldAt bs 4 1 < 8) && decide (fieldAt bs 5 3 = 0) && decide (fieldAt bs 12 4 = 0)

/-- The position table after a write. -/
def writePositions (first : Nat) (ps : List Position) (t : Tab Position) : Tab Position :=
  ps.zipIdx.foldl (fun t e => Tab.set (fun _ => Position.cold) t (first + e.2) e.1) t

/-- No node ID is named twice by the entries whose STATE is not UNUSED (R341). -/
def nodesUnique (t : Tab Position) : Bool :=
  let used := t.filter (fun e => decide (e.2.state ≠ 0))
  let ids := used.map (fun e => e.2.node.toNat) ++ (used.filter (fun e => decide (e.2.twin ≠ 0xFFFF))).map (fun e => e.2.twin.toNat)
  ids.foldl (fun (a : Bool × List Nat) n => (a.1 && !a.2.contains n, n :: a.2)) (true, []) |>.1

/-- The position table as the waiting writes will leave it. -/
def positionsAhead (s : State) : Tab Position := s.unlia.posSets.foldl (fun t x => writePositions x.2.1 x.2.2 t) s.unlia.positions

def positionSetBody (h : Hdr) (o first count : W16) (t : Ticket) : State → State :=
  readTable o first count 16 16384 t (.positionSet t.q h o first count) (fun es s =>
    let ps := es.map positionAt
    if ¬es.all positionOk ∨ ¬nodesUnique (writePositions first.toNat ps (positionsAhead s)) then finish t Status.entryFormat s
    else { s with unlia := { s.unlia with posSets := s.unlia.posSets ++ [(t, first.toNat, ps)] } })

def takePositionSet (q : Nat) (h : Hdr) (o first count : W16) : State → State :=
  takeCmd q h true always (positionSetBody h o first count)

/-- POSITION_SET: checked now, applied by POSITION_SET_APPLY. -/
def execPositionSet (q : Nat) (h : Hdr) (object first count : W16) (s : State) : Out :=
  withUnit q 256 s (takePositionSet q h object first count)

/-- POSITION_DIGEST: the first 8 bytes of SHAKE256 over all 16,384 entries (R341). -/
def positionDigest (t : Tab Position) : W64 :=
  BitVec.ofNat 64 (ofLe (shake256 8
    ((List.range 16384).map (fun p => (Tab.get (fun _ => Position.cold) t p).toBytes)).flatten))

/-- POSITION_SET_APPLY: the first moment without an active collective (R341). -/
def execPositionSetApply (s : State) : Out :=
  .next (match s.unlia.posSets with
    | (t, first, ps) :: rest =>
      if activeColls s = 0 then
        let tab := writePositions first ps s.unlia.positions
        finish t Status.ok { s with unlia := { s.unlia with positions := tab, posDigest := positionDigest tab, posSets := rest } }
      else s
    | [] => s)

/-- A group entry (Table 11.6) and whether its reserved bits are 0. -/
def groupAt (bs : List Byte) : Group :=
  { rackMask := BitVec.ofNat 256 (fieldAt bs 0 32), trayMask := BitVec.ofNat 8 (fieldAt bs 0x20 1),
    moduleMask := BitVec.ofNat 8 (fieldAt bs 0x21 1), valid := (fieldAt bs 0x22 1).testBit 0,
    nextSeq := BitVec.ofNat 32 (fieldAt bs 0x24 4), gen := BitVec.ofNat 32 (fieldAt bs 0x2C 4) }

def groupOk (bs : List Byte) : Bool :=
  decide (fieldAt bs 0x22 1 < 2) && decide (fieldAt bs 0x23 1 = 0) && decide (fieldAt bs 0x30 16 = 0)

/-- Whether a group has an active or waiting collective. -/
def groupBusy (s : State) (g : Nat) : Bool :=
  s.unlia.colls.any (fun c => !isP2p c.body && (decide (c.body.group.toNat = g) || decide (c.body.group2.toNat = g)))

def groupSetBody (h : Hdr) (o first count : W16) (t : Ticket) : State → State :=
  readTable o first count 64 1024 t (.groupSet t.q h o first count) (fun es s =>
    if ¬es.all groupOk then finish t Status.entryFormat s
    else if (List.range count.toNat).any (fun i => groupBusy s (first.toNat + i)) then finish t Status.groupBusy s
    else finish t Status.ok (es.zipIdx.foldl (fun s e => setGroup (first.toNat + e.2) (fun _ => groupAt e.1) s) s))

def takeGroupSet (q : Nat) (h : Hdr) (o first count : W16) : State → State := takeCmd q h true always (groupSetBody h o first count)

/-- GROUP_SET (R346). -/
def execGroupSet (q : Nat) (h : Hdr) (object first count : W16) (s : State) : Out :=
  withUnit q 256 s (takeGroupSet q h object first count)

end Sys2Proof.Machine
end

