-- ==== Sys2Proof/Machine/Castle.lean ====
section
/-! DEFINITION. Castling: the castle command, its start, its chunks and their conversion (sections 8.3 and 8.4). -/

namespace Sys2Proof.Machine

/-! ### The command (R247, R248) -/

/-- Codes that Table 8.2 defines. -/
def castleCodesOk (b : CastleBody) : Bool :=
  decide (b.mode.toNat ≤ 2) && decide (b.role.toNat ≤ 2) && decide (b.flags.toNat < 16) && decide (b.share.toNat ≤ 8) &&
    (decide (b.target.toNat ≤ 1) || decide (b.role = 2))

/-- LOAD and ADOPT use ROLE 1. -/
def castleNormal (b : CastleBody) : CastleBody := if b.mode = 0 then b else { b with role := 1 }

def castleRun (b : CastleBody) (t : Ticket) (s : State) : State :=
  if ¬castleCodesOk b then finish t Status.entryFormat s
  else
    { s with dealer := { s.dealer with castles := s.dealer.castles ++
        [{ ticket := t, body := castleNormal b, base := b.base, map := [], checked := false, done := [], retries := [], flagged := 0, sent := false,
           toSend := [] }] } }

def takeCastle (q : Nat) (h : Hdr) (b : CastleBody) : State → State := takeCmd q h true always (castleRun b)

/-- CASTLE: taken, then waiting for every earlier castle (R248 step 1). -/
def execCastle (q : Nat) (h : Hdr) (b : CastleBody) (s : State) : Out := withUnit q 256 s (takeCastle q h b)

/-! ### The map (R249) -/

/-- One entry (Table 8.4). -/
def mapEntryAt (bs : List Byte) : MapEntry :=
  { destOffset := fieldAt bs 0 8, elements := fieldAt bs 8 4, sourcePos := fieldAt bs 12 2, sourceObject := fieldAt bs 14 2,
    sourceOffset := fieldAt bs 16 8, srcFmt := fieldAt bs 24 1, dstFmt := fieldAt bs 25 1, member := fieldAt bs 26 1 }

/-- The map object's bytes; none where the object cannot hold it. -/
def mapBytes (s : State) (b : CastleBody) : Option (List Byte) :=
  let o := obj s b.map.toNat
  if o.inMem && decide (o.poison = .clean) && decide (32 * b.chunks.toNat ≤ o.len) then
    some (objBytes s o 0 (32 * b.chunks.toNat))
  else none

/-- The entries of the map. -/
def mapEntries (s : State) (b : CastleBody) : List MapEntry :=
  match mapBytes s b with
  | some bs => (List.range b.chunks.toNat).map (fun i => mapEntryAt (part bs (32 * i) 32))
  | none => []

/-- Destination bytes of an entry. -/
def MapEntry.destBytes (e : MapEntry) : Nat := fmtBytes (Fmt.ofCode e.dstFmt) e.elements
def MapEntry.dest (e : MapEntry) : Option Fmt := Fmt.ofCode e.dstFmt

/-- One entry's own form, with the members that the castle builds. -/
def mapEntryOk (b : CastleBody) (e : MapEntry) : Bool :=
  decide (0 < e.elements) && decide (e.elements % 64 = 0) && decide (e.elements ≤ 262144) && decide (e.srcFmt ≤ 1) &&
    decide (1 ≤ e.dstFmt) && e.dest.isSome &&
    (if e.member = 0 then !b.flags.getLsbD 0 else decide (e.member = 1) && decide (b.adapter ≠ 0xFFFF)) &&
    (match e.dest with | some f => !f.isPb || decide (e.destOffset % f.rowBytes = 0) | none => false)

/-- Entries of one member in ascending order without overlap, in one format. -/
def memberOrdered : List MapEntry → Bool
  | [] => true
  | [_] => true
  | a :: b :: t => decide (a.destOffset + a.destBytes ≤ b.destOffset) && decide (a.dstFmt = b.dstFmt) && memberOrdered (b :: t)

/-- Whether the reserved bytes of every entry are 0 (Table 8.4). -/
def mapReserved (s : State) (b : CastleBody) : Bool :=
  match mapBytes s b with
  | some bs => (List.range b.chunks.toNat).all (fun i => decide (fieldAt bs (32 * i + 27) 5 = 0))
  | none => false

/-- Table 8.3 check 6. -/
def mapOk (s : State) (b : CastleBody) (es : List MapEntry) : Bool :=
  mapReserved s b && es.all (mapEntryOk b) && memberOrdered (es.filter (fun e => decide (e.member = 0))) &&
    memberOrdered (es.filter (fun e => decide (e.member = 1)))

/-! ### Start checks (Table 8.3) -/

/-- Bytes of a member that the map fills. -/
def memberNeed (es : List MapEntry) (m : Nat) : Nat :=
  (es.filter (fun e => decide (e.member = m))).foldl (fun a e => max a (e.destOffset + e.destBytes)) 0

/-- A member is valid for a version (R241) and large enough. -/
def memberOk (s : State) (o : W16) (v : W32) (need : Nat) : Bool :=
  let x := obj s o.toNat
  x.valid && decide (x.tier = 1) && x.roShared && x.versioned && decide (x.poison = .clean) && decide (x.version = v) &&
    decide (need ≤ x.len)

/-- Check 4, on each member that the descriptor names. A shared base keeps its own version; a castle that only sends may name none. -/
def membersOk (s : State) (b : CastleBody) (es : List MapEntry) : Bool :=
  let named (o : W16) (m : Nat) : Bool := memberOk s o b.version (memberNeed es m)
  (if b.flags.getLsbD 0 then (liveSlot s).isSome && decide (b.base = 0xFFFF)
   else if b.base = 0xFFFF then decide (b.role = 2) else named b.base 0) &&
    (decide (b.adapter = 0xFFFF) || named b.adapter 1)

/-- Total size of the members that a castle fills. -/
def membersSize (s : State) (b : CastleBody) : Nat :=
  (if b.flags.getLsbD 0 then 0 else (obj s b.base.toNat).len) + (if b.adapter = 0xFFFF then 0 else (obj s b.adapter.toNat).len)

/-- Check 7. -/
def loadSourceOk (s : State) (b : CastleBody) : Bool :=
  let o := obj s b.source.toNat
  o.inFlash && decide (o.poison = .clean) && decide (readEnd s o = membersSize s b) && decide (o.len = membersSize s b)

/-- Check 3. -/
def versionOk (s : State) (b : CastleBody) : Bool :=
  (liveSlot s).isNone || decide (liveVersion s < b.version) || (decide (b.version = liveVersion s) && b.flags.getLsbD 1)

/-- The first failing check of those before the map's layout. -/
def castleFault1 (s : State) (b : CastleBody) : Option Byte :=
  if s.dealer.phase = .fenced then some Status.fenced
  else if castleTarget b ≠ none ∧ castleTarget b = liveSlot s then some Status.slotLive
  else if ¬versionOk s b then some Status.versionOrder
  else if ¬membersOk s b (if b.mode = 0 then mapEntries s b else []) then some Status.objectFormat
  else if b.mode = 2 ∧ (liveSlot s).isSome then some Status.adoptRefused
  else none

/-- The checks of the map and of a LOAD's source; then the group and sequence rules of a BUILD (R250, R348, R353). -/
def castleFault2 (s : State) (b : CastleBody) : Option Byte :=
  if b.mode = 0 ∧ ¬mapOk s b (mapEntries s b) then some Status.mapFormat
  else if b.mode = 1 ∧ ¬loadSourceOk s b then some Status.objectFormat
  else if b.mode = 0 ∧ ¬groupHolds s b.group then some Status.groupAbsent
  else if b.mode = 0 ∧ ¬seqOpen b.seq (group s b.group.toNat).nextSeq then some Status.seqOrder
  else none

/-- The first failing check of Table 8.3. -/
def castleFault (s : State) (b : CastleBody) : Option Byte := (castleFault1 s b).or (castleFault2 s b)

/-! ### Conversion (R250, R251, Table 8.5) -/

/-- The values of a source shard. -/
def sourceVals (e : MapEntry) (bs : List Byte) : List Exact :=
  decodeVals (if e.srcFmt = 0 then .fp32 else .bf16) e.elements bs

/-- Bytes of an entry's source. -/
def MapEntry.srcBytes (e : MapEntry) : Nat := e.elements * (if e.srcFmt = 0 then 4 else 2)

/-- The destination bytes of a chunk and the number of its flagged values. BF16 to BF16 is a copy (Table 8.5). -/
def convertChunk (sat : Bool) (e : MapEntry) (bs : List Byte) : List Byte × Nat :=
  if e.srcFmt = 1 ∧ e.dstFmt = 1 then (bs, 0)
  else
    let rows := (rowsOf (e.elements / 64) (sourceVals e bs)).map (encodeRow (e.dest.getD .bf16) sat)
    ((rows.map (fun r => r.1)).flatten, ((rows.map (fun r => r.2)).flatten.filter (fun k => k.isSome)).length)

/-- The part of its object that an entry's source is. -/
def MapEntry.source (e : MapEntry) : ReadSpan := { object := e.sourceObject, off := e.sourceOffset, bytes := e.srcBytes }

/-- Read a shard: one that lies outside a valid object of tier 0 or 1 ends with OBJECT_FORMAT (R238, R255). -/
def readShard (e : MapEntry) (s : State) : EngineRead :=
  let o := obj s e.sourceObject
  if ¬o.inMem ∨ o.len < e.sourceOffset + e.srcBytes then .fails Status.objectFormat s else engineRead [e.source] .clean s

/-- One chunk made from its source. -/
def makeChunk (s : State) (c : Castle) (i : Nat) (e : MapEntry) : Chunk :=
  let x := convertChunk (c.body.flags.getLsbD 2) e (objBytes s (obj s e.sourceObject) e.sourceOffset e.srcBytes)
  { castleId := c.body.castleId, index := i, crc := crc64 x.1, flagged := x.2, lost := false, data := x.1 }

/-- Word that a chunk has no good source (R255). -/
def lostChunk (c : Castle) (i : Nat) : Chunk :=
  { castleId := c.body.castleId, index := i, crc := 0, flagged := 0, lost := true, data := [] }

/-- Send a chunk to the other members of the group (R250), each by its own message (DESIGN CHOICE, log entry 73). -/
def sendChunk (c : Castle) (x : Chunk) (s : State) : State :=
  ((membersOf s (group s c.body.group.toNat)).filter (fun p => decide (ownPos s ≠ some p))).foldl (fun s p =>
    match holderNode s (ownCopy s) p with
    | some n => emit (.chunk x n) s
    | none => s) s

/-! ### Building -/

def setBuilding (f : Castle → Castle) (s : State) : State :=
  { s with dealer := { s.dealer with building := s.dealer.building.map f } }

/-- The object that an entry's member is. -/
def memberObject (c : Castle) (m : Nat) : Nat := if m = 0 then c.base.toNat else c.body.adapter.toNat

/-- The castle is built: MIRROR completes, every other castle becomes pending (R254, R256). -/
def castleBuilt (c : Castle) (s : State) : State :=
  let s1 := { s with dealer := { s.dealer with building := none } }
  let t := c.body.target.toNat % 2
  if c.body.flags.getLsbD 1 then
    complete c.ticket Status.ok (BitVec.ofNat 64 c.flagged) false (setSlot t (fun x => { x with state := .mirror }) s1)
  else
    wake (setSlot t (fun x => { x with state := .ready }) { s1 with dealer := { s1.dealer with castlePending := some c } })

/-- Whether a receiver has every chunk (R254). -/
def castleCheck (s : State) : State :=
  match s.dealer.building with
  | some c => if c.body.role ≠ 2 ∧ c.body.mode = 0 ∧ c.sent ∧ c.map.length ≤ c.done.length then castleBuilt c s else s
  | none => s

/-- Write a good chunk into its member and count it (R251, R252). -/
def writeChunk (x : Chunk) (s : State) : State :=
  match s.dealer.building with
  | none => s
  | some c =>
    match c.map[x.index]? with
    | none => s
    | some e =>
      if c.body.role = 2 ∨ c.done.contains x.index then s
      else if c.body.flags.getLsbD 3 ∧ 0 < x.flagged then failFlagged s
      else
        castleCheck (storeBg ((obj s (memberObject c e.member)).base + e.destOffset) x.data
          (setBuilding (fun c => { c with done := c.done ++ [x.index], flagged := c.flagged + x.flagged }) s))

/-- Send the own chunks still to be sent, in map order; a receiver writes its own chunks too. A source line under repair holds the rest back
(R238); one without a good copy fails the castle on every receiver (R255). -/
def sendOwn : List Nat → State → State
  | [], s => castleCheck (setBuilding (fun c => { c with toSend := [] }) s)
  | i :: t, s =>
    match s.dealer.building.bind (fun c => (c.map[i]?).map (fun e => (c, e))) with
    | none => s
    | some (c, e) =>
      match readShard e s with
      | .waits s1 => setBuilding (fun c => { c with toSend := i :: t }) s1
      | .fails st s1 => failBuilding st (if st = Status.objectPoisoned then sendChunk c (lostChunk c i) s1 else s1)
      | .good s1 =>
        let x := makeChunk s1 c i e
        let s2 := sendChunk c x (bgObj (obj s1 e.sourceObject) e.sourceOffset e.srcBytes s1)
        if c.body.flags.getLsbD 3 ∧ 0 < x.flagged then failFlagged s2
        else sendOwn t (if c.body.role = 2 then setBuilding (fun c => { c with flagged := c.flagged + x.flagged }) s2 else writeChunk x s2)

/-- Go on with a castle whose source line was under repair. -/
def resumeCastle (s : State) : State :=
  match s.dealer.building with
  | some c => if c.toSend = [] then s else sendOwn c.toSend s
  | none => s

/-- LOAD copies the image into the base and then the adapter member, without conversion (R256). -/
def loadImage (c : Castle) (s : State) : State :=
  let src := obj s c.body.source.toNat
  (castleMembers c).foldl (fun (a : State × Nat) o =>
    (storeBg (obj s o).base (objBytes s src a.2 (obj s o).len) a.1, a.2 + (obj s o).len)) (s, 0) |>.1

/-- The turn of a BUILD in its group: its sequence number is consumed, and its chunks are sent (R250, R353). -/
def buildTurn (c : Castle) (s : State) : State :=
  let own := c.map.zipIdx.filterMap (fun e => if some e.1.sourcePos = ownPos s then some e.2 else none)
  let s1 := setGroup c.body.group.toNat (fun x => { x with nextSeq := x.nextSeq + 1 }) (setBuilding (fun c => { c with sent := true }) s)
  if c.body.role = 1 then castleCheck s1
  else sendOwn own { s1 with dealer := { s1.dealer with lastSent := some { c with sent := true } } }

/-- The running castle goes on: a LOAD has read its image; a BUILD's turn in its group has come; a castle that only sends has had its last chunk
delivered (R256: the CASTLE_START after the last chunk left stands for the delivery; DESIGN CHOICE, log entry 73). -/
def castleTurn (s : State) : State :=
  match s.dealer.building with
  | none => s
  | some c =>
    if c.body.mode = 1 then castleBuilt c (loadImage c s)
    else if c.body.mode ≠ 0 then s
    else if c.sent then
      if c.body.role = 2 ∧ c.toSend = [] then
        complete c.ticket Status.ok (BitVec.ofNat 64 c.flagged) false { s with dealer := { s.dealer with building := none } }
      else s
    else if (group s c.body.group.toNat).nextSeq ≠ c.body.seq ∨ s.unlia.posSets ≠ [] then s
    else buildTurn c s

/-- Check a received chunk of the running castle (R252): a bad copy is asked for again, up to 3 times. A castle that only sends writes none, but
fails with the first flagged value too (R251). -/
def takeChunk (x : Chunk) (s : State) : State :=
  match s.dealer.building with
  | none => s
  | some c =>
    if c.body.castleId ≠ x.castleId ∨ c.done.contains x.index then s
    else if x.lost then (if c.body.role = 2 then s else failBuilding Status.objectPoisoned s)
    else if c.body.role = 2 then (if c.body.flags.getLsbD 3 ∧ 0 < x.flagged ∧ crc64 x.data = x.crc then failFlagged s else s)
    else match c.map[x.index]? with
      | none => s
      | some e =>
        if crc64 x.data = x.crc ∧ x.data.length = e.destBytes then writeChunk x s
        else if 3 ≤ natAt c.retries x.index then failBuilding Status.castleChunk s
        else emit (.chunkRequest x.castleId x.index e.sourcePos)
          (setBuilding (fun c => { c with retries := natSet c.retries x.index (natAt c.retries x.index + 1) }) s)

/-- The chunks that came before their castle started. -/
def takeEarly (s : State) : State :=
  match s.dealer.building with
  | none => s
  | some c =>
    let mine := s.dealer.earlyChunks.filter (fun x => decide (x.castleId = c.body.castleId))
    mine.foldl (fun s x => takeChunk x s)
      { s with dealer := { s.dealer with earlyChunks := s.dealer.earlyChunks.filter (fun x => decide (x.castleId ≠ c.body.castleId)) } }

/-- FORMAT of the new slot: that of the base entries, the live slot's for a shared base (Table 8.7). -/
def castleFormat (s : State) (c : Castle) : Nat :=
  match c.map.find? (fun e => decide (e.member = 0)) with
  | some e => e.dstFmt
  | none => if c.body.flags.getLsbD 0 then (match liveSlot s with | some i => (slot s i).format | none => 0) else 0

/-- Whether a chunk still to come has its source on a position that is lost (R255). -/
def sourceAbsent (s : State) (c : Castle) : Bool :=
  decide (c.body.role ≠ 2) && c.map.zipIdx.any (fun e => decide ((position s e.1.sourcePos).state = 2) && !c.done.contains e.2)

/-- A BUILD takes the chunks that came before, then its turn; a lost source of any other fails it. -/
def buildBegin (s : State) : State :=
  let s1 := takeEarly s
  match s1.dealer.building with
  | some c => if sourceAbsent s1 c then failBuilding Status.castleSourceLost s1 else castleTurn s1
  | none => s1

/-- The target becomes BUILDING, or READY for ADOPT, which touches no data (R248). -/
def castleBegin (c : Castle) (s : State) : State :=
  let b := c.body
  let base := if b.flags.getLsbD 0 then (match liveSlot s with | some i => (slot s i).base | none => 0xFFFF) else b.base
  let c1 := { c with base := base, map := if b.mode = 0 then mapEntries s b else [] }
  let s0 := if b.mode = 0 then bgObj (obj s b.map.toNat) 0 (32 * b.chunks.toNat) s else s
  let s1 := { s0 with dealer := { s0.dealer with building := some c1 } }
  let s2 := match castleTarget b with
    | some t => setSlot t (fun _ => { state := .building, format := castleFormat s c1, base := base, adapter := b.adapter, version := b.version }) s1
    | none => s1
  if b.mode = 2 then castleBuilt c1 s2
  else if castleShut s1 c1 then failBuilding Status.reset s2
  else if b.mode = 1 then s2
  else buildBegin s2

/-- Whether the target of a castle is HELD, or a LOAD waits for its translation layers (R248 step 3, R421). -/
def castleWaits (s : State) (b : CastleBody) : Bool :=
  (match castleTarget b with | some t => decide ((slot s t).state = .held) | none => false) ||
    (decide (b.mode = 1) && !flashReady s && !(List.range 4).any (fun d => blockShut s (44 + d)))

/-- Read the castle map of a BUILD (R238). -/
def readMap (b : CastleBody) (s : State) : EngineRead :=
  if b.mode = 0 ∧ (mapBytes s b).isSome then engineRead [{ object := b.map.toNat, off := 0, bytes := 32 * b.chunks.toNat }] .clean s
  else .good s

/-- The oldest waiting castle, `t` the others: its checks, once; then its start when its target is free. -/
def castleHead (c : Castle) (t : List Castle) (s : State) : State :=
  let keep (cs : List Castle) (s : State) : State := { s with dealer := { s.dealer with castles := cs } }
  let go (s : State) : State :=
    if castleWaits s c.body then keep ({ c with checked := true } :: t) s else castleBegin { c with checked := true } (keep t s)
  if c.checked then go s
  else match castleFault1 s c.body with
  | some st => finish c.ticket st (keep t s)
  | none =>
    match readMap c.body s with
    | .waits s1 => s1
    | .fails st s1 => finish c.ticket st (keep t s1)
    | .good s1 =>
      match castleFault2 s1 c.body with
      | some st => finish c.ticket st (keep t s1)
      | none => go s1

/-- CASTLE_START: the running castle goes on, or the oldest waiting one starts, once every earlier castle has been
applied or has failed (R248). -/
def castleStep (s : State) : State :=
  if s.dealer.building.isSome then castleTurn s
  else if s.dealer.castlePending.isSome then s
  else match s.dealer.castles with
    | [] => s
    | c :: t => castleHead c t s

def execCastleStart (s : State) : Out := .next (castleStep s)

/-- CASTLE_CHUNK: a chunk of a castle that has not started yet is kept (R252); without data where the sender has no good copy of its source. -/
def execCastleChunk (castleId : W64) (index : Nat) (crc : W64) (flagged : Nat) (data : Option (List Byte)) (s : State) : Out :=
  let x : Chunk :=
    { castleId := castleId, index := index, crc := crc, flagged := flagged, lost := data.isNone, data := data.getD [] }
  .next (match s.dealer.building with
    | some c => if c.body.castleId = castleId then takeChunk x s
        else { s with dealer := { s.dealer with earlyChunks := s.dealer.earlyChunks ++ [x] } }
    | none => { s with dealer := { s.dealer with earlyChunks := s.dealer.earlyChunks ++ [x] } })

/-- The castle of an identity whose own chunk i this module sent, with the entry. -/
def sentEntry (castleId : W64) (i : Nat) (s : State) : Option (Castle × MapEntry) :=
  s.dealer.lastSent.bind (fun c => (c.map[i]?).bind (fun e =>
    if c.body.castleId = castleId ∧ some e.sourcePos = ownPos s then some (c, e) else none))

/-- CASTLE_CHUNK_REREQUEST: the sender sends the chunk again to the module that asked (R252). -/
def execCastleChunkRerequest (castleId : W64) (index : Nat) (node : BitVec 15) (s : State) : Out :=
  .next (match sentEntry castleId index s with
    | none => s
    | some (c, e) =>
      match readShard e s with
      | .good s1 => emit (.chunk (makeChunk s1 c index e) node) s1
      | .waits s1 => s1
      | .fails _ s1 => emit (.chunk (lostChunk c index) node) s1)

end Sys2Proof.Machine
end

