-- ==== Sys2Proof/Machine/Checkpoint.lean ====
section
/-! DEFINITION. Checkpoints, restores and snapshots with what buddies and peers serve of them (sections 10.8, 12.5, 12.6). -/

namespace Sys2Proof.Machine

/-- A tier-2 object whose declared size holds `n` bytes. -/
def flashHolds (s : State) (o : W16) (n : Nat) : Bool :=
  (obj s o.toNat).inFlash &&
    (match flashObj s (obj s o.toNat) with | some x => decide (n ≤ x.size.toNat) | none => false)

/-- The durable length of a tier-2 object. -/
def flashLen (s : State) (o : W16) : Nat := (match flashObj s (obj s o.toNat) with | some x => x.data.length | none => 0)

/-- The module's logical position, 0xFFFF when it has none. -/
def ownPosCode (s : State) : Nat := (ownPos s).getD 0xFFFF

/-! ### The layout of a checkpoint (Table 12.5) -/

/-- Offset of each object's data: multiples of 65,536 B, in list order. -/
def dataOffsets : Nat → List Nat → List Nat
  | _, [] => []
  | o, n :: t => alignUp 65536 o :: dataOffsets (alignUp 65536 o + n) t

/-- LENGTH: the bytes before the trailer, of objects of the given sizes. -/
def ckptLength (sizes : List Nat) : Nat :=
  (dataOffsets (0x100 + 32 * sizes.length) sizes).zip sizes |>.foldl (fun a e => max a (e.1 + e.2)) (0x100 + 32 * sizes.length)

/-- MODEL_ID of a loaded book, 0 with none. -/
def modelIdOf : Option Book → Nat
  | some b => b.modelId.toNat
  | none => 0

/-- The header. -/
def ckptHeader (s : State) (step : W64) (n dataBytes : Nat) : List Byte :=
  leBytes 4 0x4B484331 ++ leBytes 2 1 ++ leBytes 1 (ownCopy s) ++ leBytes 1 0 ++ leBytes 8 step.toNat ++
    leBytes 4 (epochOf s).toNat ++ leBytes 2 (ownPosCode s) ++ leBytes 2 n ++ leBytes 8 s.unlia.posDigest.toNat ++
    leBytes 4 (modelIdOf s.dealer.learnBook) ++ leBytes 4 0 ++ leBytes 8 dataBytes ++
    List.replicate 208 0

/-- An object entry. -/
def ckptEntry (id : Nat) (o : Obj) (off : Nat) (data : List Byte) : List Byte :=
  leBytes 2 id ++ leBytes 1 o.attr.toNat ++ leBytes 1 0 ++ leBytes 4 o.version.toNat ++ leBytes 8 o.len ++ leBytes 8 off ++
    leBytes 8 (crc64 data).toNat

/-- The trailer of the bytes before it. -/
def ckptTrailer (step : W64) (bs : List Byte) : List Byte :=
  leBytes 4 0x4B484354 ++ leBytes 2 1 ++ leBytes 2 0 ++ leBytes 8 step.toNat ++ leBytes 8 bs.length ++ List.replicate 40 0 ++
    shake256 64 bs

/-- A whole checkpoint of the listed objects. -/
def ckptImage (s : State) (step : W64) (ids : List Nat) : List Byte :=
  let sizes := ids.map (fun i => (obj s i).len)
  let offs := dataOffsets (0x100 + 32 * ids.length) sizes
  let data := ids.map (fun i => objBytes s (obj s i) 0 (obj s i).len)
  let entries := (ids.zip (offs.zip data)).map (fun e => ckptEntry e.1 (obj s e.1) e.2.1 e.2.2)
  let head := ckptHeader s step ids.length (sizes.foldl (· + ·) 0) ++ entries.flatten
  let bs := (offs.zip data).foldl (fun bs e => padTo e.1 bs ++ e.2) head
  bs ++ ckptTrailer step bs

/-! ### CHECKPOINT (R374) -/

/-- Fields in range and reserved fields 0. STOP uses no field but MODE. -/
def ckptFormatOk (b : CkptBody) : Bool :=
  !b.reserved && decide (b.mode.toNat ≤ 2) && decide (b.flags.toNat ≤ 1) &&
    (decide (b.mode = 2) || (decide (1 ≤ b.objCount.toNat ∧ b.objCount.toNat ≤ 256) &&
      (decide (b.buddyPos = 0xFFFF) || decide (b.buddyPos.toNat < 16384)) &&
      (decide (b.mode = 0) || decide (1 ≤ b.period.toNat))))

/-- The tier-2 objects that a command names. -/
def ckptFlash (b : CkptBody) : List W16 :=
  [b.targetA, b.targetB] ++ (if b.flags.getLsbD 0 then [b.logA, b.logB] else [])

/-- The listed objects, the list, the targets and the logs are what R374 asks. -/
def ckptObjectsOk (s : State) (b : CkptBody) : Bool :=
  let l := obj s b.list.toNat
  let ids := ckptList s b
  let need := ckptLength (ids.map (fun i => (obj s i).len)) + 128
  l.inMem && decide (l.poison = .clean) && decide (2 * b.objCount.toNat ≤ l.len) &&
    ids.all (fun i => (obj s i).valid && decide ((obj s i).tier = 1) && decide ((obj s i).poison = .clean) && (obj s i).training) &&
    flashHolds s b.targetA need && flashHolds s b.targetB need &&
    (!b.flags.getLsbD 0 || (flashHolds s b.logA 65536 && flashHolds s b.logB 65536)) &&
    noRepeat ((ckptFlash b).map (fun o => o.toNat)) && noRepeat ((ckptFlash b).map (fun o => (obj s o.toNat).address.toNat))

/-- A new command takes the place of the one in force. A PERIODIC command that has still to complete is discarded; a ONCE command keeps its
due checkpoint (R374). -/
def endOldCkpt (s : State) : State :=
  match s.conceal.ckpt with
  | some (t, b) =>
    if ¬s.conceal.ckptFirst then s
    else if b.mode = 0 then { s with conceal := { s.conceal with onces := s.conceal.onces ++ [(t, b)] } }
    else finish t Status.flushed s
  | none => s

/-- The command comes into force. -/
def ckptStart (b : CkptBody) (t : Ticket) (s : State) : State :=
  if b.mode ≠ 2 ∧ ¬ckptObjectsOk s b then finish t Status.objectFormat s
  else
    let s1 := flushLog (endOldCkpt s)
    if b.mode = 2 then
      finish t Status.ok { s1 with conceal := { s1.conceal with ckpt := none, ckptFirst := false, ckptDue := false, optCount := 0 } }
    else
      { s1 with conceal := { s1.conceal with
          ckpt := some (t, b), ckptFirst := true, ckptDue := decide (b.mode = 0), optCount := 0, ckptTaken := false,
          logCurrent := false, logCount := BitVec.ofNat 32 (if b.flags.getLsbD 0 then flashLen s1 b.logA / 64 else 0) } }

def checkpointBody (h : Hdr) (b : CkptBody) (t : Ticket) (s : State) : State :=
  if ¬ckptFormatOk b then finish t Status.ckptFormat s
  else if b.mode = 2 then ckptStart b t s
  else whenFlash t (.checkpoint t.q h b) (ckptStart b t) s

def takeCheckpointCmd (q : Nat) (h : Hdr) (b : CkptBody) : State → State := takeCmd q h true always (checkpointBody h b)

/-- CHECKPOINT: it completes when the first checkpoint that it starts commits, STOP at once. -/
def execCheckpoint (q : Nat) (h : Hdr) (b : CkptBody) (s : State) : Out := withUnit q 256 s (takeCheckpointCmd q h b)

/-- Send the same bytes to the buddy, whose answer says whether it has committed (R376). -/
def sendBuddy (b : CkptBody) (bs : List Byte) (s : State) : State :=
  let s1 := { s with conceal := { s.conceal with buddyOk := false, buddySent := decide (b.buddyPos ≠ 0xFFFF) } }
  if b.buddyPos = 0xFFFF then s1
  else emit (.bulk b.buddyPos Msg.buddyData (leBytes 2 b.buddyA.toNat ++ leBytes 2 b.buddyB.toNat ++ bs)) s1

/-- The parts of objects that a checkpoint reads. -/
def CkptJob.spans (s : State) (j : CkptJob) : List ReadSpan := j.reading.map (fun o => { object := o, off := 0, bytes := (obj s o).len })

/-- The oldest checkpoint ends without a commit, or with one; the next one's writing begins. -/
def endJob (j : CkptJob) (status : Byte) (s : State) : State := startJob (finishOpt j.ticket status s)

/-- CHECKPOINT_COMMIT: every listed object has been read, and the trailer is durable with a matching DIGEST (R376, R377). A line that is bad
is repaired first, and a poisoned object ends the command instead (R238), as a WORN layer does (R231). -/
def ckptCommit (s : State) : State :=
  match s.conceal.jobs with
  | [] => s
  | j :: rest =>
    let done (s : State) : State := { s with conceal := { s.conceal with jobs := rest } }
    match engineRead (j.spans s) .clean s with
    | .waits s1 => s1
    | .fails st s1 => endJob j st (done s1)
    | .good s0 =>
      if flashWorn s then endJob j Status.flashWorn (done s0)
      else
        let bs := ckptImage s j.step j.reading
        let target := j.target.getD false
        let s2 := sendBuddy j.body bs (appendFlash (if target then j.body.targetB else j.body.targetA).toNat bs
          (j.reading.foldl (fun s i => bgObj (obj s i) 0 (obj s i).len s) (done s0)))
        endJob j Status.ok (flushLog { s2 with conceal := { s2.conceal with
          commits := s2.conceal.commits + 1, lastTarget := target, ckptStep := j.step, ckptPrevDone := true } })

def execCheckpointCommit (s : State) : Out := .next (ckptCommit s)

/-! ### The buddy (R376, R379) -/

/-- The target here that receives a checkpoint of another module: the one that is open, else the one that does not hold its last
committed checkpoint (R376). -/
def buddyTarget (s : State) (a b : W16) : W16 :=
  if s.conceal.buddyOpen.contains a.toNat then a
  else if s.conceal.buddyOpen.contains b.toNat then b
  else if lastCommitted s a b = some false then b else a

/-- BUDDY_CKPT_DATA: bytes of another module's checkpoint for the targets A and B here. The first piece resets the target; the last is
acknowledged when the target then holds a committed checkpoint. -/
def buddyData (node : BitVec 15) (a b : W16) (data : List Byte) (last : Bool) (s : State) : State :=
  let target := buddyTarget s a b
  let o := target.toNat
  let open_ := s.conceal.buddyOpen.contains o
  let s1 := if open_ then s else truncateFlash o s
  let shut (s : State) : State := { s with conceal := { s.conceal with buddyOpen := s.conceal.buddyOpen.filter (fun x => decide (x ≠ o)) } }
  if ¬flashHolds s1 target (flashLen s1 target + data.length) ∨ flashWorn s1 ∨ ¬flashReady s1 then
    emit (.bulkNode node Msg.refused (leBytes 2 o)) (shut s1)
  else
    let s2 := appendFlash o data s1
    if last then
      emit (.bulkNode node (if ckptCommitted (objBytes s2 (obj s2 o) 0 (flashLen s2 target)) then Msg.buddyCommit else Msg.refused) (leBytes 2 o))
        (shut s2)
    else if open_ then s2
    else { s2 with conceal := { s2.conceal with buddyOpen := s2.conceal.buddyOpen ++ [o] } }

def execBuddyCkptData (node : BitVec 15) (targets : W16 × W16) (data : List Byte) (trailer : Bool) (s : State) : Out :=
  .next (buddyData node targets.1 targets.2 data trailer s)

/-- BUDDY_COMMIT_ACK: BUDDY_OK takes the buddy's answer; a buddy failure does not fail the local checkpoint. -/
def execBuddyCommitAck (ok : Bool) (s : State) : Out :=
  .next (if s.conceal.buddySent then { s with conceal := { s.conceal with buddyOk := ok, buddySent := false } } else s)

/-- BUDDY_LOG_UNIT: a log unit of another module is appended; `reset` starts the log anew (R379). -/
def execBuddyLogUnit (target : W16) (reset : Bool) (data : List Byte) (s : State) : Out :=
  .next (
    let s1 := if reset then truncateFlash target.toNat s else s
    if flashHolds s1 target (flashLen s1 target + data.length) ∧ ¬flashWorn s1 ∧ flashReady s1 then appendFlash target.toNat data s1
    else s1)

/-- LOG_UNIT_APPEND: a unit is full, or 100,000 ticks have passed since the last append (R380). -/
def execLogUnitAppend (s : State) : Out :=
  .next (if 1024 ≤ s.conceal.logBuffer.length ∨ (s.conceal.logBuffer ≠ [] ∧ 100000 ≤ (s.tick - s.conceal.logTick).toNat) then flushLog s
    else s)

/-! ### RESTORE (R378) -/

/-- LOCAL_LOG receives a log: valid tier 2, of length 0. -/
def localLogOk (s : State) (b : RestoreBody) : Bool :=
  decide (b.logObject = 0xFFFF) || (flashHolds s b.localLog 0 && decide (flashLen s b.localLog = 0))

/-- The restore starts: a peer is asked for its checkpoint and its log. -/
def restoreStart (b : RestoreBody) (t : Ticket) (s : State) : State :=
  if ¬localLogOk s b ∨ (b.source = 0 ∧ ¬(obj s b.object.toNat).inFlash) then finish t Status.objectFormat s
  else if b.logObject ≠ 0xFFFF ∧ flashWorn s then finish t Status.flashWorn s
  else
    let s1 := { s with conceal := { s.conceal with restores := s.conceal.restores ++ [(t, b)] } }
    let s2 := if b.source = 1 then emit (.bulk b.peerPos Msg.restoreRead (leBytes 2 b.object.toNat ++ [0])) s1 else s1
    if b.logObject ≠ 0xFFFF then emit (.bulk b.peerPos Msg.restoreRead (leBytes 2 b.logObject.toNat ++ [1])) s2 else s2

def restoreBodyRun (h : Hdr) (b : RestoreBody) (t : Ticket) (s : State) : State :=
  if s.dealer.phase ≠ .idle then finish t Status.notIdle s
  else if 2 ≤ b.source.toNat then finish t Status.entryFormat s
  else if b.source = 0 ∨ b.logObject ≠ 0xFFFF then whenFlash t (.restore t.q h b) (restoreStart b t) s
  else restoreStart b t s

def takeRestore (q : Nat) (h : Hdr) (b : RestoreBody) : State → State := takeCmd q h true always (restoreBodyRun h b)

/-- RESTORE: the restores that are outstanding end in the order in which they started. -/
def execRestore (q : Nat) (h : Hdr) (b : RestoreBody) (s : State) : Out := withUnit q 256 s (takeRestore q h b)

/-- The object entries of a checkpoint: ID, size, data offset, CRC-64. -/
def ckptEntries (bs : List Byte) : List (Nat × Nat × Nat × Nat) :=
  (List.range (fieldAt bs 22 2)).map (fun i =>
    let o := 0x100 + 32 * i
    (fieldAt bs o 2, fieldAt bs (o + 8) 8, fieldAt bs (o + 16) 8, fieldAt bs (o + 24) 8))

/-- A listed object as a restore may write it: not one with RO_SHARED (R224). -/
def restorable (s : State) (e : Nat × Nat × Nat × Nat) : Bool :=
  let o := obj s e.1
  o.valid && decide (o.tier = 1) && o.training && !o.roShared && decide (o.len = e.2.1)

/-- The first failing check of a restore. -/
def restoreFault (s : State) (b : RestoreBody) (bs log : List Byte) : Option Byte :=
  if ¬ckptCommitted bs then some Status.ckptDigest
  else if b.step ≠ 0 ∧ fieldAt bs 8 8 ≠ b.step.toNat then some Status.ckptStep
  else if BitVec.ofNat 32 (fieldAt bs 16 4) ≠ (epochOf s) then some Status.epochMismatch
  else if ¬(ckptEntries bs).all (restorable s) then some Status.objectFormat
  else if ¬(ckptEntries bs).all (fun e => decide ((crc64 (part bs e.2.2.1 e.2.1)).toNat = e.2.2.2)) then some Status.ckptDigest
  else if b.logObject ≠ 0xFFFF ∧ ¬flashHolds s b.localLog log.length then some Status.objectFormat
  else none

/-- RESTORE_DONE of the oldest restore: the checkpoint has been read, from flash or from the peer (`peerData`), with the peer's log; `refused` is the
peer's answer REFUSED. A failed restore leaves the listed objects' data undefined. -/
def restoreFinish (peerData peerLog : List Byte) (refused : Bool) (s : State) : State :=
  match s.conceal.restores with
  | [] => s
  | (t, b) :: rest =>
    let s0 := { s with conceal := { s.conceal with restores := rest } }
    let bs := if b.source = 0 then objBytes s (obj s b.object.toNat) 0 (flashLen s b.object) else peerData
    match (if refused then some Status.ckptDigest else restoreFault s b bs peerLog) with
    | some st => finish t st ((((ckptEntries bs).filter (restorable s)).map (fun e => e.1)).foldl (fun s o => undefineObject o s) s0)
    | none =>
      let s1 := (ckptEntries bs).foldl (fun s e => storeBg (obj s e.1).base (part bs e.2.2.1 e.2.1) s) s0
      let s2 := { s1 with
        dealer := { s1.dealer with stepNumber := BitVec.ofNat 64 (fieldAt bs 8 8) }
        conceal := { s1.conceal with localLog := if b.logObject = 0xFFFF then 0xFFFF else b.localLog } }
      finish t Status.ok (if b.logObject = 0xFFFF then s2 else appendFlash b.localLog.toNat peerLog s2)

def execRestoreDone (peerData peerLog : List Byte) (refused : Bool) (s : State) : Out := .next (restoreFinish peerData peerLog refused s)

/-- PEER_CKPT_READ: a peer asks for a checkpoint, or for a log; only a valid tier-2 object serves, and for a checkpoint only a
committed one. -/
def execPeerCkptRead (node : BitVec 15) (object : W16) (log : Bool) (s : State) : Out :=
  .next (
    let o := obj s object.toNat
    let bs := objBytes s o 0 (flashLen s object)
    if o.inFlash ∧ flashReady s ∧ (log ∨ ckptCommitted bs) then emit (.bulkNode node Msg.restoreData bs) s
    else emit (.bulkNode node Msg.refused (leBytes 2 object.toNat)) s)

/-! ### SNAPSHOT (R318, R403) -/

/-- The members of a slot, base first. -/
def Slot.members (x : Slot) : List Nat := x.base.toNat :: (if x.adapter = 0xFFFF then [] else [x.adapter.toNat])
def slotMembers (s : State) (i : Nat) : List Nat := (slot s i).members

/-- The image of a slot: its members' bytes, contiguously. -/
def membersImage (s : State) (x : Slot) : List Byte := (x.members.map (fun o => objBytes s (obj s o) 0 (obj s o).len)).flatten
def slotImage (s : State) (i : Nat) : List Byte := membersImage s (slot s i)

/-- The manifest of slot i as the snapshot found it (Table 10.4). -/
def snapshotManifest (s : State) (i : Nat) (x : Slot) (step : W64) (image : List Byte) : List Byte :=
  leBytes 4 0x4B485331 ++ leBytes 2 1 ++ leBytes 1 i ++ leBytes 1 x.format ++ leBytes 4 x.version.toNat ++
    leBytes 4 (epochOf s).toNat ++ leBytes 4 (modelIdOf s.dealer.genBook) ++ leBytes 4 0 ++
    leBytes 8 (obj s x.base.toNat).len ++ leBytes 8 (if x.adapter = 0xFFFF then 0 else (obj s x.adapter.toNat).len) ++
    leBytes 8 step.toNat ++ leBytes 2 (ownPosCode s) ++ List.replicate 14 0 ++ shake256 64 image ++ List.replicate 128 0

/-- A slot that holds a copy. -/
def slotUsable (x : Slot) : Bool :=
  match x.state with
  | .empty | .building => false
  | _ => true

def snapshotStart (b : SnapshotBody) (t : Ticket) (s : State) : State :=
  let i := b.slot.toNat
  let fresh (o : W16) (n : Nat) : Bool := flashHolds s o n && decide (flashLen s o = 0)
  if ¬slotUsable (slot s i) ∨ ¬fresh b.image (slotImage s i).length ∨ ¬fresh b.manifest 256 ∨ b.image = b.manifest then
    finish t Status.objectFormat s
  else if flashWorn s then finish t Status.flashWorn s
  else { s with conceal := { s.conceal with
    snapshots := s.conceal.snapshots ++ [{ ticket := t, body := b, step := s.dealer.stepNumber, slot := slot s i }] } }

def snapshotBodyRun (h : Hdr) (b : SnapshotBody) (t : Ticket) (s : State) : State :=
  if 2 ≤ b.slot.toNat ∨ 2 ≤ b.flags.toNat then finish t Status.entryFormat s
  else whenFlash t (.snapshot t.q h b) (snapshotStart b t) s

def takeSnapshot (q : Nat) (h : Hdr) (b : SnapshotBody) : State → State := takeCmd q h true always (snapshotBodyRun h b)

/-- SNAPSHOT: while it runs it holds a reader reference on each member; snapshots end in the order in which they started. -/
def execSnapshot (q : Nat) (h : Hdr) (b : SnapshotBody) (s : State) : Out := withUnit q 256 s (takeSnapshot q h b)

/-- The parts of objects that a snapshot reads. -/
def SnapJob.spans (s : State) (j : SnapJob) : List ReadSpan := j.slot.members.map (fun o => { object := o, off := 0, bytes := (obj s o).len })

/-- SNAPSHOT_DURABLE of the oldest snapshot: image and manifest are durable, and the peer has answered when exported. A member line with
no good copy ends it (R318, R238). -/
def snapshotEnd (peerRefused : Bool) (s : State) : State :=
  match s.conceal.snapshots with
  | [] => s
  | j :: rest =>
    let done (s : State) : State := { s with conceal := { s.conceal with snapshots := rest } }
    match engineRead (j.spans s) .clean s with
    | .waits s1 => s1
    | .fails st s1 => finish j.ticket st (done s1)
    | .good s0 =>
      let b := j.body
      let img := membersImage s j.slot
      let man := snapshotManifest s (b.slot.toNat % 2) j.slot j.step img
      let s1 := appendFlash b.manifest.toNat man (appendFlash b.image.toNat img
        (j.slot.members.foldl (fun s o => bgObj (obj s o) 0 (obj s o).len s) (done s0)))
      if b.flags.getLsbD 0 then
        finish j.ticket (if peerRefused then Status.objectFormat else Status.ok)
          (emit (.bulk b.peerPos Msg.snapshotData (leBytes 2 b.peerImage.toNat ++ leBytes 2 b.peerManifest.toNat ++ img ++ man)) s1)
      else finish j.ticket Status.ok s1

def execSnapshotDurable (peerRefused : Bool) (s : State) : Out := .next (snapshotEnd peerRefused s)

/-- SNAPSHOT_EXPORT: a peer's snapshot is appended to the objects named here, or refused. -/
def execSnapshotExport (node : BitVec 15) (image manifest : W16) (imageData manifestData : List Byte) (s : State) : Out :=
  .next (
    let fresh (o : W16) (n : Nat) : Bool := flashHolds s o n && decide (flashLen s o = 0)
    if fresh image imageData.length ∧ fresh manifest manifestData.length ∧ image ≠ manifest ∧ ¬flashWorn s ∧ flashReady s then
      emit (.bulkNode node Msg.snapshotAck (leBytes 2 image.toNat))
        (appendFlash manifest.toNat manifestData (appendFlash image.toNat imageData s))
    else emit (.bulkNode node Msg.refused (leBytes 2 image.toNat)) s)

end Sys2Proof.Machine
end

