-- ==== Sys2Proof/Machine/Admit.lean ====
section
/-! DEFINITION. The commands ADMIT, CANCEL and PAGE_MOVE, and the end of a page move (sections 9.2 and 9.4). -/

namespace Sys2Proof.Machine

def takeAdmit (q : Nat) (h : Hdr) (b : AdmitBody) : State → State := takeCmd q h false always (reqOp (.admitEntry q h b))

/-- ADMIT. -/
def execAdmitEntry (q : Nat) (h : Hdr) (b : AdmitBody) (s : State) : Out := withUnit q 256 s (takeAdmit q h b)

def takeCancel (q : Nat) (h : Hdr) (entry : W16) (key : W32) : State → State :=
  takeCmd q h false always (reqOp (.cancel q h entry key))

/-- CANCEL: it completes when a boundary has ended the entry. -/
def execCancel (q : Nat) (h : Hdr) (entry : W16) (key : W32) (s : State) : Out := withUnit q 256 s (takeCancel q h entry key)

def takePageMove (q : Nat) (h : Hdr) (b : PageMoveBody) : State → State := takeCmd q h false always (reqOp (.pageMove q h b))

/-- PAGE_MOVE: outstanding until PAGE_MOVE_DONE. -/
def execPageMove (q : Nat) (h : Hdr) (b : PageMoveBody) (s : State) : Out := withUnit q 256 s (takePageMove q h b)

/-- Copy one page's share on every die and rewrite its TIER and FRAME. -/
def movePage (p tier frame : Nat) (s : State) : State :=
  let x := page s p
  let s1 := (List.range 4).foldl (fun s d =>
    let to_ := pagePlace s d p tier frame
    let from_ := pagePlace s d p x.tier x.frame
    let n := frameShareBytes s
    writeObj to_.1 to_.2 (readPiece s (some from_, n))
      (bgObj (obj s from_.1) from_.2 n (bgObj (obj s to_.1) to_.2 n s))) s
  setPage p (fun x => { x with tier := tier, frame := if tier = 1 then 0 else frame }) s1

/-- The pages that a page move names. -/
def movedPages (s : State) (b : PageMoveBody) : List Nat := ((entryPages s b.entry.toNat).drop b.first.toNat).take b.count.toNat

/-- The shares that a page move reads, on every die. -/
def moveSpans (s : State) (ps : List Nat) : List ReadSpan :=
  (ps.map (fun p => (List.range 4).map (fun d =>
    let x := pagePlace s d p (page s p).tier (page s p).frame
    ({ object := x.1, off := x.2, bytes := frameShareBytes s } : ReadSpan)))).flatten

/-- The pages are copied, and the entry may be dealt again. -/
def movePages (b : PageMoveBody) (more : Bool) (s : State) : State :=
  let s1 := (movedPages s b).zipIdx.foldl (fun s e => movePage e.1 b.tier.toNat (b.frame.toNat + e.2) s) s
  wake (setRequest b.entry.toNat (fun r => { r with moving := more }) s1)

/-- PAGE_MOVE_DONE: the oldest page move of the entry ends. An entry that has ended meanwhile moves no page. The shares are read as every
engine command's source is (R210, R238). -/
def pageMoveEnd (entry : Nat) (ecc : Ecc) (s : State) : State :=
  let mine (e : Nat × Op) : Option (Nat × Ticket × PageMoveBody) := match e.2 with
    | .pageMove t b => if b.entry.toNat = entry then some (e.1, t, b) else none
    | _ => none
  match s.host.ops.filterMap mine with
  | [] => s
  | (id, t, b) :: rest =>
    let r := request s entry
    if ¬holdsEnd r ∨ r.key ≠ b.key ∨ r.pages < b.first.toNat + b.count.toNat then finish t Status.entryState (dropOp id s)
    else match engineRead (moveSpans s (movedPages s b)) ecc s with
    | .waits s1 => s1
    | .fails st s1 => failOp id st s1
    | .good s1 => finish t Status.ok (movePages b (!rest.isEmpty) (dropOp id s1))

def execPageMoveDone (x : PageMoveRead) (s : State) : Out := .next (pageMoveEnd x.entry x.ecc s)

end Sys2Proof.Machine
end

