-- ==== Sys2Proof/Machine/Streams.lean ====
section
/-! DEFINITION. Streams as the memory controllers serve them: completion, re-reads, and the background slots of a frame (R151,
R192, R195, R209, R217, R253). -/

namespace Sys2Proof.Machine

/-! ### STREAM_COMPLETE -/

/-- The parts of a stream that lie in LPDDR5X (R276 for a page stream). -/
def opParts (s : State) (x : StreamOp) : List (Nat × Nat × Nat) :=
  match s.dealer.run with
  | some r => streamParts s r x.prog x.dram x.bytes
  | none => []

/-- The lines that a stream touches. -/
def opLines (s : State) (x : StreamOp) : List Nat := ((opParts s x).map (fun y => rangeLines y.2.1 y.2.2)).flatten

/-- The completion of a stream leaves for its wait point: the programs of CMASK on any die (R151, R182). -/
def streamEnds (op : Nat) (x : StreamOp) (s : State) : State :=
  let s1 := dropOp op s
  match s1.dealer.run with
  | some r =>
    if r.stopped then s1
    else addOp (.ext (dieOf x.prog) .mc (maskProgs x.cmask 0) x.wp 1 x.segs x.failed (some x.prog)) s1
  | none => s1

/-- Data moves only for a step that goes on. -/
def stepRuns (s : State) : Bool :=
  match s.dealer.run with
  | some r => !r.stopped
  | none => false

/-- A stream that was issued before to one of the same ports has still to be served there (R192). -/
def streamBehind (s : State) (op : Nat) (x : StreamOp) : Bool :=
  s.host.ops.any (fun e => match e.2 with
    | .stream y => decide (e.1 < op) && !y.served && y.ports.any (fun m => x.ports.contains m)
    | _ => false)

/-- The refetch of a line for a stream begins at an ac, where the line has a source (R196). -/
def refetch (op k kind ac : Nat) (s : State) : State :=
  let s1 := poisonedLine k (some op) (lineFailed k kind s)
  if lineInRepair s1 k then
    setStream op (fun x => { x with awaits := x.awaits ++ [k], segs := x.segs ++ [{ cause := 8, first := ac, past := none }] }) s1
  else s1

/-- The last slot of a STREAM_IN has passed: its data reaches SRAM through the fill ports (R209). A line with POISON = 1 is not re-read
(R216). -/
def serveIn (op : Nat) (x : StreamOp) (corrected : List Nat) (s : State) : State :=
  let ks := opLines s x
  let ac := match s.dealer.run with | some r => r.nowAc | none => 0
  let s1 := (corrected.filter (fun k => ks.contains k)).foldl (fun s k => lineCorrected k s) s
  let s2 := match s.dealer.run with
    | some r => if x.failed ∨ r.stopped then s1 else fillWrite x.sram (streamBytes s r x.prog x.dram x.bytes) s1
    | none => s1
  let s3 := setStream op (fun y => { y with served := true }) s2
  if x.failed ∨ ¬stepRuns s then s3
  else ((badLines s ks).filter (fun b => decide (b.2 = 3))).foldl (fun s b => refetch op b.1 b.2 ac s) s3

/-- The data of the lines that a stream had to await: delivered once they are repaired. -/
def fillRepaired (x : StreamOp) (s : State) : State :=
  if x.failed ∨ ¬stepRuns s then s
  else ((opParts s x).filter (fun y => (rangeLines y.2.1 y.2.2).any (fun k => x.awaits.contains k))).foldl
    (fun s y => fillWrite (x.sram + y.1) (readBytes s.tiers.mem y.2.1 y.2.2) s) s

/-- A served STREAM_IN ends when no line of it is awaited any more. -/
def endIn (op : Nat) (s : State) : State :=
  match opAt s op with
  | some (.stream x) =>
    if x.served ∧ (x.failed ∨ ¬stepRuns s ∨ ¬x.awaits.any (lineInRepair s)) then streamEnds op x (fillRepaired x s) else s
  | _ => s

/-- Lines of a stream whose stored tag is not the expected one: each must fail a re-read first (R195, R215). -/
def rereadDue (s : State) (x : StreamOp) : Bool :=
  stepRuns s && !x.failed && (badLines s (opLines s x)).any (fun b => decide (b.2 ≠ 3) && !x.reread.contains b.1)

/-- The last slot of a STREAM_OUT: the lines are written with their tags. -/
def streamOutDone (op : Nat) (x : StreamOp) (s : State) : State :=
  let s1 := match s.dealer.run with
    | some r => if x.failed ∨ r.stopped then s else streamStore r x.prog x.dram (readBytes s.tiers.mem x.sram x.bytes) s
    | none => s
  streamEnds op x s1

/-- STREAM_COMPLETE: the last slot of a stream passes, in the order of issue on each of its ports (R192); or a served stream has all its
repaired lines. `corrected` lists the lines in which a single bit was corrected. -/
def execStreamComplete (op : Nat) (corrected : List Nat) (s : State) : Out :=
  .next (match opAt s op with
    | some (.stream x) =>
      if x.served then endIn op s
      else if streamBehind s op x then s
      else if x.out then streamOutDone op x s
      else if rereadDue s x then s
      else endIn op (serveIn op x corrected s)
    | _ => s)

/-! ### MEM_REREAD -/

/-- The re-read of a line of a stream that failed its check (R195), pending from one ac to another: clean or corrected, or on to the
poisoned-line path. -/
def memReread (op k : Nat) (raw : RawLine) (acFrom acTo : Nat) (s : State) : State :=
  let s1 := setStream op (fun x => { x with
    reread := x.reread ++ [k], segs := x.segs ++ [{ cause := 1, first := acFrom, past := some acTo }] })
    (setTiers (fun t => { t with reread := bump t.reread (linePort k) 1 }) s)
  match (match storedFault s k with | some i => LineRead.bad i | none => checkLine s k raw) with
  | .clean => s1
  | .corrected => lineCorrected k s1
  | .bad i => refetch op k i acTo s1

/-- MEM_REREAD of port line `line`: once for a line of an outstanding STREAM_IN (R195); a tag that its first
check found wrong is counted. A line with POISON = 1 is not re-read (R216). -/
def execMemReread (op port line : Nat) (raw : RawLine) (acFrom acTo : Nat) (s : State) : Out :=
  withUnit port 12 s (fun s =>
    let k := lineKey port (line % 2 ^ 29)
    match opAt s op with
    | some (.stream x) =>
      if x.out ∨ x.served ∨ x.failed ∨ ¬(opLines s x).contains k ∨ x.reread.contains k ∨ storedFault s k = some 3 ∨
        blockShut s (32 + port) then s
      else memReread op k raw acFrom acTo (match storedFault s k with | some i => lineFailed k i s | none => s)
    | _ => s)

/-! ### FRAME_EDGE -/

/-- Whether background requests wait on a port (R217). -/
def bgWaits (s : State) (m : Nat) : Bool :=
  decide (Tab.get (fun _ => []) s.tiers.corrQueue m ≠ []) || s.tiers.repairs.any (fun r => decide (linePort r.line = m)) ||
    s.host.ops.any (fun e => match e.2 with | .stream _ | .ext .. | .flashWait .. | .repairWait .. => false | o => opNeeds s (32 + m) o) ||
    (match s.dealer.building with | some c => castleNeeds s (32 + m) c | none => false) ||
    s.conceal.jobs.any (fun j => j.reading.any (fun o => onPort (obj s o) m)) ||
    s.conceal.snapshots.any (fun j => onPort (obj s j.slot.base.toNat) m || (decide (j.slot.adapter ≠ 0xFFFF) && onPort (obj s j.slot.adapter.toNat) m)) ||
    [Port.A, Port.B].any (fun p => (portSt s p).barReads.any (fun r => (rangeLines r.addr r.length).any (fun k => decide (linePort k = m))))

/-- The background share at a frame edge: the launch's, or while castling the larger of the castle's and the register's (R218, R253). -/
def frameBgShare (s : State) : Nat :=
  match s.dealer.building with
  | some c => max c.body.share.toNat s.tiers.bgShare.toNat
  | none => s.tiers.bgInForce.toNat

/-- FRAME_EDGE: where streams are queued on the port, waiting background requests take the last 64 × s slots of the frame. -/
def frameEdge (m : Nat) (s : State) : State :=
  if portStreams s m ∧ bgWaits s m then
    setTiers (fun t => { t with bgSlots := bump t.bgSlots m (64 * frameBgShare s) }) s
  else s

def execFrameEdge (port : Nat) (s : State) : Out := withUnit port 12 s (frameEdge port)

end Sys2Proof.Machine
end

