-- ==== Sys2Proof/Machine/Bar2.lean ====
section
/-! DEFINITION. Host accesses through BAR2 (R389 to R391). -/

namespace Sys2Proof.Machine

/-- Whether a port's BAR2 serves an access (R387, R411, R437). -/
def barOpen (s : State) (p : Port) (offset n : Nat) : Bool :=
  (portSt s p).linkUp && !(portSt s p).d3hot && s.resets.mgood && !s.resets.recovery && decide (offset + n ≤ 2 ^ (portSt s p).bar2Log2)

/-- The module address of a BAR2 offset (R389). -/
def barAddr (s : State) (p : Port) (offset : Nat) : Nat := (portSt s p).base.toNat * 2 ^ 30 + offset

/-- Whether the memory port of a module address is closed. -/
def addrShut (s : State) (a : Nat) : Bool :=
  match physOf a with
  | some p => decide (sramEnd ≤ p) && blockShut s (32 + linePort (p / 256))
  | none => false

/-- The bytes of a write, cut at 256-byte lines, with their addresses. -/
def lineParts : Nat → Nat → List Byte → List (Nat × List Byte)
  | 0, _, _ => []
  | fuel + 1, a, bs =>
    if bs = [] then []
    else
      let n := 256 - a % 256
      (a, bs.take n) :: lineParts fuel (a + n) (bs.drop n)

/-- Write one gathered line: refused in an object with RO_SHARED (R224), dropped at a closed port (R427). -/
def barLine (p : Port) (x : Nat × List Byte) (s : State) : State :=
  if roShared s (x.1 / 256 * 256) 256 then setPort p (fun y => { y with refused := y.refused + 1 }) s
  else if addrShut s x.1 then
    match physOf x.1 with
    | some a => setBlock (32 + linePort (a / 256)) (fun y => { y with errors := satInc y.errors }) s
    | none => s
  else storeBg x.1 x.2 s

/-- BAR2_WRITE. -/
def bar2Write (p : Port) (offset : Nat) (data : List Byte) (s : State) : State :=
  if barOpen s p offset data.length then
    (lineParts (data.length + 1) (barAddr s p offset) data).foldl (fun s x => barLine p x s) s
  else s

def execBar2Write (port : Port) (offset : Nat) (data : List Byte) (s : State) : Out := .next (bar2Write port offset data s)

/-- The lines of a range that are uncorrectable and have no good data, with their KIND: by their stored check, and the first where `bad`
says that it is, after its re-read. -/
def barFaults (s : State) (a n : Nat) (bad : Bool) : List (Nat × Nat) :=
  let stored := badLines s (rangeLines a n)
  match bad, (rangeLines a n).head? with
  | true, some k => if stored.any (fun x => decide (x.1 = k)) then stored else (k, 1) :: stored
  | _, _ => stored

/-- BAR2_READ: `bad` says that the first line is uncorrectable after its re-read. -/
def bar2Read (p : Port) (offset n : Nat) (bad : Bool) (s : State) : State :=
  if ¬barOpen s p offset n then s
  else
    let a := barAddr s p offset
    if addrShut s a then emit (.abort p) s
    else if (objectsIn s a n).any (fun e => decide (e.2.poison = .poisoned)) then emit (.barData p (readBytes s.tiers.mem a n) true) (bgTouch a n s)
    else
      let wait (s : State) : State := setPort p (fun x => { x with barReads := x.barReads ++ [{ addr := a, length := n, since := s.tick }] }) s
      match (barFaults s a n bad).filter (fun x => !lineInRepair s x.1) with
      | [] => if (rangeLines a n).any (lineInRepair s) then wait (bgTouch a n s)
          else emit (.barData p (readBytes s.tiers.mem a n) false) (bgTouch a n s)
      | xs => xs.foldl (fun s x => badRead none x.1 x.2 s) (wait (bgTouch a n s))

def execBar2Read (port : Port) (offset length : Nat) (bad : Bool) (s : State) : Out := .next (bar2Read port offset length bad s)

/-- BAR2_READ_TIMEOUT: 10 ms have passed since the port's oldest waiting read. -/
def bar2ReadTimeout (p : Port) (s : State) : State :=
  match (portSt s p).barReads with
  | [] => s
  | r :: rest =>
    if s.tick - r.since < 10000 then s
    else emit (.barData p (readBytes s.tiers.mem r.addr r.length) true) (setPort p (fun x => { x with barReads := rest }) s)

def execBar2ReadTimeout (port : Port) (s : State) : Out := .next (bar2ReadTimeout port s)

end Sys2Proof.Machine
end

