-- ==== Sys2Proof/Machine/Take.lean ====
section
/-! DEFINITION. COMMAND_TAKE: the 64 bytes of a descriptor as read from the submission ring, and the command they spell
(R395, R396, R399, Tables 13.5 to 13.11, 8.2, 11.7, 11.9, 12.4). -/

namespace Sys2Proof.Machine

/-- A field of the descriptor as a bit vector. -/
def bvAt (w : Nat) (d : List Byte) (o n : Nat) : BitVec w := BitVec.ofNat w (fieldAt d o n)

/-- The header (Table 13.5). -/
def hdrOf (d : List Byte) : Hdr :=
  let f := fieldAt d 1 1
  { wait := f.testBit 0, done := f.testBit 1, irq := f.testBit 2, waitMark := bvAt 12 d 2 2, doneMark := bvAt 12 d 4 2,
    tag := bvAt 16 d 6 2, waitValue := bvAt 64 d 8 8 }

/-- No reserved bit of the header is set. -/
def hdrOk (d : List Byte) : Bool :=
  decide (fieldAt d 1 1 < 8) && decide (fieldAt d 2 2 < 4096) && decide (fieldAt d 4 2 < 4096)

/-- PLACE: entry bytes 0x00 to 0x1F at bytes 24 to 55. -/
def placeOf (d : List Byte) : PlaceBody :=
  { objectId := bvAt 16 d 16 2, address := bvAt 64 d 24 8, size := bvAt 64 d 32 8, tier := bvAt 8 d 40 1, attr := bvAt 8 d 41 1,
    state := bvAt 8 d 42 1, lineTag := bvAt 8 d 43 1, version := bvAt 32 d 44 4, altObject := bvAt 16 d 48 2,
    flashCopy := bvAt 16 d 50 2, peerPos := bvAt 16 d 52 2, peerObject := bvAt 16 d 54 2 }

/-- OBJECT_MOVE (Table 13.9). -/
def moveOf (d : List Byte) : MoveBody :=
  { mode := bvAt 8 d 16 1, src := bvAt 16 d 18 2, dst := bvAt 16 d 20 2, wp := bvAt 16 d 22 2, srcOffset := bvAt 64 d 24 8,
    dstOffset := bvAt 64 d 32 8, bytes := bvAt 64 d 40 8, cmask := bvAt 32 d 48 4, dmask := bvAt 8 d 52 1,
    signalStep := bvAt 64 d 56 8 }

/-- HOST_COPY (Table 13.7). -/
def hostCopyOf (d : List Byte) : HostCopyBody :=
  { dir := bvAt 8 d 16 1, object := bvAt 16 d 18 2, offset := bvAt 64 d 24 8, hostAddr := bvAt 64 d 32 8, bytes := bvAt 64 d 40 8 }

/-- CASTLE (Table 8.2). -/
def castleOf (d : List Byte) : CastleBody :=
  { mode := bvAt 8 d 16 1, role := bvAt 8 d 17 1, target := bvAt 8 d 18 1, flags := bvAt 8 d 19 1, share := bvAt 8 d 20 1,
    version := bvAt 32 d 24 4, base := bvAt 16 d 28 2, adapter := bvAt 16 d 30 2, map := bvAt 16 d 32 2, source := bvAt 16 d 34 2,
    group := bvAt 16 d 36 2, seq := bvAt 32 d 40 4, chunks := bvAt 32 d 44 4, castleId := bvAt 64 d 48 8 }

/-- CHECKPOINT (Table 12.4). -/
def ckptOf (d : List Byte) : CkptBody :=
  { mode := bvAt 8 d 16 1, flags := bvAt 8 d 17 1, list := bvAt 16 d 18 2, objCount := bvAt 16 d 20 2, targetA := bvAt 16 d 22 2,
    targetB := bvAt 16 d 24 2, buddyPos := bvAt 16 d 26 2, buddyA := bvAt 16 d 28 2, buddyB := bvAt 16 d 30 2,
    logA := bvAt 16 d 32 2, logB := bvAt 16 d 34 2, period := bvAt 32 d 36 4, buddyLogA := bvAt 16 d 40 2,
    buddyLogB := bvAt 16 d 42 2, reserved := decide (fieldAt d 44 20 ≠ 0) }

/-- RESTORE (R378). -/
def restoreOf (d : List Byte) : RestoreBody :=
  { source := bvAt 8 d 16 1, object := bvAt 16 d 18 2, peerPos := bvAt 16 d 20 2, step := bvAt 64 d 24 8,
    logObject := bvAt 16 d 32 2, localLog := bvAt 16 d 34 2 }

/-- SNAPSHOT (Table 13.7). -/
def snapshotOf (d : List Byte) : SnapshotBody :=
  { slot := bvAt 8 d 16 1, flags := bvAt 8 d 17 1, image := bvAt 16 d 18 2, manifest := bvAt 16 d 20 2, peerPos := bvAt 16 d 22 2,
    peerImage := bvAt 16 d 24 2, peerManifest := bvAt 16 d 26 2 }

/-- ADMIT (Table 13.11). -/
def admitOf (d : List Byte) : AdmitBody :=
  let c := fieldAt d 18 2
  { entry := bvAt 16 d 16 2, tenant := BitVec.ofNat 10 c, priority := BitVec.ofNat 3 (c / 1024), eval := c.testBit 13,
    pin := c.testBit 14, reserved := c.testBit 15, outRing := bvAt 8 d 20 1, topK := bvAt 8 d 21 1, topP := bvAt 16 d 22 2,
    key := bvAt 32 d 24 4, promptLen := bvAt 24 d 28 3, maxLen := bvAt 24 d 31 3, deadline := bvAt 48 d 34 6,
    seed := bvAt 64 d 40 8, temp := bvAt 32 d 48 4, stop0 := bvAt 24 d 52 3, stop1 := bvAt 24 d 55 3,
    promptObject := bvAt 16 d 58 2, promptOffset := bvAt 32 d 60 4 }

/-- PAGE_MOVE (Table 13.7). -/
def pageMoveOf (d : List Byte) : PageMoveBody :=
  { entry := bvAt 16 d 16 2, tier := bvAt 8 d 18 1, key := bvAt 32 d 20 4, first := bvAt 32 d 24 4, count := bvAt 16 d 28 2,
    frame := bvAt 32 d 32 4 }

/-- A command that only completes with a status: an undefined opcode or header, an undefined FLASH_OBJ operation. -/
def takeBad (q : Nat) (h : Hdr) (wide : Bool) (st : Byte) : State → State :=
  takeCmd q h wide always (fun t s => finish t st s)

/-- FLASH_OBJ by its OP. -/
def takeFlashObj (q : Nat) (h : Hdr) (d : List Byte) : State → State :=
  if fieldAt d 16 1 = 0 then takeFlashObjCreate q h (bvAt 64 d 24 8)
  else if fieldAt d 16 1 = 1 then takeFlashObjDelete q h (bvAt 32 d 20 4)
  else takeBad q h true Status.entryFormat

/-- The command of an opcode (Table 13.7). -/
def takeOpcode (q : Nat) (h : Hdr) (d : List Byte) : State → State :=
  match fieldAt d 0 1 with
  | 0x00 => takeNop q h
  | 0x01 => takePhase q h (bvAt 8 d 16 1) (bvAt 16 d 18 2)
  | 0x02 => takePlyRun q h (bvAt 32 d 16 4) (bvAt 8 d 20 1) (bvAt 8 d 21 1) (bvAt 64 d 24 8)
  | 0x03 => takeBookLoad q h (bvAt 16 d 16 2)
  | 0x04 => takePlace q h (placeOf d)
  | 0x05 => takeObjectMove q h (moveOf d)
  | 0x06 => takeFlashObj q h d
  | 0x07 => takeHostCopy q h (hostCopyOf d)
  | 0x08 => takeCastle q h (castleOf d)
  | 0x09 => takeCollective q h (collOf (d.drop 16))
  | 0x0A => takeRouteSet q h (bvAt 16 d 16 2) (bvAt 16 d 18 2) (bvAt 16 d 20 2)
  | 0x0B => takePositionSet q h (bvAt 16 d 16 2) (bvAt 16 d 18 2) (bvAt 16 d 20 2)
  | 0x0C => takeGroupSet q h (bvAt 16 d 16 2) (bvAt 16 d 18 2) (bvAt 16 d 20 2)
  | 0x0D => takeCheckpointCmd q h (ckptOf d)
  | 0x0E => takeRestore q h (restoreOf d)
  | 0x0F => takeSnapshot q h (snapshotOf d)
  | 0x10 => takeAdmit q h (admitOf d)
  | 0x11 => takeCancel q h (bvAt 16 d 16 2) (bvAt 32 d 20 4)
  | 0x12 => takePageMove q h (pageMoveOf d)
  | _ => takeBad q { h with done := false } false Status.badOpcode

/-- A queue stops with a cause, and its owner's port hears of it (R399). -/
def stopQueue (q cause : Nat) (s : State) : State :=
  raiseEventAt (queue s q).owner.port Event.queueError
    (setQueue q (fun x => { x with error := true, cause := BitVec.ofNat 3 cause }) s)

/-- COMMAND_TAKE: the next descriptor of queue q as read from host memory; or word that its read, or the write of a record into one of the
queue's rings, has failed. -/
def commandTake (q : Nat) (answer : HostAnswer) (s : State) : State :=
  match answer with
    | .writeFailed => if (queue s q).error then s else stopQueue q 3 s
    | .readFailed => if queueOpen s q then stopQueue q 2 s else s
    | .descriptor d => if ¬queueOpen s q then s else if hdrOk d then takeOpcode q (hdrOf d) d s else takeBad q { hdrOf d with done := false } false Status.badOpcode s

def execCommandTake (q : Nat) (answer : HostAnswer) (s : State) : Out := withUnit q 256 s (commandTake q answer)

end Sys2Proof.Machine
end

