-- ==== Sys2Proof/Machine/Regs.lean ====
section
/-! DEFINITION. The registers of BAR0: their names, the address map, who reaches them, and what each reads (R14 to R17, R388,
R437, R442, R475, and the register tables of every chapter). -/

namespace Sys2Proof.Machine

/-- A register of BAR0, or one 64-bit word of a larger one. `ring` is 0 SQ, 1 CQ, 2 OR. -/
inductive Reg where
  | moduleId | numericsEpoch | fwVersion (c : Nat)
  | moveStatus | moveRequest | moveLease | eventStatus | eventMask | resetCtrl | rejectedWrites | bar2Window | bar2Refused
  | portLink | resetCause | startStatus | blockReset | blockStatus (b : Nat) | clockMon (k : Nat)
  | qCtrl (q : Nat) | ringBase (q ring : Nat) | ringSize (q ring : Nat) | ringHost (q ring : Nat) | ringModule (q ring : Nat)
  | qStatus (q : Nat) | qVector (q : Nat)
  | markValue (m : Nat) | markAdd (m : Nat) | markOwner (m : Nat) | markNotifyAt (m : Nat) | markNotify (m : Nat)
  | turnStatus | stepNumber | evalInterleave
  | bookStatus | bookId (learn : Bool) | waitBound | lastPly | faultRecord | faultStep
  | weightPointer | slotState (i : Nat) | slotInfo (i : Nat) | castleProgress | lastSwitchStep | pinInterleave
  | moduleTick | dealConfig | refillConfig | budgetSet | pageConfig | pageStatus | reqStatus | skipCount (r : Nat)
  | endCount (i : Nat) | batchObject | pagePool (d : Nat) | pageErrors | roleStatus | tenant (t : Nat) | requestWord (e w : Nat)
  | stallAc (c : Nat) | holdAc (c : Nat) | holdCount (c : Nat) | lastStepNumber | lastStepAc | lastStepExcess | lastStepStatus
  | lastStepStall (c : Nat) | boundaryCount | idleBoundaryCount | idleTicks | boundaryAc | freqTicks (f : Nat) | counterClear
  | wpHold (w : Nat)
  | flagCount (k : Nat) | flagFirst (k : Nat) | flagWhere (k : Nat) | flagStep (k : Nat) | flagClear (k : Nat)
  | engineMap (k : Nat) | flagMap
  | memReg (m j : Nat) | sramCorrected (d : Nat) | sramLastError (d : Nat) | sramSpares (d : Nat) | sramBankHold (d : Nat)
  | bgShare | repairFrom (i : Nat) | poisonStatus | flashReg (d j : Nat)
  | portStatus (u : Nat) | portCtrl (u : Nat) | vcWeight (u : Nat) | portCount (u j : Nat)
  | nodeId | ownPosition | positionDigest | collStatus | collErrors (k : Nat) | lossRecord | route (i : Nat)
  | groupWord (g w : Nat) | positionWord (p w : Nat)
  | stepDigest | twinCtrl | twinStatus | matchedStep | mismatchStep | mismatchOwn | mismatchTwin | stepHealth | ckptStatus
  | ckptLastStep | logStatus | replayCtrl | replayStatus | replayStep | onchipCorrected (d : Nat)
  | mboxRequest (w : Nat) | mboxResponse (w : Nat) | mboxDoorbell | mboxStatus | temp (i : Nat) | rail (r : Nat) | coolant
  | modulePower | alertStatus | govCtrl | govStatus | govTable (k : Nat) | sbNext | sbStatus | sbWindow | moduleIdent (w : Nat)
  | dieIdent (j w : Nat) | updateStatus | updateChain | slotBVersion (c : Nat) | debugStatus | debugCtrl | pipSelect (i : Nat)
  | mboxData (w : Nat) | sbRecord (w : Nat)
  deriving DecidableEq, Repr

/-! ### The address map (Tables 13.2, 13.3, 13.4, 13.8, 13.13, 14.9 and the register maps of the chapters) -/

/-- Index `i` of an array that starts at `base` with `n` members `step` apart; none off its grid. -/
def inArray (o base step n : Nat) : Option Nat :=
  if base ≤ o ∧ o < base + step * n ∧ (o - base) % step = 0 then some ((o - base) / step) else none

/-- The first name that an offset has. -/
def firstReg (xs : List (Option Reg)) : Option Reg := xs.findSome? id

/-- The only register of an offset. -/
def oneReg (o a : Nat) (r : Reg) : Option Reg := if o = a then some r else none

/-- Identity, move, reset and event region. -/
def lowRegs (o : Nat) : Option Reg :=
  firstReg [oneReg o 0x00000 .moduleId, oneReg o 0x00008 .numericsEpoch, (inArray o 0x00010 4 5).map .fwVersion,
    oneReg o 0x10000 .moveStatus, oneReg o 0x10008 .moveRequest, oneReg o 0x10010 .moveLease, oneReg o 0x10018 .eventStatus,
    oneReg o 0x10020 .eventMask, oneReg o 0x10028 .resetCtrl, oneReg o 0x10030 .rejectedWrites, oneReg o 0x10038 .bar2Window,
    oneReg o 0x10040 .bar2Refused, oneReg o 0x10048 .portLink, oneReg o 0x10050 .resetCause, oneReg o 0x10058 .startStatus,
    oneReg o 0x10060 .blockReset, (inArray o 0x10100 8 66).map .blockStatus, (inArray o 0x10400 8 39).map .clockMon]

/-- One queue page (Table 13.4). -/
def queueRegs (q o : Nat) : Option Reg :=
  firstReg [oneReg o 0x000 (.qCtrl q), (inArray o 0x008 0x20 3).map (.ringBase q), (inArray o 0x010 0x20 3).map (.ringSize q),
    (inArray o 0x018 0x20 3).map (.ringHost q), (inArray o 0x020 0x20 3).map (.ringModule q), oneReg o 0x068 (.qStatus q),
    oneReg o 0x070 (.qVector q)]

/-- One mark's block (Table 13.8). -/
def markRegs (m o : Nat) : Option Reg :=
  firstReg [oneReg o 0x00 (.markValue m), oneReg o 0x08 (.markAdd m), oneReg o 0x10 (.markOwner m), oneReg o 0x18 (.markNotifyAt m),
    oneReg o 0x20 (.markNotify m)]

/-- The dealer window, from 0x0030_0000 (Tables 1.6, 5.21, 8.6, 9.11). -/
def dealerRegs (o : Nat) : Option Reg :=
  firstReg [oneReg o 0x000 .turnStatus, oneReg o 0x008 .stepNumber, oneReg o 0x010 .evalInterleave,
    oneReg o 0x100 .bookStatus, oneReg o 0x108 (.bookId false), oneReg o 0x110 (.bookId true), oneReg o 0x118 .waitBound,
    oneReg o 0x120 .lastPly, oneReg o 0x128 .faultRecord, oneReg o 0x130 .faultStep,
    oneReg o 0x200 .weightPointer, (inArray o 0x208 0x10 2).map .slotState, (inArray o 0x210 0x10 2).map .slotInfo,
    oneReg o 0x228 .castleProgress, oneReg o 0x230 .lastSwitchStep, oneReg o 0x238 .pinInterleave,
    oneReg o 0x300 .moduleTick, oneReg o 0x308 .dealConfig, oneReg o 0x310 .refillConfig, oneReg o 0x318 .budgetSet,
    oneReg o 0x320 .pageConfig, oneReg o 0x328 .pageStatus, oneReg o 0x330 .reqStatus, (inArray o 0x338 8 5).map .skipCount,
    (inArray o 0x360 8 5).map .endCount, oneReg o 0x388 .batchObject, (inArray o 0x390 8 4).map .pagePool,
    oneReg o 0x3B0 .pageErrors, oneReg o 0x3B8 .roleStatus, (inArray o 0x10000 8 1024).map .tenant,
    (inArray o 0x80000 8 65536).map (fun i => .requestWord (i / 16) (i % 16))]

/-- The counters region, from 0x0040_0000 (Tables 6.6, 3.7, 3.8, 7.12, 7.13). -/
def counterRegs (o : Nat) : Option Reg :=
  firstReg [(inArray o 0x000 8 9).map .stallAc, (inArray o 0x080 8 9).map .holdAc, (inArray o 0x100 8 9).map .holdCount,
    oneReg o 0x180 .lastStepNumber, oneReg o 0x188 .lastStepAc, oneReg o 0x190 .lastStepExcess, oneReg o 0x198 .lastStepStatus,
    (inArray o 0x200 8 9).map .lastStepStall, oneReg o 0x280 .boundaryCount, oneReg o 0x288 .idleBoundaryCount,
    oneReg o 0x290 .idleTicks, oneReg o 0x298 .boundaryAc, (inArray o 0x2A0 8 4).map .freqTicks, oneReg o 0x2C0 .counterClear,
    (inArray o 0x1000 8 1024).map .wpHold,
    (inArray o 0x10000 0x40 32).map .flagCount, (inArray o 0x10008 0x40 32).map .flagFirst, (inArray o 0x10010 0x40 32).map .flagWhere,
    (inArray o 0x10018 0x40 32).map .flagStep, (inArray o 0x10020 0x40 32).map .flagClear, (inArray o 0x10028 0x40 32).map .engineMap,
    oneReg o 0x10800 .flagMap,
    (inArray o 0x20000 8 96).map (fun i => .memReg (i / 8) (i % 8)), (inArray o 0x20400 8 4).map .sramCorrected,
    (inArray o 0x20420 8 4).map .sramLastError, (inArray o 0x20440 8 4).map .sramSpares, (inArray o 0x20460 8 4).map .sramBankHold,
    oneReg o 0x20480 .bgShare, (inArray o 0x20488 8 3).map .repairFrom, oneReg o 0x204A0 .poisonStatus,
    (inArray o 0x30000 8 64).bind (fun i => if i % 16 < 11 then some (.flashReg (i / 16) (i % 16)) else none)]

/-- Unlia and concealment, from 0x0044_0000 (Tables 11.10, 12.9, 13.13). -/
def linkRegs (o : Nat) : Option Reg :=
  firstReg [(inArray o 0x0000 0x100 16).map .portStatus, (inArray o 0x0008 0x100 16).map .portCtrl, (inArray o 0x0010 0x100 16).map .vcWeight,
    (inArray o 0x0000 8 512).bind (fun i => if 3 ≤ i % 32 ∧ i % 32 ≤ 11 then some (.portCount (i / 32) (i % 32 - 3)) else none),
    oneReg o 0x1000 .nodeId, oneReg o 0x1008 .ownPosition, oneReg o 0x1010 .positionDigest, oneReg o 0x1018 .collStatus,
    (inArray o 0x1020 8 4).map .collErrors, oneReg o 0x1040 .lossRecord, (inArray o 0x10000 8 4096).map .route,
    (inArray o 0x20000 8 8192).map (fun i => .groupWord (i / 8) (i % 8)),
    (inArray o 0x40000 8 32768).map (fun i => .positionWord (i / 2) (i % 2)),
    oneReg o 0x80000 .stepDigest, oneReg o 0x80008 .twinCtrl, oneReg o 0x80010 .twinStatus, oneReg o 0x80018 .matchedStep,
    oneReg o 0x80020 .mismatchStep, oneReg o 0x80028 .mismatchOwn, oneReg o 0x80030 .mismatchTwin, oneReg o 0x80038 .stepHealth,
    oneReg o 0x80040 .ckptStatus, oneReg o 0x80048 .ckptLastStep, oneReg o 0x80050 .logStatus, oneReg o 0x80058 .replayCtrl,
    oneReg o 0x80060 .replayStatus, oneReg o 0x80068 .replayStep, (inArray o 0x90000 8 4).map .onchipCorrected]

/-- The Glaren region, from 0x0080_0000 (Table 15.11). -/
def glarenRegs (o : Nat) : Option Reg :=
  firstReg [(inArray o 0x0000 8 32).map .mboxRequest, (inArray o 0x0100 8 32).map .mboxResponse, oneReg o 0x0200 .mboxDoorbell,
    oneReg o 0x0208 .mboxStatus, (inArray o 0x1000 8 48).map .temp, (inArray o 0x1200 8 24).map .rail, oneReg o 0x1300 .coolant,
    oneReg o 0x1308 .modulePower, oneReg o 0x1310 .alertStatus, oneReg o 0x2000 .govCtrl, oneReg o 0x2008 .govStatus,
    (inArray o 0x7000 8 512).map .govTable, oneReg o 0x3000 .sbNext, oneReg o 0x3008 .sbStatus, oneReg o 0x3010 .sbWindow,
    (inArray o 0x4000 8 4).map .moduleIdent, (inArray o 0x4100 8 24).map (fun i => .dieIdent (i / 2) (i % 2)),
    oneReg o 0x5000 .updateStatus, oneReg o 0x5008 .updateChain, (inArray o 0x5020 4 5).map .slotBVersion, oneReg o 0x6000 .debugStatus,
    oneReg o 0x6004 .debugCtrl, (inArray o 0x6008 8 4).map .pipSelect, (inArray o 0x100000 8 131072).map .mboxData,
    (inArray o 0x400000 8 524288).map .sbRecord]

/-- The register at a BAR0 offset. -/
def regAt (o : Nat) : Option Reg :=
  if o < 0x100000 then lowRegs o
  else if o < 0x200000 then queueRegs ((o - 0x100000) / 0x1000) ((o - 0x100000) % 0x1000)
  else if o < 0x240000 then markRegs ((o - 0x200000) / 0x40) ((o - 0x200000) % 0x40)
  else if o < 0x300000 then none
  else if o < 0x400000 then dealerRegs (o - 0x300000)
  else if o < 0x440000 then counterRegs (o - 0x400000)
  else if o < 0x500000 then linkRegs (o - 0x440000)
  else if 0x800000 ≤ o ∧ o < 0x1000000 then glarenRegs (o - 0x800000)
  else none

/-- Registers of 32 bits; the others have 64. -/
def Reg.narrow : Reg → Bool
  | .numericsEpoch | .fwVersion _ | .moveLease | .eventStatus | .eventMask | .resetCtrl | .portLink | .blockReset | .qCtrl _
  | .ringSize _ _ | .ringHost _ _ | .ringModule _ _ | .qVector _ | .markOwner _ | .markNotify _ | .evalInterleave | .waitBound
  | .pinInterleave | .dealConfig | .refillConfig | .pageConfig | .counterClear | .flagClear _ | .engineMap _ | .flagMap
  | .sramSpares _ | .bgShare | .portCtrl _ | .vcWeight _ | .nodeId | .ownPosition | .twinCtrl | .stepHealth | .replayStatus
  | .mboxDoorbell | .alertStatus | .govCtrl | .sbWindow | .slotBVersion _ | .debugStatus | .debugCtrl | .pipSelect _ => true
  | .flashReg _ j => decide (j = 0 ∨ j = 8)
  | _ => false

/-! ### Reach (R386, R388, R430, R437, R442) -/

/-- The identity region. -/
def Reg.identity : Reg → Bool
  | .moduleId | .numericsEpoch | .fwVersion _ => true
  | _ => false

/-- The Glaren region. -/
def Reg.glaren : Reg → Bool
  | .mboxRequest _ | .mboxResponse _ | .mboxDoorbell | .mboxStatus | .temp _ | .rail _ | .coolant | .modulePower | .alertStatus
  | .govCtrl | .govStatus | .govTable _ | .sbNext | .sbStatus | .sbWindow | .moduleIdent _ | .dieIdent _ _ | .updateStatus
  | .updateChain | .slotBVersion _ | .debugStatus | .debugCtrl | .pipSelect _ | .mboxData _ | .sbRecord _ => true
  | _ => false

/-- Glaren registers that go with the mailbox and the scorebook window: during a self-reset they read 0 and discard writes. -/
def Reg.mailbox : Reg → Bool
  | .mboxRequest _ | .mboxResponse _ | .mboxDoorbell | .mboxStatus | .sbNext | .sbStatus | .sbWindow | .mboxData _ | .sbRecord _ => true
  | _ => false

/-- What a virtual function reaches. -/
def vfReaches (s : State) (f : Fn) (r : Reg) : Bool :=
  match r with
  | .qCtrl q | .ringBase q _ | .ringSize q _ | .ringHost q _ | .ringModule q _ | .qStatus q | .qVector q => decide ((queue s q).owner = f)
  | .markValue m | .markAdd m | .markOwner m | .markNotifyAt m | .markNotify m => decide ((mark s m).owner = f)
  | .requestWord e _ => decide ((request s e).owner = f)
  | r => r.identity

/-- Whether an access by a function reaches a register; otherwise it reads 0 and its writes are discarded. A virtual function exists up to the
number that its port enables (R386). Without MGOOD or recovery mode no port answers (Table 14.5), unless both halves have fenced (R294). -/
def reaches (s : State) (f : Fn) (r : Reg) : Bool :=
  (if s.resets.recovery then
      decide (f = { port := .A, num := 0 }) && (r.identity || r.mailbox || decide (r = .resetCause) || decide (r = .startStatus))
    else decide (f.num = 0) || (decide (f.num ≤ (portSt s f.port).numVfs) && vfReaches s f r)) &&
    (s.resets.mgood || (s.resets.recovery && s.resets.powered) || decide (s.dealer.phase = .fenced)) && (s.resets.glarenReady || !r.glaren)

/-! ### What registers read -/

/-- Assemble fields (first bit, value). -/
def pack (xs : List (Nat × Nat)) : Nat := xs.foldl (fun a x => a + x.2 * 2 ^ x.1) 0

/-- Word `w` of little-endian bytes. -/
def wordOf (bs : List Byte) (w : Nat) : Nat := fieldAt bs (8 * w) 8

/-- A function as the owner fields hold it: port in bit 0, function above (Table 9.1). -/
def Fn.code (f : Fn) : Nat := (match f.port with | .A => 0 | .B => 1) + 2 * f.num

def Fn.portBit (f : Fn) : Nat := match f.port with | .A => 0 | .B => 1

/-- CASTLE_PENDING, CASTLING, LIVE_VALID, LIVE_SLOT (R264). -/
def castlePendingBit (s : State) : Nat := flag s.dealer.castlePending.isSome
def castlingBit (s : State) : Nat := flag (decide ((slot s 0).state = .building) || decide ((slot s 1).state = .building))
def liveSlotBit (s : State) : Nat := (liveSlot s).getD 0

/-- TURN_STATUS (Table 1.7). -/
def turnStatus (s : State) : Nat :=
  pack [(0, s.dealer.phase.code), (2, flag s.dealer.pending.isSome), (3, match s.dealer.pending with | some p => p.1.code | none => 0),
    (5, flag (liveSlot s).isSome), (6, liveSlotBit s), (7, castlePendingBit s), (8, castlingBit s),
    (9, match s.dealer.lead with | .west => 0 | .east => 1), (10, flag s.dealer.halfFenced), (11, flag (evalDue s)),
    (32, (liveVersion s).toNat)]

/-- The state code of Table 8.1. -/
def SlotState.code : SlotState → Nat
  | .empty => 0
  | .building => 1
  | .ready => 2
  | .live => 3
  | .held => 4
  | .standby => 5
  | .mirror => 6

/-- The slot that a castle builds or has built. -/
def castleSlot (s : State) : Nat :=
  match s.dealer.building, s.dealer.castlePending with
  | some c, _ => c.body.target.toNat % 2
  | none, some c => c.body.target.toNat % 2
  | none, none => 0

/-- SLOT_STATE[i] and SLOT_INFO[i] (Table 8.7). -/
def slotStateWord (s : State) (i : Nat) : Nat :=
  let x := slot s i
  let y := slot s (1 - i)
  pack [(0, x.state.code), (3, x.format), (6, flag (decide (x.adapter ≠ 0xFFFF))),
    (7, flag (decide (x.base ≠ 0xFFFF) && decide (x.base = y.base))), (8, x.base.toNat), (24, x.adapter.toNat)]
def slotInfoWord (s : State) (i : Nat) : Nat :=
  let x := slot s i
  pack [(0, x.version.toNat), (32, pinnedTo s i),
    (45, slotReaders s i)]

/-- CASTLE_PROGRESS (Table 8.7). -/
def castleProgressWord (s : State) : Nat :=
  match s.dealer.building, s.dealer.castlePending with
  | some c, _ => pack [(0, c.done.length), (32, c.body.chunks.toNat)]
  | none, some c => pack [(0, c.done.length), (32, c.body.chunks.toNat)]
  | none, none => 0

/-- BOOK_STATUS (Table 5.22). -/
def bookPlies : Option Book → Nat
  | some b => b.plies.length
  | none => 0
def bookStatus (s : State) : Nat :=
  pack [(0, flag s.dealer.genBook.isSome), (1, flag s.dealer.learnBook.isSome), (2, flag (!s.dealer.loading.isEmpty)),
    (3, match s.dealer.loading with | (b, _) :: _ => flag (decide (b.kind = .learn)) | [] => 0),
    (12, bookPlies s.dealer.genBook), (21, bookPlies s.dealer.learnBook)]
def bookIdWord : Option Book → Nat
  | some b => pack [(0, b.modelId.toNat), (32, b.digestLo.toNat)]
  | none => 0

/-- FAULT_RECORD (Table 5.22). -/
def faultWord (x : FaultRec) : Nat := pack [(0, flag x.valid), (1, x.code.toNat), (16, x.prog.toNat), (32, x.pc.toNat)]

/-- The state code of Table 9.1. -/
def ReqState.code : ReqState → Nat
  | .free => 0
  | .queued => 1
  | .prefill => 2
  | .decode => 3
  | .finished => 4
  | .cancelled => 5
  | .expired => 6
  | .failed => 7

/-- The 128 bytes of a request-table entry (Table 9.1). -/
def requestBytes (r : Request) : List Byte :=
  leBytes 1 r.state.code ++
    leBytes 1 (pack [(0, flag r.eval), (1, flag r.pin), (2, flag r.pinBound), (3, r.pinSlot), (4, flag r.cancel), (5, flag r.ran),
      (6, flag r.moving)]) ++
    leBytes 1 r.priority ++ leBytes 1 r.outRing ++ leBytes 2 r.tenant ++ leBytes 1 r.gen.toNat ++ leBytes 1 r.reason.toNat ++
    leBytes 4 r.key.toNat ++ leBytes 4 r.promptLen ++ leBytes 4 r.maxLen ++ leBytes 4 r.curLen ++ leBytes 4 r.headPage ++
    leBytes 4 r.tailPage ++ leBytes 4 r.pages ++ leBytes 4 r.lastToken.toNat ++ leBytes 8 r.deadline.toNat ++
    leBytes 8 r.seed.toNat ++ leBytes 8 r.admitSeq.toNat ++ leBytes 4 r.temp.toNat ++ leBytes 1 r.topK ++ leBytes 1 0 ++
    leBytes 2 r.topP.toNat ++ leBytes 4 r.stop0.toNat ++ leBytes 4 r.stop1.toNat ++ leBytes 2 r.promptObject.toNat ++
    leBytes 2 (Fn.code r.owner) ++ leBytes 4 r.promptOffset ++ leBytes 4 r.pinVersion.toNat ++ leBytes 4 r.lastVersion.toNat ++
    leBytes 8 r.lastStep.toNat ++ leBytes 24 0

/-- FLAG_FIRST and FLAG_WHERE (Table 3.9). -/
def flagFirstWord (x : FlagSum) : Nat :=
  match x.first with
  | some r => pack [(0, 1), (1, r.kind), (3, r.source), (8, r.col), (14, r.row), (32, r.pc)]
  | none => 0
def flagWhereWord (x : FlagSum) : Nat :=
  match x.first with
  | some r => pack [(0, r.tileM.toNat), (16, r.tileN.toNat), (32, r.ac % 2 ^ 32)]
  | none => 0

/-- ENGINE_MAP (Table 3.10), as of the last launch. -/
def engineMapWord (m : BitVec 9) : Nat :=
  let n := failCount m
  let low := ((List.range 8).find? (fun i => m.getLsbD i)).getD 0
  pack [(0, flag (decide (n = 1) && !m.getLsbD 8)), (1, if n = 1 ∧ ¬m.getLsbD 8 then low else 0), (4, flag (decide (2 ≤ n))), (8, m.toNat)]

/-- The eight registers of memory port m (Table 7.14). -/
def memWord (s : State) (m j : Nat) : Nat :=
  let t := s.tiers
  match j with
  | 0 => (Tab.get zero64 t.corrected m).toNat
  | 1 => (Tab.get zero64 t.reread m).toNat
  | 2 => (Tab.get zero64 t.dropped m).toNat
  | 3 => (Tab.get zero64 t.repaired m).toNat
  | 4 => (Tab.get zero64 t.tagMiss m).toNat
  | 5 => (Tab.get zero64 t.bgSlots m).toNat
  | 6 => let x := Tab.get (fun _ => (0, 0)) t.scrub m; pack [(0, x.1.toNat), (32, x.2.toNat)]
  | _ => let x := Tab.get (fun _ => LastErr.cold) t.lastErr m; pack [(0, x.address.toNat), (48, x.kind.toNat), (51, flag x.repaired)]

/-- SRAM_SPARES[d]: lines in use, the bank with the fewest left (the lowest on a tie) and what is left in it. -/
def sparesWord (s : State) (d : Nat) : Nat :=
  let used (b : Nat) : Nat := natAt s.tiers.spares (64 * d + b)
  let worst := (List.range 64).foldl (fun a b => if used a < used b then b else a) 0
  pack [(0, (List.range 64).foldl (fun a b => a + used b) 0), (16, worst), (22, 16 - used worst)]

/-- The registers of translation layer d (Table 7.14): 0 until READY, FL_STATUS.FORMATTING apart. -/
def flashWord (s : State) (d j : Nat) : Nat :=
  let x := layer s d
  match j with
  | 0 => pack [(0, flag x.ready), (1, flag x.formatting), (2, flag x.low), (3, flag x.worn), (4, flag x.wearHigh)]
  | 1 => x.pagesRead.toNat
  | 2 => x.programmed.toNat
  | 3 => x.erased.toNat
  | 4 => x.retries.toNat
  | 5 => x.corrected.toNat
  | 6 => x.uncorrectable.toNat
  | 7 => pack [(0, x.factoryBad.toNat), (32, x.grownBad.toNat)]
  | 8 => x.spare.toNat
  | 9 => pack [(0, x.eraseMin.toNat), (16, x.eraseMax.toNat), (32, x.eraseAvg.toNat)]
  | _ => pack [(0, x.disturb.toNat), (32, x.patrol.toNat)]

/-- STATE of an Unlia port (Table 11.11). -/
def LinkState.code : LinkState → Nat
  | .down => 0
  | .training => 1
  | .keying => 2
  | .up => 3
  | .disabled => 4

/-- STATE as it reads: without the module's coordinates every port but U0 is DISABLED (R330). -/
def portState (s : State) (u : Nat) : LinkState := if s.unlia.nodeValid ∨ u = 0 then (uport s u).state else .disabled

/-- PORT_STATUS[u]. -/
def portStatusWord (s : State) (u : Nat) : Nat :=
  let x := uport s u
  pack [(0, (portState s u).code), (3, flag x.encrypted), (4, flag (Tab.get (fun _ => false) s.glaren.linkCr1 u)), (5, flag x.reversed),
    (6, flag x.refused), (7, flag x.peerValid), (8, x.peerNode.toNat), (23, x.peerPort.toNat), (32, x.keyIndex.toNat)]

/-- The counters of an Unlia port, in offset order. -/
def portCountWord (x : UPort) (j : Nat) : Nat :=
  match j with
  | 0 => x.fecCorrected.toNat
  | 1 => x.fecUncorrectable.toNat
  | 2 => x.crcErrors.toNat
  | 3 => x.retries.toNat
  | 4 => x.flitsTx.toNat
  | 5 => x.flitsRx.toNat
  | 6 => x.downCount.toNat
  | 7 => x.authFail.toNat
  | _ => pack [(0, x.unroutable.toNat), (32, x.hopLimit.toNat)]

/-- OWN_POSITION. -/
def ownPositionWord (s : State) : Nat :=
  match ownPosition s with
  | some (p, c) => pack [(0, p), (14, c), (15, 1)]
  | none => 0

/-- The 64 bytes of a group (Table 11.6); MEMBERS is computed. -/
def groupEntry (s : State) (g : Nat) : List Byte :=
  let x := group s g
  leBytes 32 x.rackMask.toNat ++ leBytes 1 x.trayMask.toNat ++ leBytes 1 x.moduleMask.toNat ++ leBytes 1 (flag x.valid) ++ leBytes 1 0 ++
    leBytes 4 x.nextSeq.toNat ++ leBytes 4 (membersOf s x).length ++ leBytes 4 x.gen.toNat ++ leBytes 16 0

/-- TWIN_STATUS. -/
def twinStatusWord (s : State) : Nat :=
  pack [(0, flag s.conceal.mismatch), (1, flag (twinAlone s)), (2, flag s.conceal.waiting),
    (4, match twinNode s with | some n => n.toNat % 32768 | none => 0),
    (32, if s.conceal.armed then min 255 (s.dealer.stepNumber.toNat - s.conceal.matched.toNat) else 0)]

/-- CKPT_STATUS. -/
def ckptStatusWord (s : State) : Nat :=
  let c := s.conceal
  let periodic := match c.ckpt with | some (_, b) => decide (b.mode = 1) | none => false
  pack [(0, if c.jobs ≠ [] then 1 else if periodic then 2 else 0), (2, flag c.lastTarget), (3, flag c.buddyOk), (32, c.commits.toNat)]

/-- ALERT_STATUS (R447): whether any sensor is in Warn or Critical, then the other conditions. -/
def sensorWarn (s : State) : Bool :=
  let bad (x : Sensor) : Bool := x.level.getLsbD 1
  s.glaren.temps.any (fun e => bad e.2) || s.glaren.rails.any (fun e => bad e.2) || bad s.glaren.inlet || bad s.glaren.outlet
def alertWord (s : State) : Nat :=
  pack [(0, flag (sensorWarn s)), (1, flag s.glaren.flashAlert), (2, flag s.resets.recovery), (3, flag s.glaren.holdupLow),
    (4, flag s.resets.shutdown), (5, flag (decide (s.glaren.unlocked ≠ 0)))]

/-- A signed sensor value in n bits. -/
def signedField (n : Nat) (v : Int) : Nat := (BitVec.ofInt n v).toNat

/-- One TEMP, RAIL word, and COOLANT. -/
def tempWord (x : Sensor) : Nat := pack [(0, signedField 16 x.value), (16, signedField 16 x.maxV), (32, x.level.toNat)]
def railWord (x : Sensor) : Nat := pack [(0, signedField 20 x.value), (20, x.amps % 2 ^ 20), (40, x.level.toNat)]
def coolantWord (s : State) : Nat :=
  pack [(0, signedField 16 s.glaren.inlet.value), (16, signedField 16 s.glaren.outlet.value),
    (32, max s.glaren.inlet.level.toNat s.glaren.outlet.level.toNat)]

/-- The ply of GOV_TABLE[k]. -/
def govPly (s : State) (k : Nat) : Option Ply :=
  if k < 256 then s.dealer.genBook.bind (fun b => b.plies[k]?) else s.dealer.learnBook.bind (fun b => b.plies[k - 256]?)

/-- GOV_TABLE[k] (Table 15.9, R448, R450). -/
def govTableWord (s : State) (k : Nat) : Nat :=
  match govPly s k with
  | none => pack [(16, 0x4000)]
  | some p =>
    let e := govEntry s k
    let f := govAllowed s k p
    let c := if e.energies.length < 16 then 0x4000 else energy16 e p * 16384 / (16 * 10000 * p.energyEst.toNat)
    pack [(0, f), (2, e.energies.length), (16, c % 65536),
      (32, energy16 e p * govK f * freqMHz f / (16 * 10000 * 10000 * p.totalAc.toNat) % 65536)]

/-- GOV_STATUS. -/
def govStatusWord (s : State) : Nat :=
  pack [(0, s.glaren.freq), (2, s.glaren.standby), (4, flag s.glaren.standbyStable), (5, s.glaren.thermalCap),
    (7, flag s.glaren.peakCap.isSome), (32, s.glaren.overshoots.toNat)]

/-- The 64 bytes of a scorebook record (Table 15.5), its CRC formed. -/
def Score.toBytes (r : Score) : List Byte :=
  let b := leBytes 8 r.seq.toNat ++ leBytes 4 r.boot.toNat ++ leBytes 4 0 ++ leBytes 8 r.gcTick.toNat ++ leBytes 8 r.tick.toNat ++
    leBytes 1 r.source.toNat ++ leBytes 1 r.outcome.toNat ++ leBytes 2 r.code.toNat ++ leBytes 8 r.step.toNat ++
    (r.data ++ List.replicate 16 0).take 16
  b ++ leBytes 4 (crc32c b).toNat

/-- The 64 bytes at a scorebook index: a birth record (R452), a record, or what no record has been written to. -/
def scoreBytes (s : State) (i : Nat) : List Byte :=
  if i < 4096 then (List.range 64).map (Config.birthRecord i)
  else
    let r := Tab.get (fun _ => Score.blank) s.glaren.sb i
    if r = Score.blank then List.replicate 64 0 else r.toBytes

/-- Bytes of MODULE_IDENT and DIE_IDENT[j]. -/
def moduleIdentBytes : List Byte := (List.range 32).map Config.moduleIdent
def dieIdentBytes (j : Nat) : List Byte := (List.range 16).map (Config.dieIdent j)

/-- UPDATE_STATUS and UPDATE_CHAIN. -/
def updateStatusWord (u : Update) : Nat := pack [(0, u.state), (4, u.nextAction.toNat), (8, u.reason.toNat), (16, u.chainPos)]
def countResults (u : Update) (i : Nat) : Nat := (u.results.filter (fun e => e.2.testBit i)).length
def updateChainWord (u : Update) : Nat :=
  pack [(0, countResults u 0), (14, countResults u 1), (28, countResults u 2), (42, countResults u 3)]

/-- A word of a per-port mailbox store. -/
def mboxWord (t : Tab Byte) (w : Nat) : Nat := ofLe (tabSlice 8 (8 * w) t)

/-- MOVE_STATUS as one port reads it. -/
def MoveResult.code : MoveResult → Nat
  | .none => 0
  | .granted => 1
  | .staleEpoch => 2
  | .held => 3
  | .notHolder => 4
  | .pending => 7
def moveStatusWord (s : State) (p : Port) : Nat :=
  pack [(0, flag s.host.holder.isSome), (1, match s.host.holder with | some .B => 1 | _ => 0), (2, flag (decide (s.host.holder = some p))),
    (3, (portSt s p).result.code), (32, s.host.epoch.toNat)]

/-- PORT_LINK. -/
def portLinkWord (s : State) : Nat :=
  let a := portSt s .A
  let b := portSt s .B
  pack [(0, flag a.linkUp), (1, flag b.linkUp), (2, a.rate.toNat), (5, b.rate.toNat), (8, a.width.toNat), (12, b.width.toNat)]

/-- RESET_CAUSE and START_STATUS (Table 14.10). -/
def resetCauseWord (s : State) : Nat := pack [(0, s.resets.causes.toNat), (16, s.resets.warmCount.toNat), (32, s.resets.bootCount.toNat)]
def startStatusWord (s : State) : Nat :=
  let r := s.resets
  pack [(0, min 3 r.failedStarts), (2, flag r.recovery), (3, flag r.glarenReady), (4, r.failStep), (7, flag r.ddrRetrained),
    (8, flag r.flashFormatted), (32, r.mgoodTime.toNat)]

/-- State code of a block. -/
def BlockState.code : BlockState → Nat
  | .open_ => 0
  | .pending => 1
  | .closing => 2
  | .inReset => 3
  | .waitClock => 4
  | .init => 5
  | .fenced => 6
def blockWord (x : Block) : Nat := pack [(0, x.state.code), (3, flag x.early), (32, x.resets.toNat), (48, x.errors.toNat)]
def clockOf (s : State) (k : Nat) : Clock := Tab.get (fun _ => Clock.cold) s.resets.clocks k
def clockWord (x : Clock) : Nat :=
  pack [(0, flag x.locked), (1, flag x.stable), (2, flag x.override), (8, x.lastCount.toNat), (32, x.excursions.toNat)]

/-- The registers of a queue page. -/
def queueWord (s : State) (q : Nat) : Reg → Nat
  | .qCtrl _ =>
    let k := queue s q
    pack [(0, flag k.enable), (2, flag (learningQueue s q)), (8, Fn.portBit k.owner), (9, k.owner.num)]
  | .ringBase _ 0 => (queue s q).sqBase.toNat
  | .ringBase _ 1 => (queue s q).cqBase.toNat
  | .ringBase _ _ => (queue s q).orBase.toNat
  | .ringSize _ 0 => (queue s q).sqSize.toNat
  | .ringSize _ 1 => (queue s q).cqSize.toNat
  | .ringSize _ _ => (queue s q).orSize.toNat
  | .ringHost _ 0 => (queue s q).sqTail.toNat
  | .ringHost _ 1 => (queue s q).cqHead.toNat
  | .ringHost _ _ => (queue s q).orHead.toNat
  | .ringModule _ 0 => (queue s q).sqHead.toNat
  | .ringModule _ 1 => (queue s q).cqTail.toNat
  | .ringModule _ _ => (queue s q).orTail.toNat
  | .qStatus _ =>
    let k := queue s q
    pack [(0, flag (k.enable && !k.error)), (1, flag k.waiting), (2, flag k.error), (3, k.cause.toNat), (16, k.inFlight)]
  | .qVector _ => (queue s q).vector.toNat
  | _ => 0

/-- Current value of a register as a port sees it; WO registers and fields read 0 (R14). -/
def regRead (s : State) (p : Port) : Reg → Nat
  | .moduleId => pack [(0, 0x4B483438), (32, Config.hwRev.toNat)]
  | .numericsEpoch => (epochOf s).toNat
  | .fwVersion c => (running s c).version.toNat
  | .moveStatus => moveStatusWord s p
  | .moveRequest => 0
  | .moveLease => s.host.lease.toNat
  | .eventStatus => (portSt s p).events.toNat
  | .eventMask => (portSt s p).mask.toNat
  | .resetCtrl => 0
  | .rejectedWrites => pack [(0, s.host.rejected.toNat), (32, s.host.rejOffset.toNat), (58, match s.host.rejPort with | .A => 0 | .B => 1)]
  | .bar2Window => (portSt s p).base.toNat * 2 ^ 30
  | .bar2Refused => (portSt s p).refused.toNat
  | .portLink => portLinkWord s
  | .resetCause => resetCauseWord s
  | .startStatus => startStatusWord s
  | .blockReset => 0
  | .blockStatus b => blockWord (block s b)
  | .clockMon k => clockWord (clockOf s k)
  | .qCtrl q => queueWord s q (.qCtrl q)
  | .ringBase q k => queueWord s q (.ringBase q k)
  | .ringSize q k => queueWord s q (.ringSize q k)
  | .ringHost q k => queueWord s q (.ringHost q k)
  | .ringModule q k => queueWord s q (.ringModule q k)
  | .qStatus q => queueWord s q (.qStatus q)
  | .qVector q => queueWord s q (.qVector q)
  | .markValue m => (mark s m).value.toNat
  | .markAdd _ => 0
  | .markOwner m => Fn.code (mark s m).owner
  | .markNotifyAt m => (mark s m).notifyAt.toNat
  | .markNotify m => pack [(0, flag (mark s m).armed), (1, (mark s m).vector.toNat)]
  | .turnStatus => turnStatus s
  | .stepNumber => s.dealer.stepNumber.toNat
  | .evalInterleave => s.dealer.evalInterval.toNat
  | .bookStatus => bookStatus s
  | .bookId learn => bookIdWord (if learn then s.dealer.learnBook else s.dealer.genBook)
  | .waitBound => s.dealer.waitBound.toNat
  | .lastPly => pack [(0, s.dealer.lastPly.toNat), (32, s.dealer.lastVariant.toNat), (40, flag (decide (s.dealer.lastBook = .learn)))]
  | .faultRecord => faultWord s.dealer.fault
  | .faultStep => s.dealer.fault.step.toNat
  | .weightPointer => pack [(0, flag (liveSlot s).isSome), (1, liveSlotBit s), (2, castlePendingBit s), (3, castlingBit s),
      (4, castleSlot s), (5, flag (oldDealable s 0 || oldDealable s 1)), (32, (liveVersion s).toNat)]
  | .slotState i => slotStateWord s i
  | .slotInfo i => slotInfoWord s i
  | .castleProgress => castleProgressWord s
  | .lastSwitchStep => s.dealer.lastSwitch.toNat
  | .pinInterleave => s.dealer.pinInterval.toNat
  | .moduleTick => s.tick.toNat
  | .dealConfig => pack [(0, s.dealer.chunk.toNat), (11, s.dealer.prefillSlots.toNat)]
  | .refillConfig => s.dealer.refillPeriod.toNat
  | .budgetSet => 0
  | .pageConfig => s.dealer.frameShare.toNat
  | .pageStatus => pack [(0, s.dealer.freeCount), (20, s.dealer.frames)]
  | .reqStatus => pack [(0, (occupied s).length), (13, ((occupied s).filter (fun e => decide (3840 ≤ e))).length)]
  | .skipCount r => (Tab.get zero64 s.dealer.skip r).toNat
  | .endCount i => (Tab.get zero64 s.dealer.ends i).toNat
  | .batchObject => pack ((List.range 4).map (fun d => (16 * d, (Tab.get (fun _ => (0xFFFF : W16)) s.dealer.batchObj d).toNat)))
  | .pagePool d => pack [(0, (pool s d).dram.toNat), (16, (pool s d).sram.toNat), (32, (pool s d).flash.toNat)]
  | .pageErrors => s.dealer.pageErrors.toNat
  | .roleStatus => pack [(0, s.dealer.roleEpoch.toNat), (32, flag s.dealer.split), (33, flag s.dealer.westFenced), (34, flag s.dealer.eastFenced)]
  | .tenant t => pack [(0, (Tab.get (fun _ => (0xFFFFFFFF : W32)) s.dealer.budgets t).toNat),
      (32, (Tab.get (fun _ => (0xFFFFFFFF : W32)) s.dealer.refills t).toNat)]
  | .requestWord e w => wordOf (requestBytes (request s e)) w
  | .stallAc c => (Tab.get zero64 s.counters.stallAc c).toNat
  | .holdAc c => (Tab.get zero64 s.counters.holdAc c).toNat
  | .holdCount c => (Tab.get zero64 s.counters.holdCount c).toNat
  | .lastStepNumber => s.counters.lastNumber.toNat
  | .lastStepAc => s.counters.lastAc.toNat
  | .lastStepExcess => s.counters.lastExcess.toNat
  | .lastStepStatus => pack [(0, flag s.counters.lastAbandoned), (1, s.counters.lastFreq), (3, flag s.counters.lastChanged),
      (4, flag s.counters.lastCancelled)]
  | .lastStepStall c => (Tab.get zero64 s.counters.lastStall c).toNat
  | .boundaryCount => s.counters.boundaries.toNat
  | .idleBoundaryCount => s.counters.idleBoundaries.toNat
  | .idleTicks => s.counters.idleTicks.toNat
  | .boundaryAc => s.counters.boundaryAc.toNat
  | .freqTicks f => (Tab.get zero64 s.counters.freqTicks f).toNat
  | .counterClear => 0
  | .wpHold w => let x := Tab.get (fun _ => (0, 15, 0)) s.counters.wpHold w; pack [(0, x.1 % 2 ^ 48), (48, x.2.1), (52, x.2.2)]
  | .flagCount k => (flagSum s k).count.toNat
  | .flagFirst k => flagFirstWord (flagSum s k)
  | .flagWhere k => flagWhereWord (flagSum s k)
  | .flagStep k => match (flagSum s k).first with | some r => r.step.toNat | none => 0
  | .flagClear _ => 0
  | .engineMap k => engineMapWord (engFailed s k)
  | .flagMap => flagMap s
  | .memReg m j => memWord s m j
  | .sramCorrected d => (Tab.get zero64 s.tiers.sramCorrected d).toNat
  | .sramLastError d => let x := Tab.get (fun _ => (0, 0)) s.tiers.sramLast d; pack [(0, x.1.toNat), (32, x.2.toNat)]
  | .sramSpares d => sparesWord s d
  | .sramBankHold d => (Tab.get zero64 s.tiers.sramHold d).toNat
  | .bgShare => s.tiers.bgShare.toNat
  | .repairFrom i => (Tab.get zero64 s.tiers.repairFrom i).toNat
  | .poisonStatus => pack [(0, s.tiers.lastPoisoned.toNat), (16, (s.tiers.objects.filter (fun e => decide (e.2.poison = .repairing))).length),
      (32, (s.tiers.objects.filter (fun e => decide (e.2.poison = .poisoned))).length)]
  | .flashReg d j => flashWord s d j
  | .portStatus u => portStatusWord s u
  | .portCtrl u => pack [(0, flag (uport s u).enable), (1, flag (uport s u).encrypt)]
  | .vcWeight u => (uport s u).weights.toNat
  | .portCount u j => portCountWord (uport s u) j
  | .nodeId => pack [(0, s.unlia.nodeId.toNat), (15, flag s.unlia.nodeValid)]
  | .ownPosition => ownPositionWord s
  | .positionDigest => s.unlia.posDigest.toNat
  | .collStatus => pack [(0, activeColls s), (5, (s.unlia.colls.filter (fun c => !c.active)).length),
      (14, match s.dealer.lead with | .west => 0 | .east => 1)]
  | .collErrors k => (Tab.get zero64 s.unlia.collErrors k).toNat
  | .lossRecord => pack [(0, s.unlia.lossLast.toNat), (16, s.unlia.lossCount.toNat)]
  | .route i => (Tab.get zero64 s.unlia.routes i).toNat
  | .groupWord g w => wordOf (groupEntry s g) w
  | .positionWord q w => wordOf (position s q).toBytes w
  | .stepDigest => s.conceal.stepDigest.toNat
  | .twinCtrl => pack [(0, flag s.conceal.armed), (1, s.conceal.window.toNat)]
  | .twinStatus => twinStatusWord s
  | .matchedStep => s.conceal.matched.toNat
  | .mismatchStep => s.conceal.mismatchStep.toNat
  | .mismatchOwn => s.conceal.mismatchOwn.toNat
  | .mismatchTwin => s.conceal.mismatchTwin.toNat
  | .stepHealth => healthWord s.conceal
  | .ckptStatus => ckptStatusWord s
  | .ckptLastStep => s.conceal.ckptStep.toNat
  | .logStatus => pack [(0, flag (logObject s).isSome), (1, flag s.conceal.logCurrent), (32, s.conceal.logCount.toNat)]
  | .replayCtrl => s.conceal.until_.toNat
  | .replayStatus => pack [(0, flag (replaying s)), (1, flag s.conceal.diverged), (2, s.conceal.divField.toNat)]
  | .replayStep => s.conceal.divStep.toNat
  | .onchipCorrected d => (Tab.get zero64 s.counters.onchip d).toNat
  | .mboxRequest w => mboxWord (portSt s p).mboxReq w
  | .mboxResponse w => mboxWord (portSt s p).mboxResp w
  | .mboxDoorbell => 0
  | .mboxStatus =>
    let x := portSt s p
    pack [(0, flag x.mboxBusy), (1, flag x.mboxDone), (8, x.mboxOp.toNat), (16, x.mboxStatus.toNat)]
  | .temp i => tempWord (Tab.get (fun _ => Sensor.cold) s.glaren.temps i)
  | .rail r => railWord (Tab.get (fun _ => Sensor.cold) s.glaren.rails r)
  | .coolant => coolantWord s
  | .modulePower => pack [(0, s.glaren.stepAvg.toNat), (16, s.glaren.peak1ms.toNat), (32, s.glaren.lastMj.toNat)]
  | .alertStatus => alertWord s
  | .govCtrl => pack [(0, s.glaren.powerLimit.toNat), (12, s.glaren.maxFreq.toNat)]
  | .govStatus => govStatusWord s
  | .govTable k => govTableWord s k
  | .sbNext => s.glaren.sbNext.toNat
  | .sbStatus => pack [(0, s.glaren.crcErrors.toNat), (32, s.resets.heldRecords.length)]
  | .sbWindow => s.glaren.sbBlock.toNat
  | .moduleIdent w => wordOf moduleIdentBytes w
  | .dieIdent j w => wordOf (dieIdentBytes j) w
  | .updateStatus => updateStatusWord s.glaren.update
  | .updateChain => updateChainWord s.glaren.update
  | .slotBVersion c => match s.glaren.update.manifest[c]? with | some e => e.version.toNat | none => 0
  | .debugStatus => pack [(0, s.glaren.unlocked.toNat), (3, flag s.glaren.challenge.isSome)]
  | .debugCtrl => pack [(0, s.glaren.debugBlock.toNat), (7, flag s.glaren.debugArm)]
  | .pipSelect i =>
    let x := Tab.get (fun _ => Pip.cold) s.glaren.pips i
    pack [(0, x.group.toNat), (8, x.bit.toNat), (13, x.mode.toNat), (15, x.param.toNat)]
  | .mboxData w => mboxWord (portSt s p).mboxData w
  | .sbRecord w => wordOf (scoreBytes s (65536 * s.glaren.sbBlock.toNat + w / 8)) (w % 8)

/-- Value that a function reads at an offset; 0 where no register answers (R16, R388). -/
def readAt (s : State) (f : Fn) (o : Nat) : W64 :=
  match regAt o with
  | some r => if reaches s f r then BitVec.ofNat 64 (regRead s f.port r) else 0
  | none => 0

end Sys2Proof.Machine
end

