-- ==== Sys2Proof/Machine/Update.lean ====
section
/-! DEFINITION. The update chain's shared operations: reading and checking a bundle, storing and forwarding it, results and
the token, and applying a stored bundle component by component (section 15.6). -/

namespace Sys2Proof.Machine

def setUpdate (f : Update → Update) (s : State) : State :=
  { s with glaren := { s.glaren with update := f s.glaren.update } }

/-! Mailbox statuses (Table 15.2). -/

namespace Mbox
def ok : Nat := 0
def badOpcode : Nat := 1
def notMove : Nat := 2
def badLength : Nat := 3
def notIdle : Nat := 4
def signature : Nat := 5
def digest : Nat := 6
def incompatible : Nat := 7
def securityVersion : Nat := 8
def updateState : Nat := 9
def locked : Nat := 10
def challenge : Nat := 11
def rate : Nat := 12
def notRecovery : Nat := 13
end Mbox

/-! ### The bundle (Table 15.8, R461, R464) -/

/-- Entry c of a manifest. -/
def manifestEntry (m : List Byte) (c : Nat) : ManifestEntry :=
  let o := 0x20 + 96 * c
  { version := BitVec.ofNat 24 (fieldAt m (o + 1) 3), security := fieldAt m (o + 4) 2,
    accept := (List.range 5).map (fun i => (fieldAt m (o + 16 + 2 * i) 1, fieldAt m (o + 17 + 2 * i) 1)),
    epoch := BitVec.ofNat 32 (fieldAt m (o + 26) 4), settings := fieldAt m 0x10 2, minSettings := fieldAt m 0x12 2 }

def manifestEntries (m : List Byte) : List ManifestEntry := (List.range 5).map (manifestEntry m)

/-- The manifest's form, its signer key against ANCHOR_FW, and its signature (R461). -/
def manifestSigned (m : List Byte) : Bool :=
  decide (fieldAt m 0 4 = 0x4B484D31) && decide (fieldAt m 4 2 = 1) && decide (fieldAt m 6 2 = 5) &&
    decide (shake256 64 ((m.drop 0x200).take 64) = Config.anchorFw) &&
    Config.slhVerify ((m.drop 0x200).take 64) (m.take 0x240) ((m.drop 0x240).take 29792)

/-- Every component's digest. -/
def digestsOk (m : List Byte) : Bool :=
  (List.range 5).all (fun c =>
    let o := 0x20 + 96 * c
    decide (shake256 64 ((m.drop (fieldAt m (o + 8) 4)).take (fieldAt m (o + 12) 4)) = (m.drop (o + 32)).take 64))

/-- SECURITY_MIN of component c: fused at manufacture, raised by SECURITY_COMMIT (R469). -/
def securityMin (s : State) (c : Nat) : Nat := max (Config.securityMin c) (natAt s.glaren.securityMin c)

/-- The major of a version. -/
def major (v : BitVec 24) : Nat := v.toNat / 65536

/-- Component c in slot A. -/
def slotA (s : State) (c : Nat) : ManifestEntry := Tab.get Config.factory s.glaren.update.slotA c

/-- The order of application: G, L, M, F, D. -/
def applyOrder : List Nat := [0, 3, 2, 4, 1]

/-- Whether every component of a mix accepts the major of every other one. -/
def mixOk (x : Nat → ManifestEntry) : Bool :=
  (List.range 5).all (fun a => (List.range 5).all (fun b =>
    decide (a = b) || (match (x a).accept[b]? with
      | some r => decide (r.1 ≤ major (x b).version) && decide (major (x b).version ≤ r.2)
      | none => false)))

/-- State k runs the first k components of the order from the bundle, the rest from slot A. -/
def mixState (s : State) (m : List ManifestEntry) (k c : Nat) : ManifestEntry :=
  if (applyOrder.take k).contains c then (m[c]?).getD (slotA s c) else slotA s c

/-- VERSIONED_FORMAT of the current settings bank (R470). -/
def bankFormat (s : State) : Nat := s.glaren.bankFormat.getD Config.settingsFormat.1

/-- A start migrates the settings that its firmware's format outgrows, again after a failed start; a bank that it cannot read gives
way to the other one, or its versioned part counts as absent (R471). -/
def migrateSettings (s : State) : State :=
  let fw := (running s 0).settings
  let g := s.glaren
  let old := if g.migrating then g.otherFormat.getD (bankFormat s) else bankFormat s
  if old < fw then
    score 0 0 0x0053 0 [] { s with glaren := { g with
      bankFormat := some fw, otherFormat := some old, migrating := true, settingsSeq := g.settingsSeq + 1 } }
  else if fw < bankFormat s then
    match g.otherFormat with
    | some o =>
      if o ≤ fw then { s with glaren := { g with
        bankFormat := some fw, otherFormat := some (bankFormat s), settingsSeq := g.settingsSeq + 1 } }
      else { s with glaren := { g with bankFormat := some fw, ddrSaved := [], coeffs := [] } }
    | none => { s with glaren := { g with bankFormat := some fw, ddrSaved := [], coeffs := [] } }
  else s

/-- The first check of R464 that a bundle fails, as its mailbox status; `settingsOk` says that the running firmware can migrate to
the bundle's SETTINGS_FORMAT. -/
def bundleFault (s : State) (m : List Byte) (settingsOk : Bool) : Option Nat :=
  let es := manifestEntries m
  if ¬manifestSigned m then some Mbox.signature
  else if ¬digestsOk m then some Mbox.digest
  else if ¬(List.range 5).all (fun c => decide (securityMin s c ≤ (manifestEntry m c).security)) then some Mbox.securityVersion
  else if ¬settingsOk ∧ bankFormat s < fieldAt m 0x12 2 then some Mbox.incompatible
  else if ¬(List.range 6).all (fun k => mixOk (mixState s es k)) then some Mbox.incompatible
  else none

/-! ### Results (R465, R466) -/

/-! Results that a module reports: the bit of `results` they set; APPLY_FAILED sets none. -/

namespace UResult
def stored : Nat := 0
def refused : Nat := 1
def skipped : Nat := 2
def applied : Nat := 3
def failed : Nat := 4
end UResult

/-- The positions that reported STORED and not APPLIED, in chain order. -/
def toVisit (u : Update) : List Nat :=
  (u.results.filter (fun e => e.2.testBit 0 && !e.2.testBit 3)).map (fun e => e.1)

/-- Position 0 follows the token: past a position that applied, to no one when an apply failed (R466, R468). -/
def followToken (pos r : Nat) (s : State) : State :=
  setUpdate (fun u =>
    if u.tokenAt.isNone then u
    else if r = 3 then { u with tokenAt := (toVisit u).find? (fun p => decide (pos < p)), visitSince := s.glaren.gcTick }
    else if r = 4 then { u with tokenAt := none }
    else u) s

/-- Position 0 counts a result. -/
def countResult (pos r : Nat) (s : State) : State :=
  followToken pos r <| if r ≤ 3 ∧ ¬(natAt s.glaren.update.results pos).testBit r then
    setUpdate (fun u => { u with results := natSet u.results pos (natAt u.results pos + 2 ^ r) }) s
  else s

/-- The node of a chain position. -/
def chainNode (s : State) (pos : Nat) : BitVec 15 := (s.glaren.update.chain[pos]?).getD 0

/-- Report a result of a position to chain position 0. -/
def reportResult (pos r : Nat) (s : State) : State :=
  if s.glaren.update.chainPos = 0 then countResult pos r s
  else emit (.mgmt (chainNode s 0) Msg.updateResult (leBytes 2 pos ++ leBytes 1 r)) s

/-- The bytes of the image held for slot B. -/
def imageBytes (u : Update) : List Byte := tabSlice u.imageLength 0 u.image

/-- No forward is outstanding. -/
def endForward (s : State) : State :=
  setUpdate (fun u => { u with forwardTo := none, state := if u.state = 4 then 3 else u.state }) s

/-- Send the bundle and the chain to a chain position, and wait for its answer; past the chain's end nothing is sent. STATE is 4
while a module that stored the bundle forwards it. -/
def forwardTo (pos : Nat) (s : State) : State :=
  let u := s.glaren.update
  if pos < u.chain.length then
    emit (.mgmt (chainNode s pos) Msg.updateImage
        (leBytes 2 pos ++ imageBytes u ++ (u.chain.map (fun n => leBytes 2 n.toNat)).flatten))
      (setUpdate (fun u =>
        { u with forwardTo := some pos, forwardSince := s.glaren.gcTick, state := if u.state = 3 then 4 else u.state }) s)
  else endForward s

/-- Check, store, report and forward a bundle that lies in the image buffer (R465). Answers the mailbox status. -/
def storeBundle (settingsOk readBackOk : Bool) (s : State) : State × Nat :=
  let u := s.glaren.update
  let m := imageBytes u
  let fault := match bundleFault s m settingsOk with
    | some k => some k
    | none => if readBackOk then none else some Mbox.digest
  match fault with
  | none =>
    let s1 := score 0 0 0x0050 0 [] (setUpdate (fun u =>
      { u with state := 3, manifest := manifestEntries m, results := [], tokenAt := none }) s)
    (forwardTo (u.chainPos + 1) (reportResult u.chainPos UResult.stored s1), Mbox.ok)
  | some k =>
    let s1 := score 0 0 0x0051 0 [BitVec.ofNat 8 k] (setUpdate (fun u =>
      { u with state := 8, reason := BitVec.ofNat 8 k, results := [], tokenAt := none,
               manifest := if (bundleFault s m settingsOk).isNone then [] else u.manifest }) s)
    let s2 := reportResult u.chainPos UResult.refused s1
    (if k = Mbox.incompatible ∨ k = Mbox.securityVersion then forwardTo (u.chainPos + 1) s2 else s2, k)

/-! ### The token (R466) -/

/-- Hand the token to the first of the positions that are left to visit. -/
def passToken (timeout : Nat) (rest : List Nat) (s : State) : State :=
  match rest with
  | [] => s
  | p :: ps =>
    if p = s.glaren.update.chainPos then
      setUpdate (fun u => { u with state := 5, token := some timeout, tokenRest := ps, tokenSince := s.glaren.gcTick }) s
    else emit (.mgmt (chainNode s p) Msg.applyToken (leBytes 4 timeout ++ (ps.map (leBytes 2)).flatten)) s

/-- Pass on a token held here. -/
def releaseToken (s : State) : State :=
  let u := s.glaren.update
  match u.token with
  | some t => passToken t u.tokenRest (setUpdate (fun u => { u with token := none, tokenRest := [] }) s)
  | none => s

/-! ### Applying (R467, Table 15.10) -/

/-- NEXT_ACTION of a component, and back. -/
def actionOf (c : Nat) : BitVec 3 := match c with | 0 => 1 | 3 => 2 | 2 => 3 | 4 => 4 | _ => 5
def componentOf (a : BitVec 3) : Nat := match a.toNat with | 1 => 0 | 2 => 3 | 3 => 2 | 4 => 4 | _ => 1

/-- The blocks that a component runs on; G and D run on none. -/
def componentBlocks (c : Nat) : List Nat :=
  if c = 3 then (List.range 16).map (48 + ·) else if c = 2 then (List.range 12).map (32 + ·)
  else if c = 4 then (List.range 4).map (44 + ·) else []

/-- The next component to copy: the first in order whose slot B version is not slot A's. -/
def nextComponent (s : State) : Option Nat :=
  applyOrder.find? (fun c => match s.glaren.update.manifest[c]? with
    | some e => decide (e.version ≠ (slotA s c).version)
    | none => false)

/-- Copy the next component from slot B to slot A and set NEXT_ACTION; after the last, the apply ends: APPLIED, and the token
goes on. -/
def applyNext (s : State) : State :=
  match nextComponent s with
  | some c =>
    setUpdate (fun u =>
      { u with slotA := (match u.manifest[c]? with | some e => Tab.put c e u.slotA | none => u.slotA),
               nextAction := actionOf c, restarted := [] }) s
  | none =>
    let s1 := setUpdate (fun u => { u with state := 7, nextAction := 0, incoming := false }) s
    releaseToken (reportResult s1.glaren.update.chainPos UResult.applied s1)

/-- APPLY: slot B's manifest goes into the incoming area, then the first component is copied. -/
def beginApply (s : State) : State :=
  applyNext (setUpdate (fun u => { u with state := 6, incoming := true }) s)

/-- The component that waits takes effect; the next is copied. -/
def takeEffect (s : State) : State :=
  let c := componentOf s.glaren.update.nextAction
  applyNext (score 0 0 0x0052 0 [BitVec.ofNat 8 c]
    (setUpdate (fun u => { u with running := Tab.put c (slotA s c) u.running }) s))

/-- Blocks have restarted: a component all of whose blocks have restarted since its copy takes effect. -/
def blocksRestarted (bs : List Nat) (s : State) : State :=
  let s1 := setUpdate (fun u => { u with restarted := u.restarted ++ bs }) s
  let u := s1.glaren.update
  let need := componentBlocks (componentOf u.nextAction)
  if u.nextAction ≠ 0 ∧ need ≠ [] ∧ need.all (fun b => u.restarted.contains b) then takeEffect s1 else s1

/-- Measurements 1 to 6 are taken again, at a start and at a Glaren self-reset (R462). -/
def measure (s : State) : State :=
  setUpdate (fun u =>
    { u with measured := u.running, measuredSlot := u.slotA, measuredIn := if u.incoming then u.manifest else [] }) s

/-- Glaren has restarted: component G takes effect (Table 15.10). -/
def glarenRestarted (s : State) : State := measure (if s.glaren.update.nextAction = 1 then takeEffect s else s)

/-- A warm reset has restarted the dies and the blocks of L and F. -/
def warmRestarted (s : State) : State :=
  let s1 := blocksRestarted (componentBlocks 3 ++ componentBlocks 4) s
  if s.glaren.update.nextAction = 5 then
    takeEffect { s1 with resets := { s1.resets with startKind := 1 } }
  else s1

/-- What slot B's manifest lists. -/
def slotBTable (u : Update) : Tab ManifestEntry := u.manifest.zipIdx.map (fun x => (x.2, x.1))

/-- A cold start runs what slot A holds, or slot B when slot A's G does not verify (R461); the settings are migrated. -/
def runSlot (slotB : Bool) (s : State) : State :=
  measure (migrateSettings (setUpdate (fun u => { u with slotB := slotB, running := if slotB then slotBTable u else u.slotA }) s))

/-- An apply that a cold start interrupted goes on (R467). -/
def coldRestarted (s1 : State) : State :=
  if s1.glaren.update.incoming then
    let s2 := setUpdate (fun u => { u with state := 6 }) s1
    if s2.glaren.update.nextAction = 0 then applyNext s2 else takeEffect s2
  else s1

end Sys2Proof.Machine
end

