-- ==== Sys2Proof/Machine/Power.lean ====
section
/-! DEFINITION. Starts and resets: power on, the cold start, warm reset, failed starts and recovery, PERST# and PCIe links,
Glaren's self-reset, and clock monitors (chapter 14, R446, R485). -/

namespace Sys2Proof.Machine

def setResets (f : Resets → Resets) (s : State) : State := { s with resets := f s.resets }

/-! ### What power-on and loss of power leave (Table 14.4) -/

/-- A port's copies after power-on: PERST# is a pin. -/
def portsOff (s : State) : Tab PortSt :=
  (if (portSt s .A).perst then [(0, { PortSt.cold with perst := true })] else []) ++
    (if (portSt s .B).perst then [(1, { PortSt.cold with perst := true })] else [])

/-- Everything outside Glaren without power: what survives is flash, the spare-line map and pending hard repairs. -/
def diesOff (s : State) : State :=
  let t := s.tiers
  { s with
    tick := 0, dealer := { Dealer.cold with due := false }, units := Units.cold, counters := Counters.cold, conceal := Conceal.cold
    tiers := { Tiers.cold with layers := unformatted t.layers, flash := t.flash, media := t.media, spares := t.spares, hardRepair := t.hardRepair }
    unlia := { Unlia.cold with nodeId := s.unlia.nodeId, nodeValid := s.unlia.nodeValid }, framed := s.out.length
    host := { HostIf.cold with ports := portsOff s }
    resets := { s.resets with
      mgood := false, blocks := [], warmAt := none, warmCauses := 0, warmHeld := false, starting := false, startTest := none,
      ddrRetrained := false, flashFormatted := false } }

/-- Glaren's registers at their Cold values; the scorebook, the settings store, both firmware slots and an apply under way are
kept. -/
def glarenCold (s : State) : State :=
  let g := s.glaren
  let u := g.update
  { s with
    resets := { s.resets with clocks := [], glarenReady := true, heldRecords := [], droppedRecords := 0 }
    glaren := { Glaren.cold with
      sb := g.sb, sbNext := g.sbNext, gcTick := g.gcTick, failedList := g.failedList, clearPending := g.clearPending,
      linkCr1 := g.linkCr1, linkEncrypt := g.linkEncrypt, coeffs := g.coeffs, ddrSaved := g.ddrSaved,
      securityMin := g.securityMin, settingsSeq := g.settingsSeq, bankFormat := g.bankFormat, otherFormat := g.otherFormat,
      migrating := g.migrating, lastSummary := g.lastSummary, summary := g.summary, trayCoords := g.trayCoords,
      update := { Update.cold with
        image := u.image, imageLength := u.imageLength, chain := u.chain, chainLength := u.chainLength, manifest := u.manifest,
        slotA := u.slotA, running := u.running, slotB := u.slotB, measured := u.measured, measuredSlot := u.measuredSlot,
        measuredIn := u.measuredIn, incoming := u.incoming,
        nextAction := if u.incoming then u.nextAction else 0, chainPos := if u.incoming then u.chainPos else 0,
        token := if u.incoming then u.token else none, tokenRest := if u.incoming then u.tokenRest else [] } } }

/-- The move after power-on: no holder, EPOCH 1, journalled when that is a change (R406, R454). -/
def journalMove (old : State) (s : State) : State :=
  if old.host.holder = s.host.holder ∧ old.host.epoch = s.host.epoch then s else score 0 0 0x0009 0 (stateData s) s

/-- The node ID that a start forms from the coordinates that the tray gave (R330, Table 11.11). -/
def startNode (s : State) : State :=
  match s.glaren.trayCoords with
  | some n => { s with unlia := { s.unlia with nodeId := n, nodeValid := true } }
  | none => s

/-! ### Recovery and failed starts (R434 to R438) -/

/-- The module enters recovery mode; an apply under way has failed (R468). -/
def enterRecovery (s : State) : State :=
  let s1 := score 0 2 0x0004 0 [] (setResets (fun r =>
    { r with recovery := true, starting := false, mgood := false, startOk := true }) s)
  if s1.glaren.update.incoming then
    setUpdate (fun u => { u with token := none, tokenRest := [] })
      (emit (.mgmt (chainNode s1 0) Msg.updateResult (leBytes 2 s1.glaren.update.chainPos ++ leBytes 1 UResult.failed)) s1)
  else s1

/-- A start fails at a step: the record, one second without power, then a retry (R435, R436). -/
def failStart (step : Nat) (s : State) : State :=
  score 0 2 0x0003 0 [BitVec.ofNat 8 step] (setResets (fun r =>
    { r with failedStarts := r.failedStarts + 1, failStep := step, startOk := true, retry := true, startGc := s.glaren.gcTick })
    (diesOff s))

/-- A start that another reset ends before its START_OK has failed (R435). -/
def closeStart (s : State) : State :=
  if s.resets.startOk then s
  else score 0 2 0x0003 0 [] (setResets (fun r => { r with failedStarts := r.failedStarts + 1, startOk := true }) s)

/-- A start begins: recovery mode instead after three failed ones (R434, R436). -/
def beginStart (s : State) : State :=
  if 3 ≤ s.resets.failedStarts then enterRecovery s
  else score 0 0 0x0001 0 [] (setResets (fun r => { r with startOk := false }) s)

/-- A cold start begins with a cause (R420, R436, R438). -/
def beginCold (causes : BitVec 7) (s : State) : State :=
  let s1 := journalMove s (beginStart (glarenCold (diesOff (setResets (fun r =>
    { r with bootCount := r.bootCount + 1, causes := causes, warmCount := 0, retry := false, shutdown := false }) s))))
  if s1.resets.recovery then s1 else setResets (fun r => { r with starting := true, startGc := s1.glaren.gcTick }) s1

/-- Input power becomes good (R485): a cold start from step 1, or recovery mode again (R438). -/
def powerOn (s : State) : State :=
  let s0 := { s with
    glaren := { s.glaren with gcTick := 0, trayCoords := none, lastSummary := 0 }
    unlia := { s.unlia with nodeId := 0, nodeValid := false }
    resets := { s.resets with powered := true, selfResets := [] } }
  if s.resets.recovery then glarenCold (diesOff s0) else beginCold 1 s0

def execPowerGood (s : State) : Out := .next (if s.resets.powered then s else powerOn s)

/-- INPUT_LOSS (R446): POWER_LOSS is committed on hold-up energy, and the module powers down. That start counts neither way. -/
def inputLoss (s : State) : State :=
  setResets (fun r => { r with powered := false, shutdown := false, startOk := true, retry := false })
    (diesOff (score 0 0 0x0005 0 [] s))

def execInputLoss (s : State) : Out := .next (if s.resets.powered then inputLoss s else s)

/-! ### The cold start (Table 14.5) -/

/-- Step 4's self-test: failed engines join the list; an engine that ENGINE_SERVICE cleared leaves it when it passed (R99,
Table 15.2). -/
def selfTest (failed : List (Nat × Nat)) (s : State) : State :=
  let bit (e : Nat) : BitVec 9 := BitVec.ofNat 9 (2 ^ e)
  let s1 := (s.glaren.clearPending.filter (fun x => !failed.contains x)).foldl (fun s x =>
    { s with glaren := { s.glaren with
      failedList := Tab.mod (fun _ => 0) s.glaren.failedList x.1 (fun m => m &&& ~~~(bit x.2)),
      settingsSeq := s.glaren.settingsSeq + 1 } }) s
  failed.foldl (fun s x => failEngine x.1 x.2 s) { s1 with glaren := { s1.glaren with clearPending := [] } }

/-- Steps 4 to 7: dies released, translation layers loading or formatting, MGOOD high. -/
def finishCold (failed : List (Nat × Nat)) (s : State) : State :=
  let s1 := startNode (selfTest failed s)
  let first := s.resets.firstStart
  coldRestarted { s1 with
    dealer := { s1.dealer with due := true }
    units := { s1.units with engMap := s1.glaren.failedList }
    tiers := { s1.tiers with layers := if first then formattingLayers else unformatted s1.tiers.layers }
    resets := { s1.resets with
      mgood := true, starting := false, startTest := none, firstStart := false,
      flashFormatted := first || decide (unformatted s1.tiers.layers ≠ []) } }

/-- Hard repair of the recorded rows in their order, at most `k` of them; a row whose device has no repair resource left stays recorded
(R219). Whether it has one is a free value (log entry 79). What is left, and how many repairs were made. -/
def hardRepairs (n : Nat) : Nat → List Nat → List Nat × Nat
  | 0, rows => (rows, 0)
  | _, [] => ([], 0)
  | k + 1, r :: rows =>
    if Config.repairLeft r n then
      let x := hardRepairs n k rows
      (x.1, x.2 + 1)
    else
      let x := hardRepairs n (k + 1) rows
      (r :: x.1, x.2)

/-- Steps 1 to 3: pending hard repairs are made, the memories trained (R219, Table 14.8). -/
def coldSteps (saved : Bool) (s : State) : State :=
  let x := hardRepairs s.free 4 s.tiers.hardRepair
  { s with
    free := s.free + 1
    tiers := { s.tiers with hardRepair := x.1 }
    glaren := { s.glaren with ddrSaved := (List.range 12).map (fun m => (m, true)) }
    resets := { s.resets with
      ddrRetrained := !saved
      mgoodTime := BitVec.ofNat 32 ((if saved then 412 else 2692) + 2000 * x.2) } }

/-- COLD_START: the sequence up to MGOOD; `slotB` says that slot A's G does not verify, and `fails`
is a step that fails, 0 when slot B's does not either (R436). WARM_N
held low holds it at step 4 (R423). -/
def coldStart (saved slotB : Bool) (failed : List (Nat × Nat)) (fails : Option Nat) (s : State) : State :=
  match fails with
  | some 0 => enterRecovery s
  | some k => failStart k s
  | none =>
    if slotB ∧ s.glaren.update.manifest = [] then enterRecovery s
    else
      let s1 := coldSteps saved (runSlot slotB s)
      if s.resets.warmN then finishCold failed s1
      else setResets (fun r => { r with startTest := some failed }) s1

def execColdStart (saved slotB : Bool) (failedSelfTest : List (Nat × Nat)) (fails : Option Nat) (s : State) : Out :=
  .next (if s.resets.starting ∧ s.resets.startTest.isNone then coldStart saved slotB failedSelfTest fails s else s)

/-- START_TIMEOUT: MGOOD is not high 30 s after the start began; a WARM_N hold does not count (R435). -/
def execStartTimeout (step : Nat) (s : State) : Out :=
  .next (if s.resets.starting ∧ s.resets.startTest.isNone ∧ 30000000 ≤ (s.glaren.gcTick - s.resets.startGc).toNat
    then failStart step s else s)

/-- START_RETRY (R436): a cold start at step 2, after one second without power. -/
def execStartRetry (s : State) : Out :=
  .next (if s.resets.retry ∧ s.resets.powered ∧ 1000000 ≤ (s.glaren.gcTick - s.resets.startGc).toNat then beginCold 0x40 s else s)

/-! ### Warm reset (R417, R419, R423 to R425) -/

/-- Whether a warm request is heard: not before the first rise of MGOOD, nor in recovery mode or shutdown. -/
def canWarm (s : State) : Bool :=
  s.resets.powered && !s.resets.starting && !s.resets.recovery && !s.resets.shutdown && !s.resets.retry

/-- A warm request with a bit of RESET_CAUSE: recorded, or merged into one under way. -/
def requestWarm (bit : Nat) (s : State) : State :=
  let b : BitVec 7 := BitVec.ofNat 7 (2 ^ bit)
  if ¬canWarm s then s
  else if s.resets.warmHeld then setResets (fun r => { r with causes := r.causes ||| b }) s
  else match s.resets.warmAt with
    | some _ => setResets (fun r => { r with warmCauses := r.warmCauses ||| b }) s
    | none => score 0 2 0x0006 0 [b.zeroExtend 8] (setResets (fun r => { r with warmAt := some s.tick, warmCauses := b }) s)

/-- What a warm reset leaves (Table 14.4): LPDDR5X, memory counters, flash, mark owners, Glaren and the node ID are kept. -/
def warmState (s : State) : State :=
  let t := s.tiers
  let now := s.tick
  { s with
    dealer := { Dealer.cold with heartbeat := [(0, now), (1, now)], westHeard := now }
    units := { Units.cold with engMap := s.glaren.failedList }, counters := Counters.cold, conceal := { Conceal.cold with logTick := now }
    tiers := { Tiers.cold with
      mem := t.mem.filter (fun e => decide (sramEnd ≤ e.1)), lineTag := t.lineTag, linePoison := t.linePoison,
      layers := unformatted t.layers, corrected := t.corrected, reread := t.reread, dropped := t.dropped, repaired := t.repaired, tagMiss := t.tagMiss,
      bgSlots := t.bgSlots, scrub := t.scrub, scrubNext := t.scrubNext, lastErr := t.lastErr, corrQueue := t.corrQueue,
      spares := t.spares, refailed := t.refailed, hardRepair := t.hardRepair, flash := t.flash, media := t.media }
    unlia := { Unlia.cold with nodeId := s.unlia.nodeId, nodeValid := s.unlia.nodeValid }, framed := s.out.length
    host := { HostIf.cold with
      epoch := s.host.epoch + 1, leaseStart := now,
      marks := s.host.marks.filterMap (fun e =>
        let m := { Mark.cold e.1 with owner := e.2.owner }
        if m = Mark.cold e.1 then none else some (e.1, m)),
      ports := (s.host.ports.map (fun e => (e.1,
        { PortSt.cold with
          perst := e.2.perst, mboxReq := e.2.mboxReq, mboxResp := e.2.mboxResp, mboxData := e.2.mboxData,
          appended := e.2.appended }))).filter (fun e => decide (e.2 ≠ PortSt.cold)) }
    resets := { s.resets with
      mgood := false, blocks := [], causes := s.resets.warmCauses, warmCount := satInc s.resets.warmCount,
      clocks := (s.resets.clocks.map (fun e => (e.1, { e.2 with override := false }))).filter (fun e => decide (e.2 ≠ Clock.cold)) }
    glaren := { s.glaren with
      freq := 0, standby := 0, standbyStable := false, unlocked := 0, challenge := none, measure7 := List.replicate 64 0,
      debugBlock := 0, debugArm := false, pips := [], reports := [] } }

/-- The rows from 2.0 ms on: MGOOD is high again. -/
def finishWarm (s : State) : State :=
  let ms := match s.resets.warmAt with
    | some t => if s.resets.warmHeld then (s.tick - t).toNat / 1000 + 2 else 4
    | none => 4
  measure <| warmRestarted (migrateSettings (startNode (setResets (fun r =>
    { r with mgood := true, warmHeld := false, warmAt := none, warmCauses := 0, mgoodTime := BitVec.ofNat 32 ms }) s)))

/-- The warm reset that was requested: a castle that runs ends, its members' data undefined (R255), and no
outstanding command has a completion (R410, R425). `fails` is a step that fails. -/
def warmReset (fails : Option Nat) (s : State) : State :=
  let s1 := closeStart (dropBuilding s)
  let w := beginStart (warmState s1)
  let s2 := score 0 0 0x0009 0 (stateData w) w
  if s2.resets.recovery then setResets (fun r => { r with warmAt := none, warmCauses := 0 }) s2
  else match fails with
    | some k => failStart k s2
    | none => if s2.resets.warmN then finishWarm s2 else setResets (fun r => { r with warmHeld := true }) s2

/-- WARM_RESET: 10 µs after the request. -/
def execWarmReset (fails : Option Nat) (s : State) : Out :=
  .next (match s.resets.warmAt with
    | some t => if ¬s.resets.warmHeld ∧ 10 ≤ (s.tick - t).toNat then warmReset fails s else s
    | none => s)

/-- WARM_N_ASSERT: held low for 1 µs. -/
def execWarmNAssert (s : State) : Out :=
  .next (if s.resets.warmN then requestWarm 2 (setResets (fun r => { r with warmN := false }) s) else s)

/-- WARM_N_RELEASE: a held warm reset or cold start goes on (R423, R425). -/
def execWarmNRelease (s : State) : Out :=
  .next (if s.resets.warmN then s
    else
      let s1 := setResets (fun r => { r with warmN := true }) s
      if s.resets.warmHeld then finishWarm s1
      else match s.resets.startTest with
        | some failed => finishCold failed s1
        | none => s1)

/-! ### PERST# and PCIe links (R412, R422) -/

/-- The block of a PCIe port. -/
def portBlock : Port → Nat
  | .A => 64
  | .B => 65

def execPerstAssert (port : Port) (s : State) : Out :=
  .next (if (portSt s port).perst then s
    else
      let s1 := setPort port (fun x => { x with perst := true }) s
      if s.resets.mgood then portCold port (if (portSt s port).linkUp then portDown port s1 else s1)
      else setPort port (fun x => { x with linkUp := false, rate := 0, width := 0 }) s1)

/-- PERST# deasserts: the port trains once its block is open (R422). -/
def execPerstDeassert (port : Port) (s : State) : Out :=
  .next (if (portSt s port).perst then
      setPort port (fun x => { x with perst := false, ready := decide ((block s (portBlock port)).state = .open_) }) s
    else s)

/-- PCIE_LINK_DOWN: a surprise down (R412). -/
def execPcieLinkDown (port : Port) (s : State) : Out :=
  .next (if (portSt s port).linkUp then
      (if s.resets.mgood then portDown port s
       else setPort port (fun x => { x with linkUp := false, rate := 0, width := 0 }) s)
    else s)

/-- Whether a port may train: after step 6, or port A in recovery mode at no more than 8 GT/s x1. -/
def mayTrain (s : State) (p : Port) (rate : BitVec 3) (width : BitVec 4) : Bool :=
  let x := portSt s p
  x.ready && !x.perst && decide (1 ≤ rate.toNat) && decide (rate.toNat ≤ 6) && [1, 2, 4, 8].contains width.toNat &&
    (s.resets.mgood || (s.resets.recovery && s.resets.powered && decide (p = .A) && decide (rate.toNat ≤ 3) && decide (width = 1)))

/-- PCIE_LINK_TRAINED: the link reaches L0. -/
def execPcieLinkTrained (port : Port) (rate : BitVec 3) (width : BitVec 4) (s : State) : Out :=
  .next (if mayTrain s port rate width then setPort port (fun x => { x with linkUp := true, rate := rate, width := width }) s else s)

/-- Whether a BAR2 window of 2^log2 bytes from BASE lies within one LPDDR5X view (R389). -/
def windowOk (base log2 : Nat) : Bool :=
  let n := 2 ^ (log2 - 30)
  (decide (0x400 ≤ base) && decide (base + n ≤ 0xA00)) || (decide (0x1000 ≤ base) && decide (base + n ≤ 0x1600))

/-- PCIE_CONFIGURATION_WRITE: a Resizable BAR resize, a power state, the number of VFs (Table 13.1, R389). -/
def execPcieConfigurationWrite (port : Port) (bar2Log2 : Option Nat) (d3hot : Option Bool) (numVfs : Option Nat) (s : State) : Out :=
  .next (setPort port (fun x =>
    let n := match bar2Log2 with | some n => if 30 ≤ n ∧ n ≤ 40 then n else x.bar2Log2 | none => x.bar2Log2
    { x with
      bar2Log2 := n, base := if windowOk x.base.toNat n then x.base else 0x400,
      d3hot := d3hot.getD x.d3hot,
      numVfs := match numVfs with | some v => if v ≤ 15 then v else x.numVfs | none => x.numVfs }) s)

/-! ### Glaren's self-reset (R430 to R432) -/

/-- What a self-reset clears: every Glaren register takes its Cold value, but the frequency in force, the settings, the slots and
an apply under way (R430, R449, R472, R475). -/
def glarenRestart (s : State) : State :=
  let g := s.glaren
  let s1 := glarenCold s
  { s1 with
    glaren := { s1.glaren with
      freq := g.freq, standby := g.standby, measure7 := g.measure7, govKeys := [] }
    resets := { s1.resets with glarenReady := false }
    host := { s1.host with ports := s1.host.ports.map (fun e => (e.1,
      { e.2 with mboxReq := [], mboxResp := [], mboxData := [], mboxBusy := false, mboxDone := false, mboxOp := 0,
                 mboxStatus := 0, nonce := none, appended := [] })) } }

/-- A held governor change is cancelled: the launch goes ahead at the old frequency (R185, R430). -/
def cancelGov (s : State) : State :=
  match s.dealer.held with
  | some h => launchHeld h false s
  | none => s

/-- GLAREN_SELF_RESET; the third within 600 s of the first of the three raises a warm reset (R432). -/
def glarenSelfReset (s : State) : State :=
  if ¬s.resets.powered ∨ ¬s.resets.glarenReady then s
  else
    let now := s.glaren.gcTick
    let recent := (s.resets.selfResets ++ [now]).filter (fun t => decide ((now - t).toNat ≤ 600000000))
    let third := decide (3 ≤ recent.length)
    let s1 := cancelGov s
    let s2 := if third then requestWarm 4 s1 else s1
    setResets (fun r => { r with selfResets := if third then [] else recent }) (glarenRestart s2)

def execGlarenSelfReset (s : State) : Out := .next (glarenSelfReset s)

/-- WATCHDOG_GLAREN: the firmware has not serviced the watchdog for 50 ms. -/
def execWatchdogGlaren (s : State) : Out := .next (glarenSelfReset s)

/-! ### Move requests (R406, R407, Table 13.12) -/

/-- The holder's lease has run out, or its port is down or in PERST#. -/
def leaseOver (s : State) (q : Port) : Bool :=
  decide (1000 * s.host.lease.toNat ≤ (s.tick - s.host.leaseStart).toNat) || !(portSt s q).linkUp || (portSt s q).perst

/-- Glaren's decision on a request: the result, and whether the holder changes. -/
def decideMove (p : Port) (op : Nat) (expected : W32) (s : State) : State :=
  let done (r : MoveResult) (s : State) : State := setPort p (fun x => { x with result := r, heldMove := none }) s
  if expected ≠ s.host.epoch then done .staleEpoch s
  else match op with
  | 0 => if s.host.holder = none then done .granted (changeHolder (some p) s) else done .held s
  | 1 =>
    if s.host.holder = some p then done .granted { s with host := { s.host with leaseStart := s.tick } } else done .notHolder s
  | 2 => if s.host.holder = some p then done .granted (changeHolder none s) else done .notHolder s
  | _ =>
    match s.host.holder with
    | none => done .granted (changeHolder (some p) s)
    | some q => if q ≠ p ∧ leaseOver s q then done .granted (changeHolder (some p) s) else done .held s

/-- Decide a request that waited at its port. -/
def decideHeld (p : Port) (s : State) : State :=
  match (portSt s p).heldMove with
  | some (op, e) => decideMove p op e s
  | none => s

/-- GLAREN_SELF_RESET_END: the record, the records and requests that waited, and component G takes effect (R431, R454). -/
def execGlarenSelfResetEnd (s : State) : Out :=
  .next (if s.resets.glarenReady ∨ ¬s.resets.powered then s
    else
      let held := s.resets.heldRecords
      let n := s.resets.droppedRecords
      let s1 := score 0 2 0x0007 0 [] (setResets (fun r => { r with glarenReady := true, heldRecords := [], droppedRecords := 0 }) s)
      let s2 := held.foldl (fun s r => commitScore r s) s1
      let s3 := if n = 0 then s2 else score 0 0 0x000A 0 (leBytes 4 n) s2
      let p := s3.host.heldFirst
      glarenRestarted (decideHeld (Port.other p) (decideHeld p s3)))

/-! ### Clock monitors (R414 to R416, Tables 14.1 and 14.2) -/

/-- The expected count of a window of clock k. -/
def clockExpected (s : State) (k : Nat) : Nat :=
  if k < 4 then (match s.glaren.freq with | 0 => 409600 | 1 => 368640 | 2 => 327680 | _ => 245760)
  else if k < 16 then 218453 else if k < 20 then 73728 else if k < 36 then 272000 else if k < 38 then 163840 else 65536

/-- Whether a count lies within ±0.5 %. -/
def inWindow (e c : Nat) : Bool := decide (199 * e ≤ 200 * c) && decide (200 * c ≤ 201 * e)

/-- The block that a clock drives, where it is one of Table 14.7. -/
def clockBlock (k : Nat) : Option Nat := if 4 ≤ k ∧ k < 38 then some (k + 28) else none

/-- Whether the block on a clock has been released. -/
def clockReleased (s : State) (k : Nat) : Bool :=
  match clockBlock k with
  | some b => s.resets.mgood && decide ((block s b).state = .open_)
  | none => decide (k = 38) || s.resets.mgood

/-- The action on an excursion (Table 14.2). -/
def clockAction (k : Nat) (s : State) : State :=
  if k < 4 then requestWarm 5 s
  else if 20 ≤ k ∧ k < 36 then s
  else if k < 38 then startBlock (k + 28) s
  else glarenSelfReset s

/-- CLOCK_MONITOR_WINDOW: a window of clock k ends; one that contains an AC switch is discarded. A clock is stable with its PLL locked
before the window and one window within the limits. -/
def clockWindow (k : Nat) (locked switched : Bool) (count : BitVec 24) (s : State) : State :=
  if (k < 4 ∧ switched) ∨ ¬s.resets.powered then s
  else
    let ok := inWindow (clockExpected s k) count.toNat
    let bad := clockReleased s k && !ok
    let s1 := setResets (fun r => { r with clocks := Tab.mod (fun _ => Clock.cold) r.clocks k (fun x =>
      { x with locked := locked, stable := x.locked && locked && ok, lastCount := count,
               excursions := if bad then satInc x.excursions else x.excursions }) }) s
    if bad then
      let s2 := match s1.dealer.run with
        | some _ => { s1 with conceal := { s1.conceal with healthClock := true } }
        | none => s1
      clockAction k (score 0 2 0x0040 0 [BitVec.ofNat 8 k] s2)
    else s1

def execClockMonitorWindow (k : Nat) (locked switched : Bool) (count : BitVec 24) (s : State) : Out :=
  withUnit k 39 s (clockWindow k locked switched count)

end Sys2Proof.Machine
end

