-- ==== Sys2Proof/Machine/Link.lean ====
section
/-! DEFINITION. The state of an Unlia link: going DOWN, and whether a port may train or carries a channel (R323, R329, R330,
R437). -/

namespace Sys2Proof.Machine

/-- Whether a port that is enabled may train: its block open, and the module's coordinates known, U0 excepted (R330); in recovery mode
U0 alone. -/
def linkReady (s : State) (u : Nat) : Bool :=
  decide ((block s (48 + u)).state = .open_) &&
    (if s.resets.recovery then s.resets.powered && decide (u = 0) else s.resets.mgood && (decide (u = 0) || s.unlia.nodeValid))

def mayLink (s : State) (u : Nat) : Bool := (uport s u).enable && linkReady s u

/-- A port leaves its link: the replay buffer, the keys and the counts of the link are dropped (R329); a DOWN transition is
counted. -/
def linkDrop (st : LinkState) (x : UPort) : UPort :=
  { x with
    state := st, encrypted := false, reversed := false, refused := false, peerValid := false, keyIndex := 0, rxKeyIndex := 0,
    downCount := if x.state = .up ∨ x.state = .keying then x.downCount + 1 else x.downCount,
    replay := [], resend := [], nextSeq := 0, expected := 0, credits := [], owed := [], sendNak := false, sendSwitch := false,
    nakSeq := 0, nakCount := 0, served := [], roundWeights := x.weights, txCount := 0, rxCount := 0, txKey := [], rxKey := [], pendTx := [], pendRx := [],
    kemId := none, tagFails := [] }

/-- Whether a port carries flits at all. One that does not is DOWN to the route table, retraining included. -/
def linkOn (x : UPort) : Bool := decide (x.state = .up) || decide (x.state = .keying)

/-- The ports other than u by which the table's routes lead to a node (R331, R342). -/
def otherRoutes (s : State) (node : BitVec 15) (u : Nat) : List Nat :=
  let serves (e : W64) : Bool := e.getLsbD 31 && decide (node &&& e.extractLsb' 16 15 = e.extractLsb' 0 15)
  let ports (e : W64) : List Nat := (e.extractLsb' 32 4).toNat :: (if e.getLsbD 40 then [(e.extractLsb' 36 4).toNat] else [])
  let ps := ((s.unlia.routes.filter (fun e => serves e.2)).map (fun e => ports e.2)).flatten
  (List.range 16).filter (fun p => decide (p ≠ u) && ps.contains p && linkOn (uport s p))

/-- A port goes DOWN and retrains at once (R329). A peer that had said HELLO is probed by every other route (R342). -/
def linkDown (u : Nat) (s : State) : State :=
  let x := uport s u
  let s1 := setUPort u (fun x => { linkDrop .training x with probing := if x.peerValid then some s.tick else x.probing }) s
  if x.peerValid then (otherRoutes s1 x.peerNode u).foldl (fun s p => emit (.mgmtVia p x.peerNode Msg.probe []) s) s1 else s1

/-- Whether a port carries channel v: MGMT alone (3) while KEYING (R335), and on U0 of a module without coordinates (R330). -/
def carries (s : State) (u : Nat) (v : Nat) : Bool :=
  let x := uport s u
  linkOn x && (decide (v = 3) || (decide (x.state = .up) && s.unlia.nodeValid && !s.resets.recovery))

end Sys2Proof.Machine
end

