-- ==== Sys2Proof/Machine/RegWrite.lean ====
section
/-! DEFINITION. Writes and reads of BAR0 by the hosts: one function for each writable register, and the commands that make the
accesses (R14 to R17, R36, R39, R112, R180, R203, R273, R284, R296, R359, R369, R382, R393, R399 to R402, R407, R409, R473 to R475,
R495). Each write takes the writing function and the BAR0 offset, for REJECTED_WRITES. -/

namespace Sys2Proof.Machine

/-- An access that reaches a register. -/
def guarded (f : Fn) (r : Reg) (k : State → State) (s : State) : State := if reaches s f r then k s else s

/-- Bit `i` and field of a written value. -/
def wbit (v i : Nat) : Bool := v.testBit i

/-- The function that an owner code names: port in bit 0, function above. -/
def fnOf (code : Nat) : Fn := { port := if code % 2 = 0 then .A else .B, num := code / 2 % 16 }

/-- Vectors of a function (Table 13.1). -/
def vectorsOf (f : Fn) : Nat := if f.num = 0 then 64 else 8

/-! ### The move, events, resets (Table 13.13, Table 14.10) -/

/-- MOVE_REQUEST (R407, R431). -/
def writeMove (f : Fn) (o op : Nat) (expected : W32) (s : State) : State :=
  if (portSt s f.port).result = .pending then reject f o s
  else if s.resets.glarenReady then decideMove f.port op expected s
  else
    let first := if (portSt s (Port.other f.port)).heldMove.isNone then f.port else s.host.heldFirst
    setPort f.port (fun x => { x with result := .pending, heldMove := some (op, expected) })
      { s with host := { s.host with heldFirst := first } }

def moveReq (f : Fn) (op : Nat) (expected : W32) : State → State := guarded f .moveRequest (writeMove f 0x10008 op expected)

def execMoveAcquire (f : Fn) (expected : W32) (s : State) : Out := .next (moveReq f 0 expected s)
def execMoveRenew (f : Fn) (expected : W32) (s : State) : Out := .next (moveReq f 1 expected s)
def execMoveRelease (f : Fn) (expected : W32) (s : State) : Out := .next (moveReq f 2 expected s)
def execMoveTake (f : Fn) (expected : W32) (s : State) : Out := .next (moveReq f 3 expected s)

/-- MOVE_LEASE: the holder only; 0 is discarded. -/
def writeLease (f : Fn) (o v : Nat) : State → State :=
  control f o (fun s => if v % 2 ^ 24 = 0 then reject f o s else { s with host := { s.host with lease := BitVec.ofNat 24 v } })

/-- EVENT_STATUS and EVENT_MASK of the writing port. -/
def writeEvents (f : Fn) (v : Nat) : State → State := setPort f.port (fun x => { x with events := x.events &&& ~~~(BitVec.ofNat 12 v) })
def writeMask (f : Fn) (v : Nat) : State → State := setPort f.port (fun x => { x with mask := BitVec.ofNat 12 v })

/-- RESET_CTRL.WARM. -/
def writeReset (f : Fn) (o v : Nat) : State → State := control f o (fun s => if wbit v 0 then requestWarm 1 s else s)

def execWarmResetRequest (f : Fn) (value : W32) (s : State) : Out := .next (guarded f .resetCtrl (writeReset f 0x10028 value.toNat) s)

/-- BAR2_WINDOW.BASE of the writing port (R389). -/
def writeWindow (f : Fn) (o v : Nat) (s : State) : State :=
  let b := v / 2 ^ 30 % 2 ^ 18
  if windowOk b (portSt s f.port).bar2Log2 then setPort f.port (fun x => { x with base := BitVec.ofNat 18 b }) s else reject f o s

def execBar2WindowWrite (f : Fn) (value : W64) (s : State) : Out := .next (guarded f .bar2Window (writeWindow f 0x10038 value.toNat) s)

/-- A block reset is requested: at once for an immediate one and for a PCIe port, else at the next boundary (R426). -/
def requestBlock (b : Nat) (now : Bool) (s : State) : State :=
  if now ∨ 64 ≤ b then startBlock b s
  else match (block s b).state with
    | .open_ | .fenced => setBlock b (fun x => { x with state := .pending }) s
    | _ => s

/-- BLOCK_RESET (R440). -/
def writeBlockReset (f : Fn) (o v : Nat) : State → State :=
  control f o (fun s => if 65 < v % 128 then reject f o s else requestBlock (v % 128) (wbit v 7) s)

def execBlockReset (f : Fn) (value : W32) (s : State) : Out := .next (guarded f .blockReset (writeBlockReset f 0x10060 value.toNat) s)

/-! ### Queues (Table 13.4) -/

/-- Whether a ring size is a power of two from 16 to 65,536. -/
def sizeOk (n : Nat) : Bool := (List.range 13).any (fun k => decide (n = 2 ^ (k + 4)))

/-- ENABLE: setting it clears an error, and with a bad ring size sets ERROR (R399, Table 13.4). -/
def setEnable (q : Nat) (en : Bool) (s : State) : State :=
  setQueue q (fun k =>
    if !en then { k with enable := false, waiting := false }
    else if k.enable then k
    else
      let ok := sizeOk k.sqSize.toNat && sizeOk k.cqSize.toNat && sizeOk k.orSize.toNat
      { k with enable := true, error := !ok, cause := if ok then 0 else 1, passBase := k.cqTail }) s

/-- Complete one untaken command with FLUSHED. -/
def flushOne (q : Nat) (h : Hdr) (s : State) : State :=
  let t : Ticket := { q := q, index := (queue s q).sqHead, hdr := h }
  finish t Status.flushed (setQueue q (fun k => { k with sqHead := k.sqHead + 1, inFlight := k.inFlight + 1, waiting := false }) s)

/-- FLUSH: every untaken command from SQ_HEAD to SQ_TAIL completes with FLUSHED; `hdrs` are the headers read. A header that
cannot be read stops the queue (R399). -/
def flushQueue (q : Nat) (hdrs : List Hdr) (s : State) : State :=
  let n := ((queue s q).sqTail - (queue s q).sqHead).toNat
  let s1 := (hdrs.take n).foldl (fun s h => flushOne q h s) s
  if hdrs.length < n then stopQueue q 2 s1 else s1

/-- A header whose TAG and IRQ nothing fixes, for a FLUSH written without the ring's contents. -/
def freeHdr (n : Nat) : Hdr :=
  let x := Config.freeNat n
  { wait := false, done := false, irq := x.testBit 16, waitMark := 0, doneMark := 0, tag := BitVec.ofNat 16 x, waitValue := 0 }

/-- The headers of the untaken commands of a queue as free values. -/
def freeHdrs (s : State) (q : Nat) : List Hdr :=
  (List.range ((queue s q).sqTail - (queue s q).sqHead).toNat).map (fun i => freeHdr (s.free + i))

/-- Whether a function may give what `old` owns to `new` (R393, R402). -/
def mayGive (s : State) (f old new : Fn) : Bool :=
  decide (f.num = 0) && (if old.port = new.port then decide (old.port = f.port) else isHolder s f)

/-- Q_CTRL owner fields. -/
def giveQueue (f : Fn) (o q : Nat) (new : Fn) (s : State) : State :=
  let k := queue s q
  if mayGive s f k.owner new ∧ ¬k.enable ∧ k.inFlight = 0 then setQueue q (fun k => { k with owner := new }) s else reject f o s

/-- MARK_OWNER. -/
def giveMark (f : Fn) (o m : Nat) (new : Fn) (s : State) : State :=
  if mayGive s f (mark s m).owner new then markNotify m (setMark m (fun k => { k with owner := new }) s) else reject f o s

/-- The owner of a queue only. -/
def queueOwner (f : Fn) (o q : Nat) (k : State → State) (s : State) : State := if (queue s q).owner = f then k s else reject f o s

/-- The owner code of a function in Q_CTRL's fields: port in bit 8, function in [12:9]. -/
def qOwnerField (v : Nat) : Fn := fnOf (v / 256)

/-- Q_CTRL as one write: ENABLE and FLUSH for the owner, the owner fields under R393. -/
def writeQCtrl (f : Fn) (o q v : Nat) (hdrs : List Hdr) (s : State) : State :=
  let k := queue s q
  let new := qOwnerField v
  let own := decide (k.owner = f)
  let gives := decide (new ≠ k.owner)
  let mayBe := mayGive s f k.owner new && !k.enable && decide (k.inFlight = 0)
  let s1 := if own then
      let s1 := setEnable q (wbit v 0) s
      if wbit v 1 then flushQueue q hdrs s1 else s1
    else s
  let s2 := if gives && mayBe then setQueue q (fun k => { k with owner := new }) s1 else s1
  let bad := (gives && !mayBe) || (!own && (!gives || wbit v 1 || decide (wbit v 0 ≠ k.enable)))
  if bad then reject f o s2 else s2

/-- Offset of a queue page register. -/
def qOffset (q r : Nat) : Nat := 0x100000 + 0x1000 * q + r
def mOffset (m r : Nat) : Nat := 0x200000 + 0x40 * m + r

def execQEnable (f : Fn) (q : Nat) (enable : Bool) (s : State) : Out :=
  withUnit q 256 s (guarded f (.qCtrl q) (queueOwner f (qOffset q 0) q (setEnable q enable)))

def execQFlush (f : Fn) (q : Nat) (hdrs : List Hdr) (s : State) : Out :=
  withUnit q 256 s (guarded f (.qCtrl q) (queueOwner f (qOffset q 0) q (flushQueue q hdrs)))

/-- Q_OWNER_CHANGE of a queue or of a mark. -/
def execQOwnerChange (f : Fn) (mark : Bool) (index : Nat) (owner : Fn) (s : State) : Out :=
  withUnit index (if mark then 4096 else 256) s
    (if mark then guarded f (.markOwner index) (giveMark f (mOffset index 0x10) index owner)
     else guarded f (.qCtrl index) (giveQueue f (qOffset index 0) index owner))

/-- Bases and sizes: not while ENABLE is 1 (R400). -/
def writeBase (f : Fn) (o q ring v : Nat) : State → State :=
  queueOwner f o q (fun s =>
    let a : W64 := BitVec.ofNat 64 (v / 4096 * 4096)
    if (queue s q).enable then reject f o s
    else setQueue q (fun k => match ring with | 0 => { k with sqBase := a } | 1 => { k with cqBase := a } | _ => { k with orBase := a }) s)
def writeSize (f : Fn) (o q ring v : Nat) : State → State :=
  queueOwner f o q (fun s =>
    let n : BitVec 17 := BitVec.ofNat 17 v
    if (queue s q).enable then reject f o s
    else setQueue q (fun k => match ring with | 0 => { k with sqSize := n } | 1 => { k with cqSize := n } | _ => { k with orSize := n }) s)

/-- SQ_TAIL, CQ_HEAD and OR_HEAD. -/
def writeIndex (f : Fn) (o q ring : Nat) (v : W32) : State → State :=
  queueOwner f o q (setQueue q (fun k => match ring with | 0 => { k with sqTail := v } | 1 => { k with cqHead := v } | _ => { k with orHead := v }))

def execSqDoorbell (f : Fn) (q : Nat) (tail : W32) (s : State) : Out :=
  withUnit q 256 s (guarded f (.ringHost q 0) (writeIndex f (qOffset q 0x18) q 0 tail))

/-- Q_VECTOR: both vectors within the owner's count (R400). -/
def writeVector (f : Fn) (o q v : Nat) : State → State :=
  queueOwner f o q (fun s =>
    if vectorsOf f ≤ v % 64 ∨ vectorsOf f ≤ v / 256 % 64 then reject f o s
    else setQueue q (fun k => { k with vector := BitVec.ofNat 32 (v % 128 + 256 * (v / 256 % 128)) }) s)

/-! ### Marks (Table 13.8) -/

/-- MARK_ADD: the owner only; 0 is discarded. -/
def writeMarkAdd (f : Fn) (o m n : Nat) (s : State) : State :=
  if (mark s m).owner ≠ f ∨ n = 0 then reject f o s else addMark m n s

def execMarkAdd (f : Fn) (mark : Nat) (amount : W64) (s : State) : Out :=
  withUnit mark 4096 s (guarded f (.markAdd mark) (writeMarkAdd f (mOffset mark 8) mark amount.toNat))

/-- MARK_NOTIFY_AT and MARK_NOTIFY: a threshold already reached sends at once. -/
def writeNotifyAt (m : Nat) (v : W64) (s : State) : State := markNotify m (setMark m (fun k => { k with notifyAt := v }) s)
def writeNotify (f : Fn) (o m v : Nat) (s : State) : State :=
  if vectorsOf (mark s m).owner ≤ v / 2 % 64 then reject f o s
  else markNotify m (setMark m (fun k => { k with armed := wbit v 0, vector := BitVec.ofNat 6 (v / 2) }) s)

def execMarkNotifyArm (f : Fn) (mark : Nat) (value : W32) (s : State) : Out :=
  withUnit mark 4096 s (guarded f (.markNotify mark) (writeNotify f (mOffset mark 0x20) mark value.toNat))

/-! ### Dealer registers (Tables 1.7, 5.22, 8.7, 9.12) -/

def setDealer (g : Dealer → Dealer) (s : State) : State := { s with dealer := g s.dealer }

/-- A control that takes writes only in phase IDLE. -/
def idleControl (f : Fn) (o : Nat) (k : State → State) : State → State :=
  control f o (fun s => if s.dealer.phase = .idle then k s else reject f o s)

def writeStepNumber (f : Fn) (o : Nat) (v : W64) : State → State := idleControl f o (setDealer (fun d => { d with stepNumber := v }))

def execStepNumberWrite (f : Fn) (value : W64) (s : State) : Out :=
  .next (guarded f .stepNumber (writeStepNumber f 0x300008 value) s)

def writeEvalInterleave (f : Fn) (o v : Nat) : State → State :=
  control f o (setDealer (fun d => { d with evalInterval := BitVec.ofNat 16 v }))

def writeWaitBound (f : Fn) (o v : Nat) : State → State :=
  control f o (fun s => if v % 2 ^ 32 = 0 then reject f o s else setDealer (fun d => { d with waitBound := BitVec.ofNat 32 v }) s)

/-- Whether the recorded fault is one of the running step's current ac or later, so that a clear in this ac applies before it (R180; log entry
76). -/
def faultAfter (s : State) : Bool :=
  match s.dealer.run with
  | some r => (match r.recorded with | some a => decide (r.nowAc ≤ a) | none => false)
  | none => false

/-- FAULT_RECORD.VALID is W1C. -/
def writeFault (f : Fn) (o v : Nat) : State → State :=
  control f o (fun s => if wbit v 0 ∧ ¬faultAfter s then setDealer (fun d => { d with fault := { d.fault with valid := false } }) s else s)

def execFaultRecordClear (f : Fn) (value : W64) (s : State) : Out :=
  .next (guarded f .faultRecord (writeFault f 0x300128 value.toNat) s)

def writePinInterleave (f : Fn) (o v : Nat) : State → State :=
  control f o (setDealer (fun d => { d with pinInterval := BitVec.ofNat 8 v }))

/-- The values that DEAL_CONFIG takes (R296). -/
def dealConfigOk (chunk slots : Nat) : Bool :=
  decide (chunk % 16 = 0) && decide (16 ≤ chunk) && decide (chunk ≤ 1024) && decide (slots ≤ 1024) && decide (slots * chunk / 16 ≤ 4096)

def writeDealConfig (f : Fn) (o v : Nat) : State → State :=
  idleControl f o (fun s =>
    let c := v % 2048
    let n := v / 2048 % 2048
    if dealConfigOk c n then setDealer (fun d => { d with chunk := BitVec.ofNat 11 c, prefillSlots := BitVec.ofNat 11 n }) s
    else reject f o s)

/-- REFILL_CONFIG: the count of launches restarts (R284). -/
def writeRefill (f : Fn) (o v : Nat) : State → State :=
  control f o (setDealer (fun d => { d with refillPeriod := BitVec.ofNat 24 v, refillCount := 0 }))

def execRefillConfigWrite (f : Fn) (value : W32) (s : State) : Out :=
  .next (guarded f .refillConfig (writeRefill f 0x300310 value.toNat) s)

/-- BUDGET_SET: pending until step 4 of the next boundary; the later write of a tenant applies (R284). -/
def writeBudget (f : Fn) (o v : Nat) : State → State :=
  control f o (setDealer (fun d =>
    let n : W32 := BitVec.ofNat 32 (v / 2 ^ 32)
    if wbit v 10 then { d with budgetAll := some n, budgetSets := [] } else { d with budgetSets := Tab.put (v % 1024) n d.budgetSets }))

def execBudgetSet (f : Fn) (value : W64) (s : State) : Out := .next (guarded f .budgetSet (writeBudget f 0x300318 value.toNat) s)

/-- FRAMES (R272, R273). -/
def frameCount (s : State) : Nat :=
  let share := 256 * s.dealer.frameShare.toNat
  let sizes := (List.range 4).map (fun d =>
    let x := obj s (pool s d).dram.toNat
    if x.valid ∧ x.tier = 1 ∧ share ≠ 0 then x.len / share else 0)
  sizes.foldl min 524288

/-- Initialise the page map: pages 0 to FRAMES − 1 free in tier 1 in ascending order, the others TIER 3 (R273). -/
def initPages (s : State) : State :=
  let n := frameCount s
  setDealer (fun d => { d with
    frames := n, freeCount := n, pageTab := [], freeHead := if n = 0 then noPage else 0, freeTail := if n = 0 then noPage else n - 1 }) s

/-- A control that takes writes in phase IDLE with no occupied entry (R273). -/
def pageControl (f : Fn) (o : Nat) (k : State → State) : State → State :=
  idleControl f o (fun s => if occupied s = [] then initPages (k s) else reject f o s)

def writePageConfig (f : Fn) (o v : Nat) : State → State := pageControl f o (setDealer (fun d => { d with frameShare := BitVec.ofNat 16 v }))
def writePagePool (f : Fn) (o d v : Nat) : State → State :=
  let p : Pool := { dram := BitVec.ofNat 16 v, sram := BitVec.ofNat 16 (v / 2 ^ 16), flash := BitVec.ofNat 16 (v / 2 ^ 32) }
  pageControl f o (setDealer (fun x => { x with pools := Tab.set (fun _ => Pool.cold) x.pools d p }))

/-- PAGE_CONFIG_WRITE: PAGE_CONFIG, or PAGE_POOL of a die. -/
def execPageConfigWrite (f : Fn) (pool : Option Nat) (value : W64) (s : State) : Out :=
  match pool with
  | none => .next (guarded f .pageConfig (writePageConfig f 0x300320 value.toNat) s)
  | some d => withUnit d 4 s (guarded f (.pagePool d) (writePagePool f (0x300390 + 8 * d) d value.toNat))

def writeBatchObject (f : Fn) (o v : Nat) : State → State :=
  let put (t : Tab W16) (i : Nat) : Tab W16 := Tab.set (fun _ => (0xFFFF : W16)) t i (BitVec.ofNat 16 (v / 2 ^ (16 * i)))
  idleControl f o (setDealer (fun d => { d with batchObj := (List.range 4).foldl put d.batchObj }))

/-- TENANT[t].REFILL. -/
def writeTenant (f : Fn) (o t v : Nat) : State → State :=
  control f o (setDealer (fun d => { d with refills := Tab.set (fun _ => (0xFFFFFFFF : W32)) d.refills t (BitVec.ofNat 32 (v / 2 ^ 32)) }))

/-! ### Counters and flags (Tables 3.9, 6.7, 7.14) -/

/-- COUNTER_CLEAR (Table 6.7). -/
def writeCounterClear (f : Fn) (o v : Nat) : State → State :=
  control f o (fun s => if wbit v 0 then
      { s with counters := { s.counters with
          stallAc := [], holdAc := [], holdCount := [], boundaries := 0, idleBoundaries := 0, idleTicks := 0, boundaryAc := 0, freqTicks := [] } }
    else s)

def execCounterClear (f : Fn) (value : W32) (s : State) : Out :=
  .next (guarded f .counterClear (writeCounterClear f 0x4002C0 value.toNat) s)

/-- FLAG_CLEAR of cluster k (R112). -/
def writeFlagClear (f : Fn) (o k v : Nat) : State → State :=
  control f o (fun s => if wbit v 0 then clearFlags k s else s)

def execFlagClear (f : Fn) (cluster : Nat) (value : W32) (s : State) : Out :=
  withUnit cluster 32 s (guarded f (.flagClear cluster) (writeFlagClear f (0x410020 + 0x40 * cluster) cluster value.toNat))

/-- BG_SHARE: 0 to 8. -/
def writeBgShare (f : Fn) (o v : Nat) : State → State :=
  control f o (fun s => if 8 < v % 16 then reject f o s else { s with tiers := { s.tiers with bgShare := BitVec.ofNat 4 v } })

/-! ### Unlia ports (R334, R359) -/

/-- PORT_CTRL.ENABLE: 0 takes the port DOWN and holds it, 1 lets it train. -/
def setPortEnable (u : Nat) (en : Bool) (s : State) : State :=
  setUPort u (fun x =>
    if en = x.enable then x
    else if en then { x with enable := true, state := if linkReady s u then .training else .down }
    else { linkDrop .disabled x with enable := false }) s

/-- PORT_CTRL.ENCRYPT: a change on an UP port retrains it. -/
def setPortEncrypt (u : Nat) (en : Bool) (s : State) : State :=
  setUPort u (fun x =>
    if en = x.encrypt then x
    else if x.state = .up then { linkDrop .training x with encrypt := en }
    else { x with encrypt := en }) s

def uOffset (u r : Nat) : Nat := 0x440000 + 0x100 * u + r

def writePortCtrl (f : Fn) (o u v : Nat) : State → State :=
  control f o (fun s => setPortEnable u (wbit v 0) (setPortEncrypt u (wbit v 1) s))

def execPortEnableWrite (f : Fn) (u : Nat) (enable : Bool) (s : State) : Out :=
  withUnit u 16 s (guarded f (.portCtrl u) (control f (uOffset u 8) (setPortEnable u enable)))

def execPortEncryptWrite (f : Fn) (u : Nat) (encrypt : Bool) (s : State) : Out :=
  withUnit u 16 s (guarded f (.portCtrl u) (control f (uOffset u 8) (setPortEncrypt u encrypt)))

/-- VC_WEIGHT: no weight of 0; in force from the next round on. -/
def writeWeights (f : Fn) (o u v : Nat) : State → State :=
  control f o (fun s =>
    if (List.range 4).any (fun i => decide (v / 16 ^ i % 16 = 0)) then reject f o s
    else setUPort u (fun x => { x with weights := BitVec.ofNat 16 v }) s)

/-! ### Twins and replay (R366, R369, R382, R385) -/

/-- MATCHED_STEP restarts from the step number in force. -/
def restartMatch (s : State) : State :=
  { s with conceal := { s.conceal with matched := s.dealer.stepNumber, ownReports := [], twinReports := [] } }

def resumeTwin (s : State) : State :=
  restartMatch { s with conceal := { s.conceal with mismatch := false } }

/-- TWIN_CTRL: ARMED, WINDOW (not 0) and RESUME. -/
def writeTwin (f : Fn) (o v : Nat) : State → State :=
  control f o (fun s =>
    if v / 2 % 256 = 0 then reject f o s
    else
      let s1 := if wbit v 9 then resumeTwin s else s
      let s2 := if wbit v 0 ∧ ¬s1.conceal.armed then restartMatch s1 else s1
      { s2 with conceal := { s2.conceal with armed := wbit v 0, window := BitVec.ofNat 8 (v / 2) } })

def execTwinResume (f : Fn) (value : W32) (s : State) : Out := .next (guarded f .twinCtrl (writeTwin f 0x4C0008 value.toNat) s)

/-- REPLAY_CTRL.UNTIL: replay runs while STEP_NUMBER is below it; 0 disables. -/
def writeReplay (f : Fn) (o : Nat) (v : W64) : State → State :=
  control f o (fun s => { s with conceal := { s.conceal with
    until_ := v, diverged := false } })

def execReplayUntilWrite (f : Fn) (value : W64) (s : State) : Out := .next (guarded f .replayCtrl (writeReplay f 0x4C0058 value) s)

/-! ### Glaren registers (R442, R473 to R475) -/

/-- GOV_CTRL: POWER_LIMIT from 600 to 1,800 W. -/
def writeGov (f : Fn) (o v : Nat) : State → State :=
  control f o (fun s =>
    if v % 4096 < 600 ∨ 1800 < v % 4096 then reject f o s
    else { s with glaren := { s.glaren with powerLimit := BitVec.ofNat 12 v, maxFreq := BitVec.ofNat 2 (v / 4096) } })

def writeSbWindow (v : Nat) (s : State) : State := { s with glaren := { s.glaren with sbBlock := BitVec.ofNat 2 v } }

/-- DEBUG_CTRL: only with OVERRIDE unlocked. -/
def writeDebug (f : Fn) (o v : Nat) : State → State :=
  control f o (fun s =>
    if ¬s.glaren.unlocked.getLsbD 2 ∨ 65 < v % 128 then reject f o s
    else { s with glaren := { s.glaren with debugBlock := BitVec.ofNat 7 v, debugArm := wbit v 7 } })

def execDebugCtrlArm (f : Fn) (value : W32) (s : State) : Out := .next (guarded f .debugCtrl (writeDebug f 0x806004 value.toNat) s)

/-- The nominal clock of a pip group in kHz (R473, Table 14.1). -/
def pipClock (g : Nat) : Nat :=
  if g < 128 then 2500000 else if g < 176 then 1333333 else if g < 192 then 450000 else if g < 240 then 1660160
  else if g < 248 then 1000000 else 400000

/-- Whether PIP_SELECT takes a value: PIP unlocked, and the pin at no more than 200 MHz. MODE 3 is no mode. -/
def pipOk (s : State) (v : Nat) : Bool :=
  let param := v / 32768 % 256
  let clk := pipClock (v % 256)
  s.glaren.unlocked.getLsbD 0 &&
    (match v / 8192 % 4 with
      | 0 => true
      | 1 => decide (clk ≤ 200000 * (param + 1))
      | 2 => decide (clk ≤ 200000 * 2 ^ (param % 16 + 1))
      | _ => false)

def writePip (f : Fn) (o i v : Nat) (s : State) : State :=
  if pipOk s v then
    let x : Pip :=
      { group := BitVec.ofNat 8 v, bit := BitVec.ofNat 5 (v / 256), mode := BitVec.ofNat 2 (v / 8192), param := BitVec.ofNat 8 (v / 32768) }
    { s with glaren := { s.glaren with pips := Tab.set (fun _ => Pip.cold) s.glaren.pips i x } }
  else reject f o s

def execPipSelectWrite (f : Fn) (i : Nat) (value : W32) (s : State) : Out :=
  withUnit i 4 s (guarded f (.pipSelect i) (writePip f (0x806008 + 8 * i) i value.toNat))

/-- A word of the request area or the data buffer of the writing port. -/
def writeMboxWord (f : Fn) (data : Bool) (w : Nat) (v : W64) : State → State :=
  setPort f.port (fun x =>
    let put (t : Tab Byte) : Tab Byte := tabStore (8 * w) (leBytes 8 v.toNat) t
    if data then { x with mboxData := put x.mboxData } else { x with mboxReq := put x.mboxReq })

/-- MBOX_DOORBELL: a request starts, unless one is in progress. An opcode that Table 15.2 does not list is answered at once. -/
def writeDoorbell (f : Fn) (o v : Nat) (s : State) : State :=
  if ¬wbit v 0 then s
  else if (portSt s f.port).mboxBusy then reject f o s
  else setPort f.port (fun x =>
    let op := Tab.get (fun _ => (0 : Byte)) x.mboxReq 0
    if 1 ≤ op.toNat ∧ op.toNat ≤ 13 then { x with mboxBusy := true, mboxDone := false, mboxOp := op }
    else { x with mboxDone := true, mboxOp := op, mboxStatus := 1, mboxResp := [] }) s

/-- MBOX_STATUS.DONE is W1C. -/
def writeMboxStatus (f : Fn) (v : Nat) : State → State :=
  setPort f.port (fun x => if wbit v 1 then { x with mboxDone := false } else x)

/-! ### Any register -/

/-- A write of a register, whatever it is; one that no table makes writable ignores it (R14). -/
def regWrite (f : Fn) (o : Nat) (r : Reg) (v : W64) (s : State) : State :=
  let n := v.toNat
  match r with
  | .moveRequest => writeMove f o (n % 4) (BitVec.ofNat 32 (n / 2 ^ 32)) s
  | .moveLease => writeLease f o n s
  | .eventStatus => writeEvents f n s
  | .eventMask => writeMask f n s
  | .resetCtrl => writeReset f o n s
  | .bar2Window => writeWindow f o n s
  | .blockReset => writeBlockReset f o n s
  | .qCtrl q => writeQCtrl f o q n (freeHdrs s q) { s with free := s.free + (freeHdrs s q).length }
  | .ringBase q ring => writeBase f o q ring n s
  | .ringSize q ring => writeSize f o q ring n s
  | .ringHost q ring => writeIndex f o q ring (BitVec.ofNat 32 n) s
  | .qVector q => writeVector f o q n s
  | .markAdd m => writeMarkAdd f o m n s
  | .markOwner m => giveMark f o m (fnOf n) s
  | .markNotifyAt m => writeNotifyAt m v s
  | .markNotify m => writeNotify f o m n s
  | .stepNumber => writeStepNumber f o v s
  | .evalInterleave => writeEvalInterleave f o n s
  | .waitBound => writeWaitBound f o n s
  | .faultRecord => writeFault f o n s
  | .pinInterleave => writePinInterleave f o n s
  | .dealConfig => writeDealConfig f o n s
  | .refillConfig => writeRefill f o n s
  | .budgetSet => writeBudget f o n s
  | .pageConfig => writePageConfig f o n s
  | .pagePool d => writePagePool f o d n s
  | .batchObject => writeBatchObject f o n s
  | .tenant t => writeTenant f o t n s
  | .counterClear => writeCounterClear f o n s
  | .flagClear k => writeFlagClear f o k n s
  | .bgShare => writeBgShare f o n s
  | .portCtrl u => writePortCtrl f o u n s
  | .vcWeight u => writeWeights f o u n s
  | .twinCtrl => writeTwin f o n s
  | .replayCtrl => writeReplay f o v s
  | .govCtrl => writeGov f o n s
  | .sbWindow => writeSbWindow n s
  | .debugCtrl => writeDebug f o n s
  | .pipSelect i => writePip f o i n s
  | .mboxRequest w => writeMboxWord f false w v s
  | .mboxData w => writeMboxWord f true w v s
  | .mboxDoorbell => writeDoorbell f o n s
  | .mboxStatus => writeMboxStatus f n s
  | _ => s

/-- A write of a whole register at an offset: nothing where no register answers (R16, R388, R495). -/
def writeAt (f : Fn) (o : Nat) (v : W64) (s : State) : State :=
  match regAt o with
  | some r => guarded f r (regWrite f o r (if r.narrow then v &&& 0xFFFFFFFF else v)) s
  | none => s

/-- REGISTER_WRITE. -/
def execRegisterWrite (f : Fn) (offset : Nat) (value : W64) (s : State) : Out := .next (writeAt f offset value s)

/-! ### Reads (R14, R17) -/

/-- What a read clears: the RC fields, and the 1 ms peak of MODULE_POWER. -/
def readClear (r : Reg) (s : State) : State :=
  match r with
  | .skipCount i => setDealer (fun d => { d with skip := Tab.drop i d.skip }) s
  | .endCount i => setDealer (fun d => { d with ends := Tab.drop i d.ends }) s
  | .pageErrors => setDealer (fun d => { d with pageErrors := 0 }) s
  | .collErrors k => { s with unlia := { s.unlia with collErrors := Tab.drop k s.unlia.collErrors } }
  | .rejectedWrites => { s with host := { s.host with rejected := 0 } }
  | .modulePower => { s with glaren := { s.glaren with peak1ms := 0 } }
  | _ => s

/-- Clear what a read of an offset clears. -/
def clearAt (f : Fn) (o : Nat) (s : State) : State :=
  match regAt o with
  | some r => guarded f r (readClear r) s
  | none => s

/-- READ_CLEAR: a read of a register; RC fields clear after the value is taken. -/
def execReadClear (f : Fn) (offset : Nat) (s : State) : Out :=
  .next (emit (.regValue f offset (readAt s f offset)) (clearAt f offset s))

/-- Whether a register of 64 bits starts at an offset. -/
def wideAt (o : Nat) : Bool := match regAt o with | some r => !r.narrow | none => false

/-- The latches of a port, one for each function and register. -/
def latchKey (f : Fn) (o : Nat) : Nat := 0x4000000 * f.num + o

/-- The latched half of a register, where there is one. -/
def latched (t : Tab W32) (k : Nat) : Option W32 := (t.find? (fun e => decide (e.1 = k))).map (fun e => e.2)

/-- A 32-bit read: the low half latches the high half for the function that reads. A high half that nothing has latched reads as it is
now (DESIGN CHOICE, log entry 67). -/
def halfRead (f : Fn) (o : Nat) (s : State) : State :=
  if wideAt o then
    let v := (readAt s f o).toNat
    emit (.regValue f o (BitVec.ofNat 64 (v % 2 ^ 32)))
      (setPort f.port (fun x => { x with latchHi := Tab.put (latchKey f o) (BitVec.ofNat 32 (v / 2 ^ 32)) x.latchHi }) (clearAt f o s))
  else if 4 ≤ o ∧ wideAt (o - 4) then
    match latched (portSt s f.port).latchHi (latchKey f (o - 4)) with
    | some v =>
      emit (.regValue f o (v.zeroExtend 64))
        (setPort f.port (fun x => { x with latchHi := Tab.drop (latchKey f (o - 4)) x.latchHi }) s)
    | none => emit (.regValue f o (readAt s f (o - 4) >>> 32)) s
  else emit (.regValue f o (readAt s f o)) (clearAt f o s)

/-- A 32-bit write: the low half waits for the high half. A high half before which no low half was written is discarded (DESIGN CHOICE,
log entry 67). -/
def halfWrite (f : Fn) (o : Nat) (v : W32) (s : State) : State :=
  if wideAt o then setPort f.port (fun x => { x with latchLo := Tab.put (latchKey f o) v x.latchLo }) s
  else if 4 ≤ o ∧ wideAt (o - 4) then
    match latched (portSt s f.port).latchLo (latchKey f (o - 4)) with
    | some lo =>
      writeAt f (o - 4) (BitVec.ofNat 64 (lo.toNat + 2 ^ 32 * v.toNat))
        (setPort f.port (fun x => { x with latchLo := Tab.drop (latchKey f (o - 4)) x.latchLo }) s)
    | none => s
  else writeAt f o (v.zeroExtend 64) s

/-- REG64_HALF_ACCESS. -/
def execReg64HalfAccess (f : Fn) (offset : Nat) (write : Option W32) (s : State) : Out :=
  .next (match write with
    | none => halfRead f offset s
    | some v => halfWrite f offset v s)

end Sys2Proof.Machine
end

