-- ==== Sys2Proof/Machine/Mailbox.lean ====
section
/-! DEFINITION. Glaren serves a mailbox request (Table 15.2, R438, R442, R458, R464 to R469, R472). Each command is the moment at
which Glaren carries out the request that waits in a port's mailbox, with the arguments that the request area and the data buffer
hold (log entry 12). -/

namespace Sys2Proof.Machine

/-- Whether a request with an opcode waits at a port. -/
def mboxWaits (p : Port) (op : Nat) (s : State) : Bool :=
  s.resets.powered && s.resets.glarenReady && (portSt s p).mboxBusy && decide ((portSt s p).mboxOp.toNat = op)

/-- The response is written, DONE is set. -/
def mboxAnswer (p : Port) (status : Byte) (resp : List Byte) (s : State) : State :=
  setPort p (fun x => { x with mboxBusy := false, mboxDone := true, mboxStatus := status, mboxResp := tabStore 0 resp [] }) s

/-- Answer with a status of Table 15.2 and no data. -/
def mboxStatus (p : Port) (status : Nat) (s : State) : State := mboxAnswer p (BitVec.ofNat 8 status) [] s

/-- A refusal to which the manual gives no status: a free value. -/
def mboxOpen (p : Port) (s : State) : State :=
  let s1 := mboxAnswer p (Config.freeByte s.free) [] s
  { s1 with free := s.free + 1 }

/-- Serve a request: `needs` the move, `rec_` accepted in recovery mode. -/
def mboxServe (p : Port) (op : Nat) (needs rec_ : Bool) (k : State → State) (s : State) : Out :=
  .next (if !mboxWaits p op s then s
    else if s.resets.recovery then
      if rec_ ∧ p = .A then k s else if needs then mboxStatus p Mbox.notMove s else mboxOpen p s
    else if needs ∧ s.host.holder ≠ some p then mboxStatus p Mbox.notMove s
    else k s)

/-! ### Host records (R458) -/

/-- One 64-byte record of the data buffer, with the host's OUTCOME, CODE, STEP and DATA. -/
def hostScore (p : Port) (r : List Byte) (s : State) : State :=
  score (9 + Port.idx p) (fieldAt r 0x21 1) (fieldAt r 0x22 2) (BitVec.ofNat 64 (fieldAt r 0x24 8)) ((r.drop 0x2C).take 16) s

def sbAppend (p : Port) (count : Nat) (s : State) : State :=
  let recs := (List.range count).map (fun i => tabSlice 64 (64 * i) (portSt s p).mboxData)
  let now := s.glaren.gcTick
  let recent := (portSt s p).appended.filter (fun t => decide ((now - t).toNat < 1000000))
  if count < 1 ∨ 16 < count then mboxStatus p Mbox.badLength s
  else if recs.any (fun r => decide (fieldAt r 0x22 2 < 0x8000)) then mboxOpen p s
  else if 64 < recent.length + count then mboxStatus p Mbox.rate s
  else
    mboxStatus p Mbox.ok (recs.foldl (fun s r => hostScore p r s)
      (setPort p (fun x => { x with appended := recent ++ List.replicate count now }) s))

def execSbAppend (port : Port) (count : Nat) (s : State) : Out := mboxServe port 0x01 false false (sbAppend port count) s

/-! ### Updates (R464 to R468) -/

/-- Whether the token is held here or an apply runs. -/
def updateBusy (u : Update) : Bool := u.token.isSome || decide (u.state = 5) || decide (u.state = 6)

def updateBegin (p : Port) (imageLength chainLength : Nat) (s : State) : State :=
  if updateBusy s.glaren.update then mboxStatus p Mbox.updateState s
  else if 24 * 2 ^ 20 < imageLength ∨ 16384 < chainLength then mboxStatus p Mbox.badLength s
  else mboxStatus p Mbox.ok (setUpdate (fun u =>
    { u with state := 1, image := [], imageLength := imageLength, chainLength := chainLength, chain := [], forwardTo := none }) s)

def execUpdateBegin (port : Port) (imageLength chainLength : Nat) (s : State) : Out :=
  mboxServe port 0x02 true true (updateBegin port imageLength chainLength) s

def updateData (p : Port) (offset length : Nat) (s : State) : State :=
  let u := s.glaren.update
  if u.state ≠ 1 then mboxStatus p Mbox.updateState s
  else if 2 ^ 20 < length ∨ u.imageLength + 2 * u.chainLength < offset + length then mboxStatus p Mbox.badLength s
  else mboxStatus p Mbox.ok (setUpdate (fun u =>
    { u with image := tabStore offset (tabSlice length 0 (portSt s p).mboxData) u.image }) s)

def execUpdateData (port : Port) (offset length : Nat) (s : State) : Out :=
  mboxServe port 0x03 true true (updateData port offset length) s

/-- The chain that follows the bundle in the image. -/
def imageChain (u : Update) : List (BitVec 15) :=
  (List.range u.chainLength).map (fun i => BitVec.ofNat 15 (ofLe (tabSlice 2 (u.imageLength + 2 * i) u.image)))

/-- UPDATE_END: `settingsOk` is the settings check of R464 and `readBackOk` that of slot B. -/
def updateEnd (p : Port) (settingsOk readBackOk : Bool) (s : State) : State :=
  if s.glaren.update.state ≠ 1 then mboxStatus p Mbox.updateState s
  else
    let r := storeBundle settingsOk readBackOk (setUpdate (fun u => { u with state := 2, chain := imageChain u, chainPos := 0 }) s)
    mboxStatus p r.2 r.1

def execUpdateEnd (port : Port) (settingsOk readBackOk : Bool) (s : State) : Out :=
  mboxServe port 0x04 true true (updateEnd port settingsOk readBackOk) s

/-- Start the token from chain position 0; it knows the first holder. -/
def startToken (timeout : Nat) (s : State) : State :=
  let ps := toVisit s.glaren.update
  passToken timeout ps (setUpdate (fun u =>
    { u with tokenTimeout := timeout, tokenAt := ps.head?, visitSince := s.glaren.gcTick }) s)

def applyStart (p : Port) (timeout : Nat) (s : State) : State :=
  let u := s.glaren.update
  if ¬(timeout = 0 ∨ (60 ≤ timeout ∧ timeout ≤ 86400)) then mboxOpen p s
  else if u.chain = [] ∨ u.chainPos ≠ 0 ∨ u.tokenAt.isSome ∨ updateBusy u then mboxStatus p Mbox.updateState s
  else mboxStatus p Mbox.ok (startToken (if timeout = 0 then 3600 else timeout) s)

def execApplyStart (port : Port) (timeout : Nat) (s : State) : Out := mboxServe port 0x05 true false (applyStart port timeout) s

/-- Recovery mode ends with a reason: START_OK, and a cold start from step 2 (R438). -/
def leaveRecovery (reason : Nat) (s : State) : State :=
  beginCold 0 (score 0 0 0x0002 0 [BitVec.ofNat 8 reason] (setResets (fun r => { r with recovery := false, failedStarts := 0 })
    { s with glaren := { s.glaren with migrating := false } }))

/-- Apply in recovery mode: every component is copied, then a cold start (R467). -/
def recoveryApply (s : State) : State :=
  let changed := applyOrder.filter (fun c => match s.glaren.update.manifest[c]? with
    | some e => decide (e.version ≠ (slotA s c).version)
    | none => false)
  let s1 := changed.foldl (fun s c => score 0 0 0x0052 0 [BitVec.ofNat 8 c] (setUpdate (fun u =>
    { u with slotA := (match u.manifest[c]? with | some e => Tab.put c e u.slotA | none => u.slotA) }) s)) s
  let s2 := setUpdate (fun u => { u with state := 7, nextAction := 0, incoming := false }) s1
  leaveRecovery 1 (releaseToken (reportResult s2.glaren.update.chainPos UResult.applied s2))

def applyRequest (p : Port) (s : State) : State :=
  if s.resets.recovery then
    if s.glaren.update.manifest = [] then mboxStatus p Mbox.updateState s else recoveryApply (mboxStatus p Mbox.ok s)
  else if s.glaren.update.state = 5 then mboxStatus p Mbox.ok (beginApply s)
  else mboxStatus p Mbox.updateState s

def execApply (port : Port) (s : State) : Out := mboxServe port 0x06 true true (applyRequest port) s

/-! ### Recovery, engines, security, settings -/

def execRecoveryExit (port : Port) (s : State) : Out :=
  mboxServe port 0x07 false true (fun s =>
    if s.resets.recovery then leaveRecovery 2 (mboxStatus port Mbox.ok s) else mboxStatus port Mbox.notRecovery s) s

/-- ENGINE_SERVICE: mark an engine failed, or let the next cold start's self-test clear it. -/
def serviceEngine (p : Port) (k e : Nat) (clear : Bool) (s : State) : State :=
  let others := s.glaren.clearPending.filter (fun x => decide (x ≠ (k, e)))
  if s.dealer.phase ≠ .idle then mboxStatus p Mbox.notIdle s
  else if clear then
    mboxStatus p Mbox.ok { s with glaren := { s.glaren with clearPending := others ++ [(k, e)] } }
  else mboxStatus p Mbox.ok (failEngine k e { s with glaren := { s.glaren with clearPending := others } })

/-- Of an engine that the module does not have the manual says nothing: after the checks that every service request meets, nothing is
marked, and the status is a free value (DESIGN CHOICE, log entry 2). -/
def serviceNoEngine (p : Port) (s : State) : State :=
  if s.dealer.phase ≠ .idle then mboxStatus p Mbox.notIdle s
  else mboxOpen p s

def execEngineService (port : Port) (cluster engine : Nat) (clear : Bool) (s : State) : Out :=
  mboxServe port 0x08 true false
    (if cluster < 32 ∧ engine < 9 then serviceEngine port cluster engine clear else serviceNoEngine port) s

def securityCommit (p : Port) (s : State) : State :=
  mboxStatus p Mbox.ok (score 0 0 0x0056 0 [] { s with glaren := { s.glaren with
    securityMin := (List.range 5).foldl (fun t c => natSet t c (max (securityMin s c) (running s c).security)) s.glaren.securityMin } })

def execSecurityCommit (port : Port) (s : State) : Out := mboxServe port 0x0C true false (securityCommit port) s

/-- SETTINGS_READ: MAGIC of the bank; the manual gives neither the layout of the rest nor its length, which are free. -/
def settingsRead (p : Port) (s : State) : State :=
  let n := Config.freeNat s.free % (2 ^ 20 - 4)
  let bank := leBytes 4 0x4B484531 ++ freeBytes (s.free + 1) n
  mboxStatus p Mbox.ok (setPort p (fun x => { x with mboxData := tabStore 0 bank x.mboxData }) { s with free := s.free + 1 + n })

def execSettingsRead (port : Port) (s : State) : Out := mboxServe port 0x0D false false (settingsRead port) s

/-! ### Debug unlock (R472) -/

/-- The 64 bytes of a challenge: nonce, serial, BOOT_COUNT, scope, 11 zero bytes. -/
def challengeBytes (s : State) (scope : BitVec 3) : List Byte :=
  (Config.freeNonce s.free ++ List.replicate 32 0).take 32 ++ (List.range 16).map Config.moduleIdent ++
    leBytes 4 s.resets.bootCount.toNat ++ [scope.zeroExtend 8] ++ List.replicate 11 0

def debugChallenge (p : Port) (scope : BitVec 3) (s : State) : State :=
  let c := challengeBytes s scope
  mboxAnswer p 0 c { s with free := s.free + 1, glaren := { s.glaren with challenge := some (c, scope, s.glaren.gcTick) } }

def execDebugChallenge (port : Port) (scope : BitVec 3) (s : State) : Out :=
  mboxServe port 0x09 true true (debugChallenge port scope) s

/-- A scope is unlocked: measurement 7 takes the challenge in, and the record is written. -/
def unlock (c : List Byte) (scope : BitVec 3) (s : State) : State :=
  score 0 0 0x0054 0 [scope.zeroExtend 8] { s with glaren := { s.glaren with
    unlocked := s.glaren.unlocked ||| scope, measure7 := shake256 64 (s.glaren.measure7 ++ c) } }

def debugResponse (p : Port) (publicKey signature : List Byte) (s : State) : State :=
  let s1 := { s with glaren := { s.glaren with challenge := none } }
  match s.glaren.challenge with
  | none => mboxStatus p Mbox.challenge s
  | some (c, scope, t) =>
    if 600000000 ≤ (s.glaren.gcTick - t).toNat then mboxStatus p Mbox.challenge s1
    else if shake256 64 publicKey = Config.anchorDebug ∧ Config.slhVerify publicKey c signature then
      mboxStatus p Mbox.ok (unlock c scope s1)
    else mboxStatus p Mbox.signature s1

def execDebugResponse (port : Port) (publicKey signature : List Byte) (s : State) : Out :=
  mboxServe port 0x0A true true (debugResponse port publicKey signature) s

def execDebugLock (port : Port) (s : State) : Out :=
  mboxServe port 0x0B false false (fun s =>
    mboxStatus port Mbox.ok (score 0 0 0x0055 0 [] { s with glaren := { s.glaren with unlocked := 0 } })) s

/-- DEBUG_CHALLENGE_EXPIRY: 600 s after it was returned, a challenge is no longer valid. -/
def execDebugChallengeExpiry (s : State) : Out :=
  .next (match s.glaren.challenge with
    | some (_, _, t) =>
      if 600000000 ≤ (s.glaren.gcTick - t).toNat then { s with glaren := { s.glaren with challenge := none } } else s
    | none => s)

/-- TEST_ACCESS_PORT: with TAP locked no pin movement has an effect; with TAP unlocked the port serves, in a way that the manual
does not give (R474). -/
def execTestAccessPort (trstLow tmsMoved serve : Bool) (s : State) : Out :=
  if s.glaren.unlocked.getLsbD 1 ∧ serve ∧ tmsMoved ∧ ¬trstLow then .refused .tapService else .next s

end Sys2Proof.Machine
end

