-- ==== Sys2Proof/Machine/Tray.lean ====
section
/-! DEFINITION. The tray controller's commands (Table 15.3, R330, R443) and the DOE objects of each port's PF (R460, R462, R463,
Table 15.8). -/

namespace Sys2Proof.Machine

/-! ### The tray -/

/-- Glaren answers the tray in every state in which it has power. -/
def trayAnswer (bs : List Byte) (s : State) : State := if s.resets.powered then emit (.tray bs) s else s

def execIdentity (s : State) : Out := .next (trayAnswer moduleIdentBytes s)

/-- The node ID that coordinates form (R330). -/
def nodeOf (slot tray : BitVec 3) (rack : BitVec 8) (hall : BitVec 1) : BitVec 15 := hall ++ rack ++ tray ++ slot

/-- COORDINATES: NODE_ID at once when it was missing, else at the next start. -/
def execCoordinates (slot tray : BitVec 3) (rack : BitVec 8) (hall : BitVec 1) (s : State) : Out :=
  .next (if s.resets.powered then
      let s1 := { s with glaren := { s.glaren with trayCoords := some (nodeOf slot tray rack hall) } }
      if s.unlia.nodeValid then s1 else startNode s1
    else s)

/-- The bytes of one sensor: 16 bits of temperature, or the word of RAIL[r]. -/
def sensorBytes (s : State) (i : Nat) : List Byte :=
  if i < 48 then leBytes 2 (signedField 16 (Tab.get (fun _ => Sensor.cold) s.glaren.temps i).value)
  else if i < 72 then leBytes 8 (railWord (Tab.get (fun _ => Sensor.cold) s.glaren.rails (i - 48)))
  else leBytes 2 (signedField 16 (if i = 72 then s.glaren.inlet.value else s.glaren.outlet.value))

def execSensors (index : Nat) (s : State) : Out := withUnit index 74 s (fun s => trayAnswer (sensorBytes s index) s)

def execAlert (s : State) : Out := .next (trayAnswer (leBytes 4 (alertWord s)) s)

/-- SCOREBOOK: past the last index the manual gives no record, and the bytes are free. -/
def execScorebook (index : W32) (s : State) : Out :=
  .next (if index.toNat < 262144 then trayAnswer (scoreBytes s index.toNat) s
    else trayAnswer (freeBytes s.free 64) { s with free := s.free + 64 })

def execSbNext (s : State) : Out := .next (trayAnswer (leBytes 8 s.glaren.sbNext.toNat) s)

/-! ### DOE -/

/-- Whether a port's PF answers DOE. -/
def doeServes (p : Port) (s : State) : Bool := s.resets.powered && s.resets.glarenReady && (portSt s p).linkUp

/-- DOE_DISCOVERY: the vendor ID and object type of each protocol. -/
def execDoeDiscovery (port : Port) (s : State) : Out :=
  let v := (List.range 2).map Config.vendorId
  .next (if doeServes port s then emit (.doe port ([1, 0, 0] ++ v ++ [1] ++ v ++ [2])) s else s)

/-- ATTESTATION_REPORT: a port has one request at a time. -/
def execAttestationReport (port : Port) (nonce : List Byte) (s : State) : Out :=
  .next (if doeServes port s ∧ ¬s.glaren.reports.any (fun r => decide (r.1 = port)) then
      { s with glaren := { s.glaren with reports := s.glaren.reports ++ [(port, nonce)] } }
    else s)

/-- The eight measurements (R462). -/
def measurements (s : State) : List Byte :=
  let u := s.glaren.update
  let ran (t : Tab ManifestEntry) (c : Nat) : ManifestEntry := Tab.get Config.factory t c
  (List.range 64).map Config.romDigest ++
    ((List.range 5).map (fun c => (List.range 64).map (Config.componentDigest c (ran u.measured c)))).flatten ++
    (List.range 64).map (Config.slotDigest ((List.range 5).map (ran u.measuredSlot)) u.measuredIn) ++ s.glaren.measure7

/-- Bytes 0x0000 to 0x037F of a report. -/
def reportBody (nonce : List Byte) (s : State) : List Byte :=
  let flags := pack [(0, flag (decide (s.glaren.measure7 ≠ List.replicate 64 0))), (1, flag s.resets.recovery),
    (2, flag s.glaren.update.slotB), (3, flag s.glaren.holdupLow)]
  leBytes 4 0x4B484131 ++ leBytes 2 1 ++ leBytes 2 flags ++ nonce ++ moduleIdentBytes ++
    ((List.range 12).map dieIdentBytes).flatten ++ ((List.range 5).map (fun c => leBytes 4 (running s c).version.toNat)).flatten ++
    leBytes 4 (epochOf s).toNat ++ leBytes 4 s.resets.bootCount.toNat ++ leBytes 4 s.host.epoch.toNat ++
    leBytes 8 s.glaren.gcTick.toNat ++ ((List.range 5).map (fun c => leBytes 2 (securityMin s c))).flatten ++ leBytes 6 0 ++
    measurements s ++ (List.range 64).map Config.devicePublicKey

/-- REPORT_SIGNED: the oldest queued report is signed and returned. -/
def execReportSigned (s : State) : Out :=
  .next (match s.glaren.reports with
    | [] => s
    | (p, nonce) :: rest =>
      let body := reportBody nonce s
      if s.resets.powered ∧ s.resets.glarenReady then
        emit (.doe p (body ++ Config.slhSign body)) { s with glaren := { s.glaren with reports := rest } }
      else s)

/-- DEVICE_CERTIFICATE: magic, serial, device public key, CA public key, CA signature: 29,940 bytes (R460). -/
def execDeviceCertificate (port : Port) (s : State) : Out :=
  .next (if doeServes port s then emit (.doe port ((List.range 29940).map Config.deviceCertificate)) s else s)

def execDoeAbort (port : Port) (s : State) : Out :=
  .next { s with glaren := { s.glaren with reports := s.glaren.reports.filter (fun r => decide (r.1 ≠ port)) } }

end Sys2Proof.Machine
end

