-- ==== Sys2Proof/Machine/Sensors.lean ====
section
/-! DEFINITION. Sensors, limits, the two frequency caps, the hold-up bank and the summary records (section 15.2, R361, R448, R451,
R457, R487, R489). A sample comes with its reading (log entry 14). -/

namespace Sys2Proof.Machine

/-! ### Limits (Tables 15.4 and 16.7): temperatures in 1/16 °C, rails in mV -/

/-- Warn and Critical of a temperature point. -/
def tempLimits (i : Nat) : Int × Int :=
  if i < 32 then (1600, 1760) else if i < 44 then (1520, 1680) else if i < 46 then (1200, 1360) else (1760, 2000)

/-- Nominal voltage of a rail in mV; VCORE follows the frequency. -/
def railNominal (s : State) (r : Nat) : Int :=
  if r = 0 then 48000
  else if r ≤ 4 then (match s.glaren.freq with | 0 => 750 | 1 => 720 | 2 => 690 | _ => 630)
  else if r ≤ 8 then 800
  else if r = 9 then 1200
  else if r = 10 then 900
  else if r ≤ 18 then (match (r - 11) % 4 with | 0 => 1800 | 1 => 1050 | 2 => 900 | _ => 500)
  else if r = 19 then 2500
  else if r = 20 then 1200
  else if r = 21 then 900
  else 3300

/-- Whether a rail voltage lies within n thousandths of its nominal; the limits of rail 0 are 46 and 56 V. -/
def railWithin (s : State) (r : Nat) (n : Int) (v : Int) : Bool :=
  let x := railNominal s r
  decide (1000 * (v - x) ≤ n * x) && decide (1000 * (x - v) ≤ n * x)

/-- Whether a rail reads outside its Warn limit, by a margin of `m` thousandths inside it. -/
def railWarn (s : State) (r : Nat) (m : Int) (v : Int) : Bool :=
  if r = 0 then decide (v < 46000 + 48 * m) || decide (56000 - 48 * m < v)
  else if r = 23 then false
  else !railWithin s r (30 - m) v

/-- Whether a reading lies beyond its Warn limit less a margin of 5 °C or 1 %. Index as in SENSORS. At the limit itself a temperature
counts as beyond it (DESIGN CHOICE, log entry 14). -/
def overWarn (s : State) (i : Nat) (margin : Bool) (v : Int) : Bool :=
  let d : Int := if margin then 80 else 0
  if i < 48 then decide ((tempLimits i).1 - d ≤ v)
  else if i < 72 then railWarn s (i - 48) (if margin then 10 else 0) v
  else if i = 72 then decide (640 - d < v) || decide (v < 192 + d)
  else decide (880 - d < v) || decide (320 - d < v - s.glaren.inlet.value)

/-- Whether a reading is Critical; a rail needs 100 µs, which is two samples. -/
def overCritical (s : State) (i : Nat) (old v : Int) : Bool :=
  if i < 48 then decide ((tempLimits i).2 ≤ v)
  else if i < 72 then
    decide (i ≠ 48) && decide (i ≠ 71) && decide (old ≠ 0) && !railWithin s (i - 48) 50 v && !railWithin s (i - 48) 50 old
  else if i = 72 then decide (720 < v)
  else decide (960 < v)

/-- Whether a sensor's limits are applied: power rails while the dies run, the rest unless the module has shut down. -/
def judged (s : State) (i : Nat) : Bool :=
  if 49 ≤ i ∧ i ≤ 68 then s.resets.mgood
  else if 69 ≤ i ∧ i ≤ 70 then true
  else !s.resets.shutdown

/-! ### Sensors in State -/

def sensorAt (s : State) (i : Nat) : Sensor :=
  if i < 48 then Tab.get (fun _ => Sensor.cold) s.glaren.temps i
  else if i < 72 then Tab.get (fun _ => Sensor.cold) s.glaren.rails (i - 48)
  else if i = 72 then s.glaren.inlet else s.glaren.outlet

def setSensor (i : Nat) (f : Sensor → Sensor) (s : State) : State :=
  let g := s.glaren
  { s with glaren :=
      if i < 48 then { g with temps := Tab.mod (fun _ => Sensor.cold) g.temps i f }
      else if i < 72 then { g with rails := Tab.mod (fun _ => Sensor.cold) g.rails (i - 48) f }
      else if i = 72 then { g with inlet := f g.inlet } else { g with outlet := f g.outlet } }

/-- The code of a crossing's record. -/
def sensorCode (i : Nat) : Nat := if i < 48 then 0x0042 else if i < 72 then 0x0043 else 0x0044

def sensorRecord (i : Nat) (v : Int) (s : State) : State :=
  score 12 0 (sensorCode i) (match s.dealer.run with | some r => r.step | none => 0)
    (leBytes 1 i ++ leBytes 4 (signedField 32 v)) s

/-- STEP_HEALTH.SUPPLY of the running step. -/
def supplyHealth (s : State) : State :=
  match s.dealer.run with
  | some _ => { s with conceal := { s.conceal with healthSupply := true } }
  | none => s

/-- A protective shutdown: every rail but 21 to 23 loses power (R445). -/
def shutDown (s : State) : State := setResets (fun r => { r with shutdown := true, retry := false }) (diesOff s)

/-- LEVEL of a reading below Warn: throttle from 95 °C on the compute package. -/
def calmLevel (i : Nat) (v : Int) : BitVec 2 := if i < 32 ∧ 1520 ≤ v then 1 else 0

/-- Take a reading in: its value, its level, the time it has stayed inside its limit, and the crossings' effects (R445). -/
def readSensor (i : Nat) (v : Int) (amps : Nat) (s : State) : State :=
  let x := sensorAt s i
  let warn := x.level.getLsbD 1
  let put (l : BitVec 2) (since : W64) : State → State :=
    setSensor i (fun x => { x with value := v, maxV := max x.maxV v, amps := amps, level := l, warnSince := since })
  if ¬judged s i then put x.level x.warnSince s
  else if overCritical s i x.value v then shutDown (sensorRecord i v (put 3 0 s))
  else if overWarn s i false v then
    if warn then put 2 0 s else sensorRecord i v (supplyHealth (put 2 0 s))
  else if warn then
    put 2 (if overWarn s i true v then 0 else if x.warnSince = 0 then s.glaren.gcTick + 1 else x.warnSince) s
  else put (calmLevel i v) 0 s

/-! ### Caps and power (R448, R451) -/

/-- The thermal cap from the 32 points of the compute package. -/
def thermalCap (s : State) : State :=
  let g := s.glaren
  let pts := g.temps.filter (fun e => decide (e.1 < 32))
  let any (v : Int) : Bool := pts.any (fun e => decide (v ≤ e.2.value))
  let since : W64 := if any 1440 then 0 else if g.coolSince = 0 then g.gcTick + 1 else g.coolSince
  let cooled := decide (since ≠ 0) && decide (1000000 ≤ (g.gcTick + 1 - since).toNat)
  { s with glaren := { g with
      coolSince := since,
      thermalCap := if any 1600 then 3 else if any 1520 then 2 else if cooled then 0 else g.thermalCap } }

/-- Sum of the last ten samples of the input power, in 10 µW. -/
def powerSum (xs : List Nat) : Nat := xs.foldl (· + ·) 0

/-- A sample of rail 0: the step's energy, the 1 ms average and the peak cap. -/
def inputPower (mv : Int) (amps : Nat) (s : State) : State :=
  let p := mv.toNat * amps
  let g := s.glaren
  let xs := (g.powerSamples ++ [p]).drop (g.powerSamples.length + 1 - 10)
  let above (ys : List Nat) : Bool := decide (ys.length = 10) && decide (2100000000 < powerSum ys)
  let avg := if xs.length = 10 then powerSum xs / 1000000 else 0
  let s1 := setRun (fun r => { r with energy := r.energy + 10 * p })
    { s with glaren := { g with powerSamples := xs, peak1ms := BitVec.ofNat 16 (max g.peak1ms.toNat avg) } }
  if above xs then
    let s2 := { s1 with glaren := { s1.glaren with peakCap := some (min 3 (g.freq + 1)), peakBoundaries := 0 } }
    if above g.powerSamples then s2
    else score 12 0 0x0043 (match s.dealer.run with | some r => r.step | none => 0) (leBytes 1 48 ++ leBytes 4 avg) s2
  else s1

/-- SENSOR_SAMPLE: Glaren reads one sensor. -/
def sensorSample (i : Nat) (v : Int) (amps : Nat) (s : State) : State :=
  if ¬s.resets.powered ∨ ¬s.resets.glarenReady then s
  else
    let s1 := if i = 48 then inputPower v amps s else s
    let s2 := readSensor i v amps s1
    if i < 32 then thermalCap s2 else s2

def execSensorSample (index : Nat) (value : Int) (milliamps : Nat) (s : State) : Out :=
  withUnit index 74 s (sensorSample index value milliamps)

/-- SENSOR_WARN_CLEAR: a sensor has stayed 5 °C, or 1 %, inside its limit for 1 s. -/
def warnClear (i : Nat) (s : State) : State :=
  let x := sensorAt s i
  if x.level = 2 ∧ x.warnSince ≠ 0 ∧ 1000000 ≤ (s.glaren.gcTick + 1 - x.warnSince).toNat then
    setSensor i (fun x => { x with level := calmLevel i x.value, warnSince := 0 }) s
  else s

def execSensorWarnClear (index : Nat) (s : State) : Out := withUnit index 74 s (warnClear index)

/-- PEAK_CAP_RELEASE: 100 ms after the second boundary that follows the excess. -/
def execPeakCapRelease (s : State) : Out :=
  .next (let g := s.glaren
    if g.peakCap.isSome ∧ 2 ≤ g.peakBoundaries ∧ 100000 ≤ (s.tick - g.peakTick).toNat then
      { s with glaren := { g with peakCap := none, peakBoundaries := 0 } }
    else s)

/-- HOLDUP_CHECK: whether the bank still holds 25 ms (R457). -/
def execHoldupCheck (ok : Bool) (s : State) : Out :=
  .next (if ¬s.resets.powered then s
    else
      let s1 := { s with glaren := { s.glaren with holdupLow := !ok } }
      if ok ∨ s.glaren.holdupLow then s1 else score 0 0 0x0045 0 [] s1)

/-! ### Summary records (R361) -/

/-- Corrected events counted in a block: 0 to 3 the dies, 32 to 63 the blocks of Table 14.7. -/
def blockEvents (s : State) (b : Nat) : Nat :=
  let t := s.tiers
  if b < 4 then
    (Tab.get zero64 t.sramCorrected b).toNat + bitsOf (Tab.get zero64 s.counters.onchip b).toNat 0 32 +
      bitsOf (Tab.get zero64 s.counters.onchip b).toNat 32 16
  else if b < 44 then
    let m := b - 32
    (Tab.get zero64 t.corrected m).toNat + (Tab.get zero64 t.reread m).toNat + (Tab.get zero64 t.repaired m).toNat
  else if b < 48 then ((layer s (b - 44)).retries + (layer s (b - 44)).corrected).toNat
  else ((uport s (b - 48)).fecCorrected + (uport s (b - 48)).retries).toNat

/-- SOURCE of a block's summary (Table 15.5). -/
def blockSource (b : Nat) : Nat := if b < 4 then b + 1 else if b < 44 then 5 else if b < 48 then 6 else 7

/-- One block's record when its counters advanced. -/
def summaryOf (b : Nat) (s : State) : State :=
  let n := blockEvents s b
  let s1 := { s with glaren := { s.glaren with summary := natSet s.glaren.summary b n } }
  if n = natAt s.glaren.summary b ∨ n = 0 then s1
  else score (blockSource b) 1 0x000B 0 (leBytes 1 b ++ leBytes 8 n) s1

/-- SCOREBOOK_SUMMARY: every 3,600,000,000 ticks of powered time. -/
def execScorebookSummary (s : State) : Out :=
  .next (if s.resets.powered ∧ 3600000000 ≤ (s.glaren.gcTick - s.glaren.lastSummary).toNat then
      (List.range 4 ++ (List.range 32).map (32 + ·)).foldl (fun s b => summaryOf b s)
        { s with glaren := { s.glaren with lastSummary := s.glaren.gcTick } }
    else s)

end Sys2Proof.Machine
end

