-- ==== Sys2Proof/Machine/UpdateChain.lean ====
section
/-! DEFINITION. What a module of an update chain receives from the others, and the chain's time limits (R464 to R468). -/

namespace Sys2Proof.Machine

/-- Whether Glaren hears MGMT messages. -/
def mgmtHeard (s : State) : Bool :=
  s.resets.powered && s.resets.glarenReady && (s.resets.mgood || s.resets.recovery)

/-- The answer to the module that forwarded the bundle. -/
def answerForward (sender : BitVec 15) (pos r : Nat) (s : State) : State :=
  if s.glaren.update.chainPos = 0 ∨ sender = chainNode s 0 then s
  else emit (.mgmt sender Msg.updateResult (leBytes 2 pos ++ leBytes 1 r)) s

/-- UPDATE_FORWARD: the bundle and the chain arrive; a module that holds the token or applies refuses them. -/
def takeForward (sender : BitVec 15) (bundle : List Byte) (settingsOk readBackOk : Bool) (chain : List (BitVec 15)) (pos : Nat)
    (s : State) : State :=
  if updateBusy s.glaren.update then
    let node := (chain[0]?).getD 0
    emit (.mgmt node Msg.updateResult (leBytes 2 pos ++ leBytes 1 UResult.refused)) (score 0 0 0x0051 0 [BitVec.ofNat 8 Mbox.updateState] s)
  else
    let r := storeBundle settingsOk readBackOk (setUpdate (fun u =>
      { u with state := 2, image := tabStore 0 bundle [], imageLength := bundle.length, chain := chain, chainLength := chain.length,
               chainPos := pos, forwardTo := none }) s)
    answerForward sender pos (if r.2 = Mbox.ok then UResult.stored else UResult.refused) r.1

def execUpdateForward (sender : BitVec 15) (bundle : List Byte) (settingsOk readBackOk : Bool) (chain : List (BitVec 15)) (pos : Nat)
    (s : State) : Out :=
  .next (if mgmtHeard s then takeForward sender bundle settingsOk readBackOk chain pos s else s)

/-- UPDATE_RESULT: a forward is answered; position 0 counts. -/
def takeResult (pos r : Nat) (s : State) : State :=
  let s1 := if s.glaren.update.forwardTo = some pos ∧ r ≤ 1 then endForward s else s
  if s.glaren.update.chainPos = 0 then countResult pos r s1 else s1

def execUpdateResult (pos : Nat) (result : Nat) (s : State) : Out := .next (if mgmtHeard s then takeResult pos result s else s)

/-- FORWARD_TIMEOUT: no answer within 60 s. -/
def execForwardTimeout (s : State) : Out :=
  .next (match s.glaren.update.forwardTo with
    | some p =>
      if 60000000 ≤ (s.glaren.gcTick - s.glaren.update.forwardSince).toNat then forwardTo (p + 1) (reportResult p UResult.skipped s) else s
    | none => s)

/-- APPLY_TOKEN: a module with a stored bundle holds the token, or applies at once in recovery mode; any other passes it on. -/
def takeToken (timeout : Nat) (rest : List Nat) (s : State) : State :=
  let u := s.glaren.update
  if updateBusy u then s
  else if u.manifest = [] ∨ ¬(u.state = 3 ∨ u.state = 4 ∨ s.resets.recovery) then passToken timeout rest s
  else
    let s1 := setUpdate (fun u => { u with state := 5, token := some timeout, tokenRest := rest, tokenSince := s.glaren.gcTick }) s
    if s.resets.recovery then recoveryApply s1 else s1

def execApplyToken (timeout : Nat) (rest : List Nat) (s : State) : Out := .next (if mgmtHeard s then takeToken timeout rest s else s)

/-- TOKEN_TIMEOUT: the module defers, and the token moves on. -/
def execTokenTimeout (s : State) : Out :=
  .next (match s.glaren.update.token with
    | some t =>
      if s.glaren.update.state = 5 ∧ 1000000 * t ≤ (s.glaren.gcTick - s.glaren.update.tokenSince).toNat then
        releaseToken (setUpdate (fun u => { u with state := 3 }) s)
      else s
    | none => s)

/-- TOKEN_HOLDER_TIMEOUT: position 0 has heard nothing of the token's holder for TOKEN_TIMEOUT plus 600 s (R468). -/
def execTokenHolderTimeout (s : State) : Out :=
  .next (let u := s.glaren.update
    match u.tokenAt with
    | some p =>
      if 1000000 * (u.tokenTimeout + 600) ≤ (s.glaren.gcTick - u.visitSince).toNat then
        setUpdate (fun u => { u with tokenAt := none, reason := BitVec.ofNat 8 Mbox.updateState }) (countResult p UResult.skipped s)
      else s
    | none => s)

end Sys2Proof.Machine
end

