-- ==== Sys2Proof/Machine/Halves.lean ====
section
/-! DEFINITION. The two halves: the follower's mirror, a split, the dealer role, heartbeats; and the twin's reports (R22, R23, R265,
R293 to R295, R366 to R369, R406, R433). -/

namespace Sys2Proof.Machine

def Half.other : Half → Half
  | .west => .east
  | .east => .west
def Half.idx : Half → Nat
  | .west => 0
  | .east => 1
/-- The PCIe port on a half (R7). -/
def Half.port : Half → Port
  | .west => .A
  | .east => .B

/-- Whether a half has fenced. -/
def isFenced (s : State) (h : Half) : Bool := match h with | .west => s.dealer.westFenced | .east => s.dealer.eastFenced

/-! ### The follower (R23, R265) -/

/-- BOUNDARY_RECORD: the follower applies the record to its mirror and acknowledges it. -/
def execBoundaryRecord (half : Half) (s : State) : Out :=
  .next (match s.dealer.needAck with
    | some n =>
      if half ≠ s.dealer.lead ∧ ¬s.dealer.split ∧ s.resets.mgood then
        { s with dealer := { s.dealer with mirrorStep := n, needAck := none } }
      else s
    | none => s)

/-- SPLIT_DETECT: both dealers stop launching and query Glaren (R293). From then on the follower's mirror stands as of the last boundary
record it applied (R295). -/
def execSplitDetect (s : State) : Out :=
  .next (if s.resets.mgood ∧ ¬s.dealer.split ∧ s.dealer.phase ≠ .fenced then
      emit (.roleQuery .east) (emit (.roleQuery .west)
        { s with dealer := { s.dealer with
            split := true, queries := [(0, s.tick), (1, s.tick)],
            before := if s.dealer.needAck.isNone then mirrorOf s else s.dealer.before } })
    else s)

/-! ### Glaren's answers (R293, R406) -/

/-- The move epoch rises by 1; the holder stays. -/
def newEpoch (s : State) : State :=
  let s1 := { s with host := { s.host with epoch := s.host.epoch + 1 } }
  raiseEvent Event.moveChanged (score 0 0 0x0009 0 (stateData s1) s1)

/-- Whether a half's query waits for an answer. -/
def asks (s : State) (h : Half) : Bool := s.dealer.queries.any (fun e => decide (e.1 = Half.idx h))

/-- The west half holds the role and has been silent for 2,000 ticks. -/
def westSilent (s : State) : Bool := decide (s.dealer.grant = .west) && decide (2000 ≤ (s.tick - s.dealer.westHeard).toNat)

/-- HOLD to the east half under a new epoch: Glaren's grant of the role passes to it (R22). -/
def grantEast (s : State) : State :=
  let s1 := newEpoch s
  emit (.roleAnswer .east true s1.host.epoch) { s1 with dealer := { s1.dealer with grant := .east } }

/-- ROLE_QUERY: Glaren receives a dealer's query; not while it is in self-reset (R431). The half to which the role is granted has HOLD. -/
def execRoleQuery (half : Half) (s : State) : Out :=
  .next (if ¬asks s half ∨ ¬s.resets.glarenReady then s
    else
      let s1 := if half = .west then { s with dealer := { s.dealer with westHeard := s.tick } } else s
      if half = s.dealer.grant then emit (.roleAnswer half true s.host.epoch) s1
      else if half = .east ∧ westSilent s then grantEast s1
      else emit (.roleAnswer half false s.host.epoch) s1)

/-- ROLE_SILENCE_GRANT: once, since the west half holds the role no more. -/
def execRoleSilenceGrant (s : State) : Out :=
  .next (if asks s .east ∧ s.resets.glarenReady ∧ westSilent s then grantEast s else s)

/-! ### Fencing (R294, R295, R482) -/

/-- End with FENCED the commands of a list. -/
def endFenced (ts : List Ticket) (s : State) : State := ts.foldl (fun s t => finish t Status.fenced s) s

/-- The commands that the dealers hold: castles, ply runs, book loads, a phase change, cancels, waiting request operations. -/
def failDealer (mine : Ticket → Bool) (s : State) : State :=
  let d := s.dealer
  let s1 := match d.building with
    | some c => if mine c.ticket then failBuilding Status.fenced s else s
    | none => s
  let ready := match d.castlePending with | some c => if mine c.ticket then [c.ticket] else [] | none => []
  let phase := match d.pending with | some (_, _, t) => if mine t then [t] else [] | none => []
  let s2 := { s1 with dealer := { s1.dealer with
    castles := d.castles.filter (fun c => !mine c.ticket),
    castlePending := if ready = [] then d.castlePending else none,
    plyRuns := d.plyRuns.filter (fun r => !mine r.1),
    loading := d.loading.filter (fun x => !mine x.2.1),
    pending := if phase = [] then d.pending else none,
    reqOps := d.reqOps.filter (fun x => !mine x.1),
    requests := d.requests.map (fun e => (e.1, { e.2 with cancels := e.2.cancels.filter (fun t => !mine t) })) } }
  let s3 := match d.castlePending with
    | some c => if ready = [] then s2 else setSlot (c.body.target.toNat % 2) (fun _ => Slot.cold) s2
    | none => s2
  endFenced ((d.castles.map (fun c => c.ticket) ++ d.plyRuns.map (fun r => r.1) ++ d.loading.map (fun x => x.2.1) ++
    d.reqOps.map (fun x => x.1) ++ (d.requests.map (fun e => e.2.cancels)).flatten).filter mine ++ ready ++ phase) s3

/-- The commands of the concealment engines and of the position table: checkpoints, restores, snapshots, position writes. -/
def failConceal (mine : Ticket → Bool) (s : State) : State :=
  let c := s.conceal
  let first := match c.ckpt with | some (t, _) => if c.ckptFirst ∧ mine t then [t] else [] | none => []
  let s1 := { s with
    conceal := { c with
      ckpt := if first = [] then c.ckpt else none, ckptFirst := c.ckptFirst && first.isEmpty, ckptDue := c.ckptDue && first.isEmpty,
      onces := c.onces.filter (fun x => !mine x.1),
      jobs := c.jobs.filter (fun j => !j.ticket.any mine),
      restores := c.restores.filter (fun x => !mine x.1),
      snapshots := c.snapshots.filter (fun j => !mine j.ticket) }
    unlia := { s.unlia with posSets := s.unlia.posSets.filter (fun x => !mine x.1) } }
  endFenced (first ++ (c.onces.map (fun x => x.1) ++ c.jobs.filterMap (fun j => j.ticket) ++ c.restores.map (fun x => x.1) ++
    c.snapshots.map (fun j => j.ticket) ++ s.unlia.posSets.map (fun x => x.1)).filter mine) (startJob s1)

/-- Every taken command of a port's queues that is not complete ends with FENCED (R294). -/
def failPort (p : Port) (s : State) : State :=
  let mine (t : Ticket) : Bool := decide ((queue s t.q).owner.port = p)
  let ids := (s.host.ops.filter (fun e => match opTicket e.2 with | some t => mine t | none => false)).map (fun e => e.1)
  let s1 := ids.foldl (fun s id => failOp id Status.fenced s) s
  let s2 := (s1.unlia.colls.filter (fun c => match c.ticket with | some t => mine t | none => false)).foldl
    (fun s c => if c.active then breakColl Status.fenced c s else failColl c Status.fenced s) s1
  failConceal mine (failDealer mine s2)

/-- A half fences: its in-flight work ends with an error and it accepts no new step. When both halves have fenced the phase is
FENCED and MGOOD drops, so that the transmitters fall silent (R342). -/
def fenceHalf (h : Half) (s : State) : State :=
  let s1 := match s.dealer.run with
    | some r => if namesHalf r.ply.resourceMap h then abandonRun s else s
    | none => s
  let s2 := failPort (Half.port h) { s1 with dealer := { s1.dealer with
    westFenced := s1.dealer.westFenced || decide (h = .west), eastFenced := s1.dealer.eastFenced || decide (h = .east),
    queries := s1.dealer.queries.filter (fun e => decide (e.1 ≠ Half.idx h)) } }
  if s2.dealer.westFenced ∧ s2.dealer.eastFenced then
    let s3 := writeRecords s2
    (List.range 16).foldl (fun s u => setUPort u (fun x => if x.state = .disabled then x else linkDrop .down x) s)
      { s3 with
        dealer := { s3.dealer with phase := .fenced, held := none, midway := false, due := false }
        resets := { s3.resets with mgood := false } }
  else s2

/-- The cancels of an entry that wait in a table. -/
def cancelsIn (rs : Tab Request) (e : Nat) : List Ticket := (Tab.get (fun _ => Request.cold) rs e).cancels

/-- The half that has HOLD takes the mirrored tables as of the last boundary record it applied (R295). Cancels that the mirror does not hold
are lost with the other half: their commands end with FENCED; those that have completed since do not complete again. -/
def takeMirror (s : State) : State :=
  let m := s.dealer.before
  let lost := (s.dealer.requests.map (fun e => e.2.cancels.filter (fun t => !(cancelsIn m.requests e.1).contains t))).flatten
  endFenced lost { s with dealer := { s.dealer with
    requests := m.requests.map (fun e => (e.1, { e.2 with cancels := e.2.cancels.filter (fun t => (cancelsIn s.dealer.requests e.1).contains t) })),
    pageTab := m.pageTab, freeHead := m.freeHead, freeTail := m.freeTail, freeCount := m.freeCount, budgets := m.budgets } }

/-- A half holds the role: it continues as lead, the other half is fenced, and a boundary that was under way ends. -/
def holdRole (h : Half) (epoch : W32) (s : State) : State :=
  let s0 := if h = s.dealer.lead then s else takeMirror s
  let s1 := { s0 with dealer := { s0.dealer with
    lead := h, roleEpoch := epoch, halfFenced := true, needAck := none, held := none, midway := false, due := true,
    westFenced := s.dealer.westFenced || decide (h = .east), eastFenced := s.dealer.eastFenced || decide (h = .west),
    queries := s.dealer.queries.filter (fun e => decide (e.1 ≠ Half.idx h)) } }
  let s2 := if inBoundary s then afterBoundary s1 else s1
  raiseEvent Event.halfFenced (score (leadSource s2) 3 0x0014 s.dealer.stepNumber (leBytes 1 (Half.idx (Half.other h))) s2)

/-- ROLE_ANSWER: the dealer that asked receives HOLD, which only the half with Glaren's grant has, or FENCE; one that has fenced takes
neither. -/
def execRoleAnswer (half : Half) (hold : Bool) (epoch : W32) (s : State) : Out :=
  .next (if ¬asks s half then s
    else if hold then (if isFenced s half ∨ half ≠ s.dealer.grant then s else holdRole half epoch s)
    else fenceHalf half s)

/-- ROLE_QUERY_TIMEOUT: 1,000 ticks without an answer. -/
def execRoleQueryTimeout (half : Half) (s : State) : Out :=
  .next (match s.dealer.queries.find? (fun e => decide (e.1 = Half.idx half)) with
    | some e => if 1000 ≤ (s.tick - e.2).toNat then fenceHalf half s else s
    | none => s)

/-! ### Heartbeats (R433) -/

/-- DEALER_HEARTBEAT: Glaren receives one. -/
def execDealerHeartbeat (half : Half) (s : State) : Out :=
  .next (if s.resets.mgood ∧ s.resets.glarenReady then
      { s with dealer := { s.dealer with
          heartbeat := Tab.set zero64 s.dealer.heartbeat (Half.idx half) s.tick,
          westHeard := if half = .west then s.tick else s.dealer.westHeard } }
    else s)

/-- WATCHDOG_DEALER: no heartbeat of either dealer for 20,000 ticks. -/
def execWatchdogDealer (s : State) : Out :=
  .next (let quiet (h : Half) : Bool := decide (20000 ≤ (s.tick - Tab.get zero64 s.dealer.heartbeat (Half.idx h)).toNat)
    if s.resets.glarenReady ∧ quiet .west ∧ quiet .east then requestWarm 3 s else s)

/-! ### The twin (R366 to R369) -/

/-- DIGEST_REPORT: the twin's report of one step. -/
def execDigestReport (step : W64) (plyId : W32) (health : W16) (abandoned : Bool) (digest : W64) (s : State) : Out :=
  .next (if s.conceal.armed then
      wake (compareAll { s with conceal := { s.conceal with
        twinReports := s.conceal.twinReports ++
          [{ step := step, plyId := plyId, health := health, abandoned := abandoned, digest := digest }] } })
    else s)

end Sys2Proof.Machine
end

