-- ==== Sys2Proof/Machine/BlockRun.lean ====
section
/-! DEFINITION. How a block reset goes on: the end of its hold, its clock, its initialisation (R427 to R429, R467, R474). -/

namespace Sys2Proof.Machine

/-- The clock of a block that has one of its own (Table 14.7, Table 14.1). -/
def setOverride (b : Nat) (v : Bool) (s : State) : State :=
  if 32 ≤ b then
    setResets (fun r => { r with clocks := Tab.mod (fun _ => Clock.cold) r.clocks (b - 28) (fun x => { x with override := v }) }) s
  else s

/-- Whether the debug override is armed for a block (R474). -/
def overrideArmed (s : State) (b : Nat) : Bool :=
  s.glaren.unlocked.getLsbD 2 && s.glaren.debugArm && decide (s.glaren.debugBlock.toNat = b)

/-- The hold of 256 GC cycles ends: the wrapper waits for the clock, or the block is released early and stays FENCED. -/
def holdEnd (b : Nat) (s : State) : State :=
  if (block s b).state ≠ .inReset then s
  else if overrideArmed s b then
    score 0 0 0x0041 0 [BitVec.ofNat 8 b] (setOverride b true (setBlock b (fun x => { x with state := .fenced, early := true })
      { s with glaren := { s.glaren with debugArm := false } }))
  else setBlock b (fun x => { x with state := .waitClock }) s

/-- BLOCK_RESET_HOLD_END. -/
def execBlockResetHoldEnd (block : Nat) (s : State) : Out := withUnit block 66 s (holdEnd block)

/-- BLOCK_CLOCK_STABLE. -/
def execBlockClockStable (block : Nat) (s : State) : Out :=
  withUnit block 66 s (fun s =>
    setBlock block (fun x => if x.state = .waitClock then { x with state := .init } else x) s)

/-- What the initialisation leaves: an Unlia port trains, a PCIe port is ready to train; a flash group's layer loads its map and
becomes READY with FLASH_LAYER_READY. -/
def initBlock (b : Nat) (s : State) : State :=
  if b < 48 then s
  else if b < 64 then
    setUPort (b - 48) (fun x => { x with state := if ¬x.enable then .disabled else if linkReady s (b - 48) then .training else .down }) s
  else setPort (if b = 64 then .A else .B) (fun x => { x with ready := !x.perst }) s

/-- BLOCK_INIT_DONE: the wrapper reopens; boundaries held for the block go on (R428), and a firmware component whose last block
this was takes effect (R467). -/
def initDone (b : Nat) (s : State) : State :=
  if (block s b).state ≠ .init then s
  else
    let s1 := setBlock b (fun x => { x with state := .open_, early := false, resets := satInc x.resets }) s
    wake (blocksRestarted [b] (initBlock b (setOverride b false s1)))

def execBlockInitDone (block : Nat) (s : State) : Out := withUnit block 66 s (initDone block)

end Sys2Proof.Machine
end

