-- ==== Sys2Proof/Machine/Flash.lean ====
section
/-! DEFINITION. The end of a repair, and what it lets go on; the translation layers: decoding codewords, maintenance, readiness (R229 to R238,
R421). -/

namespace Sys2Proof.Machine

/-! ### The end of a repair (R236, R238) -/

/-- The object that a command waits to read. -/
def waitObject : Instr → Option W16
  | .bookLoad _ _ o | .routeSet _ _ o _ _ | .positionSet _ _ o _ _ | .groupSet _ _ o _ _ => some o
  | _ => none

/-- Run a command that waited for a repair. -/
def rerun (t : Ticket) : Instr → State → State
  | .bookLoad _ h o => bookLoadBody h o t
  | .routeSet _ h o first count => routeSetBody h o first count t
  | .positionSet _ h o first count => positionSetBody h o first count t
  | .groupSet _ h o first count => groupSetBody h o first count t
  | _ => id

/-- A waiting command goes on when its object is CLEAN again, and ends when it is POISONED. -/
def resumeOp (s : State) (e : Nat × Op) : State :=
  match e.2 with
  | .repairWait t i =>
    (match (waitObject i).map (fun o => (obj s o.toNat).poison) with
      | some .clean => rerun t i (dropOp e.1 s)
      | some .poisoned => finish t Status.objectPoisoned (dropOp e.1 s)
      | _ => s)
  | _ => s

/-- A collective whose source was under repair goes on. -/
def resumeColl (s : State) (id : Nat) : State :=
  match collAt s id with
  | some c => if c.active ∧ c.reading then advanceColl c s else s
  | none => s

/-- What the outcome of a repair lets go on: commands, collectives and the running castle. -/
def resumeReads (s : State) : State :=
  resumeCastle ((s.unlia.colls.map (fun c => c.id)).foldl resumeColl (s.host.ops.foldl resumeOp s))

/-- REPAIR_SOURCE_DONE. -/
def execRepairSourceDone (id : Nat) (clean : Option (List Byte)) (ac : Nat) (s : State) : Out := .next (resumeReads (repairSourceDone id clean ac s))

/-- REPAIR_REWRITE_DONE. -/
def execRepairRewriteDone (port line : Nat) (clean : Bool) (s : State) : Out :=
  withUnit port 12 s (fun s => resumeReads (rewriteDone (lineKey port line) clean s))

/-! ### FLASH_CODEWORD_DECODE -/

/-- Whether codeword `o` of the tier-2 object `x` lies at die `d`, within its durable length. -/
def codewordAt (s : State) (x : Obj) (o d : Nat) : Bool :=
  x.inFlash && decide (unitDie (BitVec.ofNat 32 x.address.toNat) (o / 65536) = d) &&
    (match flashObj s x with | some f => decide (o < f.data.length) | none => false)

/-- The counts of one codeword's decode: retries, page reads, corrected bits (Table 7.14). A page is read for its first codeword, again at each
retry, and three times for a soft decision. -/
def countDecode (d errors retries : Nat) (first soft bad : Bool) (s : State) : State :=
  setMedia d (fun x => { x with
    pagesRead := x.pagesRead + BitVec.ofNat 64 (flag first + retries + (if soft then 3 else 0)),
    retries := x.retries + BitVec.ofNat 64 retries,
    corrected := if bad then x.corrected else x.corrected + BitVec.ofNat 64 errors,
    uncorrectable := if bad then x.uncorrectable + 1 else x.uncorrectable }) s

/-- Replace the bad list and the segments of an outstanding move. -/
def setMoveRead (op : Nat) (bad : List Nat) (segs : List CauseSpan) (s : State) : State :=
  match opAt s op with
  | some (.move t b bs xs) => { s with host := { s.host with ops := Tab.put op (.move t b (bs ++ bad) (xs ++ segs)) s.host.ops } }
  | _ => s

/-- A codeword of an outstanding staging move, or of the LOAD that runs, is decoded (R229): hard after `retries` shifted re-reads
with `errors` bit errors, or after seven of them by a soft decision, or not at all. -/
def codewordDecode (d errors retries : Nat) (softOk : Bool) (op o acFrom acTo : Nat) (s : State) : State :=
  let hard := decide (errors ≤ 100) && decide (retries ≤ 7)
  let n := if hard then retries else 7
  let bad := !hard && !softOk
  let segs : List CauseSpan := if n = 0 then [] else [{ cause := 3, first := acFrom, past := some acTo }]
  match opAt s op with
  | some (.move _ b _ _) =>
    if b.mode = 1 ∧ codewordAt s (obj s b.src.toNat) o d ∧ b.srcOffset.toNat ≤ o ∧ o < b.srcOffset.toNat + b.bytes.toNat then
      setMoveRead op (if bad then [o] else []) segs
        (countDecode d errors n (decide (o % 16384 = 0) || decide (o = b.srcOffset.toNat)) (!hard) bad s)
    else s
  | some _ => s
  | none =>
    match s.dealer.building with
    | some c =>
      if c.body.mode = 1 ∧ codewordAt s (obj s c.body.source.toNat) o d then
        let s1 := countDecode d errors n (decide (o % 16384 = 0)) (!hard) bad s
        if bad then failBuilding Status.flashUncorrectable s1 else s1
      else s
    | none => s

def execFlashCodewordDecode (die : Nat) (errors : Nat) (retries : Nat) (softOk : Bool) (op offset acFrom acTo : Nat) (s : State) : Out :=
  withUnit die 4 s (codewordDecode die errors retries softOk op offset acFrom acTo)

/-! ### Maintenance (Table 7.9) -/

/-- The erase counts and the status bits of a layer after an erase: the average over its good blocks; the smallest and the largest within 256 of
each other around it, which of the values the manual leaves open. -/
def wearOf (n : Nat) (x : FlashLayer) : FlashLayer :=
  let avg := x.erased.toNat / (327680 - x.factoryBad.toNat - x.grownBad.toNat)
  let lo := min avg (Config.freeNat n % 257)
  let hi := Config.freeNat (n + 1) % (257 - lo)
  { x with
    eraseAvg := BitVec.ofNat 16 avg, eraseMin := BitVec.ofNat 16 (avg - lo), eraseMax := BitVec.ofNat 16 (avg + hi),
    wearHigh := x.wearHigh || decide (2700 ≤ avg), low := x.low || decide (x.spare.toNat < 8192),
    worn := x.worn || decide (x.spare.toNat < 1024) }

/-- LOW, WORN or WEAR_HIGH first set: the record, the alert and the event (R231). -/
def wearAlert (a b : FlashLayer) (d : Nat) (s : State) : State :=
  if a.low = b.low ∧ a.worn = b.worn ∧ a.wearHigh = b.wearHigh then s
  else
    let s1 := score 6 1 0x0026 s.dealer.stepNumber [BitVec.ofNat 8 d, BitVec.ofNat 8 (flag b.low + 2 * flag b.worn + 4 * flag b.wearHigh)] s
    raiseEvent Event.flashAlert { s1 with glaren := { s1.glaren with flashAlert := true } }

/-- Relocate one block: its readable data is programmed elsewhere, and the block is erased or retired. How much of it was still data is
open. -/
def relocate (d : Nat) (disturb patrol badBlock : Bool) (s : State) : State :=
  let a := mediaOf s d
  let n := s.free
  let s1 := setMedia d (fun x => wearOf (n + 1) { x with
    programmed := x.programmed + BitVec.ofNat 64 (Config.freeNat n % 1025),
    erased := if badBlock then x.erased else x.erased + 1,
    disturb := x.disturb + BitVec.ofNat 32 (flag disturb), patrol := x.patrol + BitVec.ofNat 32 (flag patrol),
    grownBad := x.grownBad + BitVec.ofNat 32 (flag badBlock), spare := x.spare - BitVec.ofNat 32 (flag (badBlock && decide (x.spare ≠ 0))) })
    { s with free := n + 3 }
  wearAlert a (mediaOf s1 d) d s1

/-- FLASH_RELOCATE, by a layer that serves. -/
def execFlashRelocate (die : Nat) (disturb patrol badBlock : Bool) (s : State) : Out :=
  withUnit die 4 s (fun s => if (layer s die).ready then relocate die disturb patrol badBlock s else s)

/-- FLASH_PATROL reads one written block: `corrections` are those of its worst codeword. -/
def flashPatrol (d corrections retries : Nat) (s : State) : State :=
  if ¬(layer s d).ready then s
  else
    let s1 := setMedia d (fun x => { x with
      pagesRead := x.pagesRead + BitVec.ofNat 64 (1 + Config.freeNat s.free % 1024 + retries),
      retries := x.retries + BitVec.ofNat 64 retries, corrected := x.corrected + BitVec.ofNat 64 corrections }) { s with free := s.free + 1 }
    if 60 < corrections ∨ 0 < retries then relocate d false true false s1 else s1

def execFlashPatrol (die : Nat) (corrections retries : Nat) (s : State) : Out := withUnit die 4 s (flashPatrol die corrections retries)

/-! ### FLASH_LAYER_READY -/

/-- A command that waited for READY proceeds. -/
def resumeFlash (t : Ticket) : Instr → State → State
  | .objectMove _ _ b => moveStart b t
  | .flashObjCreate _ _ size => flashCreate size t
  | .flashObjDelete _ _ x => flashDelete x t
  | .checkpoint _ _ b => ckptStart b t
  | .restore _ _ b => restoreStart b t
  | .snapshot _ _ b => snapshotStart b t
  | _ => id

/-- Once every layer is READY, the waiting commands proceed in the order in which they were taken (R421). -/
def resumeAll (s : State) : State :=
  if flashReady s then
    (s.host.ops.filterMap (fun e => match e.2 with | .flashWait t i => some (e.1, t, i) | _ => none)).foldl
      (fun s x => resumeFlash x.2.1 x.2.2 (dropOp x.1 s)) s
  else s

/-- The end of a first-start format (R232): the good blocks are erased once; how many are bad the factory table says. -/
def formatLayer (d : Nat) (s : State) : State :=
  let f := Config.freeNat s.free % 65025
  let x : FlashLayer := { mediaOf s d with
    factoryBad := BitVec.ofNat 32 f, spare := BitVec.ofNat 32 (65024 - f), erased := BitVec.ofNat 64 (327680 - f),
    eraseMin := 1, eraseMax := 1, eraseAvg := 1, low := decide (65024 - f < 8192), worn := decide (65024 - f < 1024) }
  wearAlert (mediaOf s d) x d { setMedia d (fun _ => x) s with free := s.free + 1 }

/-- FLASH_LAYER_READY. -/
def layerReady (d : Nat) (s : State) : State :=
  if ¬s.resets.mgood ∨ (layer s d).ready ∨ blockShut s (44 + d) then s
  else
    let s1 := if (layer s d).formatting then formatLayer d s else s
    let m := mediaOf s1 d
    resumeAll (setLayer d (fun _ => { m with ready := true, formatting := false }) s1)

def execFlashLayerReady (die : Nat) (s : State) : Out := withUnit die 4 s (layerReady die)

end Sys2Proof.Machine
end

