-- ==== Sys2Proof/Machine/Links.lean ====
section
/-! DEFINITION. The Unlia link layer: training, keys, flits in and out (R321 to R337). -/

namespace Sys2Proof.Machine

/-! ### Training (R321, R323, R329, R338) -/

/-- The contents of HELLO (R338): node ID, module serial, port, firmware versions, POSITION_DIGEST. -/
def helloBytes (s : State) (u : Nat) : List Byte :=
  leBytes 2 s.unlia.nodeId.toNat ++ moduleIdentBytes.take 16 ++ leBytes 1 u ++
    ((List.range 5).map (fun c => leBytes 4 (running s c).version.toNat)).flatten ++ leBytes 8 s.unlia.posDigest.toNat

/-- Send HELLO on MGMT out of a port. -/
def sendHello (u : Nat) (s : State) : State := emit (.mgmtPort u Msg.hello (helloBytes s u)) s

/-- PORT_TRAINED: `full` says that the port ran full adaptation, as it does without saved coefficients; these are saved. `peerEncrypt` is the
far end's ENCRYPT: where the two differ the port stays KEYING (R337; that training shows it is a DESIGN CHOICE, log entry 74). -/
def portTrained (u : Nat) (reversed full peerEncrypt : Bool) (s : State) : State :=
  let x := uport s u
  let saved := Tab.get (fun _ => false) s.glaren.coeffs u
  if ¬mayLink s u ∨ (x.state ≠ .down ∧ x.state ≠ .training) then s
  else
    let s1 := if full ∨ ¬saved then
        { s with glaren := { s.glaren with coeffs := Tab.set (fun _ => false) s.glaren.coeffs u true, settingsSeq := s.glaren.settingsSeq + 1 } }
      else s
    sendHello u (setUPort u (fun x =>
      { x with state := if x.encrypt ∨ peerEncrypt then .keying else .up, refused := decide (x.encrypt ≠ peerEncrypt), reversed := reversed }) s1)

def execPortTrained (u : Nat) (reversed : Bool) (x : Training) (s : State) : Out :=
  withUnit u 16 s (portTrained u reversed x.full x.peerEncrypt)

/-- PORT_RETRAIN_RETRY: a DOWN port tries again. -/
def execPortRetrainRetry (u : Nat) (s : State) : Out :=
  withUnit u 16 s (fun s => if (uport s u).state = .down ∧ mayLink s u then setUPort u (fun x => { x with state := .training }) s else s)

/-- LANE_FAIL: a lane, or every flit's CRC, has failed for 0.617 µs. -/
def execLaneFail (u : Nat) (s : State) : Out := withUnit u 16 s (fun s => if linkOn (uport s u) then linkDown u s else s)

/-! ### Keys (R335 to R337) -/

/-- Whether a device certificate holds a public key and the CA's signature over it (R460). -/
def certOk (cert pk : List Byte) : Bool :=
  decide (cert.length = 29940) && decide (cert.take 4 = leBytes 4 0x4B484431) && decide ((cert.drop 20).take 64 = pk) &&
    decide (shake256 64 ((cert.drop 84).take 64) = Config.anchorCa) &&
    Config.slhVerify ((cert.drop 84).take 64) (cert.take 148) (cert.drop 148)

/-- The link keys K of R335: shared secret, lower and higher node ID, the lower end's port. -/
def linkKeys (s : State) (u : Nat) (secret : List Byte) : List Byte :=
  let x := uport s u
  let own := s.unlia.nodeId.toNat
  let peer := x.peerNode.toNat
  shake256 64 (secret ++ leBytes 2 (min own peer) ++ leBytes 2 (max own peer) ++ leBytes 1 (if own < peer then u else x.peerPort.toNat))

/-- Hold the new keys for the KEY_SWITCH of each direction: bytes 0 to 31 key the direction from the lower end. -/
def pendKeys (u : Nat) (secret : List Byte) (s : State) : State :=
  let k := linkKeys s u secret
  let lower := decide (s.unlia.nodeId < (uport s u).peerNode)
  setUPort u (fun x => { x with
    pendTx := if lower then k.take 32 else k.drop 32, pendRx := if lower then k.drop 32 else k.take 32, sendSwitch := true }) s

/-- A keying failure: the port stays KEYING, with ENCRYPT_REFUSED (R337). -/
def refuseKeys (u : Nat) (s : State) : State := setUPort u (fun x => { x with state := .keying, refused := true }) s

/-- The module's device certificate. -/
def deviceCert : List Byte := (List.range 29940).map Config.deviceCertificate

/-- The lower end sends its encapsulation key, once the peer's node ID is known (R335 step 1). -/
def sendKemKey (u : Nat) (s : State) : State :=
  let x := uport s u
  if x.state = .keying ∧ x.encrypt ∧ ¬x.refused ∧ s.unlia.nodeId < x.peerNode ∧ x.kemId = none then
    let k := Config.kemPublic s.free
    emit (.mgmtPort u Msg.encapsulationKey (deviceCert ++ k ++ Config.slhSign k))
      (setUPort u (fun x => { x with kemId := some s.free }) { s with free := s.free + 1 })
  else s

/-- ENCAPSULATION_KEY at the higher end (step 2); a port that is not to encrypt refuses (R337). -/
def encapsulationKey (u : Nat) (cert pk key sig : List Byte) (s : State) : State :=
  let x := uport s u
  if ¬linkOn x then s
  else if ¬x.encrypt then refuseKeys u s
  else if x.state ≠ .keying ∨ s.unlia.nodeId ≤ x.peerNode then s
  else if certOk cert pk ∧ Config.slhVerify pk key sig then
    let r := Config.kemEncaps key s.free
    emit (.mgmtPort u Msg.ciphertext (deviceCert ++ r.1 ++ Config.slhSign r.1)) (pendKeys u r.2 { s with free := s.free + 1 })
  else refuseKeys u s

def execEncapsulationKey (u : Nat) (certificate publicKey key signature : List Byte) (s : State) : Out :=
  withUnit u 16 s (encapsulationKey u certificate publicKey key signature)

/-- KEM_CIPHERTEXT at the lower end (step 3). -/
def kemCiphertext (u : Nat) (cert pk ct sig : List Byte) (s : State) : State :=
  let x := uport s u
  match x.kemId with
  | none => s
  | some n =>
    if x.state ≠ .keying then s
    else if certOk cert pk ∧ Config.slhVerify pk ct sig then pendKeys u (Config.kemDecaps n ct) (setUPort u (fun x => { x with kemId := none }) s)
    else refuseKeys u s

def execKemCiphertext (u : Nat) (certificate publicKey ciphertext signature : List Byte) (s : State) : Out :=
  withUnit u 16 s (kemCiphertext u certificate publicKey ciphertext signature)

/-- Once both directions are keyed, a KEYING port is UP and sends HELLO. -/
def keyedUp (u : Nat) (s : State) : State :=
  let x := uport s u
  if x.state = .keying ∧ x.txKey ≠ [] ∧ x.rxKey ≠ [] then
    sendHello u (setUPort u (fun x => { x with state := .up, encrypted := true }) s)
  else s

/-- How far sequence number a is ahead of b. -/
def seqAhead (a b : BitVec 10) : Nat := (a - b).toNat

/-- Drop the flits that an acknowledgement covers from the replay buffer. -/
def ackFlits (ack : BitVec 10) (x : UPort) : UPort :=
  let keep (f : Flit) : Bool := decide (512 ≤ seqAhead ack (f.seq + 1))
  { x with replay := x.replay.filter keep, resend := x.resend.filter keep,
           nakCount := if x.replay.all keep then x.nakCount else 0 }

/-- Take back the credits that a flit returns. -/
def takeCredits (v : BitVec 2) (n : BitVec 2) (x : UPort) : UPort :=
  { x with credits := natSet x.credits v.toNat (natAt x.credits v.toNat - n.toNat) }

/-- What every flit carries: an acknowledgement and a credit return (R325). -/
def takeLink (l : LinkField) (x : UPort) : UPort := takeCredits l.creditVc l.credits (ackFlits l.ack x)

/-- KEY_SWITCH: DATA flits received after it use key index 0. -/
def keySwitch (u : Nat) (l : LinkField) (s : State) : State :=
  if ¬linkOn (uport s u) then s
  else
    let s1 := setUPort u (takeLink l) s
    let x := uport s1 u
    if x.state = .keying ∧ x.pendRx ≠ [] then
      keyedUp u (setUPort u (fun x => { x with rxKey := x.pendRx, pendRx := [], rxKeyIndex := 0, rxCount := 0 }) s1)
    else s1

def execKeySwitch (x : SwitchMsg) (s : State) : Out := withUnit x.port 16 s (keySwitch x.port x.link)

/-- The key that follows one (R336): bytes 0 to 31 of SHAKE256(key ‖ "UNLIA-NEXT"). -/
def nextKey (k : List Byte) : List Byte := shake256 32 (k ++ [0x55, 0x4E, 0x4C, 0x49, 0x41, 0x2D, 0x4E, 0x45, 0x58, 0x54])

/-- Each direction moves on after 2^32 DATA flits under its key. -/
def rollTx (x : UPort) : UPort :=
  if x.txKey ≠ [] ∧ (x.keyIndex.toNat + 1) * 2 ^ 32 ≤ x.txCount.toNat then { x with txKey := nextKey x.txKey, keyIndex := x.keyIndex + 1 } else x
def rollRx (x : UPort) : UPort :=
  if x.rxKey ≠ [] ∧ (x.rxKeyIndex.toNat + 1) * 2 ^ 32 ≤ x.rxCount.toNat then { x with rxKey := nextKey x.rxKey, rxKeyIndex := x.rxKeyIndex + 1 } else x

/-- KEY_ROLLOVER of the transmitting or the receiving direction. -/
def execKeyRollover (u : Nat) (transmit : Bool) (s : State) : Out :=
  withUnit u 16 s (setUPort u (if transmit then rollTx else rollRx))

/-! ### Routes (R331, R332) -/

/-- The output port for a destination: an error names the port on which the discard counts. A KEYING port is not DOWN: it carries MGMT
(R335), and other flits wait in it. -/
def routeOf (s : State) (dst : BitVec 15) (fallback : Nat) : Except Nat Nat :=
  match s.unlia.routes.find? (fun e => e.2.getLsbD 31 && decide (dst &&& e.2.extractLsb' 16 15 = e.2.extractLsb' 0 15)) with
  | none => .error fallback
  | some e =>
    let p := (e.2.extractLsb' 32 4).toNat
    let a := (e.2.extractLsb' 36 4).toNat
    if linkOn (uport s p) then .ok p
    else if e.2.getLsbD 40 ∧ linkOn (uport s a) then .ok a
    else .error p

/-- Count an unroutable flit. -/
def unroutable (u n : Nat) (s : State) : State := setUPort u (fun x => { x with unroutable := x.unroutable + BitVec.ofNat 32 n }) s

/-- A flit leaves the buffer of its input port: its credit is to be returned (R327). -/
def freeBuffer (u v : Nat) (s : State) : State :=
  if u < 16 then setUPort u (fun x => { x with owed := Tab.mod (fun _ => 0) x.owed v (· + 1) }) s else s

/-- Queue a flit for a port. -/
def enqueue (o i : Nat) (f : Flit) (s : State) : State := setUPort o (fun x => { x with txQueue := x.txQueue ++ [(i, f)] }) s

/-- Forward a DATA flit that is not the module's own. -/
def forward (u : Nat) (f : Flit) (s : State) : State :=
  if f.hops = 0 then freeBuffer u f.vc.toNat (setUPort u (fun x => { x with hopLimit := x.hopLimit + 1 }) s)
  else match routeOf s f.dst u with
    | .error _ => freeBuffer u f.vc.toNat (unroutable u 1 s)
    | .ok o => enqueue o u { f with hops := f.hops - 1 } s

/-! ### Receiving (R326, R327, R337) -/

/-- The tag of a flit fails (R337): 16 in 1 ms take the port DOWN. -/
def tagFailed (u : Nat) (s : State) : State :=
  let x := uport s u
  let fails := (x.tagFails.filter (fun t => decide (s.tick - t < 1000))) ++ [s.tick]
  let s1 := setUPort u (fun x => { x with authFail := x.authFail + 1, tagFails := fails, sendNak := true }) s
  if 16 ≤ fails.length then linkDown u (score 7 2 0x0031 s.dealer.stepNumber (leBytes 1 u) s1) else s1

/-- An expected, good DATA flit: delivered here or forwarded. While KEYING the port carries MGMT only; any other plain flit then shows an end
that does not encrypt. -/
def acceptFlit (u : Nat) (f : Flit) (s : State) : State :=
  let s1 := setUPort u (fun x => { x with expected := x.expected + 1, flitsRx := x.flitsRx + 1, rxCount := x.rxCount + 1 }) s
  let x := uport s1 u
  if ¬carries s1 u f.vc.toNat then
    freeBuffer u f.vc.toNat (if x.state = .keying ∧ x.encrypt then refuseKeys u s1 else s1)
  else if ¬s1.unlia.nodeValid ∨ f.dst = s1.unlia.nodeId then freeBuffer u f.vc.toNat s1
  else forward u f s1

/-- The header of a flit (Table 11.2). -/
def headerBytes (f : Flit) : List Byte :=
  leBytes 8 (f.vc.toNat + 4 * f.kind.toNat + 16 * flag f.first + 32 * flag f.last + 64 * f.hops.toNat + 2 ^ 10 * f.dst.toNat +
    2 ^ 25 * f.src.toNat + 2 ^ 40 * f.seq.toNat + 2 ^ 50 * f.ack.toNat + 2 ^ 60 * f.creditVc.toNat + 2 ^ 62 * f.credits.toNat)

/-- The header that the tag covers: ACK and the credit return, which change at a replay, are 0 in it (DEDUCED, log entry 74). -/
def tagHeader (f : Flit) : List Byte := headerBytes { f with ack := 0, creditVc := 0, credits := 0 }

/-- The 256 bytes of a flit: header, payload, CRC-32C (R324). -/
def flitBytes (f : Flit) : List Byte :=
  let b := headerBytes f ++ (f.payload ++ List.replicate (244 - f.payload.length) 0).take 244
  b ++ leBytes 4 (crc32c b).toNat

/-- Whether a flit passes its CRC. -/
def flitCrcOk (bs : List Byte) : Bool := decide (bs.length = 256) && decide (BitVec.ofNat 32 (fieldAt bs 252 4) = crc32c (bs.take 252))

/-- A flit as received. -/
def flitOf (bs : List Byte) : Flit :=
  let h := BitVec.ofNat 64 (fieldAt bs 0 8)
  { vc := h.extractLsb' 0 2, kind := h.extractLsb' 2 2, first := h.getLsbD 4, last := h.getLsbD 5, hops := h.extractLsb' 6 4,
    dst := h.extractLsb' 10 15, src := h.extractLsb' 25 15, seq := h.extractLsb' 40 10, ack := h.extractLsb' 50 10,
    creditVc := h.extractLsb' 60 2, credits := h.extractLsb' 62 2, payload := (bs.drop 8).take 244 }

/-- The payload under the receive key, with nonce key index ‖ count (R334); none where the tag fails. -/
def openFlit (x : UPort) (f : Flit) : Option (List Byte) :=
  if x.rxKey = [] then some f.payload
  else Config.gcmOpen x.rxKey (leBytes 4 x.rxKeyIndex.toNat ++ leBytes 8 x.rxCount.toNat) (tagHeader f) f.payload

/-- The FEC codewords of a flit's lanes (Table 11.11). -/
def countFec (corrected uncorrectable : Nat) (x : UPort) : UPort :=
  { x with fecCorrected := x.fecCorrected + BitVec.ofNat 64 corrected, fecUncorrectable := x.fecUncorrectable + BitVec.ofNat 64 uncorrectable }

/-- A DATA or IDLE flit arrives, with the codewords that FEC corrected and could not correct. -/
def flitReceive (u : Nat) (r : FlitRead) (s0 : State) : State :=
  let s := setUPort u (countFec r.corrected r.uncorrectable) s0
  let f := flitOf r.bytes
  if ¬linkOn (uport s u) then s
  else if ¬flitCrcOk r.bytes then setUPort u (fun x => { x with crcErrors := x.crcErrors + 1, sendNak := true }) s
  else
    let s1 := setUPort u (fun x => rollRx (takeLink { ack := f.ack, creditVc := f.creditVc, credits := f.credits } x)) s
    let x := uport s1 u
    if f.kind ≠ 0 then s1
    else if f.seq ≠ x.expected then
      (if seqAhead f.seq x.expected < 512 then setUPort u (fun x => { x with sendNak := true }) s1 else s1)
    else match openFlit x f with
      | none => tagFailed u s1
      | some p => acceptFlit u { f with payload := p } s1

def execFlitReceive (u : Nat) (x : FlitRead) (s : State) : Out := withUnit u 16 s (flitReceive u x)

/-- NAK_RECEIVE: the transmitter resends from the flit named; 16 for one flit take the port DOWN. -/
def nakReceive (u : Nat) (l : LinkField) (s : State) : State :=
  if ¬linkOn (uport s u) then s
  else
    let s1 := setUPort u (fun x =>
      let y := takeLink l x
      { y with retries := y.retries + 1, nakCount := if y.nakSeq = l.ack then y.nakCount + 1 else 1, nakSeq := l.ack, resend := y.replay }) s
    if 16 ≤ (uport s1 u).nakCount then linkDown u s1 else s1

def execNakReceive (u : Nat) (x : LinkField) (s : State) : Out := withUnit u 16 s (nakReceive u x)

/-! ### The module's own messages as flits (R324) -/

/-- Cut a message into DATA flits of n bytes; the layout of its 16-byte header is open, and so its bytes are free. -/
def cutFlits (n : Nat) (vc : BitVec 2) (dst src : BitVec 15) : Nat → Bool → List Byte → List Flit
  | 0, _, _ => []
  | fuel + 1, first, bs =>
    let rest := bs.drop n
    { vc := vc, kind := 0, first := first, last := decide (rest = []), hops := 15, dst := dst, src := src, seq := 0, ack := 0, creditVc := 0,
      credits := 0,
      payload := bs.take n ++ List.replicate (n - (bs.take n).length) 0 } ::
      (if rest = [] then [] else cutFlits n vc dst src fuel false rest)

/-- The flits of a message out of a port. -/
def sendOut (o : Nat) (vc : BitVec 2) (dst : BitVec 15) (bs : List Byte) (s : State) : State :=
  let body := freeBytes s.free 16 ++ bs
  let n := if (uport s o).txKey ≠ [] then 228 else 244
  (cutFlits n vc dst s.unlia.nodeId (body.length + 1) true body).foldl (fun s f => enqueue o 16 f s) { s with free := s.free + 16 }

/-- The flits of a message to a node: one that no route serves is discarded and counted. -/
def sendTo (vc : BitVec 2) (dst : BitVec 15) (bs : List Byte) (s : State) : State :=
  match routeOf s dst 0 with
  | .ok o => sendOut o vc dst bs s
  | .error u => unroutable u ((bs.length + 16 + 243) / 244) s

/-- The bytes of a collective message after its header. -/
def CollMsg.bytes : CollMsg → List Byte
  | .digest (.digest d) => leBytes 8 d.toNat
  | .digest (.verdict agree) => leBytes 1 (flag agree)
  | .value (.value _ _ ws) => bytesOfWords ws
  | _ => []

/-- The flits of one emission. -/
def frameOne (e : Emit) (s : State) : State :=
  match e with
  | .mgmt n _ bs => sendTo 3 n bs s
  | .mgmtPort u _ bs => if linkOn (uport s u) then sendOut u 3 (uport s u).peerNode bs s else s
  | .mgmtVia u n _ bs => if linkOn (uport s u) then sendOut u 3 n bs s else s
  | .bulkNode n _ bs => sendTo 2 n bs s
  | .bulk p _ bs => (match holderNode s (ownCopy s) p.toNat with | some n => sendTo 2 n bs s | none => s)
  | .coll vc n _ m => sendTo vc n m.bytes s
  | .chunk x n => sendTo 2 n (leBytes 8 x.castleId.toNat ++ leBytes 4 x.index ++ leBytes 8 x.crc.toNat ++ leBytes 4 x.flagged ++ x.data) s
  | .chunkRequest id i p =>
    (match holderNode s (ownCopy s) p with | some n => sendTo 2 n (leBytes 8 id.toNat ++ leBytes 4 i) s | none => s)
  | _ => s

/-- Make the flits of every message sent since the last flit slot. -/
def frameAll (s : State) : State :=
  (s.out.drop s.framed).foldl (fun s e => frameOne e s) { s with framed := s.out.length }

/-! ### Sending (R325, R328, R334) -/

/-- The credits that the next flit returns: up to 3 of the first channel that owes any. -/
def creditReturn (x : UPort) : BitVec 2 × BitVec 2 :=
  match (List.range 4).find? (fun v => decide (0 < natAt x.owed v)) with
  | some v => (BitVec.ofNat 2 v, BitVec.ofNat 2 (min 3 (natAt x.owed v)))
  | none => (0, 0)
def payCredits (x : UPort) : UPort :=
  let c := creditReturn x
  { x with owed := natSet x.owed c.1.toNat (natAt x.owed c.1.toNat - c.2.toNat) }

/-- A payload under the transmit key: nonce key index ‖ count (R334). -/
def sealFlit (x : UPort) (f : Flit) : Flit :=
  if x.txKey = [] then f
  else
    let plain := (f.payload ++ List.replicate (228 - f.payload.length) 0).take 228
    { f with payload := Config.gcmSeal x.txKey (leBytes 4 x.keyIndex.toNat ++ leBytes 8 x.txCount.toNat) (tagHeader f) plain }

/-- What an encrypted port cannot carry of a plain port's payload, 244 bytes against 228, follows in a flit of its own (DESIGN CHOICE, log
entry 74). -/
def flitRest (x : UPort) (f : Flit) : Option Flit :=
  if x.txKey ≠ [] ∧ 228 < f.payload.length then some { f with first := false, payload := f.payload.drop 228 } else none

/-- Whether a channel has a sendable flit and a credit. -/
def sendable (s : State) (u v : Nat) : Bool :=
  let x := uport s u
  carries s u v && decide (natAt x.credits v < 64) && decide (x.replay.length < 512) && x.txQueue.any (fun e => decide (e.2.vc.toNat = v))

/-- The channel that the round serves next, with the flits it has sent in the round and the round's weights: from channel v with n sent, each
channel with nothing to send, or its weight used, gives up its turn; a new round takes VC_WEIGHT as it stands (R359). -/
def nextChannel (s : State) (u : Nat) : Nat → W16 → Nat → Nat → Option (Nat × Nat × W16)
  | 0, _, _, _ => none
  | fuel + 1, w, v, n =>
    if n < w.toNat / 16 ^ v % 16 ∧ sendable s u v then some (v, n, w)
    else
      let v' := (v + 1) % 4
      nextChannel s u fuel (if v' = 0 then (uport s u).weights else w) v' 0

/-- The next input port in round-robin order that has a flit of a channel. -/
def nextInput (x : UPort) (v : Nat) : Option Nat :=
  ((List.range 17).map (fun i => (natAt x.served (2 + v) + i) % 17)).find?
    (fun i => x.txQueue.any (fun e => decide (e.1 = i) && decide (e.2.vc.toNat = v)))

/-- Take the oldest flit of an input and a channel; `rest` is left in its place. -/
def takeFlit (i v : Nat) (rest : Option Flit) : List (Nat × Flit) → List (Nat × Flit)
  | [] => []
  | e :: t =>
    if e.1 = i ∧ e.2.vc.toNat = v then (match rest with | some g => (i, g) :: t | none => t)
    else e :: takeFlit i v rest t

/-- Send a flit with the acknowledgement and credit return of now. -/
def emitFlit (u : Nat) (x : UPort) (f : Flit) (s : State) : State :=
  let c := creditReturn x
  emit (.flit u (flitBytes { f with ack := x.expected, creditVc := c.1, credits := c.2 })) s

/-- Send a new DATA flit of channel v from input i. -/
def sendNew (u v n i : Nat) (w : W16) (f0 : Flit) (s : State) : State :=
  let s1 := setUPort u rollTx s
  let x := uport s1 u
  let rest := flitRest x f0
  let f := if rest.isSome then { f0 with last := false, payload := f0.payload.take 228 } else f0
  let g := sealFlit x { f with seq := x.nextSeq, ack := 0, creditVc := 0, credits := 0 }
  let s2 := setUPort u (fun x => payCredits { x with
    txQueue := takeFlit i v rest x.txQueue, replay := x.replay ++ [g], nextSeq := x.nextSeq + 1,
    credits := natSet x.credits v (natAt x.credits v + 1), flitsTx := x.flitsTx + 1, txCount := x.txCount + 1, roundWeights := w,
    served := natSet (natSet (natSet x.served 0 v) 1 (n + 1)) (2 + v) (if rest.isSome then i else (i + 1) % 17) }) s1
  let s3 := emitFlit u x g s2
  if rest.isSome then s3 else freeBuffer i v s3

/-- An IDLE, NAK or LINK flit of a port: the fields that only a DATA flit has are 0, and its payload is free (log entry 74). -/
def emitControl (u : Nat) (kind : BitVec 2) (x : UPort) (s : State) : State :=
  emitFlit u x { vc := 0, kind := kind, first := false, last := false, hops := 0, dst := 0, src := 0, seq := 0, ack := 0, creditVc := 0,
                 credits := 0, payload := freeBytes s.free 244 } { s with free := s.free + 244 }

/-- What a flit slot sends when nothing else has priority: a new DATA flit, or IDLE. -/
def sendData (u : Nat) (s : State) : State :=
  let x := uport s u
  let idle := emitControl u 1 x (setUPort u payCredits s)
  match nextChannel s u 5 x.roundWeights (natAt x.served 0 % 4) (natAt x.served 1) with
  | none => idle
  | some (v, n, w) =>
    match nextInput x v with
    | none => idle
    | some i =>
      match x.txQueue.find? (fun e => decide (e.1 = i) && decide (e.2.vc.toNat = v)) with
      | some e => sendNew u v n i w e.2 s
      | none => idle

/-- FLIT_SLOT (R328). -/
def flitSlot (u : Nat) (s0 : State) : State :=
  let s := frameAll s0
  let x := uport s u
  if ¬linkOn x then s
  else if x.sendNak then emitControl u 2 x (setUPort u (fun x => payCredits { x with sendNak := false }) s)
  else if x.sendSwitch then
    keyedUp u (emitControl u 3 x
      (setUPort u (fun x => payCredits { x with sendSwitch := false, txKey := x.pendTx, pendTx := [], keyIndex := 0, txCount := 0 }) s))
  else match x.resend with
    | f :: rest => emitFlit u x f (setUPort u (fun x => payCredits { x with resend := rest }) s)
    | [] => sendData u s

def execFlitSlot (u : Nat) (s : State) : Out := withUnit u 16 s (flitSlot u)

end Sys2Proof.Machine
end

