-- ==== Sys2Proof/Machine/Loss.lean ====
section
/-! DEFINITION. Discovery, probes and the loss of a position (R338, R342 to R344). -/

namespace Sys2Proof.Machine

/-- HELLO: the peer is recorded (R338). While KEYING it tells the ends which of them sends the encapsulation key. -/
def hello (u : Nat) (node : BitVec 15) (peerPort : BitVec 4) (s : State) : State :=
  if ¬linkOn (uport s u) then s
  else sendKemKey u (setUPort u (fun x =>
    { x with peerNode := node, peerPort := peerPort, peerValid := decide (x.state = .up), probing := none }) s)

def execHello (u : Nat) (node : BitVec 15) (peerPort : BitVec 4) (s : State) : Out := withUnit u 16 s (hello u node peerPort)

/-- Whether the module answers on MGMT. -/
def mgmtServes (s : State) : Bool := s.resets.mgood || (s.resets.recovery && s.resets.powered)

/-- OWN_POSITION as a word. -/
def ownPositionBytes (s : State) : List Byte :=
  leBytes 4 (match ownPosition s with | some (p, c) => p + 2 ^ 14 * c + 2 ^ 15 | none => 0)

/-- MGMT_QUERY: the HELLO contents of every port and the module's own position. -/
def execMgmtQuery (node : BitVec 15) (s : State) : Out :=
  .next (if mgmtServes s then
      emit (.mgmt node Msg.queryReply (((List.range 16).map (helloBytes s)).flatten ++ ownPositionBytes s)) s
    else s)

/-- PROBE: a MGMT PROBE is answered; the answer to the module's own probe shows that the peer is not lost (R342). -/
def execProbe (x : ProbeMsg) (s : State) : Out :=
  .next (if x.reply then
      (List.range 16).foldl (fun s u =>
        if (uport s u).probing.isSome ∧ (uport s u).peerNode = x.node then setUPort u (fun y => { y with probing := none }) s else s) s
    else if mgmtServes s then emit (.mgmt x.node Msg.probeReply []) s else s)

/-- Fail the collectives and P2P operations that involve a position (R343). -/
def failInvolved (p : Nat) (s : State) : State :=
  (s.unlia.colls.filter (collInvolves s p)).foldl (fun s c => breakColl Status.collLost c s) s

/-- Fail the castles that name a position as the source of a chunk still to come: the running one, and those that wait (R255, R343). -/
def failSourced (p : Nat) (s : State) : State :=
  let s1 := match s.dealer.building with
    | some c =>
      if c.body.role ≠ 2 ∧ c.map.zipIdx.any (fun e => decide (e.1.sourcePos = p) && !c.done.contains e.2) then
        failBuilding Status.castleSourceLost s
      else s
    | none => s
  let came (c : Castle) (i : Nat) : Bool := s.dealer.earlyChunks.any (fun x => decide (x.castleId = c.body.castleId) && decide (x.index = i))
  let names (c : Castle) : Bool := decide (c.body.mode = 0) && decide (c.body.role ≠ 2) &&
    (mapEntries s c.body).zipIdx.any (fun e => decide (e.1.sourcePos = p) && !came c e.2)
  (s1.dealer.castles.filter names).foldl (fun s c => finish c.ticket Status.castleSourceLost s)
    { s1 with dealer := { s1.dealer with castles := s1.dealer.castles.filter (fun c => !names c) } }

/-- Mark a position ABSENT with all that follows; a position already ABSENT is not counted again. -/
def markAbsent (p : Nat) (s : State) : State :=
  if (position s p).state = 2 then s
  else
    let s1 := failSourced p (failInvolved p s)
    raiseEvent Event.peerLost (score 7 2 0x0030 s.dealer.stepNumber (leBytes 2 p)
      { s1 with unlia := { s1.unlia with
          positions := Tab.mod (fun _ => Position.cold) s1.unlia.positions p (fun x => { x with state := 2 }),
          lossLast := BitVec.ofNat 14 p, lossCount := s1.unlia.lossCount + 1 } })

/-- Flood LOSS out of every UP port. -/
def floodLoss (p : Nat) (node : BitVec 15) (count : W32) (s : State) : State :=
  ((List.range 16).filter (fun u => decide ((uport s u).state = .up))).foldl
    (fun s u => emit (.mgmtPort u Msg.loss (leBytes 2 p ++ leBytes 2 node.toNat ++ leBytes 4 count.toNat)) s) s

/-- The position whose NODE or TWIN_NODE is a node. -/
def positionOf (s : State) (n : BitVec 15) : Option Nat :=
  (s.unlia.positions.find? (fun e => decide (e.2.state ≠ 0) && (decide (e.2.node.toNat = n.toNat) || decide (e.2.twin.toNat = n.toNat)))).map (fun e => e.1)

/-- Whether the probes of a port have stood unanswered for 64 µs. -/
def probeOver (s : State) (u : Nat) : Bool :=
  match (uport s u).probing with
  | some t => decide (64 ≤ (s.tick - t).toNat)
  | none => false

/-- PROBE_TIMEOUT: no probe has been answered; the holder across the port is lost. -/
def probeTimeout (u : Nat) (s : State) : State :=
  let x := uport s u
  if ¬probeOver s u ∨ ¬s.resets.mgood then s
  else
    let s1 := setUPort u (fun x => { x with probing := none }) s
    match positionOf s1 x.peerNode with
    | none => s1
    | some p =>
      let s2 := markAbsent p s1
      let k := (BitVec.ofNat 14 p, s2.unlia.nodeId, s2.unlia.lossCount)
      floodLoss p s2.unlia.nodeId s2.unlia.lossCount { s2 with unlia := { s2.unlia with lossSeen := s2.unlia.lossSeen ++ [k] } }

def execProbeTimeout (u : Nat) (s : State) : Out := withUnit u 16 s (probeTimeout u)

/-- LOSS: marked and forwarded the first time (R343). -/
def loss (u : Nat) (p : BitVec 14) (node : BitVec 15) (count : W32) (s : State) : State :=
  if (uport s u).state ≠ .up ∨ ¬s.resets.mgood ∨ s.unlia.lossSeen.contains (p, node, count) then s
  else
    let s1 := markAbsent p.toNat { s with unlia := { s.unlia with lossSeen := s.unlia.lossSeen ++ [(p, node, count)] } }
    floodLoss p.toNat node count s1

def execLoss (u : Nat) (position : BitVec 14) (node : BitVec 15) (count : W32) (s : State) : Out :=
  withUnit u 16 s (loss u position node count)

end Sys2Proof.Machine
end

