-- ==== Sys2Proof/Machine/Move.lean ====
section
/-! DEFINITION. MOVE instructions (section 5.3). -/

namespace Sys2Proof.Machine

/-- The reads of a transfer of `n` bytes from SRAM address `a` on port queue `q`, issued at `t`: the ac of each 512-byte
read, and the state with port and banks taken (R208, R497). -/
def portReads (q a n t : Nat) (s : State) : List Nat × State :=
  let start := portStart s q t
  let (xs, s1) := claimBanks 512 a n start s
  (xs, usePort q start ((xs.getLast?.map (· + 1)).getD start) s1)

/-- The ac of the last of a list of accesses, or `d`. -/
def lastAc (xs : List Nat) (d : Nat) : Nat := xs.getLast?.getD d

/-- Deliver 512-byte beats into a unit store, beat k in the k-th ac of the list plus a latency. -/
def deliverBeats (st : Store) (start lat : Nat) (xs : List Nat) (bs : List Byte) (s : State) : State :=
  ((chunksOf 512 xs.length bs).zip xs).zipIdx.foldl
    (fun s e => deliver st (start + 512 * e.2) (e.1.2 + lat) e.1.1 s) s

/-- Write 512-byte beats to bonded SRAM, beat k in the k-th ac of the list. -/
def writeBeats (a : Nat) (xs : List Nat) (bs : List Byte) (s : State) : State :=
  ((chunksOf 512 xs.length bs).zip xs).zipIdx.foldl
    (fun s e => sramStore e.1.2 none 0 (a + 512 * e.2) e.1.1 s) s

/-- Element bytes of a transposed read: FMT 0, 1 FP8, 2 BF16 (R85). -/
def transposedSize (fmt : Nat) : Nat := if fmt = 2 then 2 else 1

/-- The panel that a transposed MOVE writes (R85): line i, element 64t + r is element i of row r of tile t. -/
def transposePanel (e n : Nat) (src : List Byte) : List Byte :=
  ((List.range 64).map (fun i => ((List.range n).map (fun t => ((List.range 64).map (fun r =>
    (src.drop (4096 * e * t + 64 * e * r + e * i)).take e)).flatten)).flatten)).flatten

/-- LDA, LDB, LDAT, LDBT: `side` 0 OPA, 1 OPB (R83 to R86, R150). -/
def loadHalf (i : Issue) (c : Common) (op : BitVec 4) (f : MoveF) (side : Nat) (transposed : Bool) (s : State) : Out :=
  issue i c (.move op f) (fun _ pr s =>
    let p := i.prog
    let n := f.bytes.toNat
    let src := wrap48 (areg pr f.sreg.toNat)
    let off := f.wide.toNat % 65536
    let halves := (maskEngines s p f.mask).map (fun e => halfIdx e.2 side f.half.toNat)
    let q := clusterPort p f.port.toNat
    let t := portIssueAc s q (halves.foldl (fun a h => max a (natAt s.units.bufRead h)) pr.ready)
    let e := transposedSize f.fmt.toNat
    if transposed ∧ 3 ≤ f.fmt.toNat then raiseFault FaultCode.operandFormat p t pr.pc s
    else if transposed ∧ (n % (4096 * e) ≠ 0 ∨ src % 64 ≠ 0) then raiseFault FaultCode.align p t pr.pc s
    else if 65536 < off + n ∨ ¬canRead (dieOf p) src n then raiseFault FaultCode.addrRange p t pr.pc s
    else
      let bytes := readBytes s.tiers.mem src n
      let panel := if transposed then transposePanel e (n / (4096 * e)) bytes else bytes
      let lat := if transposed then 28 else 24
      let (xs, s1) := portReads q src n t (sramEcc i [(src, n)] t s)
      let done := lastAc xs t + lat
      let s2 := halves.foldl (fun s h =>
        let s := deliverBeats .buf (65536 * h + off) lat xs panel s
        { s with units := { s.units with
            bufFmt := natSet s.units.bufFmt h (f.fmt.toNat + 1),
            bufReady := natSet s.units.bufReady h (max (natAt s.units.bufReady h) (done + 1)) } }) s1
      advance p t 1 (doneAt p done s2)) s

/-- LDA (R84). -/
def execLda (i : Issue) (c : Common) (f : MoveF) (s : State) : Out := loadHalf i c 0 f 0 false s
/-- LDB (R84). -/
def execLdb (i : Issue) (c : Common) (f : MoveF) (s : State) : Out := loadHalf i c 1 f 1 false s
/-- LDAT (R85). -/
def execLdat (i : Issue) (c : Common) (f : MoveF) (s : State) : Out := loadHalf i c 2 f 0 true s
/-- LDBT (R85). -/
def execLdbt (i : Issue) (c : Common) (f : MoveF) (s : State) : Out := loadHalf i c 3 f 1 true s

/-- Whether a drain into the engine tree still holds a bank: no ETREE has taken it (R91, R156). -/
def treeHolds (s : State) (r : Run) (bank : Nat) : Bool :=
  r.drains.any (fun d => decide (d.action = 3) &&
    decide (bankIdx (9 * d.cluster + physEngine s d.cluster d.engine) d.bank = bank))

/-- ACCLD (R91, R92): the bank is loaded 87 ac after the reads start, row r written at +24 + r. -/
def execAccld (i : Issue) (c : Common) (f : MoveF) (s : State) : Out :=
  issue i c (.move 4 f) (fun r pr s =>
    let p := i.prog
    let n := f.bytes.toNat
    let src := wrap48 (areg pr f.sreg.toNat)
    let off := f.wide.toNat % 65536
    let banks := (maskEngines s p f.mask).map (fun e => bankIdx e.2 f.bank.toNat)
    let q := clusterPort p f.port.toNat
    let t := portIssueAc s q (banks.foldl (fun a b => max a (natAt s.units.bankFree b)) pr.ready)
    if banks.any (treeHolds s r) then s
    else if 16384 < off + n ∨ ¬canRead (dieOf p) src n then raiseFault FaultCode.addrRange p t pr.pc s
    else
      let rows := chunksOf 256 64 (readBytes s.tiers.mem src n)
      let (xs, s1) := portReads q src n t (sramEcc i [(src, n)] t s)
      let start := xs.head?.getD t
      let s2 := banks.foldl (fun s b =>
        let s := rows.zipIdx.foldl (fun s e => deliver .bank (16384 * b + off + 256 * e.2) (start + 24 + e.2) e.1 s) s
        { s with units := { s.units with
            bankHas := natSet s.units.bankHas b 2,
            bankLoaded := natSet s.units.bankLoaded b (start + 88) } }) s1
      advance p t 1 (doneAt p (start + 87) s2)) s

/-- SPILL (R134, R135, R150): side-memory records from byte UOFF to SRAM at A(DREG). -/
def execSpill (i : Issue) (c : Common) (f : MoveF) (s : State) : Out :=
  issue i c (.move 5 f) (fun _ pr s =>
    let p := i.prog
    let n := f.bytes.toNat
    let dst := wrap48 (areg pr f.dreg.toNat)
    let off := f.wide.toNat % 65536
    let q := clusterPort p f.port.toNat
    let t := portIssueAc s q (max pr.ready (recordsFree s.units.rowUse p (off / 8) ((off + n + 7) / 8)))
    if 262144 < off + n then raiseFault FaultCode.rowRange p t pr.pc s
    else if ¬canWrite s (dieOf p) dst n then raiseFault FaultCode.addrRange p t pr.pc s
    else if isSideDouble i.ecc then raiseFault FaultCode.sideEcc p t pr.pc s
    else
      let start := portStart s q t
      let bytes := tabSlice n (262144 * p + off) s.units.side
      let (xs, s1) := claimBanks 512 dst n (start + 44) (arrayEcc i s)
      let s2 := writeBeats dst xs bytes (usePort q start (start + (n + 511) / 512) s1)
      advance p t 1 (doneAt p (lastAc xs t) s2)) s

/-- The records of one beat of a FILL, `n` bytes from byte `o` of the side memory, take the MOVE's tag in the ac in which the beat is written,
and are then free for a ROW (R134, R135). -/
def fillTags (k : Nat) (tag : W16) (o n ac : Nat) (s : State) : State :=
  let lo := o / 8
  let hi := (o + n + 7) / 8
  let s1 := deliver .tag (65536 * k + 2 * lo) ac ((List.replicate (hi - lo) (leBytes 2 tag.toNat)).flatten) s
  { s1 with units := { s1.units with
      fillUse := s1.units.fillUse ++ [{ cluster := k, lo := lo, hi := hi, ac := ac, step := 0 }] } }

/-- FILL (R134, R135): records from SRAM, each with TAG; the first is written 24 ac after the reads start. -/
def execFill (i : Issue) (c : Common) (f : MoveF) (s : State) : Out :=
  issue i c (.move 6 f) (fun _ pr s =>
    let p := i.prog
    let n := f.bytes.toNat
    let src := wrap48 (areg pr f.sreg.toNat)
    let off := f.wide.toNat % 65536
    let lo := off / 8
    let hi := (off + n + 7) / 8
    let q := clusterPort p f.port.toNat
    let t := portIssueAc s q (max pr.ready (recordsFree s.units.rowUse p lo hi))
    if 262144 < off + n then raiseFault FaultCode.rowRange p t pr.pc s
    else if ¬canRead (dieOf p) src n then raiseFault FaultCode.addrRange p t pr.pc s
    else
      let bytes := readBytes s.tiers.mem src n
      let (xs, s1) := portReads q src n t (sramEcc i [(src, n)] t s)
      let done := lastAc xs t + 24
      let s2 := deliverBeats .side (262144 * p + off) 24 xs bytes s1
      let s3 := xs.zipIdx.foldl (fun s e => fillTags p f.tagWp (off + 512 * e.2) (min 512 (n - 512 * e.2)) (e.1 + 24) s) s2
      advance p t 1 (doneAt p done s3)) s

/-- PARLD (Table 5.4): the row engine's parameter buffer from SRAM. -/
def execParld (i : Issue) (c : Common) (f : MoveF) (s : State) : Out :=
  issue i c (.move 7 f) (fun _ pr s =>
    let p := i.prog
    let n := f.bytes.toNat
    let src := wrap48 (areg pr f.sreg.toNat)
    let off := f.wide.toNat % 65536
    let q := clusterPort p f.port.toNat
    let t := portIssueAc s q pr.ready
    if 65536 < off + n ∨ ¬canRead (dieOf p) src n then raiseFault FaultCode.addrRange p t pr.pc s
    else
      let bytes := readBytes s.tiers.mem src n
      let (xs, s1) := portReads q src n t (sramEcc i [(src, n)] t s)
      let s2 := deliverBeats .param (65536 * p + off) 24 xs bytes s1
      advance p t 1 (doneAt p (lastAc xs t + 24) s2)) s

/-- GRADST (Table 5.4): the gradient buffer to SRAM, the first 512 bytes written at +44. -/
def execGradst (i : Issue) (c : Common) (f : MoveF) (s : State) : Out :=
  issue i c (.move 8 f) (fun _ pr s =>
    let p := i.prog
    let n := f.bytes.toNat
    let dst := wrap48 (areg pr f.dreg.toNat)
    let off := f.wide.toNat % 65536
    let q := clusterPort p f.port.toNat
    let t := portIssueAc s q pr.ready
    if 65536 < off + n ∨ ¬canWrite s (dieOf p) dst n then raiseFault FaultCode.addrRange p t pr.pc s
    else
      let start := portStart s q t
      let bytes := tabSlice n (65536 * p + off) s.units.grad
      let (xs, s1) := claimBanks 512 dst n (start + 44) (arrayEcc i s)
      let s2 := writeBeats dst xs bytes (usePort q start (start + (n + 511) / 512) s1)
      advance p t 1 (doneAt p (lastAc xs t) s2)) s

/-- COPY (Table 5.4): SRAM to SRAM of the same die. -/
def execCopy (i : Issue) (c : Common) (f : MoveF) (s : State) : Out :=
  issue i c (.move 9 f) (fun _ pr s =>
    let p := i.prog
    let n := f.bytes.toNat
    let src := wrap48 (areg pr f.sreg.toNat)
    let dst := wrap48 (areg pr f.dreg.toNat)
    let q := clusterPort p f.port.toNat
    let t := portIssueAc s q pr.ready
    if ¬canRead (dieOf p) src n ∨ ¬canWrite s (dieOf p) dst n then raiseFault FaultCode.addrRange p t pr.pc s
    else
      let bytes := readBytes s.tiers.mem src n
      let (xs, s1) := portReads q src n t (sramEcc i [(src, n)] t s)
      let (ys, s2) := claimBanks 512 dst n (xs.head?.getD t + 44) s1
      advance p t 1 (doneAt p (lastAc ys t) (writeBeats dst ys bytes s2))) s

/-- Whether a port's FIFO of a die program's stream requests is full: 64 of them wait (R188). -/
def streamFifoFull (s : State) (m : Nat) : Bool :=
  decide (64 ≤ (s.host.ops.filter (fun e => match e.2 with | .stream x => !x.served && x.ports.contains m | _ => false)).length)

/-- Hand a stream to the die's port sequencer: outstanding until STREAM_COMPLETE (R151), held while a FIFO that it enters is full (R188);
into a closed port it fails (R427). -/
def startStream (i : Issue) (c : Common) (op : BitVec 4) (f : MoveF) (out : Bool) (s : State) : Out :=
  issue i c (.move op f) (fun r pr s =>
    let p := i.prog
    let d := dieOf p
    let n := f.bytes.toNat
    let src := wrap48 (areg pr f.sreg.toNat)
    let dst := wrap48 (areg pr f.dreg.toNat)
    let (sram, dram) := if out then (src, dst) else (dst, src)
    let ports := streamPorts s r p dram n
    if ¬inSram d sram n ∨ ¬inDram d dram n ∨ roShared s dst n then raiseFault FaultCode.addrRange p pr.ready pr.pc s
    else if ports.any (streamFifoFull s) then s
    else
      let x : StreamOp :=
        { prog := p, out := out, sram := sram, dram := dram, bytes := n, wp := f.tagWp.toNat % 1024, cmask := f.wide,
          ports := ports, segs := [], reread := [], served := false, awaits := [], failed := ports.any (fun m => blockShut s (32 + m)) }
      let s1 := addOp (.stream x) (sramEcc i (if out then [(sram, n)] else []) pr.ready s)
      let s2 := if out then setRun (fun r => { r with extDst := r.extDst ++ [(some p, dram, n)] }) s1 else s1
      advance p pr.ready 1 (setRun (setProg p (fun x => { x with extOpen := x.extOpen + 1 })) s2)) s

/-- STREAM_IN (R151). -/
def execStreamIn (i : Issue) (c : Common) (f : MoveF) (s : State) : Out := startStream i c 10 f false s
/-- STREAM_OUT (R151). -/
def execStreamOut (i : Issue) (c : Common) (f : MoveF) (s : State) : Out := startStream i c 11 f true s

/-- XFER (Table 5.4): SRAM to SRAM of another die, first written at +60 (adjacent) or +100 (diagonal). -/
def execXfer (i : Issue) (c : Common) (f : MoveF) (s : State) : Out :=
  issue i c (.move 12 f) (fun _ pr s =>
    let p := i.prog
    let d := dieOf p
    let target := f.wide.toNat % 4
    let n := f.bytes.toNat
    let src := wrap48 (areg pr f.sreg.toNat)
    let dst := wrap48 (areg pr f.dreg.toNat)
    let q := diePort d
    let t := portIssueAc s q pr.ready
    if ¬canRead d src n ∨ ¬canWrite s target dst n then raiseFault FaultCode.addrRange p t pr.pc s
    else
      let bytes := readBytes s.tiers.mem src n
      let (xs, s1) := portReads q src n t (sramEcc i [(src, n)] t s)
      let (ys, s2) := claimBanks 512 dst n (xs.head?.getD t + (if hops d target = 2 then 100 else 60)) s1
      advance p t 1 (doneAt p (lastAc ys t) (writeBeats dst ys bytes s2))) s

end Sys2Proof.Machine
end

