-- ==== Sys2Proof/Machine/Mma.lean ====
section
/-! DEFINITION. MMA instructions, the engine datapath and the accumulator drain (sections 3.1 to 3.3, 5.4). -/

namespace Sys2Proof.Machine

/-- The operand format of an MMA opcode. -/
def mmaFmt (op : Nat) : Fmt :=
  match op with
  | 0 => .e4m3
  | 1 => .e5m2
  | 2 => .bf16
  | 3 => .pb6
  | _ => .pb4

/-- Update cycles for K (Table 3.1). -/
def mmaCycles (op k : Nat) : Nat := if op = 2 then 2 * k else if op = 4 then k / 2 else k
/-- Largest K and K granularity (Table 3.1). -/
def mmaMaxK (op : Nat) : Nat := if op = 2 then 512 else 1024
def mmaGrain (op : Nat) : Nat := if op ≤ 2 then 64 else 32

/-- Bytes of one stored line of K elements; a block format's line is whole blocks from a half-block (R499). -/
def lineBytes (op k half : Nat) : Nat :=
  let f := mmaFmt op
  if f.isPb then (k + 32 * half + 63) / 64 * f.rowBytes else k * (f.params.bits / 8)

/-- The K elements of one stored line. -/
def lineVals (op k half : Nat) (bs : List Byte) : List Exact :=
  let f := mmaFmt op
  if f.isPb then
    let blks := ((chunksOf f.rowBytes ((k + 32 * half + 63) / 64) bs).map ofLe)
    (List.range k).map (fun x => pbElem f ((blks[(x + 32 * half) / 64]?).getD 0) ((x + 32 * half) % 64))
  else decodeVals f k bs

/-- The 64 lines of a stored panel. -/
def panelLines (op k half : Nat) (bs : List Byte) : List (List Exact) :=
  (chunksOf (lineBytes op k half) 64 bs).map (lineVals op k half)

/-- Column j of a column-blocked panel: element j of each of K consecutive blocks (R82). -/
def columnLines (op k : Nat) (bs : List Byte) : List (List Exact) :=
  let f := mmaFmt op
  let blks := (chunksOf f.rowBytes k bs).map ofLe
  (List.range 64).map (fun j => blks.map (fun b => pbElem f b j))

/-- Add products in ascending k with one rounding each (R78). -/
def accumulate : W32 → List Exact → List Exact → W32
  | acc, a :: as, b :: bs => accumulate (toF32 ((f32 acc).add (a.mul b))) as bs
  | acc, _, _ => acc

/-- PB4: each pair of products is summed exactly, then added with one rounding (R78). -/
def accumulatePairs : W32 → List Exact → List Exact → W32
  | acc, a :: a' :: as, b :: b' :: bs => accumulatePairs (toF32 ((f32 acc).add ((a.mul b).add (a'.mul b')))) as bs
  | acc, _, _ => acc

/-- One output tile: row-major, element (i, j) accumulates line i of A against line j of B (R78, R88). -/
def mmaTile (op : Nat) (as bs : List (List Exact)) (acc : List W32) : List W32 :=
  let dot := if op = 4 then accumulatePairs else accumulate
  (as.zipIdx.map (fun a => bs.zipIdx.map (fun b => dot ((acc[64 * a.2 + b.2]?).getD 0) a.1 b.1))).flatten

/-- The tile that an MMA leaves in the bank of one engine. -/
def mmaResult (s : State) (op : Nat) (f : MmaF) (e : Nat) : List W32 :=
  let k := 32 * f.kq.toNat
  let lineA := lineBytes op k f.ahb.toNat
  let abytes := tabSlice (64 * lineA) (65536 * halfIdx e 0 f.ahalf.toNat + f.aoff.toNat) s.units.buf
  let bstart := 65536 * halfIdx e 1 f.bhalf.toNat + f.boff.toNat
  let bl := if f.bcol = 1 then columnLines op k (tabSlice (k * (mmaFmt op).rowBytes) bstart s.units.buf)
    else panelLines op k f.bhb.toNat (tabSlice (64 * lineBytes op k f.bhb.toNat) bstart s.units.buf)
  let acc := if f.start = 0 then List.replicate 4096 0
    else wordsOf 4096 (tabSlice 16384 (16384 * bankIdx e f.bank.toNat) s.units.bank)
  mmaTile op (panelLines op k f.ahb.toNat abytes) bl acc

/-- The ac of an MMA's first update on an engine: after its predecessor, its operands and a load of its bank (R79, R86). -/
def mmaFirst (s : State) (f : MmaF) (e t : Nat) : Nat :=
  max (max (t + 10) (natAt s.units.engDone e))
    (max (max (natAt s.units.bufReady (halfIdx e 0 f.ahalf.toNat)) (natAt s.units.bufReady (halfIdx e 1 f.bhalf.toNat)))
      (natAt s.units.bankLoaded (bankIdx e f.bank.toNat)))

/-- Bytes that the A and the B panel of an MMA take in their halves (R153). -/
def panelBytesA (op : Nat) (f : MmaF) : Nat := 64 * lineBytes op (32 * f.kq.toNat) f.ahb.toNat
def panelBytesB (op : Nat) (f : MmaF) : Nat :=
  if f.bcol = 1 then 32 * f.kq.toNat * (mmaFmt op).rowBytes else 64 * lineBytes op (32 * f.kq.toNat) f.bhb.toNat

/-- The drain destination of logical engine j (R152). -/
def drainDest (pr : Prog) (f : MmaF) (j : Nat) : Nat :=
  wrap48 (areg pr f.dreg.toNat + 64 * f.doff.toNat + j * (if f.drain = 1 then 16384 else 8192))

/-- The first fault that an MMA meets at issue, in the order OPERAND_FORMAT, K_RANGE, ADDR_RANGE, ACC_EMPTY (R149, R152,
R153, R80; log entry 18). A half that no load has written since reset has no format tag, so no MMA finds its format there (DESIGN CHOICE, log
entry 5). -/
def mmaFault (s : State) (p : Nat) (pr : Prog) (f : MmaF) : Option Nat :=
  let op := f.fmt.toNat
  let k := 32 * f.kq.toNat
  let es := maskEngines s p f.mask
  let tagA := es.any (fun e => decide (natAt s.units.bufFmt (halfIdx e.2 0 f.ahalf.toNat) ≠ op + 1))
  let tagB := es.any (fun e => decide (natAt s.units.bufFmt (halfIdx e.2 1 f.bhalf.toNat) ≠ op + 1 + 2 * f.bcol.toNat))
  let size := if f.drain = 1 then 16384 else 8192
  let has (e : Nat × Nat) := natAt s.units.bankHas (bankIdx e.2 f.bank.toNat)
  if tagA ∨ tagB then some FaultCode.operandFormat
  else if mmaMaxK op < k ∨ k % mmaGrain op ≠ 0 then some FaultCode.kRange
  else if 65536 < f.aoff.toNat + panelBytesA op f ∨ 65536 < f.boff.toNat + panelBytesB op f then some FaultCode.addrRange
  else if (f.drain = 1 ∨ f.drain = 2) ∧ es.any (fun e => !canWrite s (dieOf p) (drainDest pr f e.1) size)
    then some FaultCode.addrRange
  else if (f.start = 1 ∧ es.any (fun e => decide (has e ≠ 2))) ∨ (f.start = 2 ∧ es.any (fun e => decide (has e = 0)))
    then some FaultCode.accEmpty
  else none

/-- Carry out an MMA issued at `t` on one engine of its mask. -/
def mmaOn (p pc t : Nat) (pr : Prog) (c : Common) (f : MmaF) (s : State) (je : Nat × Nat) : State :=
  let e := je.2
  let op := f.fmt.toNat
  let b := bankIdx e f.bank.toNat
  let ha := halfIdx e 0 f.ahalf.toNat
  let hb := halfIdx e 1 f.bhalf.toNat
  let done := mmaFirst s f e t + mmaCycles op (32 * f.kq.toNat)
  let tile := mmaResult s op f e
  let u := s.units
  let s1 := deliver .bank (16384 * b) done (bytesOfWords tile) { s with units := { u with
    engDone := natSet u.engDone e done,
    bufRead := natSet (natSet u.bufRead ha done) hb (max done (natAt u.bufRead hb)),
    bankHas := natSet u.bankHas b 1,
    bankFree := natSet u.bankFree b (max (natAt u.bankFree b) (if f.drain = 0 then done else done + 64)) } }
  setRun (fun r => { r with drains := r.drains ++
    [{ cluster := p, engine := je.1, bank := f.bank.toNat, action := f.drain.toNat, sat := c.sat,
       dest := drainDest pr f je.1, doneAc := done, complete := false, prog := p, pc := pc,
       tileM := f.tileM, tileN := f.tileN, tile := if f.drain = 0 then [] else tile }] })
    (doneAt p (if f.drain = 0 ∨ f.drain = 3 then done else done + 83) s1)

/-- MMA (R76 to R82, R86, R91, R152, R153): a ZERO or LOAD MMA waits for its banks; each engine of the mask updates in
issue order. -/
def execMma (i : Issue) (c : Common) (f : MmaF) (s : State) : Out :=
  issue i c (.mma f) (fun r pr s =>
    let p := i.prog
    let es := maskEngines s p f.mask
    let banks := es.map (fun e => bankIdx e.2 f.bank.toNat)
    let t := if f.start = 2 then pr.ready else banks.foldl (fun a b => max a (natAt s.units.bankFree b)) pr.ready
    if f.start ≠ 2 ∧ banks.any (treeHolds s r) then s
    else match i.ecc with
    | .engineDouble e => raiseFault FaultCode.engineEcc p t pr.pc (failEngine p (e % 9) s)
    | _ =>
      match mmaFault s p pr f with
      | some code => raiseFault code p t pr.pc s
      | none => advance p t 1 (es.foldl (mmaOn p pr.pc t pr c f) (arrayEcc i s))) s

/-- Write the rows of a tile to SRAM from `ac` on, one per ac, in FP32 or BF16, with their flags (R61, R63, R65, R89). -/
def drainRows (k src prog pc dest ac : Nat) (sat bf16 : Bool) (tileM tileN : W16) (tile : List W32) (s : State) : State :=
  let f : Fmt := if bf16 then .bf16 else .fp32
  let rows := (rowsOf 64 tile).map (fun r => encodeRow f sat (r.map f32))
  let (xs, s1) := claimBanks f.rowBytes dest (64 * f.rowBytes) ac s
  let s2 := (rows.zip xs).zipIdx.foldl
    (fun s e => sramStore e.1.2 (some k) src (dest + f.rowBytes * e.2) e.1.1.1 s) s1
  doneAt prog (lastAc xs ac)
    (flagRows k src pc tileM tileN (lastAc xs ac) (rows.map (fun r => r.2)) s2)

/-- MMA_BANK_COMPLETE: the bank of a logical engine completes and its drain starts (R89); a TREE drain waits for its
ETREE (R156). -/
def execMmaBankComplete (cluster engine bank : Nat) (s : State) : Out :=
  withUnit cluster 32 s (fun s =>
    match s.dealer.run with
    | none => s
    | some r =>
      match r.drains.find? (fun d => decide (d.cluster = cluster) && decide (d.engine = engine) &&
          decide (d.bank = bank) && !d.complete) with
      | none => s
      | some d =>
        if r.stopped then s
        else if d.action = 3 then
          setRun (fun r => { r with drains := r.drains.map (fun x => if x = d then { x with complete := true } else x),
                                    nowAc := max r.nowAc d.doneAc }) s
        else
          let s1 := setRun (fun r => { r with drains := r.drains.erase d, nowAc := max r.nowAc d.doneAc }) s
          if d.action = 0 then s1
          else drainRows cluster engine d.prog d.pc d.dest (d.doneAc + 20) d.sat (decide (d.action = 2)) d.tileM d.tileN d.tile s1)

end Sys2Proof.Machine
end

