-- ==== Sys2Proof/Machine/Red.lean ====
section
/-! DEFINITION. RED instructions: the reduction trees and the top-k unit (sections 3.4, 3.6 and 5.6). -/

namespace Sys2Proof.Machine

/-- A node of a tree while it carries a reduction: key, first ac, last ac (R97). -/
abbrev NodeUse := Nat × Nat × Nat

/-- One level of a tree: neighbours add with one rounding; row 0 leaves a node `cost` ac after both inputs are present
(R93, R96). The nodes of a level are numbered from `n` on. -/
def treeLevel (key cost : Nat) : Nat → List (Nat × List W32) → List (Nat × List W32) × List NodeUse
  | _, [] => ([], [])
  | _, [x] => ([x], [])
  | n, x :: y :: t =>
    let ac := max x.1 y.1 + cost
    let rest := treeLevel key cost (n + 1) t
    ((ac, (x.2.zip y.2).map (fun p => fAdd p.1 p.2)) :: rest.1, (key + n, min x.1 y.1, ac + 63) :: rest.2)

/-- The `l` levels of a tree from level `lv` up over an aligned group, whose first input at that level has number `base`: the root's row-0 ac
and rows, and the use of every node. A node is known by its tree, its level (Table 3.3) and its number in the level, whatever group uses it. -/
def treeReduce (key cost : Nat) : Nat → Nat → Nat → List (Nat × List W32) → (Nat × List W32) × List NodeUse
  | 0, _, _, xs => ((xs[0]?).getD (0, []), [])
  | l + 1, lv, base, xs =>
    let (ys, us) := treeLevel (key + 16 * lv) cost (base / 2) xs
    let rest := treeReduce key cost l (lv + 1) (base / 2) ys
    (rest.1, us ++ rest.2)

/-- Whether a reduction shares a node with another one in some ac (R97). -/
def treeBusy (nodes : Tab (List (Nat × Nat))) (us : List NodeUse) : Bool :=
  us.any (fun u => (Tab.get (fun _ => []) nodes u.1).any (fun n => decide (n.1 ≤ u.2.2) && decide (u.2.1 ≤ n.2)))

/-- Record the nodes' use. -/
def takeNodes (us : List NodeUse) (r : Run) : Run :=
  { r with nodes := us.foldl (fun t u => Tab.mod (fun _ => []) t u.1 (fun xs => xs ++ [u.2])) r.nodes }

/-- Members of a group: SIZE 1, 2, 3 for 2, 4, 8 from BASE (Table 5.11); none where it is not aligned (R97). -/
def groupMembers (f : TreeF) (limit : Nat) : Option (List Nat) :=
  let t := 2 ^ f.size.toNat
  let b := f.base.toNat
  if b % t = 0 ∧ b + t ≤ limit then some ((List.range t).map (fun i => b + i)) else none

/-- Bytes of a tree's result tile. -/
def treeBytes (f : TreeF) : Nat := if f.outfmt = 1 then 8192 else 16384
/-- Destination of a tree's result: A(DREG) + 64 × DOFF. -/
def treeDest (pr : Prog) (f : TreeF) : Nat := wrap48 (areg pr f.dreg.toNat + 64 * f.doff.toNat)

/-- The root's output: rows to SRAM 20 ac after they leave (R90), or onward to the next tree level. Tile fields are an MMA's alone, so those
of a cluster-tree or die-tree root are not reported (Table 3.9). -/
def treeOutput (level k src p pc dest : Nat) (sat : Bool) (f : TreeF) (ac : Nat) (rows : List W32) (s : State) : State :=
  if f.onward = 1 then
    doneAt p (ac + 63) (setRun (fun r => { r with trees := r.trees ++
      [{ level := level, cluster := k, waiting := false, field := f, sat := sat, nth := 0, ac := ac, issued := 0,
         dest := 0, pc := pc, rows := rows, lag := [] }] }) s)
  else drainRows k src p pc dest (ac + 20) sat (decide (f.outfmt = 1)) (if src < 8 then f.tileM else 0) (if src < 8 then f.tileN else 0) rows s

/-- ETREE (R93, R97, R156): takes the oldest TREE drain of the bank on each engine of its group. -/
def execEtree (i : Issue) (c : Common) (f : TreeF) (s : State) : Out :=
  issue i c (.tree 0 f) (fun r pr s =>
    let p := i.prog
    let t := pr.ready
    let find (j : Nat) : Option Drain := r.drains.find? (fun d =>
      decide (d.cluster = p) && decide (d.engine = j) && decide (d.bank = f.bank.toNat) && decide (d.action = 3))
    match groupMembers f 8 with
    | none => raiseFault FaultCode.treeGroup p t pr.pc s
    | some js =>
      let ds := js.filterMap find
      if ds.length ≠ js.length then raiseFault FaultCode.treeGroup p t pr.pc s
      else if f.onward = 0 ∧ ¬canWrite s (dieOf p) (treeDest pr f) (treeBytes f) then
        raiseFault FaultCode.addrRange p t pr.pc s
      else
        let ins := ds.map (fun d => (max d.doneAc (t + 1), d.tile))
        let (root, us) := treeReduce (1000 * p) 6 f.size.toNat 1 f.base.toNat ins
        if treeBusy r.nodes us then raiseFault FaultCode.treeBusy p t pr.pc s
        else
          let s1 := setRun (fun r => takeNodes us { r with drains := r.drains.filter (fun d => !ds.contains d) }) s
          let s2 := ds.foldl (fun s d => { s with units := { s.units with
            bankFree := Tab.mod (fun _ => 0) s.units.bankFree (bankIdx (9 * p + physEngine s p d.engine) d.bank)
              (max (max d.doneAc (t + 1) + 64)) } }) s1
          advance p t 1 (treeOutput 1 p f.base.toNat p pr.pc (treeDest pr f) c.sat f root.1 root.2 s2)) s

/-- The partners of a waiting CTREE or DTREE: the same group and number, one per cluster or die of the group. -/
def partners (r : Run) (x : TreeItem) (unitOf : Nat → Nat) (members : List Nat) : List TreeItem :=
  members.filterMap (fun m => r.trees.find? (fun y => y.waiting && decide (y.level = x.level) &&
    decide (unitOf y.cluster = m) && decide (y.field.size = x.field.size) && decide (y.field.base = x.field.base) &&
    decide (y.nth = x.nth)))

/-- An input of a tree node for R198: its program, the ac in which the program's instruction issued, the ac of row 0, and the lag its rows
carry. -/
structure LagRow where
  prog   : Nat
  issued : Nat
  ac     : Nat
  lag    : Tab Nat
  deriving DecidableEq, Repr

/-- What a CTREE or DTREE brings to R198, with the lag that counts there. -/
def TreeItem.lagRow (x : TreeItem) (lag : Tab Nat) : LagRow := { prog := x.cluster, issued := x.issued, ac := x.ac, lag := lag }

/-- One level: the program of a node's first input receives the last row, the 64th, of the second (R198 step 3; log entry 76). -/
def lagLevel (cost : Nat) : List LagRow → List LagRow
  | x :: y :: t =>
    let s := y.ac + 63
    { x with ac := max x.ac y.ac + cost, lag := mergeLag x.lag x.issued (max x.issued s) s y.lag } :: lagLevel cost t
  | xs => xs

/-- The lag of every program after each of `l` levels, in order. -/
def lagTree (cost : Nat) : Nat → List LagRow → List (Nat × Tab Nat)
  | 0, _ => []
  | l + 1, xs =>
    let ys := lagLevel cost xs
    ys.map (fun y => (y.prog, y.lag)) ++ lagTree cost l ys

/-- All partners have issued: the group is reduced, and the result leaves at the lowest of them (R94, R95). Every program that receives
rows takes part in R198 with its lag of now; the rows of the others carry their sender's lag as it stood at issue. -/
def treeMeet (level cost key src : Nat) (ps : List TreeItem) (s : State) : State :=
  match ps, s.dealer.run with
  | root :: _, some r =>
    let last := ps.foldl (fun a x => max a x.issued) 0
    let (out, us) := treeReduce key cost root.field.size.toNat 1 root.field.base.toNat (ps.map (fun x => (x.ac, x.rows)))
    let ins := ps.zipIdx.map (fun x => x.1.lagRow (if x.2 % 2 = 0 then (prog r x.1.cluster).lag else x.1.lag))
    let s1 := setRun (fun r => { r with trees := r.trees.filter (fun x => !ps.contains x) }) s
    if treeBusy r.nodes us then raiseFault FaultCode.treeBusy root.cluster last root.pc s1
    else
      let s2 := setRun (fun r => (lagTree cost root.field.size.toNat ins).foldl
        (fun r x => setProg x.1 (fun y => { y with lag := x.2 }) r) (takeNodes us r)) s1
      treeOutput (level + 1) root.cluster src root.cluster root.pc root.dest root.sat root.field out.1 out.2 s2
  | _, _ => s

/-- Issue a CTREE (level 1) or DTREE (level 2): takes the program's own onward result and waits for its partners. -/
def treeJoin (i : Issue) (c : Common) (op : BitVec 4) (f : TreeF) (level limit : Nat) (unitOf : Nat → Nat) (own : Nat)
    (members : List Nat → List Nat) (cost key src : Nat) (s : State) : Out :=
  issue i c (.tree op f) (fun r pr s =>
    let p := i.prog
    let t := pr.ready
    match groupMembers f limit, r.trees.find? (fun x => !x.waiting && decide (x.level = level) && decide (x.cluster = p)) with
    | some js, some x =>
      let ms := members js
      let lowest := decide (ms.head? = some (unitOf p))
      if ¬js.contains own then raiseFault FaultCode.treeGroup p t pr.pc s
      else if f.onward = 0 ∧ lowest ∧ ¬canWrite s (dieOf p) (treeDest pr f) (treeBytes f) then
        raiseFault FaultCode.addrRange p t pr.pc s
      else
        let mk := ((level * 4 + f.size.toNat) * 8 + f.base.toNat) * 64 + unitOf p
        let w : TreeItem :=
        { level := level, cluster := p, waiting := true, field := f, sat := c.sat,
          nth := natAt r.matched mk, ac := max x.ac (t + 1), issued := t, dest := treeDest pr f, pc := pr.pc,
          rows := x.rows, lag := pr.lag }
        let s1 := advance p t 1 (setRun (fun r => { r with
          trees := r.trees.erase x ++ [w], matched := natSet r.matched mk (natAt r.matched mk + 1) }) s)
        match s1.dealer.run with
        | some r1 =>
          let ps := partners r1 w unitOf ms
          if ps.length = ms.length then treeMeet level cost key src ps s1 else s1
        | none => s1
    | _, _ => raiseFault FaultCode.treeGroup p t pr.pc s) s

/-- CTREE (R94, R97, R156). -/
def execCtree (i : Issue) (c : Common) (f : TreeF) (s : State) : Out :=
  treeJoin i c 1 f 1 8 id (i.prog % 8) (fun js => js.map (fun j => i.prog / 8 * 8 + j)) 9 (100000 + 1000 * (i.prog / 8))
    srcClusterTree s

/-- DTREE (R95, R97, R156). -/
def execDtree (i : Issue) (c : Common) (f : TreeF) (s : State) : Out :=
  treeJoin i c 2 f 2 4 (fun k => k / 8) (i.prog / 8) (fun js => js) 49 200000 srcDieTree s

/-- TREE_PARTNER_TIMEOUT: 4,096 ac after the first of a cluster's waiting group issued, a partner is still missing (R156). -/
def execTreePartnerTimeout (cluster : Nat) (s : State) : Out :=
  withUnit cluster 32 s (fun s =>
    match s.dealer.run with
    | none => s
    | some r =>
      match r.trees.find? (fun x => x.waiting && decide (x.cluster = cluster)) with
      | none => s
      | some x =>
        let same := r.trees.filter (fun y => y.waiting && decide (y.level = x.level) &&
          decide (y.field.size = x.field.size) && decide (y.field.base = x.field.base) && decide (y.nth = x.nth))
        let first := same.foldl (fun a y =>
          if y.issued < a.issued ∨ (y.issued = a.issued ∧ y.cluster < a.cluster) then y else a) x
        raiseFault FaultCode.treePartner first.cluster (first.issued + 4096) first.pc s)

/-! ### The top-k unit -/

/-- Whether element a (value, position) ranks above b (R104). -/
def ranksAbove (a b : W32 × Nat) : Bool :=
  match (f32 a.1).isNan, (f32 b.1).isNan with
  | true, true => decide (a.2 < b.2)
  | true, false => false
  | false, true => true
  | false, false =>
    let x := (f32 a.1).cmp (f32 b.1)
    decide (0 < x) || (decide (x = 0) && decide (a.2 < b.2))

/-- Insert into a list ranked from the top. -/
def rankInsert (a : W32 × Nat) : List (W32 × Nat) → List (W32 × Nat)
  | [] => [a]
  | b :: t => if ranksAbove a b then a :: b :: t else b :: rankInsert a t

/-- The k records of one vector: value and position (R103), written under the saturation mode, −0 as +0 and NaN canonical (R61, R63, R104). -/
def topRecords (k : Nat) (sat : Bool) (xs : List W32) : List Byte :=
  let ranked := xs.zipIdx.foldl (fun acc e => (rankInsert e acc).take k) []
  (((writeWords sat (ranked.map (fun e => e.1))).1.zip ranked).map (fun e => leBytes 4 e.1.toNat ++ leBytes 4 e.2.2)).flatten

/-- TOPK (R102 to R106): held while the unit is busy. -/
def execTopk (i : Issue) (c : Common) (f : TopkF) (s : State) : Out :=
  issue i c (.topk f) (fun r pr s =>
    let p := i.prog
    let n := f.nm1.toNat + 1
    let k := f.km1.toNat + 1
    let rows := f.vm1.toNat + 1
    let w := if f.infmt = 1 then 2 else 4
    let src := wrap48 (areg pr f.sreg.toNat)
    let dst := wrap48 (areg pr f.dreg.toNat)
    let per := (n + 63) / 64 + 2 * k
    let t := max pr.ready (natAt s.units.topkFree p)
    if n < k then raiseFault FaultCode.topkRange p t pr.pc s
    else if ¬canRead (dieOf p) src (rows * n * w) ∨ ¬canWrite s (dieOf p) dst (rows * 8 * k) then
      raiseFault FaultCode.addrRange p t pr.pc s
    else
      let fmt : Fmt := if f.infmt = 1 then .bf16 else .fp32
      let vecs := (List.range rows).map (fun v =>
        (decodeVals fmt n (readBytes s.tiers.mem (src + v * n * w) (n * w))).map toF32)
      let s1 := vecs.zipIdx.foldl (fun s e =>
        sramStore (t + (e.2 + 1) * per + 16) (some p) srcTopk (dst + 8 * k * e.2) (topRecords k c.sat e.1) s) (sramEcc i [(src, rows * n * w)] t s)
      let s2 := match vecs.findIdx? (fun xs => xs.any (fun x => (f32 x).isNan)) with
        | some v => reportFlag p { kind := kindNan, source := srcTopk, col := 0, row := v, pc := pr.pc, tileM := 0,
                                   tileN := 0, ac := t + rows * per + 16, step := r.step } s1
        | none => s1
      let s3 := { s2 with units := { s2.units with topkFree := natSet s2.units.topkFree p (t + rows * per) } }
      advance p t 1 (doneAt p (t + rows * per + 16) s3)) s

end Sys2Proof.Machine
end

