-- ==== Sys2Proof/Machine/Row.lean ====
section
/-! DEFINITION. ROW instructions and the row engine (chapter 4, section 5.5). -/

namespace Sys2Proof.Machine

/-- Passes P of an operation (Table 4.5). -/
def rowPasses (op : Nat) : Nat :=
  if op = 0 ∨ op = 2 then 3 else if op = 4 then 1 else if op = 8 then 0 else 2
/-- Largest N (Table 4.5). -/
def rowMaxN (op : Nat) : Nat := if op = 0 ∨ op = 1 ∨ op = 5 ∨ op = 6 then 8192 else 262144
/-- Backward operations read records; forward operations write them with SAVE = 1. -/
def rowReads (op : Nat) : Bool := decide (5 ≤ op) && decide (op ≤ 7)
def rowSaves (op : Nat) (f : RowF) : Bool := decide (op ≤ 2) && decide (f.save = 1)
/-- LSE and AMAX write one value per vector. -/
def rowScalar (op : Nat) : Bool := decide (op = 3) || decide (op = 4)

/-- One pass's sum (R127): 64 lanes take the beats in ascending order, then a 6-level tree adds the lanes. -/
def laneSums : Nat → List W32 → List W32 → List W32
  | 0, _, acc => acc
  | n + 1, xs, acc =>
    let beat := xs.take 64
    laneSums n (xs.drop 64) ((acc.zip (beat ++ List.replicate (64 - beat.length) 0)).map (fun p => fAdd p.1 p.2))

/-- Add neighbours pairwise, level by level. -/
def pairSums : List W32 → List W32
  | a :: b :: t => fAdd a b :: pairSums t
  | xs => xs

def treeSum : Nat → List W32 → List W32
  | 0, xs => xs
  | n + 1, xs => treeSum n (pairSums xs)

def rowSum (xs : List W32) : W32 :=
  ((treeSum 6 (laneSums ((xs.length + 63) / 64) xs (List.replicate 64 0)))[0]?).getD 0

/-- The largest value of a vector, exact; NaN where one is NaN (R72). -/
def rowMax : List W32 → W32
  | [] => 0xFF800000
  | x :: t => t.foldl fMax (toF32 (f32 x))

/-- The largest finite magnitude (Table 4.5); 0 where none is finite. -/
def rowAbsMax (xs : List W32) : W32 :=
  (xs.filterMap (fun x => match f32 x with | .fin m e => some (toF32 (.fin m.natAbs e)) | _ => none)).foldl fMax 0

/-- N as FP32. -/
def fOfNat (n : Nat) : W32 := toF32 (.fin n 0)

/-- What a vector gives: its outputs, the record it saves, and what it adds into dγ and dβ. -/
structure RowOut where
  y     : List W32
  rec0  : W32
  rec1  : W32
  dgam  : List W32
  dbet  : List W32
  deriving DecidableEq, Repr

/-- The operations of Tables 4.3 and 4.5 on one vector x with gradient g, parameters γ and β and a record (a, b), every
operation of a formula rounded in the order in which it is written (R125, R127; log entry 19). -/
def rowVector (op : Nat) (eps : W32) (gam bet x g : List W32) (a b : W32) : RowOut :=
  let n := fOfNat x.length
  let out (y : List W32) : RowOut := { y := y, rec0 := 0, rec1 := 0, dgam := [], dbet := [] }
  match op with
  | 0 =>
    let mu := fDiv (rowSum x) n
    let d := x.map (fun v => fSub v mu)
    let r := fRsqrt (fAdd (fDiv (rowSum (d.map (fun v => fMul v v))) n) eps)
    { out (((d.zip gam).zip bet).map (fun p => fAdd (fMul p.1.2 (fMul p.1.1 r)) p.2)) with rec0 := mu, rec1 := r }
  | 1 =>
    let r := fRsqrt (fAdd (fDiv (rowSum (x.map (fun v => fMul v v))) n) eps)
    { out ((x.zip gam).map (fun p => fMul p.2 (fMul p.1 r))) with rec1 := r }
  | 2 =>
    let m := rowMax x
    let e := x.map (fun v => Func.exp.apply (fSub v m))
    let s := rowSum e
    { out (e.map (fun v => fDiv v s)) with rec0 := m, rec1 := s }
  | 3 =>
    let m := rowMax x
    let s := rowSum (x.map (fun v => Func.exp.apply (fSub v m)))
    out [fAdd m (Func.log.apply s)]
  | 4 => out [rowAbsMax x]
  | 5 =>
    let xh := x.map (fun v => fMul (fSub v a) b)
    let h := (g.zip gam).map (fun p => fMul p.1 p.2)
    let m1 := fDiv (rowSum h) n
    let m2 := fDiv (rowSum ((h.zip xh).map (fun p => fMul p.1 p.2))) n
    { out ((h.zip xh).map (fun p => fMul b (fSub (fSub p.1 m1) (fMul p.2 m2)))) with
        dgam := (g.zip xh).map (fun p => fMul p.1 p.2), dbet := g }
  | 6 =>
    let xh := x.map (fun v => fMul v b)
    let h := (g.zip gam).map (fun p => fMul p.1 p.2)
    let m2 := fDiv (rowSum ((h.zip xh).map (fun p => fMul p.1 p.2))) n
    { out ((h.zip xh).map (fun p => fMul b (fSub p.1 (fMul p.2 m2)))) with
        dgam := (g.zip xh).map (fun p => fMul p.1 p.2) }
  | 7 =>
    let y := x.map (fun v => fDiv (Func.exp.apply (fSub v a)) b)
    let d := rowSum ((g.zip y).map (fun p => fMul p.1 p.2))
    out ((g.zip y).map (fun p => fMul p.2 (fSub p.1 d)))
  | _ => out []

/-- Input vector v of N elements in FP32 or BF16, widened exactly. -/
def rowInput (s : State) (a n v : Nat) (bf16 : Bool) : List W32 :=
  let f : Fmt := if bf16 then .bf16 else .fp32
  let w := f.params.bits / 8
  (decodeVals f n (readBytes s.tiers.mem (wrap48 (a + v * n * w)) (n * w))).map toF32

/-- Record r of a cluster's side memory: its two FP32 values and its tag (R131). -/
def sideRecord (s : State) (k r : Nat) : W32 × W32 × Nat :=
  let ws := wordsOf 2 (tabSlice 8 (262144 * k + 8 * r) s.units.side)
  ((ws[0]?).getD 0, (ws[1]?).getD 0, ofLe (tabSlice 2 (65536 * k + 2 * r) s.units.sideTag))

/-- Values added to those of the gradient buffer from byte `o` on, one rounding each (R128). -/
def gradSums (s : State) (k o : Nat) (vs : List W32) : List W32 :=
  let old := wordsOf vs.length (tabSlice (4 * vs.length) (65536 * k + o) s.units.grad)
  (old.zip vs).map (fun p => fAdd p.1 p.2)

/-- Kinds extended to a whole number of rows of 64 lanes. -/
def padKinds (ks : List (Option Nat)) : List (Option Nat) := ks ++ List.replicate ((64 - ks.length % 64) % 64) none

/-- Run vector v of a ROW instruction issued at `t`: its output row, its record and its gradient sums, each written under R61 and R63 (R130).
Vector v leaves the engine in ac t + 32 + P·(v + 1)·B, as R129 says of the last one, and its record and sums are written then (DESIGN CHOICE,
log entry 77). Its kinds: the output row's, then the record's, then the sums'. -/
def rowStep (p op : Nat) (c : Common) (f : RowF) (xa ga oa t : Nat) (st : State × List (List (Option Nat))) (v : Nat) :
    State × List (List (Option Nat)) :=
  let s := st.1
  let n := f.nm1.toNat + 1
  let beats := (n + 63) / 64
  let ac := t + 32 + rowPasses op * (v + 1) * beats
  let fo : Fmt := if f.outfmt = 1 ∧ !rowScalar op then .bf16 else .fp32
  let x := rowInput s xa n v (decide (f.infmt = 1))
  let g := if rowReads op then rowInput s ga n v (decide (f.infmt = 1)) else []
  let params := wordsOf 16384 (tabSlice 65536 (65536 * p) s.units.param)
  let rec_ := sideRecord s p (8 * f.sbase.toNat + v)
  let r := rowVector op f.eps (params.take n) ((params.drop 8192).take n) x g rec_.1 rec_.2.1
  let (bs, kinds) := encodeRow fo c.sat (r.y.map f32)
  let width := if rowScalar op then 4 else n * (fo.params.bits / 8)
  let saved := writeWords c.sat (if rowSaves op f then [r.rec0, r.rec1] else [])
  let dgam := writeWords c.sat (gradSums s p 0 r.dgam)
  let dbet := writeWords c.sat (gradSums s p 32768 r.dbet)
  let s1 := sramStore (ac + 20) (some p) srcRow (wrap48 (oa + v * width)) bs s
  let s2 := if rowSaves op f then
      let j := 8 * f.sbase.toNat + v
      deliver .tag (65536 * p + 2 * j) ac (leBytes 2 f.tag.toNat)
        (deliver .side (262144 * p + 8 * j) ac (bytesOfWords saved.1) s1)
    else s1
  let s3 := deliver .grad (65536 * p) ac (bytesOfWords dgam.1) s2
  (deliver .grad (65536 * p + 32768) ac (bytesOfWords dbet.1) s3,
   st.2 ++ [padKinds kinds ++ padKinds saved.2 ++ padKinds dgam.2 ++ padKinds dbet.2])

/-- The first fault of a ROW instruction at issue, in the order ROW_RANGE, DIFF_MODE, ADDR_RANGE, SIDE_ECC, SIDE_STALE
(R124, R126, R132, R136, R140; log entry 18). SIDE_ECC and SIDE_STALE of any record are raised at issue, before the instruction writes anything
(DESIGN CHOICE, log entry 77). -/
def rowFault (s : State) (i : Issue) (r : Run) (op : Nat) (f : RowF) (xa ga oa : Nat) : Option Nat :=
  let n := f.nm1.toNat + 1
  let v := f.vm1.toNat + 1
  let base := 8 * f.sbase.toNat
  let win := if f.infmt = 1 then 2 else 4
  let wout := if rowScalar op then 4 else n * (if f.outfmt = 1 then 2 else 4)
  let d := dieOf i.prog
  let uses := rowReads op || rowSaves op f
  if op = 8 then none
  else if rowMaxN op < n ∨ (uses ∧ 32768 < base + v) then some FaultCode.rowRange
  else if uses ∧ ¬r.ply.diffMode.getLsbD f.layer.toNat then some FaultCode.diffMode
  else if ¬canRead d xa (v * n * win) ∨ (rowReads op ∧ ¬canRead d ga (v * n * win)) ∨ ¬canWrite s d oa (v * wout)
    then some FaultCode.addrRange
  else if rowReads op ∧ isSideDouble i.ecc then some FaultCode.sideEcc
  else if rowReads op ∧ (List.range v).any (fun j => decide ((sideRecord s i.prog (base + j)).2.2 ≠ f.tag.toNat))
    then some FaultCode.sideStale
  else none

/-- A ROW instruction (R126 to R132, R135): held until the engine is free and until earlier fills of its records. The engine is free for the
next one in the ac in which its last row leaves (DESIGN CHOICE, log entry 77). -/
def rowOp (i : Issue) (c : Common) (op : BitVec 4) (f : RowF) (s : State) : Out :=
  issue i c (.row op f) (fun r pr s =>
    let p := i.prog
    let o := op.toNat
    let v := f.vm1.toNat + 1
    let base := 8 * f.sbase.toNat
    let xa := wrap48 (areg pr f.xreg.toNat)
    let ga := wrap48 (areg pr (f.xreg.toNat + 1))
    let oa := wrap48 (areg pr f.oreg.toNat)
    let held := if rowReads o then recordsFree s.units.fillUse p base (base + v) else 0
    let t := max (max pr.ready (natAt s.units.rowFree p)) held
    match rowFault s i r o f xa ga oa with
    | some code => raiseFault code p t pr.pc s
    | none =>
      let beats := (f.nm1.toNat + 1 + 63) / 64
      let leave := t + 32 + rowPasses o * v * beats
      let w := if f.infmt = 1 then 2 else 4
      let bytes := v * (f.nm1.toNat + 1) * w
      let s0 := if o = 8 then s else sramEcc i (if rowReads o then [(xa, bytes), (ga, bytes)] else [(xa, bytes)]) t s
      let s1 := if rowReads o then arrayEcc i s0 else s0
      let s2 :=
        if o = 8 then deliver .grad (65536 * p) leave (List.replicate 65536 0) s1
        else
          let (s2, kinds) := (List.range v).foldl (rowStep p o c f xa ga oa t) (s1, [])
          flagRows p srcRow pr.pc 0 0 (leave + 20) kinds s2
      let s3 := { s2 with units := { s2.units with
        rowFree := natSet s2.units.rowFree p leave,
        rowUse := if rowReads o || rowSaves o f then s2.units.rowUse ++
            [{ cluster := p, lo := base, hi := base + v, ac := t + 32 + rowPasses o * beats, step := rowPasses o * beats }] else s2.units.rowUse } }
      advance p t 1 (doneAt p (if o = 8 then leave else leave + 20) s3)) s

def execLnFwd (i : Issue) (c : Common) (f : RowF) (s : State) : Out := rowOp i c 0 f s
def execRmsFwd (i : Issue) (c : Common) (f : RowF) (s : State) : Out := rowOp i c 1 f s
def execSmaxFwd (i : Issue) (c : Common) (f : RowF) (s : State) : Out := rowOp i c 2 f s
def execLse (i : Issue) (c : Common) (f : RowF) (s : State) : Out := rowOp i c 3 f s
def execAmax (i : Issue) (c : Common) (f : RowF) (s : State) : Out := rowOp i c 4 f s
def execLnBwd (i : Issue) (c : Common) (f : RowF) (s : State) : Out := rowOp i c 5 f s
def execRmsBwd (i : Issue) (c : Common) (f : RowF) (s : State) : Out := rowOp i c 6 f s
def execSmaxBwd (i : Issue) (c : Common) (f : RowF) (s : State) : Out := rowOp i c 7 f s
def execGradClear (i : Issue) (c : Common) (f : RowF) (s : State) : Out := rowOp i c 8 f s

end Sys2Proof.Machine
end

