-- ==== Sys2Proof/Machine/StepEnd.lean ====
section
/-! DEFINITION. How a step ends: its last program's end, the abort and its discard, the deadlock (R162, R164, R199, R200,
R203, R364, R496). -/

namespace Sys2Proof.Machine

/-! ### The end of a program (R162) -/

/-- Whether the step still owes a program completion: an accumulator drain of its own, or a tree instruction. -/
def ownWork (r : Run) (p : Nat) : Bool :=
  r.drains.any (fun d => decide (d.prog = p)) || r.trees.any (fun x => x.waiting && decide (x.cluster = p))

/-- Whether a program has ended. -/
def progDone (r : Run) (e : Nat × Prog) : Bool :=
  e.2.ended || (e.2.atEnd && decide (e.2.extOpen = 0) && !ownWork r e.1)

/-- The ac in which its own work is done, END included. -/
def workEnd (pr : Prog) : Nat := max (pr.ready - 1) pr.lastDone

/-- The ac in which it ends: the last external completion that its operations owe it included. -/
def progEnd (pr : Prog) : Nat :=
  if pr.ended then 0
  else match pr.extLast with
    | some x => max (workEnd pr) x.2.ac
    | none => workEnd pr

/-- The raw hold of a program at END (R162, R197). -/
def holdAtEnd (e : Nat × Prog) (s : State) : State :=
  match e.2.extLast with
  | some x =>
    match s.dealer.run.bind (fun r => waitKind r x.1) with
    | some (_, src) => countHold e.1 x.1 false (baseCause src.toNat) x.2.segs (workEnd e.2) x.2.ac s
    | none => s
  | none => s

/-- The program that ended last; the lowest index on a tie (R199). -/
def lastProg (ps : Tab Prog) : Option (Nat × Prog) :=
  ps.foldl (fun (a : Option (Nat × Prog)) e =>
    match a with
    | none => some e
    | some b => if progEnd b.2 < progEnd e.2 then some e else some b) none

/-! ### The step's registers (R199, R203) -/

/-- WP_HOLD[w]: held ac, the cause with the most of them (lowest code on a tie), programs (Table 6.7). -/
def wpWord (h : WpHold) : Nat × Nat × Nat :=
  (lagSum h.byCause,
   (h.byCause.foldl (fun (a : Nat × Nat) e => if a.2 < e.2 then e else a) (15, 0)).1,
   h.progs.length)

def wpTable (r : Run) : Tab (Nat × Nat × Nat) :=
  r.wpHolds.foldl (fun t e => Tab.set (fun _ => (0, 15, 0)) t e.1 (wpWord e.2)) []

/-- The step's attributed stall: λ of the program that ended last, reduced to the excess. -/
def stepStall (lag : Tab Nat) (excess : Nat) : Tab Nat := lagReduce lag (lagSum lag - excess)

/-- Counts of a cause table as 64-bit counters. -/
def stallTable (t : Tab Nat) : Tab W64 := t.foldl (fun u e => Tab.set zero64 u e.1 (BitVec.ofNat 64 e.2)) []

/-! ### The digest (R363, R364) -/

/-- Order of the writes of one cluster: ac, source, address. -/
def SramWrite.before (a b : SramWrite) : Bool :=
  decide (a.ac < b.ac) || (decide (a.ac = b.ac) &&
    (decide (a.src < b.src) || (decide (a.src = b.src) && decide (a.addr < b.addr))))

def writeInto (x : SramWrite) : List SramWrite → List SramWrite
  | [] => [x]
  | y :: t => if x.before y then x :: y :: t else y :: writeInto x t

/-- The digest of cluster k. -/
def clusterDigest (r : Run) (k : Nat) : W64 :=
  let ws := (r.writes.filter (fun w => decide (w.cluster = some k))).foldl (fun l w => writeInto w l) []
  crc64 ((ws.map (fun w => w.bytes)).flatten)

/-- The step digest: 276 bytes through CRC-64. -/
def stepDigest (r : Run) : W64 :=
  crc64 (leBytes 8 r.step.toNat ++ leBytes 4 r.ply.plyId.toNat ++ leBytes 4 r.variant.toNat ++ leBytes 4 r.version.toNat ++
    ((List.range 32).map (fun k => leBytes 8 (clusterDigest r k).toNat)).flatten)

/-! ### What both ends share -/

def PlyKind.code : PlyKind → Nat
  | .gen => 0
  | .fwd => 1
  | .bwd => 2
  | .opt => 3
  | .aux => 4

/-- The replay-log record of the step (Table 12.6). -/
def stepLog (s : State) (r : Run) (digest : W64) (abandoned : Bool) : LogRec :=
  { step := r.step, plyId := r.ply.plyId, kind := BitVec.ofNat 8 r.ply.kind.code, variant := r.variant,
    flags := BitVec.ofNat 8 (flag (decide (r.book = .learn)) + 2 * flag abandoned + 4 * flag (decide (r.cls = .old)) +
      8 * flag (decide (r.cls = .eval))),
    inputId := r.inputId, version := r.version, epoch := (epochOf s), posDigest := s.unlia.posDigest, digest := digest,
    tick := r.launchTick }

/-- The registers, digest, log record and report of a step's end; the boundary that follows is due. -/
def closeStep (r : Run) (ac : Nat) (excess : W64) (abandoned : Bool) (stall : Tab W64) (digest : W64) (s : State) : State :=
  let s1 := { s with
    counters := { s.counters with
      lastNumber := r.step, lastAc := BitVec.ofNat 64 ac, lastExcess := excess, lastAbandoned := abandoned,
      lastFreq := r.freq, lastChanged := r.freqChanged, lastCancelled := r.freqCancelled, lastStall := stall,
      wpHold := wpTable r }
    conceal := { s.conceal with stepDigest := digest }
    dealer := { s.dealer with
      run := none, due := true, abandoned := abandoned, lastBatch := r.batch, lastVersion := r.version } }
  sendReport { step := r.step, plyId := r.ply.plyId, health := BitVec.ofNat 16 (healthWord s.conceal),
               abandoned := abandoned, digest := digest } (addLog (stepLog s1 r digest abandoned) s1)

/-- The last 16 measurements, the newest last (R448). -/
def keep16 (xs : List Nat) : List Nat := xs.drop (xs.length - 16)

/-- MODULE_POWER of a step: its energy in mJ and its average power (Table 15.9). The average over 0 ac is a free value. -/
def stepPower (r : Run) (ac : Nat) (s : State) : State :=
  let avg := if ac = 0 then Config.freeNat s.free else r.energy * freqMHz r.freq / (ac * 10000)
  { s with
    free := if ac = 0 then s.free + 1 else s.free
    glaren := { s.glaren with lastMj := BitVec.ofNat 32 (r.energy / 10000000), stepAvg := BitVec.ofNat 16 avg } }

/-- Record the step's energy, normalised to 2,500 MHz (R448). -/
def recordEnergy (r : Run) (s : State) : State :=
  let k := govIndex r.book (plyIndex s r.book r.ply.plyId)
  { s with glaren := { s.glaren with
      table := Tab.mod (fun _ => GovEntry.cold) s.glaren.table k
        (fun e => { e with energies := keep16 (e.energies ++ [r.energy * 10000 / govK r.freq]) }) } }

/-- An OPT ply counts toward a periodic checkpoint (R375). -/
def countOpt (r : Run) (s : State) : State :=
  match s.conceal.ckpt with
  | some (_, b) =>
    if r.ply.kind = .opt then
      let n := s.conceal.optCount + 1
      { s with conceal := { s.conceal with
          optCount := n, ckptDue := s.conceal.ckptDue || (decide (b.mode = 1) && decide (b.period.toNat ≤ n)) } }
    else s
  | none => s

/-! ### STEP_END -/

/-- Every program has ended: the step's accounts are closed (R199, R203). -/
def endStep (r : Run) (s : State) : State :=
  let s1 := r.progs.foldl (fun s e => holdAtEnd e s) s
  match s1.dealer.run with
  | none => s
  | some r1 =>
    let ac := r1.progs.foldl (fun a e => max a (progEnd e.2)) 0
    let excess := ac - r1.ply.totalAc.toNat
    let lag := match lastProg r1.progs with | some e => e.2.lag | none => []
    let stall := stallTable (stepStall lag excess)
    let full := bump stall 7 r1.govHold
    let digest := stepDigest r1
    let s2 := { s1 with counters := { s1.counters with
      stallAc := full.foldl (fun t e => bump t e.1 e.2.toNat) s1.counters.stallAc } }
    let s3 := countOpt r1 (recordEnergy r1 (stepPower r1 ac (closeStep r1 ac (BitVec.ofNat 64 ac - BitVec.ofNat 64 r1.ply.totalAc.toNat) false full digest s2)))
    let s4 := checkDigest r1.step digest s3
    match r1.ticket with
    | some t => complete t Status.ok r1.step false s4
    | none => s4

/-- Whether an external operation of the step has still to end: a stream, or a collective that a program issued. -/
def stepExternal (s : State) : Bool :=
  s.host.ops.any (fun e => match e.2 with | .stream _ => true | _ => false) || s.unlia.colls.any (fun c => c.prog.isSome)

/-- The abandoned step ends: what its STREAM_OUTs and collectives write is undefined (R164, R200). -/
def endAbandoned (r : Run) (s : State) : State :=
  let s1 := r.extDst.foldl (fun s x => match x.1 with
    | some p => streamUndefine r p x.2.1 x.2.2 s
    | none => undefineBytes x.2.1 x.2.2 s) s
  let s2 := checkDigest r.step 0 (stepPower r (r.abortAc.getD 0) (closeStep r (r.abortAc.getD 0) 0 true [] 0 s1))
  finishOpt r.ticket Status.abandoned s2

/-- STEP_END: every program of the running step has ended, or its external operations after an abort. -/
def execStepEnd (s : State) : Out :=
  .next (match s.dealer.run with
    | none => s
    | some r =>
      if r.stopped then (if stepExternal s then s else endAbandoned r s)
      else if r.abortAc.isNone ∧ r.progs.all (progDone r) then endStep r s
      else s)

/-! ### PLY_ABORT (R164, R165, R200) -/

/-- Repeat writes in their order; the step's own that land in or after a fill's ac remain over it (R209). -/
def landWrites (ws : List SramWrite) (m : Tab Byte) : Tab Byte :=
  (ws.foldl (fun (acc : Tab Byte × List SramWrite) w =>
    let m1 := writeBytes acc.1 w.addr w.bytes
    (if w.fill then (acc.2.filter (fun x => !x.fill && decide (w.ac ≤ x.ac))).foldl (fun m x => writeBytes m x.addr x.bytes) m1 else m1,
     acc.2 ++ [w])) (m, [])).1

/-- Put back what the writes replaced, newest first, and repeat the fills and those of the step's own that landed before the abort. -/
def restoreWrites (a : Nat) (ws : List SramWrite) (m : Tab Byte) : Tab Byte :=
  landWrites (ws.filter (fun w => w.fill || decide (w.ac < a))) (ws.reverse.foldl (fun m w => writeBytes m w.addr w.old) m)

/-- Put back a delivery into a unit store that would have completed at or after the abort. -/
def restoreUnit (u : Units) (x : Undo) : Units := u.setBytes x.store (tabStore x.start x.old (u.bytes x.store))

/-- The wait point of an operation that program p waits for at END. -/
def endWait (s : State) (p : Nat) : Option Nat :=
  match s.host.ops.findSome? (fun e => match e.2 with
    | .stream x => if x.prog = p then some x.wp else none
    | .ext _ _ _ wp _ _ _ owner => if owner = some p then some wp else none
    | _ => none) with
  | some w => some w
  | none => s.unlia.colls.findSome? (fun c => match c.prog with
    | some (q, wp, _, _) => if q = p then some wp else none
    | none => none)

/-- The stall causes that apply to program p's wait on point w, of the operations still outstanding (R196). -/
def openSpans (s : State) (p w : Nat) : List CauseSpan :=
  (s.host.ops.map (fun e => match e.2 with
    | .stream x => if x.wp = w ∧ (maskProgs x.cmask 0).contains p then x.segs else []
    | .ext _ _ progs wp _ segs _ _ => if wp = w ∧ progs.contains p then segs else []
    | .move _ b _ segs => if b.wp.getLsbD 15 ∧ b.wp.toNat % 1024 = w then segs else []
    | _ => [])).flatten

/-- Hold of a program cut at the abort (R200 keeps the raw counts). -/
def holdToAbort (a : Nat) (r : Run) (e : Nat × Prog) (s : State) : State :=
  let cut (w b : Nat) (await : Bool) : State :=
    match waitKind r w with
    | some (1, src) => countHold e.1 w await (baseCause src.toNat) (openSpans s e.1 w) b a s
    | _ => s
  match e.2.hold with
  | some { wp := some w, since := b } => cut w b true
  | _ =>
    if e.2.atEnd ∧ 0 < e.2.extOpen then
      (match endWait s e.1 with
        | some w => cut w (workEnd e.2) false
        | none => s)
    else s

/-- PLY_ABORT: from the abort ac on nothing issues; what would complete at or after it is discarded. -/
def abortRun (r : Run) (a : Nat) (s : State) : State :=
  let s1 := r.progs.foldl (fun s e => holdToAbort a r e s) s
  let s2 := (List.range 32).foldl (fun s k => dropFlags a k s) s1
  let s3 := { s2 with
    tiers := { s2.tiers with mem := restoreWrites a r.writes s2.tiers.mem }
    units := (r.undo.filter (fun x => decide (a ≤ x.ac))).reverse.foldl restoreUnit s2.units
    host := { s2.host with ops := s2.host.ops.filter (fun e => match e.2 with
      | .ext _ _ _ _ _ _ _ owner => owner.isNone
      | _ => true) } }
  score (leadSource s) 2 0x0012 r.step [] (setRun (fun r => { r with
    stopped := true, nowAc := a, signals := [], drains := [], trees := [],
    writes := r.writes.filter (fun w => decide (w.ac < a)) }) s3)

def execPlyAbort (s : State) : Out :=
  .next (match s.dealer.run with
    | none => s
    | some r =>
      match r.abortAc with
      | some a => if r.stopped then s else abortRun r a s
      | none => s)

/-! ### DEADLOCK_DETECT (R496) -/

/-- Whether an instruction is held at issue with no time that ends it: an AWAIT short of its target, an MMA or ACCLD on a
bank whose TREE drain no ETREE has taken (R142). -/
def insnHeld (s : State) (r : Run) (p : Nat) (pr : Prog) (c : Common) (x : Insn) : Bool :=
  if c.vg ∧ r.variant.getLsbD c.vb.toNat ≠ c.vp then false
  else match x with
  | .await wp target =>
    let w := waitPt pr wp.toNat
    !w.failed && decide (w.arrivals.length < target.toNat)
  | .mma f => decide (f.start ≠ 2) && (maskEngines s p f.mask).any (fun e => treeHolds s r (bankIdx e.2 f.bank.toNat))
  | .move op f => decide (op = 4) && (maskEngines s p f.mask).any (fun e => treeHolds s r (bankIdx e.2 f.bank.toNat))
  | _ => false

/-- A program that is held: at END, or at issue. -/
def heldProg (s : State) (r : Run) (e : Nat × Prog) : Bool :=
  !progDone r e && (e.2.atEnd ||
    (match (e.2.code[e.2.pc]?).bind (decodeFor e.1) with
      | some (c, x) => insnHeld s r e.1 e.2 c x
      | none => false))

/-- Whether an outstanding object move will signal a step (R158, R404). -/
def moveOwes (s : State) (step : W64) : Bool :=
  s.host.ops.any (fun e => match e.2 with
    | .move _ b _ _ => b.wp.getLsbD 15 && decide (b.signalStep = step)
    | .flashWait _ (.objectMove _ _ b) => b.wp.getLsbD 15 && decide (b.signalStep = step)
    | _ => false)

/-- No hold can end: nothing of the step is under way. -/
def deadlocked (s : State) (r : Run) : Bool :=
  r.abortAc.isNone && !r.progs.all (progDone r) &&
    r.progs.all (fun e => progDone r e || heldProg s r e) &&
    r.signals.isEmpty && r.drains.all (fun d => d.complete) && !stepExternal s && !moveOwes s r.step &&
    !s.host.ops.any (fun e => match e.2 with | .ext .. => true | _ => false)

/-- The ac in which the last hold began and the last program or work ended. -/
def deadlockBegin (r : Run) : Nat :=
  r.progs.foldl (fun a e => max a (if progDone r e then progEnd e.2 else max e.2.ready e.2.lastDone)) r.nowAc

/-- DEADLOCK_DETECT: the fault is raised 64 ac after the condition begins, in the held program of lowest index. -/
def execDeadlockDetect (s : State) : Out :=
  .next (match s.dealer.run with
    | none => s
    | some r =>
      if deadlocked s r then
        match r.progs.find? (heldProg s r) with
        | some e => raiseFault FaultCode.deadlock e.1 (deadlockBegin r + 64) e.2.pc s
        | none => s
      else s)

end Sys2Proof.Machine
end

