-- ==== Sys2Proof/Machine/Vec.lean ====
section
/-! DEFINITION. VEC instructions and the vector unit (sections 3.7 and 5.5). -/

namespace Sys2Proof.Machine

/-- Source and destination formats: CVT and PBENC convert from SFMT, PBDEC from SFMT to FP32; every other operation works
on FP32 rows (R108, R155; log entry 20). -/
def vecSrcFmt (op : Nat) (f : VecF) : Fmt :=
  if op = 9 ∨ op = 10 ∨ op = 11 then (Fmt.ofCode f.sfmt.toNat).getD .fp32 else .fp32
def vecDstFmt (op : Nat) (f : VecF) : Fmt :=
  if op = 9 ∨ op = 11 then (Fmt.ofCode f.dfmt.toNat).getD .fp32 else .fp32

/-- Latency L and interval I (Table 3.6). -/
def vecTiming (op : Nat) (f : VecF) : Nat × Nat :=
  if op = 12 then (12, 1)
  else if op = 13 then (20, 4)
  else if op = 14 then (24, 2)
  else if (vecDstFmt op f).isPb then (16, 1)
  else (8, 1)

/-- Which operands an operation reads. -/
def vecUsesS2 (op : Nat) (f : VecF) : Bool := decide (op ≤ 7) || (decide (op = 13) && decide (f.fn = 0))
def vecUsesS3 (op : Nat) : Bool := decide (op = 3) || decide (op = 7)

/-- Whether an operand code names SRAM, and its register number (R155). -/
def inSramCode (code : BitVec 6) : Bool := decide (32 ≤ code.toNat)
def codeReg (code : BitVec 6) : Nat := code.toNat % 32

/-- The register and SRAM operands of an instruction: (code, bytes per row, format). -/
def vecOperands (op : Nat) (f : VecF) : List (BitVec 6 × Nat) :=
  let w := (vecSrcFmt op f).rowBytes
  [(f.s1, w)] ++
    (if vecUsesS2 op f && decide (f.s2imm = 0) then [(f.s2, if f.s2bc = 1 then 4 else w)] else []) ++
    (if vecUsesS3 op then [(f.s3, w)] else [])

/-- The bytes of row r of an SRAM operand. -/
def vecBytes (s : State) (pr : Prog) (fmt : Fmt) (code : BitVec 6) (r : Nat) : List Byte :=
  readBytes s.tiers.mem (wrap48 (areg pr (codeReg code) + r * fmt.rowBytes)) fmt.rowBytes

/-- Row r of an operand that is no immediate and no broadcast: a register row written by an earlier row of the same
instruction is forwarded when it has been written by the time it is read. A register holds 64 FP32 values whatever the format: its lanes are
read as FP32 where SFMT is another one (DESIGN CHOICE, log entry 20). -/
def vecRow (s : State) (pr : Prog) (sat : Bool) (fmt : Fmt) (dst : Option Nat) (lat int r : Nat) (done : List (List W32))
    (code : BitVec 6) : List Exact :=
  let n := codeReg code
  if inSramCode code then rowVals fmt sat (vecBytes s pr fmt code r)
  else
    let x := n + r
    let old := (List.range 64).map (fun l => f32 (Tab.get (fun _ => (0 : W32)) pr.vlane (64 * x + l)))
    match dst with
    | some d =>
      if d ≤ x ∧ x - d < r ∧ lat ≤ (r - (x - d)) * int then ((done[x - d]?).getD []).map f32 else old
    | none => old

/-- The second operand: an immediate or one SRAM value per row is broadcast over the lanes (Table 5.9). -/
def vecRow2 (s : State) (pr : Prog) (sat : Bool) (dst : Option Nat) (lat int r : Nat) (done : List (List W32)) (f : VecF) :
    List Exact :=
  if f.s2imm = 1 then List.replicate 64 (f32 f.imm)
  else if f.s2bc = 1 then List.replicate 64 (f32 (readWord s.tiers.mem (wrap48 (areg pr (codeReg f.s2) + 4 * r))))
  else vecRow s pr sat .fp32 dst lat int r done f.s2

/-- One lane of an arithmetic operation in FP32 (Table 5.8). -/
def vecLane (op fn : Nat) (a b c : W32) : W32 :=
  match op with
  | 0 => fAdd a b
  | 1 => fSub a b
  | 2 => fMul a b
  | 3 => fFma a b c
  | 4 => fMin a b
  | 5 => fMax a b
  | 6 => fCmp fn a b
  | 7 => if (f32 a).isZero then c else b
  | 8 => toF32 (if fn = 0 then (f32 a).abs else (f32 a).neg)
  | 12 => fRsqrt a
  | 13 => if fn = 0 then fDiv a b else fSqrt a
  | _ => match Func.ofCode fn with
    | some g => g.apply a
    | none => a

/-- The values of one result row before it is written. -/
def vecResult (op fn : Nat) (xs ys zs : List Exact) : List Exact :=
  if op = 9 ∨ op = 10 ∨ op = 11 then xs
  else ((xs.zip ys).zip zs).map (fun p => f32 (vecLane op fn (toF32 p.1.1) (toF32 p.1.2) (toF32 p.2)))

/-- The first fault of a VEC instruction at issue, in the order VREG_RANGE, OPERAND_FORMAT, ADDR_RANGE (R155). -/
def vecFault (s : State) (d : Nat) (pr : Prog) (op : Nat) (f : VecF) : Option Nat :=
  let rows := f.rowsm1.toNat + 1
  let wd := (vecDstFmt op f).rowBytes
  let bad (e : BitVec 6 × Nat) : Bool := !inSramCode e.1 && decide (32 < codeReg e.1 + rows)
  if (vecOperands op f).any bad ∨ bad (f.d, wd) then some FaultCode.vregRange
  else if (op = 9 ∧ f.sfmt = f.dfmt) ∨ (op = 10 ∧ !(vecSrcFmt op f).isPb) ∨ (op = 11 ∧ !(vecDstFmt op f).isPb)
    then some FaultCode.operandFormat
  else if (vecOperands op f).any (fun e => inSramCode e.1 && !canRead d (areg pr (codeReg e.1)) (rows * e.2)) ∨
      (inSramCode f.d ∧ !canWrite s d (areg pr (codeReg f.d)) (rows * wd)) then some FaultCode.addrRange
  else none

/-- Compute one row: its bytes in the destination format; its kinds, those of decoding a block included; and its values as FP32 words, which a
vector register takes whatever DFMT is (DESIGN CHOICE, log entry 20). -/
def vecCompute (s : State) (pr : Prog) (c : Common) (op : Nat) (f : VecF) (r : Nat) (done : List (List W32)) :
    List Byte × List (Option Nat) × List W32 :=
  let (lat, int) := vecTiming op f
  let dst := if inSramCode f.d then none else some (codeReg f.d)
  let xs := vecRow s pr c.sat (vecSrcFmt op f) dst lat int r done f.s1
  let ys := if vecUsesS2 op f then vecRow2 s pr c.sat dst lat int r done f else xs
  let zs := if vecUsesS3 op then vecRow s pr c.sat .fp32 dst lat int r done f.s3 else xs
  let fo := vecDstFmt op f
  let out := encodeRow fo c.sat (vecResult op f.fn.toNat xs ys zs)
  let given := if inSramCode f.s1 then rowKinds (vecSrcFmt op f) c.sat (vecBytes s pr (vecSrcFmt op f) f.s1 r) else List.replicate 64 none
  (out.1, (out.2.zip given).map (fun k => k.1 <|> k.2), (rowVals fo c.sat out.1).map toF32)

/-- All rows in order: bytes, kinds and values of each. -/
def vecRows (s : State) (pr : Prog) (c : Common) (op : Nat) (f : VecF) :
    Nat → Nat → List (List W32) → List (List Byte × List (Option Nat) × List W32)
  | 0, _, _ => []
  | n + 1, r, done =>
    let x := vecCompute s pr c op f r done
    x :: vecRows s pr c op f n (r + 1) (done ++ [x.2.2])

/-- The SRAM ranges that an instruction reads. -/
def vecReads (pr : Prog) (op : Nat) (f : VecF) (rows : Nat) : List (Nat × Nat) :=
  ((vecOperands op f).filter (fun e => inSramCode e.1)).map (fun e => (areg pr (codeReg e.1), rows * e.2))

/-- Registers that an operand code covers over the rows. -/
def codeRegs (code : BitVec 6) (rows : Nat) : List Nat :=
  if inSramCode code then [] else (List.range rows).map (fun r => codeReg code + r)

/-- A VEC instruction (R107 to R109, R155): held until the registers it reads have been written and those it writes have
been read. -/
def vecOp (i : Issue) (c : Common) (op : BitVec 4) (f : VecF) (s : State) : Out :=
  issue i c (.vec op f) (fun _ pr s =>
    let p := i.prog
    let o := op.toNat
    let rows := f.rowsm1.toNat + 1
    let (lat, int) := vecTiming o f
    let srcs := ((vecOperands o f).map (fun e => codeRegs e.1 rows)).flatten
    let dsts := codeRegs f.d rows
    let t := (srcs.map (natAt pr.vready) ++ dsts.map (natAt pr.vread)).foldl max pr.ready
    match vecFault s (dieOf p) pr o f with
    | some code => raiseFault code p t pr.pc s
    | none =>
      let base := t + (if (vecOperands o f).any (fun e => inSramCode e.1) then 24 else 0)
      let out := vecRows s pr c o f rows 0 []
      let wd := (vecDstFmt o f).rowBytes
      let ac (r : Nat) : Nat := base + r * int + lat + (if inSramCode f.d then 20 else 0)
      let s1 := sramEcc i (vecReads pr o f rows) t s
      let s2 :=
        if inSramCode f.d then
          out.zipIdx.foldl (fun s e => sramStore (ac e.2) (some p) srcVector (wrap48 (areg pr (codeReg f.d) + e.2 * wd)) e.1.1 s) s1
        else
          setRun (setProg p (fun x => { x with
            vlane := out.zipIdx.foldl (fun t e => e.1.2.2.zipIdx.foldl
              (fun t v => Tab.set (fun _ => (0 : W32)) t (64 * (codeReg f.d + e.2) + v.2) v.1) t) x.vlane,
            vready := (List.range rows).foldl (fun t r => natSet t (codeReg f.d + r) (max (natAt t (codeReg f.d + r)) (ac r))) x.vready })) s1
      let s3 := setRun (setProg p (fun x => { x with
        vread := (vecOperands o f).foldl (fun t e => (if inSramCode e.1 then [] else List.range rows).foldl
          (fun t r => natSet t (codeReg e.1 + r) (max (natAt t (codeReg e.1 + r)) (base + r * int + 1))) t) x.vread })) s2
      let s4 := flagRows p srcVector pr.pc 0 0 (ac (rows - 1)) (out.map (fun x => x.2.1)) s3
      advance p t 1 (doneAt p (ac (rows - 1)) s4)) s

def execAdd (i : Issue) (c : Common) (f : VecF) (s : State) : Out := vecOp i c 0 f s
def execSub (i : Issue) (c : Common) (f : VecF) (s : State) : Out := vecOp i c 1 f s
def execMul (i : Issue) (c : Common) (f : VecF) (s : State) : Out := vecOp i c 2 f s
def execFma (i : Issue) (c : Common) (f : VecF) (s : State) : Out := vecOp i c 3 f s
def execMin (i : Issue) (c : Common) (f : VecF) (s : State) : Out := vecOp i c 4 f s
def execMax (i : Issue) (c : Common) (f : VecF) (s : State) : Out := vecOp i c 5 f s
def execCmp (i : Issue) (c : Common) (f : VecF) (s : State) : Out := vecOp i c 6 f s
def execSel (i : Issue) (c : Common) (f : VecF) (s : State) : Out := vecOp i c 7 f s
def execUnary (i : Issue) (c : Common) (f : VecF) (s : State) : Out := vecOp i c 8 f s
def execCvt (i : Issue) (c : Common) (f : VecF) (s : State) : Out := vecOp i c 9 f s
def execPbdec (i : Issue) (c : Common) (f : VecF) (s : State) : Out := vecOp i c 10 f s
def execPbenc (i : Issue) (c : Common) (f : VecF) (s : State) : Out := vecOp i c 11 f s
def execRsqrt (i : Issue) (c : Common) (f : VecF) (s : State) : Out := vecOp i c 12 f s
def execDivsqrt (i : Issue) (c : Common) (f : VecF) (s : State) : Out := vecOp i c 13 f s
def execFunc (i : Issue) (c : Common) (f : VecF) (s : State) : Out := vecOp i c 14 f s

end Sys2Proof.Machine
end

