-- ==== Sys2Proof/Machine/Dispatch.lean ====
section
/-! DEFINITION. One arm per command or event of the module: its meaning, by one direct call. -/

namespace Sys2Proof.Machine

def exec (i : Instr) (s : State) : Host.Outcome State Fault Refusal :=
  match i with
  | .nop q h => Sys2Proof.Machine.execNop q h s
  | .phase q h target learnQueue => Sys2Proof.Machine.execPhase q h target learnQueue s
  | .plyRun q h plyId mask value inputId => Sys2Proof.Machine.execPlyRun q h plyId mask value inputId s
  | .bookLoad q h object => Sys2Proof.Machine.execBookLoad q h object s
  | .bookLoadDone x => Sys2Proof.Machine.execBookLoadDone x s
  | .place q h b => Sys2Proof.Machine.execPlace q h b s
  | .objectMove q h b => Sys2Proof.Machine.execObjectMove q h b s
  | .objectMoveDone op sramBad => Sys2Proof.Machine.execObjectMoveDone op sramBad s
  | .flashObjCreate q h size => Sys2Proof.Machine.execFlashObjCreate q h size s
  | .flashObjDelete q h handle => Sys2Proof.Machine.execFlashObjDelete q h handle s
  | .hostCopy q h b => Sys2Proof.Machine.execHostCopy q h b s
  | .hostCopyDone op data aborted sramBad => Sys2Proof.Machine.execHostCopyDone op data aborted sramBad s
  | .castle q h b => Sys2Proof.Machine.execCastle q h b s
  | .castleStart => Sys2Proof.Machine.execCastleStart s
  | .castleChunk castleId index crc flagged data => Sys2Proof.Machine.execCastleChunk castleId index crc flagged data s
  | .collective q h b => Sys2Proof.Machine.execCollective q h b s
  | .collEligibleStart => Sys2Proof.Machine.execCollEligibleStart s
  | .collDigest sender digest => Sys2Proof.Machine.execCollDigest sender digest s
  | .collMessage sender level index data => Sys2Proof.Machine.execCollMessage sender level index data s
  | .collGrant sender => Sys2Proof.Machine.execCollGrant sender s
  | .collAbort sender => Sys2Proof.Machine.execCollAbort sender s
  | .collStallTimeout op => Sys2Proof.Machine.execCollStallTimeout op s
  | .routeSet q h object first count => Sys2Proof.Machine.execRouteSet q h object first count s
  | .positionSet q h object first count => Sys2Proof.Machine.execPositionSet q h object first count s
  | .positionSetApply => Sys2Proof.Machine.execPositionSetApply s
  | .groupSet q h object first count => Sys2Proof.Machine.execGroupSet q h object first count s
  | .checkpoint q h b => Sys2Proof.Machine.execCheckpoint q h b s
  | .checkpointCommit => Sys2Proof.Machine.execCheckpointCommit s
  | .buddyCkptData node targets data trailer => Sys2Proof.Machine.execBuddyCkptData node targets data trailer s
  | .restore q h b => Sys2Proof.Machine.execRestore q h b s
  | .restoreDone peerData peerLog refused => Sys2Proof.Machine.execRestoreDone peerData peerLog refused s
  | .peerCkptRead node object log => Sys2Proof.Machine.execPeerCkptRead node object log s
  | .snapshot q h b => Sys2Proof.Machine.execSnapshot q h b s
  | .snapshotDurable peerRefused => Sys2Proof.Machine.execSnapshotDurable peerRefused s
  | .snapshotExport node image manifest imageData manifestData => Sys2Proof.Machine.execSnapshotExport node image manifest imageData manifestData s
  | .admitEntry q h b => Sys2Proof.Machine.execAdmitEntry q h b s
  | .cancel q h entry key => Sys2Proof.Machine.execCancel q h entry key s
  | .pageMove q h b => Sys2Proof.Machine.execPageMove q h b s
  | .pageMoveDone x => Sys2Proof.Machine.execPageMoveDone x s
  | .commandTake q answer => Sys2Proof.Machine.execCommandTake q answer s
  | .sbAppend port count => Sys2Proof.Machine.execSbAppend port count s
  | .updateBegin port imageLength chainLength => Sys2Proof.Machine.execUpdateBegin port imageLength chainLength s
  | .updateData port offset length => Sys2Proof.Machine.execUpdateData port offset length s
  | .updateEnd port settingsOk readBackOk => Sys2Proof.Machine.execUpdateEnd port settingsOk readBackOk s
  | .applyStart port timeout => Sys2Proof.Machine.execApplyStart port timeout s
  | .apply port => Sys2Proof.Machine.execApply port s
  | .recoveryExit port => Sys2Proof.Machine.execRecoveryExit port s
  | .engineService port cluster engine clear => Sys2Proof.Machine.execEngineService port cluster engine clear s
  | .debugChallenge port scope => Sys2Proof.Machine.execDebugChallenge port scope s
  | .debugResponse port publicKey signature => Sys2Proof.Machine.execDebugResponse port publicKey signature s
  | .debugLock port => Sys2Proof.Machine.execDebugLock port s
  | .securityCommit port => Sys2Proof.Machine.execSecurityCommit port s
  | .settingsRead port => Sys2Proof.Machine.execSettingsRead port s
  | .identity => Sys2Proof.Machine.execIdentity s
  | .coordinates slot tray rack hall => Sys2Proof.Machine.execCoordinates slot tray rack hall s
  | .sensors index => Sys2Proof.Machine.execSensors index s
  | .alert => Sys2Proof.Machine.execAlert s
  | .scorebook index => Sys2Proof.Machine.execScorebook index s
  | .sbNext => Sys2Proof.Machine.execSbNext s
  | .doeDiscovery port => Sys2Proof.Machine.execDoeDiscovery port s
  | .attestationReport port nonce => Sys2Proof.Machine.execAttestationReport port nonce s
  | .reportSigned => Sys2Proof.Machine.execReportSigned s
  | .deviceCertificate port => Sys2Proof.Machine.execDeviceCertificate port s
  | .doeAbort port => Sys2Proof.Machine.execDoeAbort port s
  | .moveAcquire f expected => Sys2Proof.Machine.execMoveAcquire f expected s
  | .moveRenew f expected => Sys2Proof.Machine.execMoveRenew f expected s
  | .moveRelease f expected => Sys2Proof.Machine.execMoveRelease f expected s
  | .moveTake f expected => Sys2Proof.Machine.execMoveTake f expected s
  | .stepNumberWrite f value => Sys2Proof.Machine.execStepNumberWrite f value s
  | .flagClear f cluster value => Sys2Proof.Machine.execFlagClear f cluster value s
  | .counterClear f value => Sys2Proof.Machine.execCounterClear f value s
  | .faultRecordClear f value => Sys2Proof.Machine.execFaultRecordClear f value s
  | .budgetSet f value => Sys2Proof.Machine.execBudgetSet f value s
  | .refillConfigWrite f value => Sys2Proof.Machine.execRefillConfigWrite f value s
  | .pageConfigWrite f pool value => Sys2Proof.Machine.execPageConfigWrite f pool value s
  | .markAdd f mark amount => Sys2Proof.Machine.execMarkAdd f mark amount s
  | .markNotifyArm f mark value => Sys2Proof.Machine.execMarkNotifyArm f mark value s
  | .qEnable f q enable => Sys2Proof.Machine.execQEnable f q enable s
  | .qFlush f q hdrs => Sys2Proof.Machine.execQFlush f q hdrs s
  | .qOwnerChange f mark index owner => Sys2Proof.Machine.execQOwnerChange f mark index owner s
  | .sqDoorbell f q tail => Sys2Proof.Machine.execSqDoorbell f q tail s
  | .bar2WindowWrite f value => Sys2Proof.Machine.execBar2WindowWrite f value s
  | .bar2Write port offset data => Sys2Proof.Machine.execBar2Write port offset data s
  | .bar2Read port offset length bad => Sys2Proof.Machine.execBar2Read port offset length bad s
  | .bar2ReadTimeout port => Sys2Proof.Machine.execBar2ReadTimeout port s
  | .warmResetRequest f value => Sys2Proof.Machine.execWarmResetRequest f value s
  | .blockReset f value => Sys2Proof.Machine.execBlockReset f value s
  | .blockClockStable block => Sys2Proof.Machine.execBlockClockStable block s
  | .blockInitDone block => Sys2Proof.Machine.execBlockInitDone block s
  | .portEnableWrite f u enable => Sys2Proof.Machine.execPortEnableWrite f u enable s
  | .portEncryptWrite f u encrypt => Sys2Proof.Machine.execPortEncryptWrite f u encrypt s
  | .twinResume f value => Sys2Proof.Machine.execTwinResume f value s
  | .replayUntilWrite f value => Sys2Proof.Machine.execReplayUntilWrite f value s
  | .debugCtrlArm f value => Sys2Proof.Machine.execDebugCtrlArm f value s
  | .pipSelectWrite f j value => Sys2Proof.Machine.execPipSelectWrite f j value s
  | .readClear f offset => Sys2Proof.Machine.execReadClear f offset s
  | .reg64HalfAccess f offset write => Sys2Proof.Machine.execReg64HalfAccess f offset write s
  | .registerWrite f offset value => Sys2Proof.Machine.execRegisterWrite f offset value s
  | .boundary => Sys2Proof.Machine.execBoundary s
  | .idleBoundaryTimeout => Sys2Proof.Machine.execIdleBoundaryTimeout s
  | .stepEnd => Sys2Proof.Machine.execStepEnd s
  | .plyAbort => Sys2Proof.Machine.execPlyAbort s
  | .deadlockDetect => Sys2Proof.Machine.execDeadlockDetect s
  | .treePartnerTimeout cluster => Sys2Proof.Machine.execTreePartnerTimeout cluster s
  | .waitTimeout prog => Sys2Proof.Machine.execWaitTimeout prog s
  | .govConfirm => Sys2Proof.Machine.execGovConfirm s
  | .govConfirmTimeout => Sys2Proof.Machine.execGovConfirmTimeout s
  | .signalArrival n => Sys2Proof.Machine.execSignalArrival n s
  | .externalCompletion op ac crossing => Sys2Proof.Machine.execExternalCompletion op ac crossing s
  | .mmaBankComplete cluster engine bank => Sys2Proof.Machine.execMmaBankComplete cluster engine bank s
  | .lda j c f => Sys2Proof.Machine.execLda j c f s
  | .ldb j c f => Sys2Proof.Machine.execLdb j c f s
  | .ldat j c f => Sys2Proof.Machine.execLdat j c f s
  | .ldbt j c f => Sys2Proof.Machine.execLdbt j c f s
  | .accld j c f => Sys2Proof.Machine.execAccld j c f s
  | .spill j c f => Sys2Proof.Machine.execSpill j c f s
  | .fill j c f => Sys2Proof.Machine.execFill j c f s
  | .parld j c f => Sys2Proof.Machine.execParld j c f s
  | .gradst j c f => Sys2Proof.Machine.execGradst j c f s
  | .copy j c f => Sys2Proof.Machine.execCopy j c f s
  | .streamIn j c f => Sys2Proof.Machine.execStreamIn j c f s
  | .streamOut j c f => Sys2Proof.Machine.execStreamOut j c f s
  | .xfer j c f => Sys2Proof.Machine.execXfer j c f s
  | .mma j c f => Sys2Proof.Machine.execMma j c f s
  | .lnFwd j c f => Sys2Proof.Machine.execLnFwd j c f s
  | .rmsFwd j c f => Sys2Proof.Machine.execRmsFwd j c f s
  | .smaxFwd j c f => Sys2Proof.Machine.execSmaxFwd j c f s
  | .lse j c f => Sys2Proof.Machine.execLse j c f s
  | .amax j c f => Sys2Proof.Machine.execAmax j c f s
  | .lnBwd j c f => Sys2Proof.Machine.execLnBwd j c f s
  | .rmsBwd j c f => Sys2Proof.Machine.execRmsBwd j c f s
  | .smaxBwd j c f => Sys2Proof.Machine.execSmaxBwd j c f s
  | .gradClear j c f => Sys2Proof.Machine.execGradClear j c f s
  | .add j c f => Sys2Proof.Machine.execAdd j c f s
  | .sub j c f => Sys2Proof.Machine.execSub j c f s
  | .mul j c f => Sys2Proof.Machine.execMul j c f s
  | .fma j c f => Sys2Proof.Machine.execFma j c f s
  | .min j c f => Sys2Proof.Machine.execMin j c f s
  | .max j c f => Sys2Proof.Machine.execMax j c f s
  | .cmp j c f => Sys2Proof.Machine.execCmp j c f s
  | .sel j c f => Sys2Proof.Machine.execSel j c f s
  | .unary j c f => Sys2Proof.Machine.execUnary j c f s
  | .cvt j c f => Sys2Proof.Machine.execCvt j c f s
  | .pbdec j c f => Sys2Proof.Machine.execPbdec j c f s
  | .pbenc j c f => Sys2Proof.Machine.execPbenc j c f s
  | .rsqrt j c f => Sys2Proof.Machine.execRsqrt j c f s
  | .divsqrt j c f => Sys2Proof.Machine.execDivsqrt j c f s
  | .func j c f => Sys2Proof.Machine.execFunc j c f s
  | .etree j c f => Sys2Proof.Machine.execEtree j c f s
  | .ctree j c f => Sys2Proof.Machine.execCtree j c f s
  | .dtree j c f => Sys2Proof.Machine.execDtree j c f s
  | .topk j c f => Sys2Proof.Machine.execTopk j c f s
  | .syncAwait j c wp target => Sys2Proof.Machine.execSyncAwait j c wp target s
  | .syncSignal j c wp cmask dmask => Sys2Proof.Machine.execSyncSignal j c wp cmask dmask s
  | .collStart j c sreg wp cmask dmask => Sys2Proof.Machine.execCollStart j c sreg wp cmask dmask s
  | .lset j c ln imm => Sys2Proof.Machine.execLset j c ln imm s
  | .bnz j c ln off => Sys2Proof.Machine.execBnz j c ln off s
  | .jump j c off => Sys2Proof.Machine.execJump j c off s
  | .bvar j c vb p off => Sys2Proof.Machine.execBvar j c vb p off s
  | .seta j c an imm => Sys2Proof.Machine.execSeta j c an imm s
  | .adda j c an imm => Sys2Proof.Machine.execAdda j c an imm s
  | .ctrlNop j c imm => Sys2Proof.Machine.execCtrlNop j c imm s
  | .ctrlEnd j c => Sys2Proof.Machine.execCtrlEnd j c s
  | .inc j c sn imm => Sys2Proof.Machine.execInc j c sn imm s
  | .stamp j c sn => Sys2Proof.Machine.execStamp j c sn s
  | .dump j c dreg => Sys2Proof.Machine.execDump j c dreg s
  | .streamComplete op corrected => Sys2Proof.Machine.execStreamComplete op corrected s
  | .frameEdge port => Sys2Proof.Machine.execFrameEdge port s
  | .memReread op port line raw acFrom acTo => Sys2Proof.Machine.execMemReread op port line raw acFrom acTo s
  | .repairSourceDone id clean ac => Sys2Proof.Machine.execRepairSourceDone id clean ac s
  | .repairRequest node object offset version => Sys2Proof.Machine.execRepairRequest node object offset version s
  | .repairRewriteDone port line clean => Sys2Proof.Machine.execRepairRewriteDone port line clean s
  | .correctionRewrite port => Sys2Proof.Machine.execCorrectionRewrite port s
  | .patrolScrub port raw => Sys2Proof.Machine.execPatrolScrub port raw s
  | .flashCodewordDecode die errors retries softOk op offset acFrom acTo => Sys2Proof.Machine.execFlashCodewordDecode die errors retries softOk op offset acFrom acTo s
  | .flashRelocate die disturb patrol badBlock => Sys2Proof.Machine.execFlashRelocate die disturb patrol badBlock s
  | .flashPatrol die corrections retries => Sys2Proof.Machine.execFlashPatrol die corrections retries s
  | .flashLayerReady die => Sys2Proof.Machine.execFlashLayerReady die s
  | .flitReceive u x => Sys2Proof.Machine.execFlitReceive u x s
  | .nakReceive u x => Sys2Proof.Machine.execNakReceive u x s
  | .laneFail u => Sys2Proof.Machine.execLaneFail u s
  | .portTrained u reversed x => Sys2Proof.Machine.execPortTrained u reversed x s
  | .portRetrainRetry u => Sys2Proof.Machine.execPortRetrainRetry u s
  | .hello u node peerPort => Sys2Proof.Machine.execHello u node peerPort s
  | .mgmtQuery node => Sys2Proof.Machine.execMgmtQuery node s
  | .probe x => Sys2Proof.Machine.execProbe x s
  | .probeTimeout u => Sys2Proof.Machine.execProbeTimeout u s
  | .loss u position node count => Sys2Proof.Machine.execLoss u position node count s
  | .encapsulationKey u certificate publicKey key signature => Sys2Proof.Machine.execEncapsulationKey u certificate publicKey key signature s
  | .kemCiphertext u certificate publicKey ciphertext signature => Sys2Proof.Machine.execKemCiphertext u certificate publicKey ciphertext signature s
  | .keySwitch x => Sys2Proof.Machine.execKeySwitch x s
  | .keyRollover u transmit => Sys2Proof.Machine.execKeyRollover u transmit s
  | .boundaryRecord half => Sys2Proof.Machine.execBoundaryRecord half s
  | .splitDetect => Sys2Proof.Machine.execSplitDetect s
  | .roleQuery half => Sys2Proof.Machine.execRoleQuery half s
  | .roleAnswer half hold epoch => Sys2Proof.Machine.execRoleAnswer half hold epoch s
  | .roleQueryTimeout half => Sys2Proof.Machine.execRoleQueryTimeout half s
  | .roleSilenceGrant => Sys2Proof.Machine.execRoleSilenceGrant s
  | .dealerHeartbeat half => Sys2Proof.Machine.execDealerHeartbeat half s
  | .watchdogDealer => Sys2Proof.Machine.execWatchdogDealer s
  | .watchdogGlaren => Sys2Proof.Machine.execWatchdogGlaren s
  | .glarenSelfReset => Sys2Proof.Machine.execGlarenSelfReset s
  | .glarenSelfResetEnd => Sys2Proof.Machine.execGlarenSelfResetEnd s
  | .digestReport step plyId health abandoned digest => Sys2Proof.Machine.execDigestReport step plyId health abandoned digest s
  | .logUnitAppend => Sys2Proof.Machine.execLogUnitAppend s
  | .buddyLogUnit target reset data => Sys2Proof.Machine.execBuddyLogUnit target reset data s
  | .powerGood => Sys2Proof.Machine.execPowerGood s
  | .coldStart saved slotB failedSelfTest fails => Sys2Proof.Machine.execColdStart saved slotB failedSelfTest fails s
  | .inputLoss => Sys2Proof.Machine.execInputLoss s
  | .warmNAssert => Sys2Proof.Machine.execWarmNAssert s
  | .warmNRelease => Sys2Proof.Machine.execWarmNRelease s
  | .warmReset fails => Sys2Proof.Machine.execWarmReset fails s
  | .perstAssert port => Sys2Proof.Machine.execPerstAssert port s
  | .perstDeassert port => Sys2Proof.Machine.execPerstDeassert port s
  | .pcieLinkDown port => Sys2Proof.Machine.execPcieLinkDown port s
  | .pcieLinkTrained port rate width => Sys2Proof.Machine.execPcieLinkTrained port rate width s
  | .clockMonitorWindow k locked switched count => Sys2Proof.Machine.execClockMonitorWindow k locked switched count s
  | .sensorSample index value milliamps => Sys2Proof.Machine.execSensorSample index value milliamps s
  | .sensorWarnClear index => Sys2Proof.Machine.execSensorWarnClear index s
  | .peakCapRelease => Sys2Proof.Machine.execPeakCapRelease s
  | .holdupCheck ok => Sys2Proof.Machine.execHoldupCheck ok s
  | .scorebookSummary => Sys2Proof.Machine.execScorebookSummary s
  | .startTimeout step => Sys2Proof.Machine.execStartTimeout step s
  | .startRetry => Sys2Proof.Machine.execStartRetry s
  | .updateForward sender bundle settingsOk readBackOk chain pos => Sys2Proof.Machine.execUpdateForward sender bundle settingsOk readBackOk chain pos s
  | .updateResult pos result => Sys2Proof.Machine.execUpdateResult pos result s
  | .forwardTimeout => Sys2Proof.Machine.execForwardTimeout s
  | .applyToken timeout rest => Sys2Proof.Machine.execApplyToken timeout rest s
  | .tokenTimeout => Sys2Proof.Machine.execTokenTimeout s
  | .tokenHolderTimeout => Sys2Proof.Machine.execTokenHolderTimeout s
  | .blockResetHoldEnd block => Sys2Proof.Machine.execBlockResetHoldEnd block s
  | .buddyCommitAck ok => Sys2Proof.Machine.execBuddyCommitAck ok s
  | .debugChallengeExpiry => Sys2Proof.Machine.execDebugChallengeExpiry s
  | .castleChunkRerequest castleId index node => Sys2Proof.Machine.execCastleChunkRerequest castleId index node s
  | .flitSlot u => Sys2Proof.Machine.execFlitSlot u s
  | .pcieConfigurationWrite port bar2Log2 d3hot numVfs => Sys2Proof.Machine.execPcieConfigurationWrite port bar2Log2 d3hot numVfs s
  | .testAccessPort trstLow tmsMoved serve => Sys2Proof.Machine.execTestAccessPort trstLow tmsMoved serve s

end Sys2Proof.Machine
end

