-- ==== Sys2Proof/Safety.lean ====
section
/-! DEFINITION. What claims speak of: commands that complete, safe runs, a queue that accepts a command, a completion
record, a program ready to issue, and the canonical form of memory. -/

namespace Sys2Proof.Machine

/-- Command `c` completes from `s`: its meaning answers a next state, of which `P` holds. -/
def Completes (c : Instr) (s : State) (P : State → Prop) : Prop := ∃ t, exec c s = .next t ∧ P t

/-- A run of `n` steps that neither faults nor refuses. -/
def SafeRun : Nat → State → Prop
  | 0, _ => True
  | n + 1, s => ∃ t, step s = .next t ∧ SafeRun n t

/-- The memory of a state is in its canonical form. -/
def MemOk (s : State) : Prop := Memory.wf s.tiers.mem = true

/-- Nothing is stored: every byte of memory reads after as it read before. -/
def SameMemory (s t : State) : Prop := ∀ a, readByte t.tiers.mem a = readByte s.tiers.mem a

/-- Memory outside `n` bytes from `a` reads as before. -/
def SameMemoryBut (a n : Nat) (s t : State) : Prop :=
  ∀ x, (∀ i, i < n → physOf x ≠ physOf (a + i)) → readByte t.tiers.mem x = readByte s.tiers.mem x

/-- The reads of an engine command's source meet no error and no line that is bad or under repair. -/
def ReadsGood (s : State) (xs : List ReadSpan) : Prop := engineRead xs .clean s = .good s

/-- The bytes at a module address have been stored: over what the running step had there, its own writes of the current ac and later
excepted (R209); with no step running every one of them, and nothing else. -/
def Filled (a : Nat) (bs : List Byte) (s t : State) : Prop :=
  t.tiers.mem = (fillWrite a bs s).tiers.mem ∧ (s.dealer.run = none → t.tiers.mem = writeBytes s.tiers.mem a bs)

/-- No command, collective or castle waits for a line's repair. -/
def NobodyWaits (s : State) : Prop :=
  s.unlia.colls = [] ∧ s.dealer.building = none ∧ ∀ e ∈ s.host.ops, ∀ t i, e.2 ≠ .repairWait t i

/-- A table-writing command reads its `count` entries of `w` bytes from its object, which holds them, for a range below the limit. -/
def TableRead (s : State) (o first count : W16) (w limit : Nat) (es : List (List Byte)) : Prop :=
  let x := obj s o.toNat
  x.inMem = true ∧ x.poison = .clean ∧ count.toNat * w ≤ x.len ∧ count ≠ 0 ∧ first.toNat + count.toNat ≤ limit ∧
    ReadsGood s [{ object := o.toNat, off := 0, bytes := count.toNat * w }] ∧
    es = (List.range count.toNat).map (fun i => objBytes s x (w * i) w)

/-! ### Host commands -/

/-- Queue q exists and its next command, with header h, can be taken (R395), and none of the checks that every command
meets stops it: no half FENCED, the DONE_MARK of the queue's owner, and for a module-wide command the move (R397, R408). -/
def accepts (s : State) (q : Nat) (h : Hdr) (wide : Bool) : Bool :=
  decide (q < 256) && canTake s q h && !halfFenced s (queue s q).owner.port &&
    (!h.done || decide ((mark s h.doneMark.toNat).owner = (queue s q).owner)) && (!wide || isHolder s (queue s q).owner)

/-- The ticket of queue q's next command. -/
def nextTicket (s : State) (q : Nat) (h : Hdr) : Ticket := { q := q, index := (queue s q).sqHead, hdr := h }

/-- The state in which a taken command begins: SQ_HEAD advanced, its completion entry reserved, the start a success. -/
def taken (q : Nat) (s : State) : State :=
  startOk (setQueue q (fun x => { x with sqHead := x.sqHead + 1, inFlight := x.inFlight + 1, waiting := false }) s)

/-- From `s` to `t` one completion record is committed, with this status and result, and perhaps emissions after it. -/
def Reported (k : Ticket) (status : Byte) (result : W64) (s t : State) : Prop :=
  ∃ fl addr rest, t.out = s.out ++ .completion k.q k.hdr.tag (BitVec.ofNat 16 k.index.toNat) status fl result addr :: rest

/-- A taken command is outstanding: no record of it, and its place in the completion ring stays reserved. -/
def Outstanding (q : Nat) (s t : State) : Prop := t.out = s.out ∧ (queue t q).inFlight = (queue s q).inFlight + 1

/-! ### Register writes -/

/-- Function f writes module-wide controls through register r: it reaches the register and holds the move, outside recovery mode
(R39, R408, R437). -/
def controls (s : State) (f : Fn) (r : Reg) : Bool := reaches s f r && !s.resets.recovery && isHolder s f

/-- The other physical function, which reaches the register without holding the move. -/
def controlsNot (s : State) (f : Fn) (r : Reg) : Bool :=
  reaches s f r && !s.resets.recovery && decide (f.num = 0) && !isHolder s f

/-! ### Glaren's mailbox -/

/-- A request with this opcode waits in port p's mailbox and Glaren serves it now: outside recovery mode, and for a port that
holds the move where the request needs it (R442). -/
def mboxServes (s : State) (p : Port) (op : Nat) (needs : Bool) : Bool :=
  mboxWaits p op s && !s.resets.recovery && (!needs || decide (s.host.holder = some p))

/-- Port p's request has been answered with a status of Table 15.2. -/
def Answered (p : Port) (status : Nat) (t : State) : Prop :=
  (portSt t p).mboxDone = true ∧ (portSt t p).mboxBusy = false ∧ (portSt t p).mboxStatus = BitVec.ofNat 8 status

/-! ### Instructions of programs -/

/-- The command that stands for an instruction. -/
def insnRow (i : Issue) (c : Common) : Insn → Option Instr
  | .move op f => match op.toNat with
    | 0 => some (.lda i c f) | 1 => some (.ldb i c f) | 2 => some (.ldat i c f) | 3 => some (.ldbt i c f) | 4 => some (.accld i c f)
    | 5 => some (.spill i c f) | 6 => some (.fill i c f) | 7 => some (.parld i c f) | 8 => some (.gradst i c f) | 9 => some (.copy i c f)
    | 10 => some (.streamIn i c f) | 11 => some (.streamOut i c f) | 12 => some (.xfer i c f) | _ => none
  | .mma f => some (.mma i c f)
  | .row op f => match op.toNat with
    | 0 => some (.lnFwd i c f) | 1 => some (.rmsFwd i c f) | 2 => some (.smaxFwd i c f) | 3 => some (.lse i c f) | 4 => some (.amax i c f)
    | 5 => some (.lnBwd i c f) | 6 => some (.rmsBwd i c f) | 7 => some (.smaxBwd i c f) | 8 => some (.gradClear i c f) | _ => none
  | .vec op f => match op.toNat with
    | 0 => some (.add i c f) | 1 => some (.sub i c f) | 2 => some (.mul i c f) | 3 => some (.fma i c f) | 4 => some (.min i c f)
    | 5 => some (.max i c f) | 6 => some (.cmp i c f) | 7 => some (.sel i c f) | 8 => some (.unary i c f) | 9 => some (.cvt i c f)
    | 10 => some (.pbdec i c f) | 11 => some (.pbenc i c f) | 12 => some (.rsqrt i c f) | 13 => some (.divsqrt i c f)
    | 14 => some (.func i c f) | _ => none
  | .tree op f => match op.toNat with
    | 0 => some (.etree i c f) | 1 => some (.ctree i c f) | 2 => some (.dtree i c f) | _ => none
  | .topk f => some (.topk i c f)
  | .await wp target => some (.syncAwait i c wp target)
  | .signal wp cmask dmask => some (.syncSignal i c wp cmask dmask)
  | .collStart sreg wp cmask dmask => some (.collStart i c sreg wp cmask dmask)
  | .lset ln imm => some (.lset i c ln imm)
  | .bnz ln off => some (.bnz i c ln off)
  | .jump off => some (.jump i c off)
  | .bvar vb p off => some (.bvar i c vb p off)
  | .seta an imm => some (.seta i c an imm)
  | .adda an imm => some (.adda i c an imm)
  | .nop imm => some (.ctrlNop i c imm)
  | .stop => some (.ctrlEnd i c)
  | .inc sn imm => some (.inc i c sn imm)
  | .stamp sn => some (.stamp i c sn)
  | .dump dreg => some (.dump i c dreg)

/-- Program i.prog of the running step r stands before instruction x with common bits c, and may issue it (R144, R162, R164). -/
def AtInsn (s : State) (r : Run) (i : Issue) (c : Common) (x : Insn) : Prop :=
  i.prog < 36 ∧ s.dealer.run = some r ∧ canIssue r i.prog = true ∧
    ∃ w, (prog r i.prog).code[(prog r i.prog).pc]? = some w ∧ decodeFor i.prog w = some (c, x)

/-- Whether VG and VP gate an instruction off in this step (R145). -/
def gatedOff (r : Run) (c : Common) : Bool := c.vg && decide (r.variant.getLsbD c.vb.toNat ≠ c.vp)

/-- As `AtInsn`, the instruction not gated off and its fetch and reads free of errors. -/
def Runs (s : State) (r : Run) (i : Issue) (c : Common) (x : Insn) : Prop :=
  AtInsn s r i c x ∧ gatedOff r c = false ∧ i.ecc = .clean

/-- As `Runs`, in a step that no abort ends, so that the instruction issues whenever it is ready, and with no SRAM line waiting for its
spare. -/
def RunsOn (s : State) (r : Run) (i : Issue) (c : Common) (x : Insn) : Prop :=
  Runs s r i c x ∧ r.abortAc = none ∧ s.tiers.sramPend = []

/-- From run r to t's run, program p alone has changed, and stands at `pc`. -/
def WentTo (r : Run) (p pc : Nat) (t : State) : Prop :=
  ∃ r', t.dealer.run = some r' ∧ (prog r' p).pc = pc ∧ (∀ q, q ≠ p → prog r' q = prog r q) ∧
    r'.abortAc = r.abortAc ∧ r'.signals = r.signals

/-- Program p has issued its instruction and stands at the next. -/
def Advanced (r : Run) (p : Nat) (t : State) : Prop := WentTo r p ((prog r p).pc + 1) t

/-- The dealers' state other than the running step is unchanged. -/
def SameButRun (s t : State) : Prop := { t.dealer with run := none } = { s.dealer with run := none }

/-- Nothing but the running step, the units, the memory tiers and the counters is changed: no register of Unlia, the hosts, Glaren,
reset, concealment, nor any other state of the dealers. -/
def OnlyStep (s t : State) : Prop :=
  SameButRun s t ∧ t.unlia = s.unlia ∧ t.host = s.host ∧ t.glaren = s.glaren ∧ t.resets = s.resets ∧ t.conceal = s.conceal ∧
    t.out = s.out

/-- A fault of the running step is raised and recorded: the first in FAULT_RECORD, and the step is abandoned 80 ac later
(R164, R165). -/
def Faulted (r : Run) (code p ac pc : Nat) (t : State) : Prop :=
  (∃ r', t.dealer.run = some r' ∧ r'.abortAc = some (ac + 80)) ∧ t.dealer.fault.valid = true ∧
    t.dealer.fault.code = BitVec.ofNat 7 code ∧ t.dealer.fault.prog = BitVec.ofNat 6 p ∧
    t.dealer.fault.pc = BitVec.ofNat 16 pc ∧ t.dealer.fault.step = r.step

end Sys2Proof.Machine
end

