-- ==== Sys2Proof/WellFormed.lean ====
section
/-! DEFINITION. Well-formed commands and events: every unit they name exists, and every field lies in the range that its
encoding can carry (Tables 13.2, 13.5, 13.7, 14.7, R7, R398). -/

namespace Sys2Proof

/-- A PCIe function: PF 0 or VF 1 to 15 (R386). -/
def Fn.wf (f : Fn) : Bool := decide (f.num ≤ 15)

/-- A queue of the 256 (R393). -/
def queueWf (q : Nat) : Bool := decide (q < 256)
/-- A BAR0 offset (R388). -/
def offsetWf (o : Nat) : Bool := decide (o < 0x4000000)
/-- An issuing program: clusters 0 to 31, dies 32 to 35 (R165). -/
def Issue.wf (i : Issue) : Bool := decide (i.prog < 36)
/-- A function and an index below a bound. -/
def fnIndexWf (f : Fn) (k n : Nat) : Bool := f.wf && decide (k < n)

/-- Well-formedness of a command or event. -/
def Instr.wf : Instr → Bool
  | .nop q _ | .phase q _ _ _ | .plyRun q _ _ _ _ _ | .bookLoad q _ _ | .place q _ _ | .objectMove q _ _
  | .flashObjCreate q _ _ | .flashObjDelete q _ _ | .hostCopy q _ _ | .castle q _ _ | .collective q _ _
  | .routeSet q _ _ _ _ | .positionSet q _ _ _ _ | .groupSet q _ _ _ _ | .checkpoint q _ _ | .restore q _ _
  | .snapshot q _ _ | .admitEntry q _ _ | .cancel q _ _ _ | .pageMove q _ _ | .commandTake q .readFailed | .commandTake q .writeFailed => queueWf q
  | .commandTake q (.descriptor d) => queueWf q && decide (d.length = 64)
  | .moveAcquire f _ | .moveRenew f _ | .moveRelease f _ | .moveTake f _ | .stepNumberWrite f _ | .counterClear f _
  | .faultRecordClear f _ | .budgetSet f _ | .refillConfigWrite f _ | .bar2WindowWrite f _ | .warmResetRequest f _
  | .blockReset f _ | .twinResume f _ | .replayUntilWrite f _ | .debugCtrlArm f _ => f.wf
  | .flagClear f k _ => fnIndexWf f k 32
  | .pageConfigWrite f (some d) _ => fnIndexWf f d 4
  | .pageConfigWrite f none _ => f.wf
  | .markAdd f m _ | .markNotifyArm f m _ => fnIndexWf f m 4096
  | .qEnable f q _ | .qFlush f q _ | .sqDoorbell f q _ => fnIndexWf f q 256
  | .qOwnerChange f isMark i o => fnIndexWf f i (if isMark then 4096 else 256) && o.wf
  | .portEnableWrite f u _ | .portEncryptWrite f u _ => fnIndexWf f u 16
  | .pipSelectWrite f i _ => fnIndexWf f i 4
  | .readClear f o | .reg64HalfAccess f o _ | .registerWrite f o _ => f.wf && offsetWf o
  | .lda i _ _ | .ldb i _ _ | .ldat i _ _ | .ldbt i _ _ | .accld i _ _ | .spill i _ _ | .fill i _ _ | .parld i _ _
  | .gradst i _ _ | .copy i _ _ | .streamIn i _ _ | .streamOut i _ _ | .xfer i _ _ | .mma i _ _ | .lnFwd i _ _
  | .rmsFwd i _ _ | .smaxFwd i _ _ | .lse i _ _ | .amax i _ _ | .lnBwd i _ _ | .rmsBwd i _ _ | .smaxBwd i _ _
  | .gradClear i _ _ | .add i _ _ | .sub i _ _ | .mul i _ _ | .fma i _ _ | .min i _ _ | .max i _ _ | .cmp i _ _
  | .sel i _ _ | .unary i _ _ | .cvt i _ _ | .pbdec i _ _ | .pbenc i _ _ | .rsqrt i _ _ | .divsqrt i _ _ | .func i _ _
  | .etree i _ _ | .ctree i _ _ | .dtree i _ _ | .topk i _ _ | .syncAwait i _ _ _ | .syncSignal i _ _ _ _
  | .collStart i _ _ _ _ _ | .lset i _ _ _ | .bnz i _ _ _ | .jump i _ _ | .bvar i _ _ _ _ | .seta i _ _ _
  | .adda i _ _ _ | .ctrlNop i _ _ | .ctrlEnd i _ | .inc i _ _ _ | .stamp i _ _ | .dump i _ _ => i.wf
  | .waitTimeout p => decide (p < 36)
  | .treePartnerTimeout k => decide (k < 32)
  | .mmaBankComplete k e b => decide (k < 32) && decide (e < 8) && decide (b < 2)
  | .frameEdge m | .correctionRewrite m | .patrolScrub m _ => decide (m < 12)
  | .memReread _ m l _ _ _ | .repairRewriteDone m l _ => decide (m < 12) && decide (l < 0x20000000)
  | .flashCodewordDecode d _ _ _ _ _ _ _ | .flashRelocate d _ _ _ | .flashPatrol d _ _ | .flashLayerReady d => decide (d < 4)
  | .flitReceive u x => decide (u < 16) && decide (x.bytes.length = 256)
  | .keySwitch x => decide (x.port < 16)
  | .nakReceive u _ | .laneFail u | .portTrained u _ _ | .portRetrainRetry u | .hello u _ _
  | .probeTimeout u | .loss u _ _ _ | .encapsulationKey u _ _ _ _ | .kemCiphertext u _ _ _ _
  | .keyRollover u _ | .flitSlot u => decide (u < 16)
  | .blockClockStable b | .blockInitDone b | .blockResetHoldEnd b => decide (b < 66)
  | .clockMonitorWindow k _ _ _ => decide (k < 39)
  | .sensors i | .sensorSample i _ _ | .sensorWarnClear i => decide (i < 74)
  | .engineService _ k e _ => decide (k < 32) && decide (e < 9)
  | .bookLoadDone _ | .objectMoveDone _ _ | .hostCopyDone _ _ _ _ | .castleStart | .castleChunk _ _ _ _ _
  | .collEligibleStart | .collDigest _ _ | .collMessage _ _ _ _ | .collGrant _ | .collAbort _ | .collStallTimeout _
  | .positionSetApply | .checkpointCommit | .buddyCkptData _ _ _ _ | .restoreDone _ _ _ | .peerCkptRead _ _ _
  | .snapshotDurable _ | .snapshotExport _ _ _ _ _ | .pageMoveDone _ | .sbAppend _ _ | .updateBegin _ _ _
  | .updateData _ _ _ | .updateEnd _ _ _ | .applyStart _ _ | .apply _ | .recoveryExit _ | .debugChallenge _ _
  | .debugResponse _ _ _ | .debugLock _ | .securityCommit _ | .settingsRead _ | .identity | .coordinates _ _ _ _
  | .alert | .scorebook _ | .sbNext | .doeDiscovery _ | .attestationReport _ _ | .reportSigned
  | .deviceCertificate _ | .doeAbort _ | .bar2Write _ _ _ | .bar2Read _ _ _ _ | .bar2ReadTimeout _ | .boundary
  | .idleBoundaryTimeout | .stepEnd | .plyAbort | .deadlockDetect | .govConfirm | .govConfirmTimeout
  | .signalArrival _ | .externalCompletion _ _ _ | .streamComplete _ _ | .repairSourceDone _ _ _
  | .repairRequest _ _ _ _ | .mgmtQuery _ | .probe _ | .boundaryRecord _ | .splitDetect | .roleQuery _
  | .roleAnswer _ _ _ | .roleQueryTimeout _ | .roleSilenceGrant | .dealerHeartbeat _ | .watchdogDealer
  | .watchdogGlaren | .glarenSelfReset | .glarenSelfResetEnd | .digestReport _ _ _ _ _ | .logUnitAppend
  | .buddyLogUnit _ _ _ | .powerGood | .coldStart _ _ _ _ | .inputLoss | .warmNAssert | .warmNRelease | .warmReset _
  | .perstAssert _ | .perstDeassert _ | .pcieLinkDown _ | .pcieLinkTrained _ _ _ 
  | .peakCapRelease | .holdupCheck _ | .scorebookSummary | .startTimeout _ | .startRetry
  | .updateForward _ _ _ _ _ _ | .updateResult _ _ | .forwardTimeout | .applyToken _ _ | .tokenTimeout
  | .tokenHolderTimeout | .buddyCommitAck _ | .debugChallengeExpiry | .castleChunkRerequest _ _ _
  | .pcieConfigurationWrite _ _ _ _ | .testAccessPort _ _ _ => true

/-! ### Sequencer and die-program instructions -/

/-- The fields that a MOVE opcode does not use are 0 (Tables 5.4, 5.5 and 5.23, R494), and FMT is not 7. -/
def moveWf (op : Nat) (f : MoveF) : Bool :=
  decide (op ≤ 12) && decide (f.fmt ≠ 7) && (!(decide (op = 5) || decide (op = 8)) || decide (f.sreg = 0)) &&
    (decide (op = 5) || decide (8 ≤ op) || decide (f.dreg = 0)) && (decide (op ≤ 3) || decide (f.half = 0 ∧ f.fmt = 0)) &&
    (decide (op = 4) || decide (f.bank = 0)) && (decide (op ≤ 9) || decide (f.port = 0)) &&
    (decide (op ≤ 4) || decide (f.mask = 0)) &&
    (if op = 6 then true else if op = 10 ∨ op = 11 then decide (f.tagWp.toNat < 1024) else decide (f.tagWp = 0)) &&
    (if op ≤ 8 then decide (f.wide.toNat < 65536) else if op = 10 ∨ op = 11 then true
      else if op = 12 then decide (f.wide.toNat < 4) else decide (f.wide = 0))

/-- MMA: a defined format and START, KQ from 1 to 32, and the block-format fields only for PB8 and PB4 (R153, R499). -/
def mmaWf (f : MmaF) : Bool :=
  decide (f.fmt.toNat ≤ 4) && decide (f.start ≠ 3) && decide (1 ≤ f.kq.toNat) && decide (f.kq.toNat ≤ 32) &&
    (decide (3 ≤ f.fmt.toNat) || decide (f.bcol = 0 ∧ f.ahb = 0 ∧ f.bhb = 0)) && (decide (f.bhb = 0) || decide (f.bcol = 0))

/-- VEC: defined formats and FN, and the exclusions of R155. -/
def vecWf (op : Nat) (f : VecF) : Bool :=
  decide (op ≤ 14) && decide (f.sfmt.toNat ≤ 5) && decide (f.dfmt.toNat ≤ 5) &&
    decide (f.fn.toNat < (if op = 6 then 4 else if op = 8 ∨ op = 13 then 2 else if op = 14 then 7 else 1)) &&
    !(decide (f.s2imm = 1) && decide (f.s2bc = 1)) && (decide (f.s2imm = 0) || decide (f.s2 = 0)) &&
    (decide (f.s2bc = 0) || decide (32 ≤ f.s2.toNat))

/-- Well-formedness of an instruction, whatever program holds it. -/
def Insn.wf : Insn → Bool
  | .move op f => moveWf op.toNat f
  | .mma f => mmaWf f
  | .row op f => decide (op.toNat ≤ 8) && !(decide (5 ≤ op.toNat) && decide (op.toNat ≤ 7) && decide (f.xreg = 31))
  | .vec op f => vecWf op.toNat f
  | .tree op f => decide (op.toNat ≤ 2) && decide (f.size ≠ 0) && !(decide (op = 2) && (decide (f.size = 3) || decide (f.onward = 1)))
  | .lset _ imm => decide (imm ≠ 0)
  | _ => true

end Sys2Proof
end

