-- ==== Sys2Proof/Certificates/Slice0/Obligations.lean ====
section
/-! DEFINITION. The statements for the provers. -/

open Sys2Proof Sys2Proof.Machine

/-- A step runs the command at the front of the queue on the state with the rest of the queue. The queue of waiting commands is the model's
own field (log entries 1 and 63). -/
def Obligations.StepRunsFrontCommand : Prop :=
  ∀ (s : State) (c : Instr) (rest : List Instr), s.pending = c :: rest → step s = exec c { s with pending := rest }

/-- On an empty queue a step is one module tick (the model's choice, log entry 1): MODULE_TICK and GC_TICK advance while input power is on,
IDLE_TICKS counts after an idle boundary, and every other kind of state keeps its value. That a step on an empty queue is one tick is
the model's choice, log entry 1. -/
def Obligations.EmptyQueuePassesTick : Prop :=
  ∀ (s : State), s.pending = [] → ∃ t, step s = .next t ∧
    (s.resets.powered = false → t = s) ∧
    (s.resets.powered = true →
      t.tick = s.tick + 1 ∧ t.glaren.gcTick = s.glaren.gcTick + 1 ∧
      (s.resets.mgood = true → Tab.get zero64 t.counters.freqTicks s.glaren.freq = Tab.get zero64 s.counters.freqTicks s.glaren.freq + 1) ∧
      t.counters.idleTicks = (if s.dealer.idle = true ∧ s.resets.mgood = true then s.counters.idleTicks + 1 else s.counters.idleTicks)) ∧
    t.pending = [] ∧ t.dealer = s.dealer ∧ t.units = s.units ∧ t.tiers = s.tiers ∧ t.unlia = s.unlia ∧
    t.conceal = s.conceal ∧ t.host = s.host ∧ t.resets = s.resets ∧ t.out = s.out

/-- No command's meaning touches the queue of waiting commands: only the step takes from it. The queue is the model's own field (log
entries 1 and 63). -/
def Obligations.MeaningsKeepQueue : Prop :=
  ∀ (c : Instr) (s t : State), exec c s = .next t → t.pending = s.pending

/-- Every command and every event answers a next state, but for the unlocked test access port's services. Completion of an event whose
occasion does not hold is the model's choice, log entry 2. -/
def Obligations.CommandsAnswerNextState : Prop :=
  ∀ (c : Instr) (s : State),
    (∃ t, exec c s = .next t) ∨ (∃ a b d, c = .testAccessPort a b d ∧ s.glaren.unlocked.getLsbD 1 = true)

/-- NOP: it completes with OK, its DONE_MARK advances, and nothing but the host interface and the start's success changes. A command that
R395 does not let be taken now stays in its queue: nothing changes but Q_STATUS.WAITING. The checks that every command meets when it is
taken: a FENCED half or phase gives FENCED, a DONE_MARK of another function NOT_OWNER, a module-wide command of a function without the
move NOT_MOVE; none of them has its effect. That Q_STATUS.WAITING is written by the take that is tried is the model's reading, log
entry 45. -/
def Obligations.CommandsMeetCommonChecks : Prop :=
  (∀ (q : Nat) (h : Hdr) (s : State), accepts s q h false = true →
     Completes (.nop q h) s (fun t =>
       Reported (nextTicket s q h) Status.ok 0 s t ∧
       (queue t q).sqHead = (queue s q).sqHead + 1 ∧ (queue t q).cqTail = (queue s q).cqTail + 1 ∧
       (queue t q).inFlight = (queue s q).inFlight ∧
       (mark t h.doneMark.toNat).value = (if h.done = true then markSum (mark s h.doneMark.toNat).value 1 else (mark s h.doneMark.toNat).value) ∧
       (∀ m, m ≠ h.doneMark.toNat → mark t m = mark s m) ∧ (∀ k, k ≠ q → queue t k = queue s k) ∧
       t.dealer = s.dealer ∧ t.units = s.units ∧ t.counters = s.counters ∧ t.tiers = s.tiers ∧ t.unlia = s.unlia ∧
       t.conceal = s.conceal ∧ t.resets.startOk = true)) ∧
  (∀ (q : Nat) (h : Hdr) (s : State), q < 256 → canTake s q h = false →
     ∃ w, (∀ b, exec (.place q h b) s = .next (setQueue q (fun x => { x with waiting := w }) s)) ∧
       (∀ b, exec (.objectMove q h b) s = .next (setQueue q (fun x => { x with waiting := w }) s)) ∧
       (∀ o, exec (.bookLoad q h o) s = .next (setQueue q (fun x => { x with waiting := w }) s)) ∧
       (∀ b, exec (.castle q h b) s = .next (setQueue q (fun x => { x with waiting := w }) s)) ∧
       (∀ b, exec (.collective q h b) s = .next (setQueue q (fun x => { x with waiting := w }) s)) ∧
       (∀ b, exec (.checkpoint q h b) s = .next (setQueue q (fun x => { x with waiting := w }) s)) ∧
       (∀ b, exec (.admitEntry q h b) s = .next (setQueue q (fun x => { x with waiting := w }) s)) ∧
       (∀ o k, exec (.cancel q h o k) s = .next (setQueue q (fun x => { x with waiting := w }) s)) ∧
       exec (.nop q h) s = .next (setQueue q (fun x => { x with waiting := w }) s)) ∧
  (∀ (q : Nat) (h : Hdr) (s : State), q < 256 → canTake s q h = true →
     let fn := (queue s q).owner
     let notOwned := h.done = true ∧ (mark s h.doneMark.toNat).owner ≠ fn
     (halfFenced s fn.port = true → ∀ b,
       Completes (.place q h b) s (fun t => Reported (nextTicket s q h) Status.fenced 0 s t ∧ t.tiers = s.tiers ∧ t.dealer = s.dealer)) ∧
     (halfFenced s fn.port = false → notOwned → ∀ b,
       Completes (.place q h b) s (fun t => Reported (nextTicket s q h) Status.notOwner 0 s t ∧ t.tiers = s.tiers ∧ t.dealer = s.dealer ∧ t.host.marks = s.host.marks)) ∧
     (halfFenced s fn.port = false → ¬notOwned → isHolder s fn = false →
       (∀ b, Completes (.place q h b) s (fun t => Reported (nextTicket s q h) Status.notMove 0 s t ∧ t.tiers = s.tiers ∧ t.dealer = s.dealer ∧ t.host.marks = s.host.marks)) ∧
       (∀ b, Completes (.castle q h b) s (fun t => Reported (nextTicket s q h) Status.notMove 0 s t ∧ t.tiers = s.tiers ∧ t.dealer = s.dealer ∧ t.host.marks = s.host.marks)) ∧
       (∀ o a b, Completes (.groupSet q h o a b) s (fun t => Reported (nextTicket s q h) Status.notMove 0 s t ∧ t.unlia = s.unlia ∧ t.tiers = s.tiers ∧ t.host.marks = s.host.marks))))

/-- COMMAND_TAKE runs the command that the descriptor's opcode byte names, with the header and the body that its bytes give (Table 13.7);
an undefined opcode gives BAD_OPCODE, a descriptor that cannot be read stops the queue with CAUSE 2, and a ring write that fails with
CAUSE 3. -/
def Obligations.CommandTakeReadsDescriptor : Prop :=
  ∀ (q : Nat) (d : List Byte) (s : State), q < 256 → queueOpen s q = true → hdrOk d = true →
    (fieldAt d 0 1 = 0x00 → exec (.commandTake q (.descriptor d)) s = exec (.nop q (hdrOf d)) s) ∧
    (fieldAt d 0 1 = 0x01 → exec (.commandTake q (.descriptor d)) s = exec (.phase q (hdrOf d) (bvAt 8 d 16 1) (bvAt 16 d 18 2)) s) ∧
    (fieldAt d 0 1 = 0x02 → exec (.commandTake q (.descriptor d)) s =
      exec (.plyRun q (hdrOf d) (bvAt 32 d 16 4) (bvAt 8 d 20 1) (bvAt 8 d 21 1) (bvAt 64 d 24 8)) s) ∧
    (fieldAt d 0 1 = 0x03 → exec (.commandTake q (.descriptor d)) s = exec (.bookLoad q (hdrOf d) (bvAt 16 d 16 2)) s) ∧
    (fieldAt d 0 1 = 0x04 → exec (.commandTake q (.descriptor d)) s = exec (.place q (hdrOf d) (placeOf d)) s) ∧
    (fieldAt d 0 1 = 0x05 → exec (.commandTake q (.descriptor d)) s = exec (.objectMove q (hdrOf d) (moveOf d)) s) ∧
    (fieldAt d 0 1 = 0x06 → fieldAt d 16 1 = 0 → exec (.commandTake q (.descriptor d)) s = exec (.flashObjCreate q (hdrOf d) (bvAt 64 d 24 8)) s) ∧
    (fieldAt d 0 1 = 0x06 → fieldAt d 16 1 = 1 → exec (.commandTake q (.descriptor d)) s = exec (.flashObjDelete q (hdrOf d) (bvAt 32 d 20 4)) s) ∧
    (fieldAt d 0 1 = 0x07 → exec (.commandTake q (.descriptor d)) s = exec (.hostCopy q (hdrOf d) (hostCopyOf d)) s) ∧
    (fieldAt d 0 1 = 0x08 → exec (.commandTake q (.descriptor d)) s = exec (.castle q (hdrOf d) (castleOf d)) s) ∧
    (fieldAt d 0 1 = 0x09 → exec (.commandTake q (.descriptor d)) s = exec (.collective q (hdrOf d) (collOf (d.drop 16))) s) ∧
    (fieldAt d 0 1 = 0x0A → exec (.commandTake q (.descriptor d)) s =
      exec (.routeSet q (hdrOf d) (bvAt 16 d 16 2) (bvAt 16 d 18 2) (bvAt 16 d 20 2)) s) ∧
    (fieldAt d 0 1 = 0x0B → exec (.commandTake q (.descriptor d)) s =
      exec (.positionSet q (hdrOf d) (bvAt 16 d 16 2) (bvAt 16 d 18 2) (bvAt 16 d 20 2)) s) ∧
    (fieldAt d 0 1 = 0x0C → exec (.commandTake q (.descriptor d)) s =
      exec (.groupSet q (hdrOf d) (bvAt 16 d 16 2) (bvAt 16 d 18 2) (bvAt 16 d 20 2)) s) ∧
    (fieldAt d 0 1 = 0x0D → exec (.commandTake q (.descriptor d)) s = exec (.checkpoint q (hdrOf d) (ckptOf d)) s) ∧
    (fieldAt d 0 1 = 0x0E → exec (.commandTake q (.descriptor d)) s = exec (.restore q (hdrOf d) (restoreOf d)) s) ∧
    (fieldAt d 0 1 = 0x0F → exec (.commandTake q (.descriptor d)) s = exec (.snapshot q (hdrOf d) (snapshotOf d)) s) ∧
    (fieldAt d 0 1 = 0x10 → exec (.commandTake q (.descriptor d)) s = exec (.admitEntry q (hdrOf d) (admitOf d)) s) ∧
    (fieldAt d 0 1 = 0x11 → exec (.commandTake q (.descriptor d)) s = exec (.cancel q (hdrOf d) (bvAt 16 d 16 2) (bvAt 32 d 20 4)) s) ∧
    (fieldAt d 0 1 = 0x12 → exec (.commandTake q (.descriptor d)) s = exec (.pageMove q (hdrOf d) (pageMoveOf d)) s) ∧
    (0x13 ≤ fieldAt d 0 1 → accepts s q { hdrOf d with done := false } false = true →
      Completes (.commandTake q (.descriptor d)) s (fun t =>
        Reported (nextTicket s q { hdrOf d with done := false }) Status.badOpcode 0 s t ∧ t.dealer = s.dealer ∧ t.tiers = s.tiers)) ∧
    Completes (.commandTake q .readFailed) s (fun t =>
      (queue t q).error = true ∧ (queue t q).cause = 2 ∧ (queue t q).sqHead = (queue s q).sqHead ∧
      (portSt t (queue s q).owner.port).events.getLsbD Event.queueError = true ∧ t.dealer = s.dealer ∧ t.tiers = s.tiers) ∧
    Completes (.commandTake q .writeFailed) s (fun t =>
      (queue t q).error = true ∧ (queue t q).cause = 3 ∧ (queue t q).sqHead = (queue s q).sqHead ∧
      (portSt t (queue s q).owner.port).events.getLsbD Event.queueError = true ∧ t.dealer = s.dealer ∧ t.tiers = s.tiers)

/-- PLACE writes the whole entry and no other. FLASH_OBJ: CREATE gives a new empty object of the declared size and reports its handle (a
free choice of the translation layer); DELETE removes the object, and no other. The handle of a new flash object is a free value (log
entry 49). -/
def Obligations.PlacementAndFlashObjects : Prop :=
  (∀ (q : Nat) (h : Hdr) (b : PlaceBody) (s : State), accepts s q h true = true → placeFault (taken q s) b = none →
     Completes (.place q h b) s (fun t =>
       Reported (nextTicket s q h) Status.ok 0 s t ∧ obj t b.objectId.toNat = placeEntry (obj s b.objectId.toNat) b ∧
       (∀ o, o ≠ b.objectId.toNat → obj t o = obj s o) ∧ SameMemory s t ∧ t.tiers.flash = s.tiers.flash ∧ t.units = s.units ∧
       t.unlia = s.unlia ∧ t.conceal = s.conceal ∧ t.counters = s.counters)) ∧
  ((∀ (q : Nat) (h : Hdr) (size : W64) (s : State), accepts s q h true = true → flashReady s = true → flashWorn s = false →
     size ≠ 0 → size.toNat % 65536 = 0 → size.toNat ≤ 2 ^ 44 →
     Completes (.flashObjCreate q h size) s (fun t => ∃ n : W32,
       t.tiers.flash = s.tiers.flash ++ [{ handle := n, size := size, data := [] }] ∧
       Reported (nextTicket s q h) Status.ok (n.zeroExtend 64) s t ∧ SameMemory s t ∧ t.tiers.objects = s.tiers.objects ∧
       t.dealer = s.dealer ∧ t.units = s.units ∧ t.unlia = s.unlia ∧ t.conceal = s.conceal)) ∧
   (∀ (q : Nat) (h : Hdr) (x : W32) (s : State), accepts s q h true = true → flashReady s = true →
     (flashOf s x).isSome = true → handleInUse (taken q s) x = false →
     Completes (.flashObjDelete q h x) s (fun t =>
       t.tiers.flash = s.tiers.flash.filter (fun f => decide (f.handle ≠ x)) ∧ Reported (nextTicket s q h) Status.ok 0 s t ∧
       SameMemory s t ∧ t.tiers.objects = s.tiers.objects ∧ t.dealer = s.dealer ∧ t.units = s.units ∧ t.unlia = s.unlia ∧
       t.conceal = s.conceal)))

/-- OBJECT_MOVE, HOST_COPY and PAGE_MOVE pass their checks and are outstanding: no record, nothing stored. OBJECT_MOVE_DONE and
HOST_COPY_DONE store the whole range, or send it to the host, and complete their commands. That nothing is stored before the completion
event is the model's choice (log entries 7 and 8); host data comes as an operand (log entry 11). -/
def Obligations.CopiesRunAndComplete : Prop :=
  ((∀ (q : Nat) (h : Hdr) (b : MoveBody) (s : State), accepts s q h true = true → (b.mode = 0 ∨ flashReady s = true) →
     moveFault (taken q s) b = none → shutFor (taken q s) (.move (nextTicket s q h) b [] []) = none →
     Completes (.objectMove q h b) s (fun t =>
       opAt t s.host.nextOp = some (.move (nextTicket s q h) b [] []) ∧ Outstanding q s t ∧ SameMemory s t ∧ t.tiers = s.tiers ∧
       t.dealer = s.dealer ∧ t.units = s.units ∧ t.unlia = s.unlia)) ∧
   (∀ (q : Nat) (h : Hdr) (b : HostCopyBody) (s : State), accepts s q h (decide (b.dir = 1)) = true →
     hostCopyFault (taken q s) b = none → shutFor (taken q s) (.hostCopy (nextTicket s q h) b) = none →
     Completes (.hostCopy q h b) s (fun t =>
       opAt t s.host.nextOp = some (.hostCopy (nextTicket s q h) b) ∧ Outstanding q s t ∧ SameMemory s t ∧ t.tiers = s.tiers ∧
       t.dealer = s.dealer ∧ t.units = s.units ∧ t.unlia = s.unlia)) ∧
   (∀ (q : Nat) (h : Hdr) (b : PageMoveBody) (s : State), accepts s q h false = true → inBoundary s = false →
     entryFault (taken q s) (queue s q).owner b.entry b.key = none → pageMoveFault (taken q s) b = none →
     shutFor (taken q s) (.pageMove (nextTicket s q h) b) = none →
     Completes (.pageMove q h b) s (fun t =>
       opAt t s.host.nextOp = some (.pageMove (nextTicket s q h) b) ∧ Outstanding q s t ∧ SameMemory s t ∧
       request t b.entry.toNat = { request s b.entry.toNat with moving := true } ∧
       (∀ e, e ≠ b.entry.toNat → request t e = request s e) ∧ t.tiers = s.tiers ∧ t.units = s.units ∧ t.unlia = s.unlia))) ∧
  ((∀ (op : Nat) (k : Ticket) (b : MoveBody) (segs : List CauseSpan) (s : State), opAt s op = some (.move k b [] segs) →
     ReadsGood s [{ object := b.src.toNat, off := b.srcOffset.toNat, bytes := b.bytes.toNat }] →
     (queue s k.q).error = false → (queue s k.q).cqSize ≠ 0 →
     Completes (.objectMoveDone op .clean) s (fun t =>
       Reported k Status.ok 0 s t ∧
       (b.mode ≠ 2 → t.tiers.flash = s.tiers.flash ∧
         Filled ((obj s b.dst.toNat).base + b.dstOffset.toNat) (objBytes s (obj s b.src.toNat) b.srcOffset.toNat b.bytes.toNat) s t) ∧
       (b.mode = 2 → t.tiers.mem = s.tiers.mem ∧
         t.tiers.flash = (appendFlash b.dst.toNat (objBytes s (obj s b.src.toNat) b.srcOffset.toNat b.bytes.toNat) s).tiers.flash) ∧
       t.tiers.objects = s.tiers.objects ∧ t.units = s.units ∧ t.unlia = s.unlia ∧ t.conceal = s.conceal)) ∧
   (∀ (op : Nat) (k : Ticket) (b : HostCopyBody) (data : List Byte) (s : State), opAt s op = some (.hostCopy k b) →
     (queue s k.q).error = false → (queue s k.q).cqSize ≠ 0 →
     (b.dir = 1 → Completes (.hostCopyDone op data false .clean) s (fun t =>
       Reported k Status.ok 0 s t ∧
       Filled ((obj s b.object.toNat).base + b.offset.toNat) (data.take b.bytes.toNat) s t ∧
       t.tiers.objects = s.tiers.objects ∧ t.units = s.units ∧ t.unlia = s.unlia)) ∧
     (b.dir ≠ 1 → ReadsGood s [{ object := b.object.toNat, off := b.offset.toNat, bytes := b.bytes.toNat }] → Completes (.hostCopyDone op data false .clean) s (fun t =>
       (∃ rest, t.out = s.out ++ .hostWrite (queue s k.q).owner b.hostAddr
         (objBytes s (obj s b.object.toNat) b.offset.toNat b.bytes.toNat) :: rest) ∧
       SameMemory s t ∧ t.tiers.objects = s.tiers.objects ∧ t.dealer = s.dealer ∧ t.units = s.units ∧ t.unlia = s.unlia)) ∧
     Completes (.hostCopyDone op data true .clean) s (fun t => Reported k Status.hostAbort 0 s t ∧ t.tiers = s.tiers ∧ t.dealer = s.dealer)) ∧
   (∀ (op : Nat) (k : Ticket) (b : MoveBody) (segs : List CauseSpan) (ecc : Ecc) (s t : State) (st : Byte),
     opAt s op = some (.move k b [] segs) → (queue s k.q).error = false → (queue s k.q).cqSize ≠ 0 →
     engineRead [{ object := b.src.toNat, off := b.srcOffset.toNat, bytes := b.bytes.toNat }] ecc s = .fails st t → t.out = s.out → t.host = s.host →
     Completes (.objectMoveDone op ecc) s (fun u => Reported k st 0 s u ∧ u.tiers.mem = t.tiers.mem ∧ u.tiers.flash = t.tiers.flash)))

/-- PHASE: a change to a phase whose books and slot are there becomes pending until a boundary applies it; one without them completes with
the status that says so; while a change is pending another PHASE command waits in its queue, with nothing changed but Q_STATUS.WAITING.
PLY_RUN: in a queue that no PHASE names it completes with WRONG_QUEUE; in the learning queue it is taken at a learning boundary, which
then closes with this command. That a learning boundary waits before its step 6 for PLY_RUN is the model's choice, log entry 28; the
ENTRY_FORMAT of an undefined TARGET is the model's reading, log entry 15. -/
def Obligations.PhaseAndPlyRun : Prop :=
  ((∀ (q : Nat) (h : Hdr) (target : Byte) (lq : W16) (s : State), q < 256 → s.dealer.pending.isSome = true →
     halfFenced s (queue s q).owner.port = false →
     exec (.phase q h target lq) s = .next (setQueue q (fun x => { x with waiting := queueOpen s q && !waitOk s h }) s)) ∧
   ∀ (q : Nat) (h : Hdr) (lq : W16) (s : State), accepts s q h true = true → s.dealer.pending = none →
     (Completes (.phase q h 0 lq) s (fun t => t.dealer.pending = some (.idle, 0, nextTicket s q h) ∧ t.dealer.due = true ∧
       t.dealer.phase = s.dealer.phase ∧ Outstanding q s t ∧ t.tiers = s.tiers ∧ t.units = s.units)) ∧
     (s.dealer.genBook.isSome = true → ((liveSlot s).isSome = true ∨ s.dealer.castlePending.isSome = true) →
       Completes (.phase q h 1 lq) s (fun t => t.dealer.pending = some (.generate, 0, nextTicket s q h) ∧ t.dealer.due = true ∧
         t.dealer.phase = s.dealer.phase ∧ Outstanding q s t ∧ t.tiers = s.tiers ∧ t.units = s.units)) ∧
     (s.dealer.learnBook.isSome = true → lq.toNat < 256 →
       Completes (.phase q h 2 lq) s (fun t => t.dealer.pending = some (.learn, lq.toNat, nextTicket s q h) ∧ t.dealer.due = true ∧
         t.dealer.phase = s.dealer.phase ∧ Outstanding q s t ∧ t.tiers = s.tiers ∧ t.units = s.units)) ∧
     (s.dealer.genBook = none → Completes (.phase q h 1 lq) s (fun t =>
       Reported (nextTicket s q h) Status.bookAbsent 0 s t ∧ t.dealer = s.dealer)) ∧
     (s.dealer.learnBook = none → Completes (.phase q h 2 lq) s (fun t =>
       Reported (nextTicket s q h) Status.bookAbsent 0 s t ∧ t.dealer = s.dealer)) ∧
     (s.dealer.genBook.isSome = true → liveSlot s = none → s.dealer.castlePending = none →
       Completes (.phase q h 1 lq) s (fun t => Reported (nextTicket s q h) Status.noLiveSlot 0 s t ∧ t.dealer = s.dealer)) ∧
     (∀ target : Byte, 2 < target.toNat →
       Completes (.phase q h target lq) s (fun t => Reported (nextTicket s q h) Status.entryFormat 0 s t ∧ t.dealer = s.dealer))) ∧
  (∀ (q : Nat) (h : Hdr) (plyId : W32) (mask value : Byte) (inputId : W64) (s : State), accepts s q h true = true →
     (learningQueue s q = false → s.dealer.idle = false →
       Completes (.plyRun q h plyId mask value inputId) s (fun t =>
         Reported (nextTicket s q h) Status.wrongQueue 0 s t ∧ t.dealer = s.dealer ∧ t.tiers = s.tiers)) ∧
     (learningQueue s q = true → learnBoundary s q = true → s.dealer.plyRuns = [] → s.dealer.idle = false →
       (∃ b, s.dealer.learnBook = some b ∧ b.plies.find? (fun p => decide (p.plyId = plyId)) = none) →
       Completes (.plyRun q h plyId mask value inputId) s (fun t =>
         Reported (nextTicket s q h) Status.bookAbsent 0 s t ∧ t.dealer.midway = false ∧ t.dealer.plyRuns = [] ∧ t.dealer.run = none ∧
         SameMemory s t)) ∧
     (learningQueue s q = true → learnBoundary s q = true → s.dealer.idle = false →
       exec (.plyRun q h plyId mask value inputId) s = .next (closeBoundary (let u := taken q s
         { u with dealer := { u.dealer with
             plyRuns := u.dealer.plyRuns ++ [(nextTicket s q h, plyId, mask, value, inputId)] } }))))

/-- BOOK_LOAD that reads its image and passes its checks starts the load, and from then on no book of that kind is present; BOOK_LOAD_DONE
completes the oldest load of its kind, and makes its book present when no other load of that kind is under way. -/
def Obligations.BookLoads : Prop :=
  (∀ (q : Nat) (h : Hdr) (o : W16) (s : State), accepts s q h true = true → (obj s o.toNat).inMem = true →
    ReadsGood (taken q s) [{ object := o.toNat, off := 0, bytes := (obj s o.toNat).len }] →
    bookFault (taken q s) (objBytes s (obj s o.toNat) 0 (obj s o.toNat).len) = none →
    Completes (.bookLoad q h o) s (fun t =>
      let bs := objBytes s (obj s o.toNat) 0 (obj s o.toNat).len
      let k : BookKind := if fieldAt bs 6 1 = 1 then .learn else .gen
      t.dealer.loading = s.dealer.loading ++ [(bookOf bs k, nextTicket s q h, o)] ∧ Outstanding q s t ∧ SameMemory s t ∧
      (k = .learn → t.dealer.learnBook = none ∧ t.dealer.genBook = s.dealer.genBook) ∧
      (k = .gen → t.dealer.genBook = none ∧ t.dealer.learnBook = s.dealer.learnBook) ∧ t.units = s.units)) ∧
  (∀ (b : Book) (k : Ticket) (o : W16) (rest : List (Book × Ticket × W16)) (s : State), s.dealer.loading = (b, k, o) :: rest →
    s.tiers.sramPend = [] → (queue s k.q).error = false → (queue s k.q).cqSize ≠ 0 →
    Completes (.bookLoadDone { kind := b.kind, ecc := .clean }) s (fun t =>
      let now := if rest.any (fun e => decide (e.1.kind = b.kind)) then none else some b
      Reported k Status.ok 0 s t ∧ t.dealer.loading = rest ∧ SameMemory s t ∧ t.tiers = s.tiers ∧ t.units = s.units ∧
      (b.kind = .gen → t.dealer.genBook = now ∧ t.dealer.learnBook = s.dealer.learnBook) ∧
      (b.kind = .learn → t.dealer.learnBook = now ∧ t.dealer.genBook = s.dealer.genBook)))

/-- CASTLE joins the waiting castles; CASTLE_START begins the oldest of them when none is running or pending: a LOAD makes its target
BUILDING, an ADOPT, which touches no data, makes it READY and pends, one whose start checks fail completes with the check's status.
CASTLE_CHUNK: a good chunk of the running castle is written into its member at its place and nowhere else; a bad one is asked for again
up to three times; one whose sender has lost its source fails the castle; one of a castle that has not started is kept.
CASTLE_CHUNK_REREQUEST sends it again. Early chunks and the count of re-requests are the model's readings, log entry 36. -/
def Obligations.CastlesRun : Prop :=
  ((∀ (q : Nat) (h : Hdr) (b : CastleBody) (s : State), accepts s q h true = true → castleCodesOk b = true →
     Completes (.castle q h b) s (fun t =>
       t.dealer.castles = s.dealer.castles ++ [{
         ticket := nextTicket s q h, body := castleNormal b, checked := false, base := b.base, map := [],
         done := [], retries := [], flagged := 0, sent := false, toSend := [] }] ∧
       Outstanding q s t ∧ t.dealer.slots = s.dealer.slots ∧ t.dealer.building = s.dealer.building ∧ t.tiers = s.tiers ∧ t.units = s.units)) ∧
   (∀ (c : Castle) (rest : List Castle) (s : State), s.dealer.building = none → s.dealer.castlePending = none →
     s.dealer.castles = c :: rest →
     (∀ st, c.checked = false → (castleFault1 s c.body = some st ∨
         castleFault1 s c.body = none ∧ readMap c.body s = .good s ∧ castleFault2 s c.body = some st) → (queue s c.ticket.q).error = false → (queue s c.ticket.q).cqSize ≠ 0 →
       Completes .castleStart s (fun t =>
         Reported c.ticket st 0 s t ∧ t.dealer.castles = rest ∧ t.dealer.slots = s.dealer.slots ∧ t.tiers = s.tiers)) ∧
     (castleFault s c.body = none → castleWaits s c.body = false →
       castleShut s { c with base := c.body.base, map := [] } = false → c.body.role ≠ 2 → c.body.mode = 1 →
       c.body.flags.getLsbD 0 = false →
       Completes .castleStart s (fun t =>
         t.dealer.castles = rest ∧ (slot t (c.body.target.toNat % 2)).state = .building ∧
         (slot t (c.body.target.toNat % 2)).version = c.body.version ∧ (slot t (c.body.target.toNat % 2)).base = c.body.base ∧
         (∀ i, i ≠ c.body.target.toNat % 2 → slot t i = slot s i) ∧
         t.dealer.building = some { c with checked := true, base := c.body.base, map := [] } ∧ t.out = s.out ∧ t.tiers = s.tiers)) ∧
     (castleFault s c.body = none → castleWaits s c.body = false → c.body.role ≠ 2 → c.body.mode = 2 →
       c.body.flags.getLsbD 0 = false → c.body.flags.getLsbD 1 = false →
       Completes .castleStart s (fun t =>
         t.dealer.castles = rest ∧ t.dealer.building = none ∧ (slot t (c.body.target.toNat % 2)).state = .ready ∧
         t.dealer.castlePending = some { c with checked := true, base := c.body.base, map := [] } ∧ t.dealer.due = true ∧ t.out = s.out ∧ t.tiers = s.tiers)))) ∧
  ((∀ (c : Castle) (i : Nat) (e : MapEntry) (flagged : Nat) (data : List Byte) (s : State), s.dealer.building = some c →
     c.body.role ≠ 2 → c.done.contains i = false → c.map[i]? = some e → data.length = e.destBytes →
     (c.body.flags.getLsbD 3 = false ∨ flagged = 0) →
     Completes (.castleChunk c.body.castleId i (crc64 data) flagged (some data)) s (fun t =>
       Filled ((obj s (memberObject c e.member)).base + e.destOffset) data s t ∧
       t.tiers.objects = s.tiers.objects ∧ t.units = s.units ∧ t.unlia = s.unlia ∧
       ((t.dealer.building = some { c with done := c.done ++ [i], flagged := c.flagged + flagged } ∧ t.out = s.out) ∨
         c.map.length ≤ c.done.length + 1))) ∧
   (∀ (c : Castle) (i : Nat) (e : MapEntry) (crc : W64) (flagged : Nat) (data : List Byte) (s : State), s.dealer.building = some c →
     c.body.role ≠ 2 → c.done.contains i = false → c.map[i]? = some e → crc64 data ≠ crc →
     (natAt c.retries i < 3 → Completes (.castleChunk c.body.castleId i crc flagged (some data)) s (fun t =>
       t.out = s.out ++ [.chunkRequest c.body.castleId i e.sourcePos] ∧ t.tiers = s.tiers ∧ t.dealer.slots = s.dealer.slots)) ∧
     (3 ≤ natAt c.retries i → (queue s c.ticket.q).error = false → (queue s c.ticket.q).cqSize ≠ 0 →
       Completes (.castleChunk c.body.castleId i crc flagged (some data)) s (fun t =>
         Reported c.ticket Status.castleChunk (BitVec.ofNat 64 c.flagged) s t ∧ t.dealer.building = none ∧
         (slot t (c.body.target.toNat % 2)).state = .empty))) ∧
   (∀ (c : Castle) (i : Nat) (crc : W64) (flagged : Nat) (s : State), s.dealer.building = some c →
     c.body.role ≠ 2 → c.done.contains i = false → (queue s c.ticket.q).error = false → (queue s c.ticket.q).cqSize ≠ 0 →
     Completes (.castleChunk c.body.castleId i crc flagged none) s (fun t =>
       Reported c.ticket Status.objectPoisoned (BitVec.ofNat 64 c.flagged) s t ∧ t.dealer.building = none ∧
       (slot t (c.body.target.toNat % 2)).state = .empty)) ∧
   (∀ (castleId : W64) (i : Nat) (crc : W64) (flagged : Nat) (data : Option (List Byte)) (s : State),
     (∀ c, s.dealer.building = some c → c.body.castleId ≠ castleId) →
     Completes (.castleChunk castleId i crc flagged data) s (fun t =>
       t.dealer.earlyChunks = s.dealer.earlyChunks ++
         [{ castleId := castleId, index := i, crc := crc, flagged := flagged, lost := data.isNone, data := data.getD [] }] ∧
       t.tiers = s.tiers ∧ t.out = s.out)) ∧
   (∀ (c : Castle) (i : Nat) (e : MapEntry) (node : BitVec 15) (s : State), s.dealer.lastSent = some c → c.map[i]? = some e →
     some e.sourcePos = ownPos s → readShard e s = .good s →
     Completes (.castleChunkRerequest c.body.castleId i node) s (fun t =>
       t.out = s.out ++ [.chunk (makeChunk s c i e) node] ∧
       t.tiers = s.tiers ∧ t.dealer = s.dealer)))

/-- COLLECTIVE: a descriptor that passes its checks, of a kind with a group, waits for its turn; one that does not pass them completes with
the status of the first failing check. COLL_ELIGIBLE_START: when one waiting collective alone is eligible and a further one may start,
it starts: its group's NEXT_SEQ advances by one, and it waits no longer. With a member that is not PRESENT it ends at once (COLL_LOST),
its number consumed. -/
def Obligations.CollectivesStart : Prop :=
  (∀ (q : Nat) (h : Hdr) (b : CollBody) (s : State), accepts s q h true = true → queueWaiting s < 192 →
     (collFault (taken q s) false b = none → isP2p b = false →
       Completes (.collective q h b) s (fun t =>
         t.unlia.colls = s.unlia.colls ++ [{
           id := s.host.nextOp, ticket := some (nextTicket s q h), prog := none, body := b,
           active := false, reading := false, granted := false, taken := false, digests := [], agreed := false, sent := [],
           last := s.tick, nodes := [] }] ∧
         Outstanding q s t ∧ t.tiers = s.tiers ∧ t.dealer = s.dealer ∧ t.units = s.units)) ∧
     (∀ st, collFault (taken q s) false b = some st →
       Completes (.collective q h b) s (fun t =>
         Reported (nextTicket s q h) st 0 s t ∧ t.tiers = s.tiers ∧ t.dealer = s.dealer ∧ t.unlia.groups = s.unlia.groups))) ∧
  (∀ (c : Coll) (s : State), mayStart s = true → s.unlia.colls.filter (eligible s) = [c] → isP2p c.body = false →
     inGroup2 s c.body = false →
     Completes .collEligibleStart s (fun t =>
       (group t c.body.group.toNat).nextSeq = (group s c.body.group.toNat).nextSeq + 1 ∧
       (∀ g, g ≠ c.body.group.toNat → group t g = group s g) ∧
       (∀ x ∈ t.unlia.colls, x.id = c.id → x.active = true) ∧
       ((∃ p ∈ collMembers s c.body, (position s p).state ≠ 1) → ∀ x ∈ t.unlia.colls, x.id ≠ c.id) ∧
       t.dealer.requests = s.dealer.requests ∧ t.dealer.slots = s.dealer.slots ∧ t.units = s.units))

/-- COLL_DIGEST, COLL_MESSAGE and COLL_GRANT: while the collective still lacks its verdict, each counts what has come and no destination is
written; a grant lets a SEND read its source and send its elements. A message of a group whose collective has not started is kept. A
collective whose data is there completes with the verdict that all digests agree: each destination is written, and it reports OK. A
collective that has started fails on a digest that does not agree (COLL_MISMATCH, its destinations unchanged; every other member is
told), on the verdict that says so, on another member's ABORT, on its own stall after 2^32 ac, which sends ABORT (COLL_STALL), and on
word that a source has no good copy (OBJECT_POISONED); COLL_ERRORS counts each. What SEND and RECV exchange is the model's reading, log
entry 37. -/
def Obligations.CollectivesRun : Prop :=
  ((∀ (c : Coll) (source : W16) (s : State), s.unlia.colls = [c] → c.active = true → c.agreed = false →
     (c.reading = false → c.digests.contains source = false → (∀ x ∈ collSends s c, c.sent.contains x.1 = true) →
       passVerdict { c with last := s.tick, digests := c.digests ++ [source] } s = ({ c with last := s.tick, digests := c.digests ++ [source] }, s) →
       Completes (.collDigest { name := collName c.body, source := source } (.digest (partnerHash s c.body))) s (fun t =>
         t.unlia.colls = [{ c with last := s.tick, digests := c.digests ++ [source] }] ∧
         SameMemory s t ∧ t.out = s.out ∧ t.dealer = s.dealer ∧ t.host = s.host)) ∧
     (∀ l i ws, c.reading = false → nodeAt c.nodes l i = none →
       (∀ x ∈ collSends s { c with nodes := c.nodes ++ [(l, i, ws)] }, c.sent.contains x.1 = true) →
       passVerdict { c with last := s.tick, nodes := c.nodes ++ [(l, i, ws)] } s = ({ c with last := s.tick, nodes := c.nodes ++ [(l, i, ws)] }, s) →
       Completes (.collMessage { name := collName c.body, source := source } l i (.elements ws)) s (fun t =>
         t.unlia.colls = [{ c with last := s.tick, nodes := c.nodes ++ [(l, i, ws)] }] ∧
         SameMemory s t ∧ t.out = s.out ∧ t.dealer = s.dealer ∧ t.host = s.host)) ∧
     (∀ n, c.body.kind = 6 → c.granted = false → c.taken = false → c.reading = true → c.nodes = [] → c.sent = [] →
       passVerdict { c with last := s.tick, granted := true } s = ({ c with last := s.tick, granted := true }, s) →
       engineReadSet (rangeSet s (collSources s c.body)) .clean s = .good s → holderNode s (ownCopy s) c.body.peer.toNat = some n →
       Completes (.collGrant { name := collName c.body, source := source }) s (fun t =>
         t.unlia.colls = [{ c with last := s.tick, granted := true, reading := false, nodes := ownNodes s c.body, sent := [0] }] ∧
         SameMemory s t ∧ t.host = s.host ∧ t.dealer = s.dealer ∧
         t.out = s.out ++ (collDies c.body).map (fun d =>
           .coll (collChannel c.body) n (nameThere s c.body) (.value (.value 0 d (sourceWords s c.body d))))))) ∧
   (∀ (g source : W16) (seq : W32) (m : DigestMsg) (s : State), s.unlia.colls = [] → g.toNat < 1024 →
     seqOpen seq (group s g.toNat).nextSeq = true →
     exec (.collDigest { name := .group g seq, source := source } m) s =
       .next { s with unlia := { s.unlia with early := s.unlia.early ++ [(.group g seq, source, .digest m)] } })) ∧
  (∀ (c : Coll) (k : Ticket) (d : Nat) (source : W16) (s : State), s.unlia.colls = [c] → c.active = true → c.agreed = false →
     c.reading = false → c.ticket = some k → c.prog = none → (queue s k.q).error = false → (queue s k.q).cqSize ≠ 0 → collDies c.body = [d] →
     (∀ x ∈ collSends s c, c.sent.contains x.1 = true) → dataReady s c = true →
     Completes (.collDigest { name := collName c.body, source := source } (.verdict true)) s (fun t =>
       Reported k Status.ok 0 s t ∧ t.unlia.colls = [] ∧ Filled (collDst s c.body d).1 (collResult s c d) s t ∧ t.units = s.units ∧
       t.tiers.objects = s.tiers.objects ∧ t.dealer.requests = s.dealer.requests)) ∧
  (∀ (c : Coll) (k : Ticket) (source : W16) (s : State), s.unlia.colls = [c] → c.active = true → c.ticket = some k → c.prog = none →
     (queue s k.q).error = false → (queue s k.q).cqSize ≠ 0 →
     (∀ d, d ≠ partnerHash s c.body → c.digests.contains source = false →
       Completes (.collDigest { name := collName c.body, source := source } (.digest d)) s (fun t =>
         Reported k Status.collMismatch 0 (sendAll c.body (.digest (.verdict false)) s) t ∧ t.unlia.colls = [] ∧ SameMemory s t ∧
         (∀ p ∈ collOthers s c.body, ∀ n, holderNode s (ownCopy s) p = some n →
           .coll (collChannel c.body) n (nameThere s c.body) (.digest (.verdict false)) ∈ t.out) ∧
         Tab.get zero64 t.unlia.collErrors 0 = Tab.get zero64 s.unlia.collErrors 0 + 1)) ∧
     (c.agreed = false → Completes (.collDigest { name := collName c.body, source := source } (.verdict false)) s (fun t =>
       Reported k Status.collMismatch 0 s t ∧ t.unlia.colls = [] ∧ SameMemory s t ∧
       Tab.get zero64 t.unlia.collErrors 0 = Tab.get zero64 s.unlia.collErrors 0 + 1)) ∧
     Completes (.collAbort { name := collName c.body, source := source }) s (fun t =>
       Reported k Status.collStall 0 s t ∧ t.unlia.colls = [] ∧
       Tab.get zero64 t.unlia.collErrors 1 = Tab.get zero64 s.unlia.collErrors 1 + 1) ∧
     (collQuiet s c = true → Completes (.collStallTimeout c.id) s (fun t =>
       Reported k Status.collStall 0 (sendAll c.body .abort s) t ∧ t.unlia.colls = [] ∧
       Tab.get zero64 t.unlia.collErrors 1 = Tab.get zero64 s.unlia.collErrors 1 + 1)) ∧
     (collQuiet s c = false → exec (.collStallTimeout c.id) s = .next s) ∧
     (∀ l i, Completes (.collMessage { name := collName c.body, source := source } l i .poisoned) s (fun t =>
       Reported k Status.objectPoisoned 0 s t ∧ t.unlia.colls = [])))

/-- ROUTE_SET, GROUP_SET and POSITION_SET write the entries of their range from the object's bytes, and no entry outside it; POSITION_SET
takes effect at POSITION_SET_APPLY, with no collective active. The event POSITION_SET_APPLY is the model's, log entry 38. -/
def Obligations.TableCommands : Prop :=
  (∀ (q : Nat) (h : Hdr) (o first count : W16) (es : List (List Byte)) (s : State), accepts s q h true = true →
    TableRead (taken q s) o first count 8 4096 es → es.all routeOk = true →
    Completes (.routeSet q h o first count) s (fun t =>
      Reported (nextTicket s q h) Status.ok 0 s t ∧
      (∀ i (hi : i < es.length), Tab.get zero64 t.unlia.routes (first.toNat + i) = BitVec.ofNat 64 (fieldAt es[i] 0 8)) ∧
      (∀ r, (r < first.toNat ∨ first.toNat + count.toNat ≤ r) → Tab.get zero64 t.unlia.routes r = Tab.get zero64 s.unlia.routes r) ∧
      t.unlia.groups = s.unlia.groups ∧ t.unlia.positions = s.unlia.positions ∧ t.tiers = s.tiers ∧ t.dealer = s.dealer)) ∧
  (∀ (q : Nat) (h : Hdr) (o first count : W16) (es : List (List Byte)) (s : State), accepts s q h true = true →
    TableRead (taken q s) o first count 64 1024 es → es.all groupOk = true →
    (List.range count.toNat).any (fun i => groupBusy s (first.toNat + i)) = false →
    Completes (.groupSet q h o first count) s (fun t =>
      Reported (nextTicket s q h) Status.ok 0 s t ∧
      (∀ i (hi : i < es.length), group t (first.toNat + i) = groupAt es[i]) ∧
      (∀ g, (g < first.toNat ∨ first.toNat + count.toNat ≤ g) → group t g = group s g) ∧
      t.unlia.routes = s.unlia.routes ∧ t.unlia.positions = s.unlia.positions ∧ t.tiers = s.tiers ∧ t.dealer = s.dealer)) ∧
  (∀ (q : Nat) (h : Hdr) (o first count : W16) (es : List (List Byte)) (s : State), accepts s q h true = true →
    TableRead (taken q s) o first count 16 16384 es → es.all positionOk = true →
    nodesUnique (writePositions first.toNat (es.map positionAt) (positionsAhead s)) = true →
    Completes (.positionSet q h o first count) s (fun t =>
      t.unlia.posSets = s.unlia.posSets ++ [(nextTicket s q h, first.toNat, es.map positionAt)] ∧ Outstanding q s t ∧
      t.unlia.positions = s.unlia.positions ∧ t.tiers = s.tiers ∧ t.dealer = s.dealer)) ∧
  (∀ (k : Ticket) (first : Nat) (ps : List Position) (rest : List (Ticket × Nat × List Position)) (s : State),
    s.unlia.posSets = (k, first, ps) :: rest → activeColls s = 0 →
    (queue s k.q).error = false → (queue s k.q).cqSize ≠ 0 →
    Completes .positionSetApply s (fun t =>
      Reported k Status.ok 0 s t ∧ t.unlia.posSets = rest ∧ t.unlia.posDigest = positionDigest t.unlia.positions ∧
      (∀ i (hi : i < ps.length), position t (first + i) = ps[i]) ∧
      (∀ p, (p < first ∨ first + ps.length ≤ p) → position t p = position s p) ∧ t.tiers = s.tiers ∧ t.dealer = s.dealer))

/-- CHECKPOINT comes into force and completes with its first commit, and a ONCE command that it replaces keeps its checkpoint;
CHECKPOINT_COMMIT appends the checkpoint to its target and counts it. What a buddy and a peer serve: checkpoint data and log units are
appended to the named object, a read is answered with the object's bytes, the buddy's acknowledgement sets BUDDY_OK. LOG_UNIT_APPEND
empties the buffer of records. When objects are read is the model's reading, log entry 39; messages are typed by the model, log entry
12. -/
def Obligations.CheckpointsAndBuddies : Prop :=
  ((∀ (q : Nat) (h : Hdr) (b : CkptBody) (s : State), accepts s q h true = true → ckptFormatOk b = true → flashReady s = true →
     b.mode ≠ 2 → ckptObjectsOk (taken q s) b = true →
     Completes (.checkpoint q h b) s (fun t =>
       t.conceal.ckpt = some (nextTicket s q h, b) ∧ t.conceal.ckptFirst = true ∧ t.conceal.ckptDue = decide (b.mode = 0) ∧
       (∀ k b', s.conceal.ckpt = some (k, b') → s.conceal.ckptFirst = true → b'.mode = 0 → t.conceal.onces = s.conceal.onces ++ [(k, b')]) ∧
       t.conceal.commits = s.conceal.commits ∧ SameMemory s t ∧ t.dealer = s.dealer ∧ t.units = s.units ∧ t.unlia = s.unlia)) ∧
   (∀ (q : Nat) (h : Hdr) (b : CkptBody) (s : State), accepts s q h true = true → ckptFormatOk b = true → b.mode = 2 →
     Completes (.checkpoint q h b) s (fun t =>
       t.conceal.ckpt = none ∧ t.conceal.ckptDue = false ∧ SameMemory s t ∧ t.dealer = s.dealer ∧ t.units = s.units ∧
       ∃ fl addr rest pre, t.out = pre ++ .completion q h.tag (BitVec.ofNat 16 (queue s q).sqHead.toNat) Status.ok fl 0 addr :: rest)) ∧
   (∀ (j : CkptJob) (rest : List CkptJob) (s : State), s.conceal.jobs = j :: rest → ReadsGood s (j.spans s) → flashWorn s = false →
     Completes .checkpointCommit s (fun t =>
       t.conceal.commits = s.conceal.commits + 1 ∧ t.conceal.lastTarget = j.target.getD false ∧ t.conceal.ckptStep = j.step ∧
       t.conceal.jobs.map (fun x => x.step) = rest.map (fun x => x.step) ∧ t.conceal.buddyOk = false ∧ SameMemory s t ∧ t.tiers.objects = s.tiers.objects ∧ t.dealer = s.dealer ∧ t.units = s.units))) ∧
  ((∀ (node : BitVec 15) (o o' : W16) (data : List Byte) (x : FlashObj) (s : State), s.conceal.buddyOpen.contains o.toNat = true →
     (obj s o.toNat).inFlash = true → flashObj s (obj s o.toNat) = some x → x.data.length + data.length ≤ x.size.toNat →
     flashWorn s = false → flashReady s = true →
     Completes (.buddyCkptData node (o, o') data false) s (fun t =>
       flashObj t (obj t o.toNat) = some { x with data := x.data ++ data } ∧ SameMemory s t ∧ t.conceal = s.conceal ∧ t.out = s.out)) ∧
   (∀ (o : W16) (data : List Byte) (x : FlashObj) (s : State), (obj s o.toNat).inFlash = true →
     flashObj s (obj s o.toNat) = some x → x.data.length + data.length ≤ x.size.toNat → flashWorn s = false → flashReady s = true →
     Completes (.buddyLogUnit o false data) s (fun t =>
       flashObj t (obj t o.toNat) = some { x with data := x.data ++ data } ∧ SameMemory s t ∧ t.conceal = s.conceal ∧ t.out = s.out)) ∧
   (∀ (node : BitVec 15) (o : W16) (s : State), (obj s o.toNat).inFlash = true → flashReady s = true →
     exec (.peerCkptRead node o true) s =
       .next { s with out := s.out ++ [.bulkNode node Msg.restoreData (objBytes s (obj s o.toNat) 0 (flashLen s o))] }) ∧
   (∀ (ok : Bool) (s : State), s.conceal.buddySent = true →
     exec (.buddyCommitAck ok) s = .next { s with conceal := { s.conceal with buddyOk := ok, buddySent := false } }) ∧
   (∀ (o : W16) (s : State), logObject s = some o → 1024 ≤ s.conceal.logBuffer.length →
     Completes .logUnitAppend s (fun t =>
       t.conceal.logBuffer = [] ∧ t.conceal.logTick = s.tick ∧ SameMemory s t ∧ t.dealer = s.dealer ∧ t.host = s.host)))

/-- RESTORE is outstanding until RESTORE_DONE, which from a good checkpoint sets STEP_NUMBER to its STEP. SNAPSHOT is outstanding until
SNAPSHOT_DURABLE, which appends image and manifest; SNAPSHOT_EXPORT appends a peer's. The check of a log and of appends is the model's
reading, log entry 65. -/
def Obligations.RestoresAndSnapshots : Prop :=
  ((∀ (q : Nat) (h : Hdr) (b : RestoreBody) (s : State), accepts s q h true = true →
     s.dealer.phase = .idle → b.source = 0 → b.logObject = 0xFFFF → flashReady s = true → (obj s b.object.toNat).inFlash = true →
     Completes (.restore q h b) s (fun t =>
       t.conceal.restores = s.conceal.restores ++ [(nextTicket s q h, b)] ∧ Outstanding q s t ∧ t.tiers = s.tiers ∧ t.dealer = s.dealer)) ∧
   (∀ (k : Ticket) (b : RestoreBody) (data log : List Byte) (rest : List (Ticket × RestoreBody)) (s : State), s.conceal.restores = (k, b) :: rest → b.source = 1 →
     b.logObject = 0xFFFF → restoreFault s b data log = none → (queue s k.q).error = false → (queue s k.q).cqSize ≠ 0 →
     Completes (.restoreDone data log false) s (fun t =>
       Reported k Status.ok 0 s t ∧ t.dealer.stepNumber = BitVec.ofNat 64 (fieldAt data 8 8) ∧ t.conceal.restores = rest ∧
       t.tiers.objects = s.tiers.objects ∧ t.units = s.units)) ∧
   (∀ (k : Ticket) (b : RestoreBody) (data log : List Byte) (rest : List (Ticket × RestoreBody)) (s : State), s.conceal.restores = (k, b) :: rest →
     (queue s k.q).error = false → (queue s k.q).cqSize ≠ 0 →
     Completes (.restoreDone data log true) s (fun t =>
       Reported k Status.ckptDigest 0 s t ∧ t.dealer.stepNumber = s.dealer.stepNumber ∧ t.conceal.restores = rest))) ∧
  ((∀ (q : Nat) (h : Hdr) (b : SnapshotBody) (s : State), accepts s q h true = true →
     b.slot.toNat < 2 → b.flags.toNat < 2 → flashReady s = true → flashWorn s = false → slotUsable (slot s b.slot.toNat) = true →
     flashHolds s b.image (slotImage s b.slot.toNat).length = true → flashLen s b.image = 0 →
     flashHolds s b.manifest 256 = true → flashLen s b.manifest = 0 → b.image ≠ b.manifest →
     Completes (.snapshot q h b) s (fun t =>
       t.conceal.snapshots = s.conceal.snapshots ++
         [{ ticket := nextTicket s q h, body := b, step := s.dealer.stepNumber, slot := slot s b.slot.toNat }] ∧ Outstanding q s t ∧ t.tiers = s.tiers ∧ t.dealer = s.dealer)) ∧
   (∀ (j : SnapJob) (rest : List SnapJob) (s : State), s.conceal.snapshots = j :: rest → j.body.flags = 0 →
     ReadsGood s (j.spans s) → (queue s j.ticket.q).error = false → (queue s j.ticket.q).cqSize ≠ 0 →
     Completes (.snapshotDurable false) s (fun t =>
       Reported j.ticket Status.ok 0 s t ∧ t.conceal.snapshots = rest ∧ SameMemory s t ∧ t.dealer = s.dealer ∧
       t.tiers.objects = s.tiers.objects ∧
       t.tiers.flash = (appendFlash j.body.manifest.toNat
         (snapshotManifest s (j.body.slot.toNat % 2) j.slot j.step (membersImage s j.slot))
         (appendFlash j.body.image.toNat (membersImage s j.slot) s)).tiers.flash)) ∧
   (∀ (node : BitVec 15) (image manifest : W16) (data mdata : List Byte) (s : State),
     flashHolds s image data.length = true → flashLen s image = 0 → flashHolds s manifest mdata.length = true →
     flashLen s manifest = 0 → image ≠ manifest → flashWorn s = false → flashReady s = true →
     Completes (.snapshotExport node image manifest data mdata) s (fun t =>
       t.out = s.out ++ [.bulkNode node Msg.snapshotAck (leBytes 2 image.toNat)] ∧ SameMemory s t ∧ t.dealer = s.dealer ∧
       t.tiers.flash = (appendFlash manifest.toNat mdata (appendFlash image.toNat data s)).tiers.flash)))

/-- ADMIT writes a QUEUED entry with the next ADMIT_SEQ, which its record carries; CANCEL marks an entry and waits for the boundary that
ends it; PAGE_MOVE_DONE completes the move. While a boundary runs, each is taken and waits for the launch. That they wait while a
boundary is under way is the model's reading, log entry 30. -/
def Obligations.RequestOperations : Prop :=
  (∀ (q : Nat) (h : Hdr) (b : AdmitBody) (s : State), accepts s q h false = true → inBoundary s = false →
    admitFault (taken q s) (queue s q).owner b = none →
    Completes (.admitEntry q h b) s (fun t =>
      Reported (nextTicket s q h) Status.ok s.dealer.admitSeq s t ∧ t.dealer.admitSeq = s.dealer.admitSeq + 1 ∧
      request t b.entry.toNat = admitEntry (queue s q).owner s.dealer.admitSeq b (request s b.entry.toNat) ∧
      (request t b.entry.toNat).state = .queued ∧ (∀ e, e ≠ b.entry.toNat → request t e = request s e) ∧ t.dealer.due = true ∧
      t.tiers = s.tiers ∧ t.units = s.units ∧ t.dealer.pageTab = s.dealer.pageTab)) ∧
  (∀ (q : Nat) (h : Hdr) (entry : W16) (key : W32) (s : State), accepts s q h false = true → inBoundary s = false →
    entryFault s (queue s q).owner entry key = none →
    Completes (.cancel q h entry key) s (fun t =>
      (request t entry.toNat).cancel = true ∧ (request t entry.toNat).state = (request s entry.toNat).state ∧
      (request t entry.toNat).cancels = (request s entry.toNat).cancels ++ [nextTicket s q h] ∧
      (∀ e, e ≠ entry.toNat → request t e = request s e) ∧ t.dealer.due = true ∧ Outstanding q s t ∧ t.tiers = s.tiers ∧
      t.units = s.units)) ∧
  (∀ (id : Nat) (k : Ticket) (b : PageMoveBody) (s : State), s.host.ops = [(id, .pageMove k b)] →
    holdsEnd (request s b.entry.toNat) = true → (request s b.entry.toNat).key = b.key →
    b.first.toNat + b.count.toNat ≤ (request s b.entry.toNat).pages → ReadsGood s (moveSpans s (movedPages s b)) → (queue s k.q).error = false → (queue s k.q).cqSize ≠ 0 →
    Completes (.pageMoveDone { entry := b.entry.toNat, ecc := .clean }) s (fun t =>
      Reported k Status.ok 0 s t ∧ t.host.ops = [] ∧ (request t b.entry.toNat).moving = false ∧
      (∀ p ∈ ((entryPages s b.entry.toNat).drop b.first.toNat).take b.count.toNat, (page t p).tier = b.tier.toNat) ∧
      (∀ e, e ≠ b.entry.toNat → request t e = request s e) ∧ t.units = s.units ∧ t.unlia = s.unlia)) ∧
  (∀ (q : Nat) (h : Hdr) (b : AdmitBody) (st : Byte) (s : State), accepts s q h false = true → inBoundary s = false →
    admitFault (taken q s) (queue s q).owner b = some st →
    Completes (.admitEntry q h b) s (fun t =>
      Reported (nextTicket s q h) st 0 s t ∧ t.dealer.requests = s.dealer.requests ∧ t.dealer.admitSeq = s.dealer.admitSeq)) ∧
  (∀ (q : Nat) (h : Hdr) (s : State), accepts s q h false = true → inBoundary s = true →
    (∀ b, Completes (.admitEntry q h b) s (fun t => t.dealer.reqOps = s.dealer.reqOps ++ [(nextTicket s q h, .admitEntry q h b)] ∧
      Outstanding q s t ∧ t.dealer.requests = s.dealer.requests ∧ t.tiers = s.tiers)) ∧
    (∀ e k, Completes (.cancel q h e k) s (fun t => t.dealer.reqOps = s.dealer.reqOps ++ [(nextTicket s q h, .cancel q h e k)] ∧
      Outstanding q s t ∧ t.dealer.requests = s.dealer.requests ∧ t.tiers = s.tiers)) ∧
    (∀ b, Completes (.pageMove q h b) s (fun t => t.dealer.reqOps = s.dealer.reqOps ++ [(nextTicket s q h, .pageMove q h b)] ∧
      Outstanding q s t ∧ t.dealer.requests = s.dealer.requests ∧ t.tiers = s.tiers)))

/-- A mailbox request that needs the move, from a port without it, is answered NOT_MOVE and has no other effect; RECOVERY_EXIT outside
recovery mode is answered NOT_RECOVERY. SB_APPEND of one record commits it with the port's source and the host's own code, and nothing
else of the module changes. RECOVERY_EXIT of port A ends recovery mode. ENGINE_SERVICE marks an engine failed or notes its clearing,
SECURITY_COMMIT raises every SECURITY_MIN to the running version's, SETTINGS_READ gives the bank. Answers to bad arguments are the
model's readings, log entry 55. -/
def Obligations.MailboxServices : Prop :=
  (∀ (p : Port) (s : State), s.resets.recovery = false →
     (s.host.holder ≠ some p →
       (∀ a b, mboxWaits p 0x02 s = true → exec (.updateBegin p a b) s = .next (mboxStatus p Mbox.notMove s)) ∧
       (∀ a b, mboxWaits p 0x03 s = true → exec (.updateData p a b) s = .next (mboxStatus p Mbox.notMove s)) ∧
       (∀ a b, mboxWaits p 0x04 s = true → exec (.updateEnd p a b) s = .next (mboxStatus p Mbox.notMove s)) ∧
       (∀ a, mboxWaits p 0x05 s = true → exec (.applyStart p a) s = .next (mboxStatus p Mbox.notMove s)) ∧
       (mboxWaits p 0x06 s = true → exec (.apply p) s = .next (mboxStatus p Mbox.notMove s)) ∧
       (∀ k e b, k < 32 → e < 9 → mboxWaits p 0x08 s = true → exec (.engineService p k e b) s = .next (mboxStatus p Mbox.notMove s)) ∧
       (∀ a, mboxWaits p 0x09 s = true → exec (.debugChallenge p a) s = .next (mboxStatus p Mbox.notMove s)) ∧
       (∀ a b, mboxWaits p 0x0A s = true → exec (.debugResponse p a b) s = .next (mboxStatus p Mbox.notMove s)) ∧
       (mboxWaits p 0x0C s = true → exec (.securityCommit p) s = .next (mboxStatus p Mbox.notMove s))) ∧
     (mboxWaits p 0x07 s = true → Completes (.recoveryExit p) s (fun t => Answered p Mbox.notRecovery t ∧ t.glaren = s.glaren ∧ t.resets = s.resets))) ∧
  (∀ (p : Port) (s : State), mboxServes s p 0x01 false = true →
     let r := tabSlice 64 0 (portSt s p).mboxData
     0x8000 ≤ fieldAt r 0x22 2 → s.glaren.sbNext.toNat % 65536 ≠ 0 →
     ((portSt s p).appended.filter (fun t => decide ((s.glaren.gcTick - t).toNat < 1000000))).length < 64 →
     Completes (.sbAppend p 1) s (fun t =>
       let x := Tab.get (fun _ => Score.blank) t.glaren.sb (scoreIndex s.glaren.sbNext.toNat)
       Answered p Mbox.ok t ∧ t.glaren.sbNext = s.glaren.sbNext + 1 ∧
       (x.seq = s.glaren.sbNext ∧ x.source = BitVec.ofNat 8 (9 + Port.idx p) ∧ x.code = BitVec.ofNat 16 (fieldAt r 0x22 2) ∧
         x.outcome = BitVec.ofNat 8 (fieldAt r 0x21 1)) ∧
       (∀ i, i ≠ scoreIndex s.glaren.sbNext.toNat → Tab.get (fun _ => Score.blank) t.glaren.sb i = Tab.get (fun _ => Score.blank) s.glaren.sb i) ∧
       t.dealer = s.dealer ∧ t.tiers = s.tiers ∧ t.units = s.units ∧ t.unlia = s.unlia ∧ t.out = s.out)) ∧
  ((∀ (s : State), mboxWaits .A 0x07 s = true → s.resets.recovery = true →
     Completes (.recoveryExit .A) s (fun t => t.resets.recovery = false ∧ t.resets.failedStarts = 0)) ∧
   (∀ (p : Port) (k e : Nat) (s : State), mboxServes s p 0x08 true = true → s.dealer.phase = .idle → k < 32 → e < 9 →
     Completes (.engineService p k e false) s (fun t =>
       Answered p Mbox.ok t ∧ (Tab.get (fun _ => 0) t.glaren.failedList k).getLsbD e = true ∧
       (∀ j, j ≠ k → Tab.get (fun _ => 0) t.glaren.failedList j = Tab.get (fun _ => 0) s.glaren.failedList j) ∧
       t.units = s.units ∧ t.dealer = s.dealer) ∧
     Completes (.engineService p k e true) s (fun t =>
       Answered p Mbox.ok t ∧ (k, e) ∈ t.glaren.clearPending ∧ t.glaren.failedList = s.glaren.failedList ∧ t.units = s.units ∧ t.dealer = s.dealer)) ∧
   (∀ (p : Port) (s : State), mboxServes s p 0x0C true = true → Completes (.securityCommit p) s (fun t =>
     Answered p Mbox.ok t ∧ t.dealer = s.dealer ∧ t.units = s.units ∧
     ∀ c, c < 5 → natAt t.glaren.securityMin c = max (securityMin s c) (running s c).security)) ∧
   (∀ (p : Port) (s : State), mboxServes s p 0x0D false = true → Completes (.settingsRead p) s (fun t =>
     Answered p Mbox.ok t ∧
     (∃ bs, (portSt t p).mboxData = tabStore 0 (leBytes 4 0x4B484531 ++ bs) (portSt s p).mboxData) ∧ t.glaren = s.glaren ∧ t.dealer = s.dealer)))

/-- The update requests of the holder of the move: UPDATE_BEGIN empties the image buffer, UPDATE_DATA fills it, UPDATE_END checks the
bundle and stores it or rejects it with the failing check, APPLY_START starts the token, APPLY starts the copy. The update chain: a
bundle that comes is checked and stored or rejected; position 0 counts results and skips a silent module; the token makes a module that
has stored its bundle ready to apply, until the time it was given has passed. Statuses and token times are the model's readings, log
entry 56; signatures are constants without a value, log entry 10. -/
def Obligations.FirmwareUpdates : Prop :=
  (∀ (p : Port) (s : State),
     (∀ n c, mboxServes s p 0x02 true = true → updateBusy s.glaren.update = false → n ≤ 24 * 2 ^ 20 → c ≤ 16384 →
       Completes (.updateBegin p n c) s (fun t =>
         Answered p Mbox.ok t ∧ t.glaren.update.state = 1 ∧ t.glaren.update.image = [] ∧ t.glaren.update.imageLength = n ∧
         t.glaren.update.chainLength = c ∧ t.glaren.update.slotA = s.glaren.update.slotA ∧ t.dealer = s.dealer)) ∧
     (∀ o n, mboxServes s p 0x03 true = true → s.glaren.update.state = 1 → n ≤ 2 ^ 20 →
       o + n ≤ s.glaren.update.imageLength + 2 * s.glaren.update.chainLength →
       Completes (.updateData p o n) s (fun t =>
         Answered p Mbox.ok t ∧ t.glaren.update.image = tabStore o (tabSlice n 0 (portSt s p).mboxData) s.glaren.update.image ∧
         t.glaren.update.state = 1 ∧ t.glaren.update.slotA = s.glaren.update.slotA ∧ t.dealer = s.dealer)) ∧
     (∀ so, mboxServes s p 0x04 true = true → s.glaren.update.state = 1 →
       let u := setUpdate (fun u => { u with state := 2, chain := imageChain u, chainPos := 0 }) s
       let checked := bundleFault u (imageBytes u.glaren.update) so
       Completes (.updateEnd p so true) s (fun t => t.glaren.update.running = s.glaren.update.running ∧
         (checked = none → Answered p Mbox.ok t ∧ (t.glaren.update.state = 3 ∨ t.glaren.update.state = 4) ∧
           t.glaren.update.manifest = manifestEntries (imageBytes s.glaren.update)) ∧
         (∀ k, checked = some k → Answered p k t ∧ t.glaren.update.state = 8 ∧ t.glaren.update.reason = BitVec.ofNat 8 k ∧
           t.glaren.update.manifest = s.glaren.update.manifest))) ∧
     (∀ n, mboxServes s p 0x05 true = true → 60 ≤ n → n ≤ 86400 → s.glaren.update.chain ≠ [] → s.glaren.update.chainPos = 0 →
       s.glaren.update.tokenAt = none → updateBusy s.glaren.update = false →
       Completes (.applyStart p n) s (fun t =>
         Answered p Mbox.ok t ∧ t.glaren.update.tokenAt = (toVisit s.glaren.update).head? ∧ t.glaren.update.tokenTimeout = n ∧
         t.glaren.update.slotA = s.glaren.update.slotA ∧ t.dealer = s.dealer)) ∧
     (∀ c, mboxServes s p 0x06 true = true → s.glaren.update.state = 5 → nextComponent s = some c →
       Completes (.apply p) s (fun t =>
         Answered p Mbox.ok t ∧ t.glaren.update.state = 6 ∧ t.glaren.update.nextAction = actionOf c ∧
         t.glaren.update.running = s.glaren.update.running ∧ t.dealer = s.dealer))) ∧
  ((∀ (sender : BitVec 15) (bundle : List Byte) (so : Bool) (chain : List (BitVec 15)) (pos : Nat) (s : State), mgmtHeard s = true →
     updateBusy s.glaren.update = false →
     let u := setUpdate (fun u => { u with
       state := 2, image := tabStore 0 bundle [], imageLength := bundle.length, chain := chain, chainLength := chain.length,
       chainPos := pos, forwardTo := none }) s
     let checked := bundleFault u (imageBytes u.glaren.update) so
     Completes (.updateForward sender bundle so true chain pos) s (fun t =>
       t.glaren.update.chain = chain ∧ t.glaren.update.chainPos = pos ∧ t.glaren.update.running = s.glaren.update.running ∧
       (checked = none → t.glaren.update.state = 3 ∨ t.glaren.update.state = 4) ∧
       (∀ k, checked = some k → t.glaren.update.state = 8 ∧ t.glaren.update.reason = BitVec.ofNat 8 k))) ∧
   (∀ (pos r : Nat) (s : State), mgmtHeard s = true → s.glaren.update.chainPos = 0 → r ≤ 3 →
     Completes (.updateResult pos r) s (fun t => (natAt t.glaren.update.results pos).testBit r = true ∧
       (∀ p, p ≠ pos → natAt t.glaren.update.results p = natAt s.glaren.update.results p) ∧ t.dealer = s.dealer)) ∧
   (∀ (p : Nat) (s : State), s.glaren.update.forwardTo = some p → s.glaren.update.chainPos = 0 →
     60000000 ≤ (s.glaren.gcTick - s.glaren.update.forwardSince).toNat →
     Completes .forwardTimeout s (fun t => (natAt t.glaren.update.results p).testBit UResult.skipped = true ∧
       t.glaren.update.forwardTo = (if p + 1 < s.glaren.update.chain.length then some (p + 1) else none) ∧ t.dealer = s.dealer)) ∧
   (∀ (timeout : Nat) (rest : List Nat) (s : State), mgmtHeard s = true → updateBusy s.glaren.update = false →
     s.resets.recovery = false → s.glaren.update.manifest ≠ [] → s.glaren.update.state = 3 →
     Completes (.applyToken timeout rest) s (fun t => t.glaren.update.state = 5 ∧ t.glaren.update.token = some timeout ∧
       t.glaren.update.tokenRest = rest ∧ t.glaren.update.tokenSince = s.glaren.gcTick ∧ t.out = s.out ∧ t.dealer = s.dealer)) ∧
   (∀ (n : Nat) (s : State), s.glaren.update.token = some n → s.glaren.update.state = 5 → s.glaren.update.tokenRest = [] →
     1000000 * n ≤ (s.glaren.gcTick - s.glaren.update.tokenSince).toNat →
     Completes .tokenTimeout s (fun t => t.glaren.update.state = 3 ∧ t.glaren.update.token = none ∧ t.dealer = s.dealer)) ∧
   (∀ (p : Nat) (s : State), s.glaren.update.tokenAt = some p →
     1000000 * (s.glaren.update.tokenTimeout + 600) ≤ (s.glaren.gcTick - s.glaren.update.visitSince).toNat →
     Completes .tokenHolderTimeout s (fun t => t.glaren.update.tokenAt = none ∧
       t.glaren.update.reason = BitVec.ofNat 8 Mbox.updateState ∧
       (natAt t.glaren.update.results p).testBit UResult.skipped = true ∧ t.dealer = s.dealer)))

/-- Debug unlock: a challenge is kept for one answer and 600 s; the right answer unlocks its scope and measurement 7 takes it in, any other
is refused and ends the challenge; DEBUG_LOCK locks every scope. TEST_ACCESS_PORT: while TAP is locked the port has no effect;
unlocked, a request for its services is refused by name, since the manual gives them no effect. The refusal of an unlocked port's
service is by name (R474 gives no effect); DEBUG_LOCK is read as log entry 57 says. -/
def Obligations.DebugAccess : Prop :=
  ((∀ (p : Port) (scope : BitVec 3) (s : State), mboxServes s p 0x09 true = true → Completes (.debugChallenge p scope) s (fun t =>
     Answered p Mbox.ok t ∧ t.glaren.challenge = some (challengeBytes s scope, scope, s.glaren.gcTick) ∧
     t.glaren.unlocked = s.glaren.unlocked ∧ t.dealer = s.dealer)) ∧
   (∀ (p : Port) (key sig c : List Byte) (scope : BitVec 3) (at_ : W64) (s : State), mboxServes s p 0x0A true = true →
     s.glaren.challenge = some (c, scope, at_) → (s.glaren.gcTick - at_).toNat < 600000000 →
     Completes (.debugResponse p key sig) s (fun t => t.glaren.challenge = none ∧ t.dealer = s.dealer ∧
       (shake256 64 key = Config.anchorDebug ∧ Config.slhVerify key c sig = true →
         Answered p Mbox.ok t ∧ t.glaren.unlocked = s.glaren.unlocked ||| scope ∧
         t.glaren.measure7 = shake256 64 (s.glaren.measure7 ++ c)) ∧
       (¬(shake256 64 key = Config.anchorDebug ∧ Config.slhVerify key c sig = true) →
         Answered p Mbox.signature t ∧ t.glaren.unlocked = s.glaren.unlocked ∧ t.glaren.measure7 = s.glaren.measure7))) ∧
   (∀ (p : Port) (key sig : List Byte) (s : State), mboxServes s p 0x0A true = true → s.glaren.challenge = none →
     Completes (.debugResponse p key sig) s (fun t => Answered p Mbox.challenge t ∧ t.glaren = s.glaren)) ∧
   (∀ (p : Port) (s : State), mboxServes s p 0x0B false = true → Completes (.debugLock p) s (fun t =>
     Answered p Mbox.ok t ∧ t.glaren.unlocked = 0 ∧ t.glaren.measure7 = s.glaren.measure7 ∧ t.dealer = s.dealer)) ∧
   (∀ (c : List Byte) (scope : BitVec 3) (at_ : W64) (s : State), s.glaren.challenge = some (c, scope, at_) →
     (600000000 ≤ (s.glaren.gcTick - at_).toNat →
       exec .debugChallengeExpiry s = .next { s with glaren := { s.glaren with challenge := none } }) ∧
     ((s.glaren.gcTick - at_).toNat < 600000000 → exec .debugChallengeExpiry s = .next s))) ∧
  (∀ (trstLow tmsMoved serve : Bool) (s : State),
     (s.glaren.unlocked.getLsbD 1 = false → exec (.testAccessPort trstLow tmsMoved serve) s = .next s) ∧
     (s.glaren.unlocked.getLsbD 1 = true →
       exec (.testAccessPort false true true) s = .refused .tapService))

/-- The tray's commands: each answers the bytes of what it names, in every state in which Glaren has power, and changes nothing;
COORDINATES alone gives a module without a node ID its node ID. DOE: one attestation request per port waits until it is signed, oldest
first, and goes with an abort; discovery and the certificate are answered at once. When they answer, and the typed answers, are the
model's readings, log entries 12 and 58. -/
def Obligations.TrayAndAttestation : Prop :=
  (∀ (s : State), s.resets.powered = true →
     exec .identity s = .next { s with out := s.out ++ [.tray moduleIdentBytes] } ∧
     exec .alert s = .next { s with out := s.out ++ [.tray (leBytes 4 (alertWord s))] } ∧
     exec .sbNext s = .next { s with out := s.out ++ [.tray (leBytes 8 s.glaren.sbNext.toNat)] } ∧
     (∀ i : W32, i.toNat < 262144 → exec (.scorebook i) s = .next { s with out := s.out ++ [.tray (scoreBytes s i.toNat)] }) ∧
     (∀ i, i < 74 → exec (.sensors i) s = .next { s with out := s.out ++ [.tray (sensorBytes s i)] }) ∧
     (∀ slot tray rack hall, s.unlia.nodeValid = true → Completes (.coordinates slot tray rack hall) s (fun t =>
       t.glaren.trayCoords = some (nodeOf slot tray rack hall) ∧ t.unlia = s.unlia ∧ t.dealer = s.dealer ∧ t.host = s.host)) ∧
     (∀ slot tray rack hall, s.unlia.nodeValid = false → Completes (.coordinates slot tray rack hall) s (fun t =>
       t.unlia.nodeValid = true ∧ t.unlia.nodeId = nodeOf slot tray rack hall ∧ t.unlia.routes = s.unlia.routes ∧ t.dealer = s.dealer))) ∧
  ((∀ (p : Port) (nonce : List Byte) (s : State), doeServes p s = true → (s.glaren.reports.any (fun r => decide (r.1 = p))) = false →
     exec (.attestationReport p nonce) s = .next { s with glaren := { s.glaren with reports := s.glaren.reports ++ [(p, nonce)] } }) ∧
   (∀ (p : Port) (nonce : List Byte) (rest : List (Port × List Byte)) (s : State), s.glaren.reports = (p, nonce) :: rest →
     s.resets.powered = true → s.resets.glarenReady = true →
     exec .reportSigned s = .next { s with
       glaren := { s.glaren with reports := rest }
       out := s.out ++ [.doe p (reportBody nonce s ++ Config.slhSign (reportBody nonce s))] }) ∧
   (∀ (p : Port) (s : State), Completes (.doeAbort p) s (fun t =>
     (∀ r ∈ t.glaren.reports, r.1 ≠ p) ∧ (∀ r ∈ s.glaren.reports, r.1 ≠ p → r ∈ t.glaren.reports) ∧ t.out = s.out ∧ t.dealer = s.dealer)) ∧
   (∀ (p : Port) (s : State), doeServes p s = true →
     (∃ bs, bs.length = 9 ∧ exec (.doeDiscovery p) s = .next { s with out := s.out ++ [.doe p bs] }) ∧
     (∃ bs, bs.length = 29940 ∧ exec (.deviceCertificate p) s = .next { s with out := s.out ++ [.doe p bs] })))

/-- The four move requests (Table 13.12): a stale EPOCH is refused; ACQUIRE and TAKE give a free move, TAKE one whose lease is over, RENEW
restarts the lease and RELEASE gives the move back; EPOCH advances with every change, and both hosts hear of it. That MOVE_* registers
are decided at once is the model's reading, log entry 43; TAKE with no holder is log entry 44. -/
def Obligations.MoveRequests : Prop :=
  ∀ (f : Fn) (e : W32) (s : State), reaches s f .moveRequest = true → (portSt s f.port).result ≠ .pending → s.resets.glarenReady = true →
    let gives (c : Instr) (r : MoveResult) (h : Option Port) (epoch : W32) := Completes c s (fun t =>
      (portSt t f.port).result = r ∧ t.host.holder = h ∧ t.host.epoch = epoch ∧ t.dealer = s.dealer ∧ t.units = s.units ∧
      t.tiers = s.tiers ∧ t.unlia = s.unlia ∧ t.conceal = s.conceal ∧ t.host.queues = s.host.queues ∧ t.host.marks = s.host.marks ∧
      (h ≠ s.host.holder → ∀ p, (portSt t p).events.getLsbD Event.moveChanged = true))
    (e ≠ s.host.epoch →
      gives (.moveAcquire f e) .staleEpoch s.host.holder s.host.epoch ∧ gives (.moveRenew f e) .staleEpoch s.host.holder s.host.epoch ∧
      gives (.moveRelease f e) .staleEpoch s.host.holder s.host.epoch ∧ gives (.moveTake f e) .staleEpoch s.host.holder s.host.epoch) ∧
    (e = s.host.epoch → s.host.holder = none →
      gives (.moveAcquire f e) .granted (some f.port) (s.host.epoch + 1) ∧ gives (.moveTake f e) .granted (some f.port) (s.host.epoch + 1)) ∧
    (e = s.host.epoch → s.host.holder = some f.port →
      gives (.moveRenew f e) .granted (some f.port) s.host.epoch ∧ gives (.moveRelease f e) .granted none (s.host.epoch + 1) ∧
      gives (.moveAcquire f e) .held (some f.port) s.host.epoch ∧
      ∀ t, exec (.moveRenew f e) s = .next t → t.host.leaseStart = s.tick) ∧
    (e = s.host.epoch → s.host.holder = some (Port.other f.port) →
      gives (.moveAcquire f e) .held s.host.holder s.host.epoch ∧ gives (.moveRenew f e) .notHolder s.host.holder s.host.epoch ∧
      gives (.moveRelease f e) .notHolder s.host.holder s.host.epoch ∧
      (leaseOver s (Port.other f.port) = true → gives (.moveTake f e) .granted (some f.port) (s.host.epoch + 1)) ∧
      (leaseOver s (Port.other f.port) = false → gives (.moveTake f e) .held s.host.holder s.host.epoch))

/-- A module-wide control written by the physical function of the port without the move is discarded and counted. The dealer's and the
counters' controls: each writes its own fields; STEP_NUMBER and the page configuration take writes only in phase IDLE, the page
configuration only with no occupied request. -/
def Obligations.HolderControls : Prop :=
  (∀ (f : Fn) (s : State),
     (∀ v, controlsNot s f .stepNumber = true → exec (.stepNumberWrite f v) s = .next (reject f 0x300008 s)) ∧
     (∀ k v, k < 32 → controlsNot s f (.flagClear k) = true → exec (.flagClear f k v) s = .next (reject f (0x410020 + 0x40 * k) s)) ∧
     (∀ v, controlsNot s f .counterClear = true → exec (.counterClear f v) s = .next (reject f 0x4002C0 s)) ∧
     (∀ v, controlsNot s f .faultRecord = true → exec (.faultRecordClear f v) s = .next (reject f 0x300128 s)) ∧
     (∀ v, controlsNot s f .budgetSet = true → exec (.budgetSet f v) s = .next (reject f 0x300318 s)) ∧
     (∀ v, controlsNot s f .refillConfig = true → exec (.refillConfigWrite f v) s = .next (reject f 0x300310 s)) ∧
     (∀ v, controlsNot s f .pageConfig = true → exec (.pageConfigWrite f none v) s = .next (reject f 0x300320 s)) ∧
     (∀ v, controlsNot s f .resetCtrl = true → exec (.warmResetRequest f v) s = .next (reject f 0x10028 s)) ∧
     (∀ v, controlsNot s f .blockReset = true → exec (.blockReset f v) s = .next (reject f 0x10060 s)) ∧
     (∀ u b, u < 16 → controlsNot s f (.portCtrl u) = true →
       exec (.portEnableWrite f u b) s = .next (reject f (0x440008 + 0x100 * u) s) ∧
       exec (.portEncryptWrite f u b) s = .next (reject f (0x440008 + 0x100 * u) s)) ∧
     (∀ v, controlsNot s f .twinCtrl = true → exec (.twinResume f v) s = .next (reject f 0x4C0008 s)) ∧
     (∀ v, controlsNot s f .replayCtrl = true → exec (.replayUntilWrite f v) s = .next (reject f 0x4C0058 s)) ∧
     (∀ v, controlsNot s f .debugCtrl = true → exec (.debugCtrlArm f v) s = .next (reject f 0x806004 s))) ∧
  (∀ (f : Fn) (s : State),
     (∀ v, controls s f .stepNumber = true →
       exec (.stepNumberWrite f v) s = .next (if s.dealer.phase = .idle then { s with dealer := { s.dealer with stepNumber := v } }
         else reject f 0x300008 s)) ∧
     (∀ v : W64, controls s f .faultRecord = true →
       exec (.faultRecordClear f v) s = .next (if v.getLsbD 0 = true ∧ faultAfter s = false then
         { s with dealer := { s.dealer with fault := { s.dealer.fault with valid := false } } } else s)) ∧
     (∀ v : W32, controls s f .counterClear = true → v.getLsbD 0 = true → Completes (.counterClear f v) s (fun t =>
       (∀ c, Tab.get zero64 t.counters.stallAc c = 0 ∧ Tab.get zero64 t.counters.holdAc c = 0 ∧ Tab.get zero64 t.counters.holdCount c = 0) ∧
       t.counters.boundaries = 0 ∧ t.counters.idleBoundaries = 0 ∧ t.counters.idleTicks = 0 ∧ t.counters.boundaryAc = 0 ∧
       (∀ x, Tab.get zero64 t.counters.freqTicks x = 0) ∧ t.counters.lastAc = s.counters.lastAc ∧ t.counters.onchip = s.counters.onchip ∧
       t.dealer = s.dealer ∧ t.tiers = s.tiers ∧ t.units = s.units)) ∧
     (∀ (k : Nat) (v : W32), k < 32 → controls s f (.flagClear k) = true → v.getLsbD 0 = true → s.dealer.run = none → Completes (.flagClear f k v) s (fun t =>
       Tab.get (fun _ => FlagSum.cold) t.units.flags k = FlagSum.cold ∧
       (∀ j, j ≠ k → Tab.get (fun _ => FlagSum.cold) t.units.flags j = Tab.get (fun _ => FlagSum.cold) s.units.flags j) ∧
       t.units.buf = s.units.buf ∧ t.counters = s.counters ∧ t.tiers = s.tiers)) ∧
     (∀ (k : Nat) (v : W32) (r : Run), k < 32 → controls s f (.flagClear k) = true → v.getLsbD 0 = true → s.dealer.run = some r →
       Completes (.flagClear f k v) s (fun t =>
         let keeps (x : Nat × FlagRec) : Bool := decide (x.1 ≠ k) || decide (r.nowAc ≤ x.2.ac)
         t.dealer.run = some { r with flagged := r.flagged.filter keeps } ∧
         Tab.get (fun _ => FlagSum.cold) t.units.flags k = FlagSum.of (flagsOf k (r.flagged.filter keeps)) ∧
         (∀ j, j ≠ k → Tab.get (fun _ => FlagSum.cold) t.units.flags j = Tab.get (fun _ => FlagSum.cold) s.units.flags j) ∧
         SameButRun s t ∧ t.tiers = s.tiers ∧ t.host = s.host)) ∧
     (∀ v : W64, controls s f .budgetSet = true → v.toNat / 1024 % 2 = 0 → Completes (.budgetSet f v) s (fun t =>
       Tab.get (fun _ => 0) t.dealer.budgetSets (v.toNat % 1024) = BitVec.ofNat 32 (v.toNat / 2 ^ 32) ∧
       t.dealer.budgets = s.dealer.budgets ∧ t.tiers = s.tiers ∧ t.units = s.units)) ∧
     (∀ v : W64, controls s f .budgetSet = true → v.toNat / 1024 % 2 = 1 → Completes (.budgetSet f v) s (fun t =>
       t.dealer.budgetAll = some (BitVec.ofNat 32 (v.toNat / 2 ^ 32)) ∧ t.dealer.budgetSets = [] ∧
       t.dealer.budgets = s.dealer.budgets ∧ t.tiers = s.tiers ∧ t.units = s.units)) ∧
     (∀ v : W32, controls s f .refillConfig = true →
       exec (.refillConfigWrite f v) s = .next { s with dealer := { s.dealer with refillPeriod := BitVec.ofNat 24 v.toNat, refillCount := 0 } }) ∧
     (∀ v : W64, controls s f .pageConfig = true → s.dealer.phase = .idle → occupied s = [] → Completes (.pageConfigWrite f none v) s (fun t =>
       t.dealer.frameShare = BitVec.ofNat 16 v.toNat ∧ t.dealer.frames = frameCount t ∧ t.dealer.freeCount = t.dealer.frames ∧
       (0 < t.dealer.frames → t.dealer.freeHead = 0 ∧ t.dealer.freeTail + 1 = t.dealer.frames) ∧ t.dealer.pools = s.dealer.pools ∧
       t.tiers = s.tiers ∧ t.units = s.units)) ∧
     (∀ (d : Nat) (v : W64), d < 4 → controls s f (.pagePool d) = true → s.dealer.phase = .idle → occupied s = [] →
       Completes (.pageConfigWrite f (some d) v) s (fun t =>
         (pool t d).dram = BitVec.ofNat 16 v.toNat ∧ (pool t d).sram = BitVec.ofNat 16 (v.toNat / 2 ^ 16) ∧
         (pool t d).flash = BitVec.ofNat 16 (v.toNat / 2 ^ 32) ∧ (∀ e, e ≠ d → pool t e = pool s e) ∧ t.dealer.frameShare = s.dealer.frameShare ∧
         t.dealer.frames = frameCount t ∧ t.tiers = s.tiers)) ∧
     (∀ v : W64, controls s f .pageConfig = true → (s.dealer.phase ≠ .idle ∨ occupied s ≠ []) →
       exec (.pageConfigWrite f none v) s = .next (reject f 0x300320 s)))

/-- The warm reset request, and ENABLE and ENCRYPT of an Unlia port: each acts on its own port or reset and on nothing else. That a port
that cannot train stays DOWN is R330. -/
def Obligations.PortAndResetControls : Prop :=
  ∀ (f : Fn) (s : State),
    (∀ v : W32, controls s f .resetCtrl = true → v.getLsbD 0 = true → canWarm s = true → s.resets.warmHeld = false → s.resets.warmAt = none →
      Completes (.warmResetRequest f v) s (fun t => t.resets.warmAt = some s.tick ∧ t.resets.warmCauses = 2 ∧ t.resets.mgood = s.resets.mgood ∧
        t.dealer = s.dealer ∧ t.units = s.units ∧ t.tiers = s.tiers ∧ t.host = s.host)) ∧
    (∀ v : W32, controls s f .resetCtrl = true → v.getLsbD 0 = false → exec (.warmResetRequest f v) s = .next s) ∧
    (∀ u, u < 16 → controls s f (.portCtrl u) = true →
      Completes (.portEnableWrite f u false) s (fun t => (uport t u).enable = false ∧
        ((uport s u).enable = true → (uport t u).state = .disabled ∧ (uport t u).replay = []) ∧
        (∀ w, w ≠ u → uport t w = uport s w) ∧ t.dealer = s.dealer ∧ t.tiers = s.tiers ∧ t.unlia.routes = s.unlia.routes) ∧
      Completes (.portEnableWrite f u true) s (fun t => (uport t u).enable = true ∧
        ((uport s u).enable = false → (uport t u).state = if linkReady s u then .training else .down) ∧
        (∀ w, w ≠ u → uport t w = uport s w) ∧ t.dealer = s.dealer ∧ t.tiers = s.tiers ∧ t.unlia.routes = s.unlia.routes) ∧
      (∀ b, Completes (.portEncryptWrite f u b) s (fun t => (uport t u).encrypt = b ∧
        ((uport s u).encrypt ≠ b → (uport s u).state = .up → (uport t u).state = .training) ∧
        ((uport s u).state ≠ .up → (uport t u).state = (uport s u).state) ∧
        (∀ w, w ≠ u → uport t w = uport s w) ∧ t.dealer = s.dealer ∧ t.tiers = s.tiers ∧ t.unlia.routes = s.unlia.routes)))

/-- TWIN_CTRL, REPLAY_CTRL, DEBUG_CTRL and PIP_SELECT: each writes its own fields, or the write is rejected. REPLAY_CTRL and twin details
are the model's readings, log entries 40, 54 and 57. -/
def Obligations.TwinAndDebugControls : Prop :=
  ∀ (f : Fn) (s : State),
    (∀ v : W32, controls s f .twinCtrl = true → v.toNat / 2 % 256 ≠ 0 → v.getLsbD 9 = true → Completes (.twinResume f v) s (fun t =>
      t.conceal.mismatch = false ∧ t.conceal.matched = s.dealer.stepNumber ∧ t.conceal.armed = v.getLsbD 0 ∧
      t.conceal.window = BitVec.ofNat 8 (v.toNat / 2) ∧ t.dealer = s.dealer ∧ t.units = s.units ∧ t.tiers = s.tiers)) ∧
    (∀ v : W32, controls s f .twinCtrl = true → v.toNat / 2 % 256 ≠ 0 → v.getLsbD 9 = false → Completes (.twinResume f v) s (fun t =>
      t.conceal.mismatch = s.conceal.mismatch ∧ t.conceal.armed = v.getLsbD 0 ∧ t.conceal.window = BitVec.ofNat 8 (v.toNat / 2) ∧
      t.dealer = s.dealer ∧ t.units = s.units ∧ t.tiers = s.tiers)) ∧
    (∀ v : W32, controls s f .twinCtrl = true → v.toNat / 2 % 256 = 0 → exec (.twinResume f v) s = .next (reject f 0x4C0008 s)) ∧
    (∀ v : W64, controls s f .replayCtrl = true → exec (.replayUntilWrite f v) s =
      .next { s with conceal := { s.conceal with until_ := v, diverged := false } }) ∧
    (∀ v : W32, controls s f .debugCtrl = true →
      exec (.debugCtrlArm f v) s = .next (if s.glaren.unlocked.getLsbD 2 = true ∧ v.toNat % 128 ≤ 65
        then { s with glaren := { s.glaren with debugBlock := BitVec.ofNat 7 v.toNat, debugArm := v.getLsbD 7 } }
        else reject f 0x806004 s)) ∧
    (∀ (i : Nat) (v : W32), i < 4 → reaches s f (.pipSelect i) = true → pipOk s v.toNat = false →
      exec (.pipSelectWrite f i v) s = .next (reject f (0x806008 + 8 * i) s)) ∧
    (∀ (i : Nat) (v : W32), i < 4 → reaches s f (.pipSelect i) = true → pipOk s v.toNat = true → Completes (.pipSelectWrite f i v) s (fun t =>
      Tab.get (fun _ => Pip.cold) t.glaren.pips i = {
        group := BitVec.ofNat 8 v.toNat, bit := BitVec.ofNat 5 (v.toNat / 256), mode := BitVec.ofNat 2 (v.toNat / 8192),
        param := BitVec.ofNat 8 (v.toNat / 32768) } ∧
      (∀ j, j ≠ i → Tab.get (fun _ => Pip.cold) t.glaren.pips j = Tab.get (fun _ => Pip.cold) s.glaren.pips j) ∧ t.dealer = s.dealer ∧ t.host = s.host))

/-- Queue registers: the owner enables, flushes and rings its queue, another physical function's write is rejected; a disabled, drained
queue or a mark changes its owner within a port, or across ports by the holder. Marks: the owner adds, up to 2^64 - 1; an armed mark at
its threshold sends one message and disarms. Headers of FLUSHED records are operands (log entry 45). -/
def Obligations.QueuesAndMarks : Prop :=
  (∀ (f : Fn) (q : Nat) (s : State), q < 256 → reaches s f (.qCtrl q) = true → reaches s f (.ringHost q 0) = true →
     ((queue s q).owner = f →
       Completes (.qEnable f q false) s (fun t => queue t q = { queue s q with enable := false, waiting := false } ∧
         (∀ k, k ≠ q → queue t k = queue s k) ∧ t.dealer = s.dealer ∧ t.out = s.out) ∧
       ((queue s q).enable = false → sizeOk (queue s q).sqSize.toNat = true → sizeOk (queue s q).cqSize.toNat = true →
         sizeOk (queue s q).orSize.toNat = true →
         Completes (.qEnable f q true) s (fun t =>
           queue t q = { queue s q with enable := true, error := false, cause := 0, passBase := (queue s q).cqTail } ∧
           (∀ k, k ≠ q → queue t k = queue s k) ∧ t.dealer = s.dealer ∧ t.out = s.out)) ∧
       ((queue s q).enable = false → sizeOk (queue s q).cqSize.toNat = false →
         Completes (.qEnable f q true) s (fun t => (queue t q).error = true ∧ (queue t q).cause = 1)) ∧
       (∀ tail, Completes (.sqDoorbell f q tail) s (fun t => queue t q = { queue s q with sqTail := tail } ∧
         (∀ k, k ≠ q → queue t k = queue s k) ∧ t.dealer = s.dealer ∧ t.out = s.out)) ∧
       (∀ hdrs, hdrs.length = ((queue s q).sqTail - (queue s q).sqHead).toNat → (queue s q).error = false → (queue s q).cqSize ≠ 0 →
         Completes (.qFlush f q hdrs) s (fun t => (queue t q).sqHead = (queue s q).sqTail ∧
           (queue t q).cqTail = (queue s q).cqTail + ((queue s q).sqTail - (queue s q).sqHead) ∧ (queue t q).inFlight = (queue s q).inFlight ∧
           (∀ k, k ≠ q → queue t k = queue s k) ∧ t.host.marks = s.host.marks ∧ t.dealer = s.dealer ∧ t.tiers = s.tiers ∧
           (∀ h, hdrs = [h] → Reported (nextTicket s q h) Status.flushed 0 s t)))) ∧
     ((queue s q).owner ≠ f →
       (∀ b, exec (.qEnable f q b) s = .next (reject f (0x100000 + 0x1000 * q) s)) ∧
       (∀ hdrs, exec (.qFlush f q hdrs) s = .next (reject f (0x100000 + 0x1000 * q) s)) ∧
       (∀ tail, exec (.sqDoorbell f q tail) s = .next (reject f (0x100018 + 0x1000 * q) s))) ∧
     (∀ new, mayGive s f (queue s q).owner new = true → (queue s q).enable = false → (queue s q).inFlight = 0 →
       Completes (.qOwnerChange f false q new) s (fun t => queue t q = { queue s q with owner := new } ∧
         (∀ k, k ≠ q → queue t k = queue s k) ∧ t.host.marks = s.host.marks ∧ t.dealer = s.dealer ∧ t.out = s.out)) ∧
     (∀ new, (mayGive s f (queue s q).owner new = false ∨ (queue s q).enable = true ∨ (queue s q).inFlight ≠ 0) →
       exec (.qOwnerChange f false q new) s = .next (reject f (0x100000 + 0x1000 * q) s)) ∧
     (∀ m new, m < 4096 → reaches s f (.markOwner m) = true → mayGive s f (mark s m).owner new = true → (mark s m).armed = false →
       Completes (.qOwnerChange f true m new) s (fun t => mark t m = { mark s m with owner := new } ∧
         (∀ k, k ≠ m → mark t k = mark s k) ∧ t.host.queues = s.host.queues ∧ t.dealer = s.dealer ∧ t.out = s.out))) ∧
  (∀ (f : Fn) (m : Nat) (s : State), m < 4096 →
     (∀ n, reaches s f (.markAdd m) = true → (mark s m).owner = f → n ≠ 0 → Completes (.markAdd f m n) s (fun t =>
       (mark t m).value = markSum (mark s m).value n.toNat ∧ (∀ k, k ≠ m → mark t k = mark s k) ∧ t.dealer = s.dealer ∧ t.tiers = s.tiers ∧
       t.host.queues = s.host.queues ∧
       ((mark s m).armed = true → (mark s m).notifyAt ≤ markSum (mark s m).value n.toNat → (portSt s f.port).linkUp = true →
         (mark t m).armed = false ∧ t.out = s.out ++ [.msix f (mark s m).vector.toNat]) ∧
       ((mark s m).armed = false → (mark t m).armed = false ∧ t.out = s.out))) ∧
     (∀ n, reaches s f (.markAdd m) = true → ((mark s m).owner ≠ f ∨ n = 0) →
       exec (.markAdd f m n) s = .next (reject f (0x200008 + 0x40 * m) s)) ∧
     (∀ v : W32, reaches s f (.markNotify m) = true → v.toNat / 2 % 64 < vectorsOf (mark s m).owner → v.getLsbD 0 = true →
       Completes (.markNotifyArm f m v) s (fun t =>
         (mark t m).vector = BitVec.ofNat 6 (v.toNat / 2) ∧ (mark t m).value = (mark s m).value ∧ (∀ k, k ≠ m → mark t k = mark s k) ∧
         t.dealer = s.dealer ∧ t.tiers = s.tiers ∧
         ((mark s m).value < (mark s m).notifyAt → (mark t m).armed = true ∧ t.out = s.out) ∧
         ((mark s m).notifyAt ≤ (mark s m).value → (mark t m).armed = false))) ∧
     (∀ v : W32, reaches s f (.markNotify m) = true → vectorsOf (mark s m).owner ≤ v.toNat / 2 % 64 →
       exec (.markNotifyArm f m v) s = .next (reject f (0x200020 + 0x40 * m) s)))

/-- BAR2: a write lands at the window's base plus its offset, byte by byte, and nowhere else; a read answers the bytes there; an access
that the window does not serve has no effect. BAR2_WINDOW takes only a base whose window lies in one view. Windows, misses and the view
are the model's readings, log entry 46. -/
def Obligations.Bar2Accesses : Prop :=
  ∀ (p : Port) (s : State),
    (∀ o data, barOpen s p o data.length = true →
      sramEnd ≤ barAddr s p o → (∀ x ∈ lineParts (data.length + 1) (barAddr s p o) data, roShared s (x.1 / 256 * 256) 256 = false ∧ addrShut s x.1 = false) →
      Completes (.bar2Write p o data) s (fun t =>
        t.tiers.mem = writeBytes s.tiers.mem (barAddr s p o) data ∧ t.tiers.objects = s.tiers.objects ∧ t.dealer = s.dealer ∧
        t.units = s.units ∧ t.host = s.host ∧ t.out = s.out)) ∧
    (∀ o data, barOpen s p o data.length = false → exec (.bar2Write p o data) s = .next s) ∧
    (∀ o n, barOpen s p o n = true → addrShut s (barAddr s p o) = false →
      (objectsIn s (barAddr s p o) n).any (fun e => decide (e.2.poison = .poisoned)) = false → barFaults s (barAddr s p o) n false = [] →
      (rangeLines (barAddr s p o) n).any (lineInRepair s) = false →
      Completes (.bar2Read p o n false) s (fun t =>
        t.out = s.out ++ [.barData p (readBytes s.tiers.mem (barAddr s p o) n) false] ∧ SameMemory s t ∧ t.dealer = s.dealer ∧ t.host = s.host)) ∧
    (∀ o n, barOpen s p o n = true → addrShut s (barAddr s p o) = true →
      exec (.bar2Read p o n false) s = .next { s with out := s.out ++ [.abort p] }) ∧
    (∀ o n bad, barOpen s p o n = false → exec (.bar2Read p o n bad) s = .next s) ∧
    (∀ r rest, (portSt s p).barReads = r :: rest → 10000 ≤ (s.tick - r.since).toNat → Completes (.bar2ReadTimeout p) s (fun t =>
      t.out = s.out ++ [.barData p (readBytes s.tiers.mem r.addr r.length) true] ∧ (portSt t p).barReads = rest ∧ t.tiers = s.tiers ∧
      t.dealer = s.dealer)) ∧
    (∀ (f : Fn) (v : W64), reaches s f .bar2Window = true → windowOk (v.toNat / 2 ^ 30 % 2 ^ 18) (portSt s f.port).bar2Log2 = true →
      Completes (.bar2WindowWrite f v) s (fun t => (portSt t f.port).base = BitVec.ofNat 18 (v.toNat / 2 ^ 30) ∧
        portSt t (Port.other f.port) = portSt s (Port.other f.port) ∧ t.tiers = s.tiers ∧ t.out = s.out)) ∧
    (∀ (f : Fn) (v : W64), reaches s f .bar2Window = true → windowOk (v.toNat / 2 ^ 30 % 2 ^ 18) (portSt s f.port).bar2Log2 = false →
      exec (.bar2WindowWrite f v) s = .next (reject f 0x10038 s))

/-- A block reset: at once, or at the next boundary; its hold, its clock and its initialisation follow, after which the block is open. What
a reset of a block clears is the model's reading, log entry 52. -/
def Obligations.BlockResets : Prop :=
  ∀ (b : Nat) (s : State), b < 66 →
    (∀ (f : Fn) (v : W32), controls s f .blockReset = true → v.toNat % 128 = b → b < 64 → v.getLsbD 7 = false → (block s b).state = .open_ →
      Completes (.blockReset f v) s (fun t => (block t b).state = .pending ∧ (∀ c, c ≠ b → block t c = block s c) ∧ t.units = s.units ∧
        t.dealer = s.dealer ∧ t.host = s.host ∧ t.out = s.out)) ∧
    (∀ (f : Fn) (v : W32), controls s f .blockReset = true → v.toNat % 128 = b → b < 32 → v.getLsbD 7 = true → (block s b).state = .open_ →
      s.dealer.run = none → s.host.ops = [] → s.dealer.building = none → Completes (.blockReset f v) s (fun t => (block t b).state = .inReset ∧
        (∀ c, c ≠ b → block t c = block s c) ∧
        Tab.get (fun _ => FlagSum.cold) t.units.flags b = FlagSum.cold ∧ (∀ k, k ≠ b → Tab.get (fun _ => FlagSum.cold) t.units.flags k = Tab.get (fun _ => FlagSum.cold) s.units.flags k) ∧
        SameMemory s t)) ∧
    (overrideArmed s b = false → Completes (.blockResetHoldEnd b) s (fun t =>
      (block t b).state = (if (block s b).state = .inReset then .waitClock else (block s b).state) ∧ (∀ c, c ≠ b → block t c = block s c) ∧
      t.units = s.units ∧ t.dealer = s.dealer ∧ t.out = s.out)) ∧
    (overrideArmed s b = true → (block s b).state = .inReset → Completes (.blockResetHoldEnd b) s (fun t =>
      (block t b).state = .fenced ∧ (block t b).early = true ∧ t.glaren.debugArm = false ∧ (∀ c, c ≠ b → block t c = block s c))) ∧
    Completes (.blockClockStable b) s (fun t =>
      (block t b).state = (if (block s b).state = .waitClock then .init else (block s b).state) ∧ (∀ c, c ≠ b → block t c = block s c) ∧
      t.units = s.units ∧ t.dealer = s.dealer ∧ t.out = s.out) ∧
    ((block s b).state = .init → Completes (.blockInitDone b) s (fun t =>
      (block t b).state = .open_ ∧ (block t b).resets = satInc (block s b).resets ∧ (∀ c, c ≠ b → block t c = block s c) ∧ t.dealer.due = true))

/-- Any register: a write outside the map does nothing; a read answers the register's value, then clears what reads clear, and nothing
else; a 64-bit register written or read in halves is written and read as one. Which functions reach which registers is the model's
reading, log entry 61. -/
def Obligations.RegisterAccess : Prop :=
  ∀ (f : Fn) (s : State),
    (∀ o v, regAt o = none → exec (.registerWrite f o v) s = .next s) ∧
    (∀ o r v, regAt o = some r → reaches s f r = false → exec (.registerWrite f o v) s = .next s) ∧
    (∀ o r v, regAt o = some r → reaches s f r = true → exec (.registerWrite f o v) s =
      .next (regWrite f o r (if r.narrow then v &&& 0xFFFFFFFF else v) s)) ∧
    (∀ v : W64, reaches s f .eventStatus = true → Completes (.registerWrite f 0x10018 v) s (fun t =>
      (portSt t f.port).events = (portSt s f.port).events &&& ~~~(BitVec.ofNat 12 v.toNat) ∧
      portSt t (Port.other f.port) = portSt s (Port.other f.port) ∧ t.dealer = s.dealer ∧ t.tiers = s.tiers ∧ t.out = s.out)) ∧
    (∀ o, Completes (.readClear f o) s (fun t => t.out = s.out ++ [.regValue f o (readAt s f o)] ∧ SameMemory s t ∧ t.units = s.units ∧
      t.host.queues = s.host.queues ∧ t.host.marks = s.host.marks ∧
      (∀ i, i < 5 → reaches s f (.endCount i) = true → o = 0x300360 + 8 * i → Tab.get zero64 t.dealer.ends i = 0))) ∧
    (∀ o r lo hi, regAt o = some r → r.narrow = false → regAt (o + 4) = none → Completes (.reg64HalfAccess f o (some lo)) s (fun t =>
      t.dealer = s.dealer ∧ t.tiers = s.tiers ∧ t.out = s.out ∧
      exec (.reg64HalfAccess f (o + 4) (some hi)) t =
        exec (.registerWrite f o (BitVec.ofNat 64 (lo.toNat + 2 ^ 32 * hi.toNat)))
          (setPort f.port (fun x => { x with latchLo := Tab.drop (latchKey f o) x.latchLo }) t))) ∧
    (∀ o r, regAt o = some r → r.narrow = false → regAt (o + 4) = none → Completes (.reg64HalfAccess f o none) s (fun t =>
      t.out = s.out ++ [.regValue f o (BitVec.ofNat 64 ((readAt s f o).toNat % 2 ^ 32))] ∧
      Completes (.reg64HalfAccess f (o + 4) none) t (fun u =>
        u.out = t.out ++ [.regValue f (o + 4) (BitVec.ofNat 64 ((readAt s f o).toNat / 2 ^ 32))] ∧ u.dealer = t.dealer))) ∧
    (∀ o r v, regAt o = some r → r.narrow = true → (o < 4 ∨ regAt (o - 4) = none) →
      exec (.reg64HalfAccess f o (some v)) s = exec (.registerWrite f o (v.zeroExtend 64)) s ∧
      exec (.reg64HalfAccess f o none) s = exec (.readClear f o) s)

/-- A boundary that is due runs, is counted with its R30 length, applies the pending phase, and ends in one of four ways: a launch of the
next step number, a launch held for the governor, a learning boundary that waits for its ply-run command, an idle boundary. While no
boundary is due and none stands before its step 6, BOUNDARY changes nothing; 1,000 ticks after an idle boundary the next is due. That a
learning boundary may stand before its step 6 is the model's choice, log entry 28. -/
def Obligations.BoundariesRun : Prop :=
  (∀ (s : State), boundaryDue s = true → Completes .boundary s (fun t =>
     t.counters.boundaries = s.counters.boundaries + 1 ∧
     t.counters.boundaryAc = s.counters.boundaryAc + BitVec.ofNat 64 (2400 + 14 * (occupied s).length) ∧
     t.dealer.phase = nextPhase s ∧ t.dealer.pending = none ∧
     ((∃ r, t.dealer.run = some r ∧ r.step = s.dealer.stepNumber + 1 ∧ t.dealer.stepNumber = s.dealer.stepNumber + 1 ∧ t.dealer.idle = false) ∨
       (t.dealer.held.isSome = true ∧ t.dealer.run = none ∧ t.dealer.stepNumber = s.dealer.stepNumber) ∨
       (t.dealer.midway = true ∧ t.dealer.run = none ∧ t.dealer.stepNumber = s.dealer.stepNumber) ∨
       (t.dealer.idle = true ∧ t.dealer.run = none ∧ t.dealer.stepNumber = s.dealer.stepNumber ∧
         t.counters.idleBoundaries = s.counters.idleBoundaries + 1)))) ∧
  (∀ (s : State),
     (boundaryDue s = false → boundaryOpen s = false → exec .boundary s = .next s) ∧
     (s.dealer.idle = true → 1000 ≤ (s.tick - s.dealer.idleSince).toNat →
       exec .idleBoundaryTimeout s = .next { s with dealer := { s.dealer with due := true } }) ∧
     ((s.tick - s.dealer.idleSince).toNat < 1000 → exec .idleBoundaryTimeout s = .next s))

/-- A launch held for the governor starts its step once the standby PLL is stable, at that frequency, with the ac held after the 64 of its
slot counted; or, once 250,000 ac have passed since step 6, at the frequency in force, with FREQ_CANCELLED. Where the dealers have
stopped launching meanwhile the boundary ends as an idle one. The two events that settle a change are the model's reading, log entry
47. -/
def Obligations.HeldLaunches : Prop :=
  (∀ (h : Held) (s : State), s.dealer.held = some h → launchStopped s h = false →
    (govAcLow s h < 250000 → Completes .govConfirm s (fun t =>
      (∃ r, t.dealer.run = some r ∧ r.step = s.dealer.stepNumber + 1 ∧ r.ply = h.ply ∧ r.freqChanged = true ∧ r.freqCancelled = false ∧
        govAcLow s h ≤ r.govHold + 64 ∧ r.govHold + 64 ≤ govAcHigh s h ∧ r.govHold ≤ 249936) ∧
      t.dealer.held = none ∧ t.dealer.stepNumber = s.dealer.stepNumber + 1 ∧ t.dealer.lastPly = h.ply.plyId ∧
      t.glaren.freq = s.glaren.standby ∧ t.dealer.phase = s.dealer.phase ∧ t.units.side = s.units.side)) ∧
    (250000 < govAcHigh s h → Completes .govConfirmTimeout s (fun t =>
      (∃ r, t.dealer.run = some r ∧ r.step = s.dealer.stepNumber + 1 ∧ r.ply = h.ply ∧ r.freqChanged = false ∧ r.freqCancelled = true ∧
        r.govHold = 249936) ∧
      t.dealer.held = none ∧ t.dealer.stepNumber = s.dealer.stepNumber + 1 ∧ t.dealer.lastPly = h.ply.plyId ∧
      t.glaren.freq = s.glaren.freq ∧ t.dealer.phase = s.dealer.phase ∧ t.units.side = s.units.side))) ∧
  (∀ (h : Held) (s : State), s.dealer.held = some h → govAcHigh s h ≤ 250000 → exec .govConfirmTimeout s = .next s) ∧
  (∀ (h : Held) (s : State), s.dealer.held = some h → s.dealer.run = none → launchStopped s h = true → Completes .govConfirm s (fun t =>
    t.dealer.run = none ∧ t.dealer.held = none ∧ t.dealer.idle = true ∧ t.dealer.stepNumber = s.dealer.stepNumber ∧
    t.counters.idleBoundaries = s.counters.idleBoundaries + 1)) ∧
  (∀ (s : State), s.dealer.held = none →
    exec .govConfirm s = .next { s with glaren := { s.glaren with standbyStable := true } } ∧ exec .govConfirmTimeout s = .next s)

/-- The end of a step whose programs have all ended: LAST_STEP says its number and its ac, the step digest is made, the next boundary is
due, a learning step's command completes with its step number; memory keeps what the step wrote. PLY_ABORT stops every program of a
step with an abort and discards what would land at or after it; with no stream or collective of it left the abandoned step ends with
digest 0, LAST_STEP marked, and its command completed with ABANDONED. That an abort takes back what had not landed is log entry 7. -/
def Obligations.StepsEnd : Prop :=
  (∀ (r : Run) (s : State), s.dealer.run = some r → r.stopped = false → r.abortAc = none → r.progs.all (progDone r) = true →
     Completes .stepEnd s (fun t =>
       t.dealer.run = none ∧ t.dealer.due = true ∧ t.dealer.abandoned = false ∧ t.dealer.lastBatch = r.batch ∧
       t.dealer.stepNumber = s.dealer.stepNumber ∧ t.counters.lastNumber = r.step ∧ t.counters.lastAbandoned = false ∧
       t.counters.lastAc = BitVec.ofNat 64 (r.progs.foldl (fun a e => max a (progEnd e.2)) 0) ∧
       t.conceal.stepDigest = stepDigest r ∧ SameMemory s t ∧ t.units = s.units ∧
       (∀ k, r.ticket = some k → (queue s k.q).error = false → (queue s k.q).cqSize ≠ 0 →
         ∃ pre fl addr rest, t.out = pre ++ .completion k.q k.hdr.tag (BitVec.ofNat 16 k.index.toNat) Status.ok fl r.step addr :: rest))) ∧
  ((∀ (r : Run) (a : Nat) (s : State), s.dealer.run = some r → r.abortAc = some a → r.stopped = false → Completes .plyAbort s (fun t =>
     (∃ r', t.dealer.run = some r' ∧ r'.stopped = true ∧ r'.abortAc = some a ∧ r'.step = r.step ∧ r'.signals = [] ∧ r'.drains = [] ∧
       r'.trees = []) ∧
     t.tiers.mem = restoreWrites a r.writes s.tiers.mem ∧ t.tiers.objects = s.tiers.objects ∧ t.unlia = s.unlia ∧
     t.dealer.stepNumber = s.dealer.stepNumber ∧ t.dealer.phase = s.dealer.phase)) ∧
   (∀ (r : Run) (a : Nat) (s : State), s.dealer.run = some r → r.abortAc = some a → r.stopped = true → stepExternal s = false →
     r.extDst = [] → Completes .stepEnd s (fun t =>
       t.dealer.run = none ∧ t.dealer.due = true ∧ t.dealer.abandoned = true ∧ t.counters.lastAbandoned = true ∧
       t.counters.lastAc = BitVec.ofNat 64 a ∧ t.counters.lastExcess = 0 ∧ t.conceal.stepDigest = 0 ∧ SameMemory s t ∧
       (∀ k, r.ticket = some k → (queue s k.q).error = false → (queue s k.q).cqSize ≠ 0 →
         ∃ pre fl addr rest, t.out = pre ++ .completion k.q k.hdr.tag (BitVec.ofNat 16 k.index.toNat) Status.abandoned fl 0 addr :: rest))) ∧
   (∀ (r : Run) (s : State), s.dealer.run = some r → r.stopped = true → stepExternal s = true → exec .stepEnd s = .next s))

/-- The faults that no instruction's issue raises: a deadlock, a missing tree partner, an overdue wait. A SIGNAL that arrives adds 1 to its
EXACT wait point and to no other; at an EXTERNAL one it is WP_KIND. An external completion adds 1 to the EXTERNAL wait point of its own
source in every program that it names. The beginning of a deadlock and the PC of WP_KIND are the model's readings, log entries 26 and
27. -/
def Obligations.StepFaultsAndWaitPoints : Prop :=
  (∀ (r : Run) (s : State), s.dealer.run = some r → r.abortAc = none → s.dealer.fault.valid = false →
     (∀ e, deadlocked s r = true → r.progs.find? (heldProg s r) = some e →
       Completes .deadlockDetect s (Faulted r FaultCode.deadlock e.1 (deadlockBegin r + 64) e.2.pc)) ∧
     (∀ k x, k < 32 → r.trees = [x] → x.waiting = true → x.cluster = k →
       Completes (.treePartnerTimeout k) s (Faulted r FaultCode.treePartner k (x.issued + 4096) x.pc)) ∧
     (∀ p w a src, p < 36 → (prog r p).hold = some { wp := some w, since := a } → waitKind r w = some (1, src) → (src = 1 ∨ src = 2) →
       Completes (.waitTimeout p) s (Faulted r FaultCode.waitTimeout p (a + s.dealer.waitBound.toNat * 1024 + 1) (prog r p).pc)) ∧
     (∀ p w a src, p < 36 → (prog r p).hold = some { wp := some w, since := a } → waitKind r w = some (1, src) → src ≠ 1 → src ≠ 2 →
       exec (.waitTimeout p) s = .next s)) ∧
  ((∀ (r : Run) (n : Nat) (g : Signal) (src : Byte) (s : State), s.dealer.run = some r → r.signals[n]? = some g → r.abortAc = none →
     waitKind r g.wp = some (0, src) → Completes (.signalArrival n) s (fun t => ∃ r', t.dealer.run = some r' ∧
       (waitPt (prog r' g.prog) g.wp).arrivals.length = (waitPt (prog r g.prog) g.wp).arrivals.length + 1 ∧
       (∀ w, w ≠ g.wp → waitPt (prog r' g.prog) w = waitPt (prog r g.prog) w) ∧ (∀ q, q ≠ g.prog → prog r' q = prog r q) ∧
       r'.signals = r.signals.eraseIdx n ∧ SameButRun s t ∧ t.units = s.units ∧ t.tiers = s.tiers ∧ t.host = s.host)) ∧
   (∀ (r : Run) (n : Nat) (g : Signal) (src : Byte) (s : State), s.dealer.run = some r → r.signals[n]? = some g → r.abortAc = none →
     s.dealer.fault.valid = false → waitKind r g.wp = some (1, src) →
     Completes (.signalArrival n) s (Faulted r FaultCode.wpKind g.prog g.arrival.ac (prog r g.prog).pc)) ∧
   (∀ (r : Run) (op die wp source ac crossing p : Nat) (src : Byte) (x : Crossing) (segs : List CauseSpan) (s : State), s.dealer.run = some r →
     r.stopped = false → opAt s op = some (.ext die x [p] wp source segs false none) → x.takes r.freq crossing = true →
     waitKind r wp = some (1, src) → src.toNat = source →
     Completes (.externalCompletion op ac crossing) s (fun t => opAt t op = none ∧ ∃ r', t.dealer.run = some r' ∧
       (waitPt (prog r' p) wp).arrivals.length = (waitPt (prog r p) wp).arrivals.length + 1 ∧
       (waitPt (prog r' p) wp).failed = (waitPt (prog r p) wp).failed ∧
       (∀ w, w ≠ wp → waitPt (prog r' p) w = waitPt (prog r p) w) ∧ (∀ q, q ≠ p → prog r' q = prog r q) ∧ SameButRun s t ∧
       t.units = s.units ∧ t.tiers = s.tiers)))

/-- MMA_BANK_COMPLETE: a bank's drain writes the tile row by row at its destination and nowhere else; a TREE drain waits for its ETREE; no
drain writes nothing. -/
def Obligations.BankDrains : Prop :=
  ∀ (r : Run) (d : Drain) (s : State), s.dealer.run = some r → r.stopped = false → r.drains = [d] → d.complete = false → d.cluster < 32 →
    (d.action = 0 → Completes (.mmaBankComplete d.cluster d.engine d.bank) s (fun t =>
      (∃ r', t.dealer.run = some r' ∧ r'.drains = []) ∧ SameMemory s t ∧ t.units = s.units)) ∧
    (d.action = 3 → Completes (.mmaBankComplete d.cluster d.engine d.bank) s (fun t =>
      (∃ r', t.dealer.run = some r' ∧ r'.drains = [{ d with complete := true }]) ∧ SameMemory s t ∧ t.units = s.units)) ∧
    ((d.action = 1 ∨ d.action = 2) → Completes (.mmaBankComplete d.cluster d.engine d.bank) s (fun t =>
      let fmt : Fmt := if d.action = 2 then .bf16 else .fp32
      (∃ r', t.dealer.run = some r' ∧ r'.drains = []) ∧
      t.tiers.mem = ((rowsOf 64 d.tile).map (fun w => (encodeRow fmt d.sat (w.map f32)).1)).zipIdx.foldl
        (fun m e => writeBytes m (d.dest + fmt.rowBytes * e.2) e.1) s.tiers.mem ∧
      t.tiers.objects = s.tiers.objects ∧ t.units.bank = s.units.bank ∧ t.units.buf = s.units.buf ∧ t.host = s.host ∧ t.unlia = s.unlia))

/-- Issue of every instruction: gated off it takes 1 ac and does nothing else; a single-bit error of its program store is counted and
leaves its effect as it is, a double-bit error is STORE_ECC; past the end of its program it is PC_RANGE, a word that decodes to nothing
is ILLEGAL; before any other instruction the row does nothing, and so does one that would issue at or after the abort. That an event
row takes place only for the program's next instruction is the model's choice, log entry 6. -/
def Obligations.InstructionIssue : Prop :=
  (∀ (i : Issue) (c : Common) (x : Insn) (row : Instr) (r : Run) (s : State), insnRow i c x = some row → i.prog < 36 →
    s.dealer.run = some r →
    (AtInsn s r i c x → gatedOff r c = true → i.ecc = .clean →
      Completes row s (fun t => Advanced r i.prog t ∧
        (∃ r', t.dealer.run = some r' ∧ (prog r' i.prog).ready = (prog r i.prog).ready + 1) ∧
        OnlyStep s t ∧ t.units = s.units ∧ t.tiers = s.tiers ∧ t.counters = s.counters)) ∧
    (canIssue r i.prog = false → exec row s = .next s) ∧
    (∀ c' x', AtInsn s r i c' x' → (c', x') ≠ (c, x) → i.ecc = .clean → exec row s = .next s) ∧
    (canIssue r i.prog = true → r.abortAc = none → s.dealer.fault.valid = false →
      ((prog r i.prog).code[(prog r i.prog).pc]? = none →
        Completes row s (Faulted r FaultCode.pcRange i.prog (prog r i.prog).ready (prog r i.prog).pc)) ∧
      (∀ w, (prog r i.prog).code[(prog r i.prog).pc]? = some w → i.ecc = .storeDouble →
        Completes row s (Faulted r FaultCode.storeEcc i.prog (prog r i.prog).ready (prog r i.prog).pc)) ∧
      (∀ w, (prog r i.prog).code[(prog r i.prog).pc]? = some w → decodeFor i.prog w = none → i.ecc ≠ .storeDouble →
        Completes row s (Faulted r FaultCode.illegal i.prog (prog r i.prog).ready (prog r i.prog).pc))) ∧
    (∀ a, r.abortAc = some a → AtInsn s r i c x → i.ecc = .clean →
      Completes row s (fun t => t = s ∨ ∀ r', t.dealer.run = some r' → (prog r' i.prog).issued < a))) ∧
  (∀ (p : Nat) (c : Common) (x : Insn) (row counted : Instr) (r : Run) (s : State),
    insnRow { prog := p, ecc := .clean } c x = some row → insnRow { prog := p, ecc := .storeSingle } c x = some counted →
    AtInsn s r { prog := p, ecc := .clean } c x → r.abortAc = none → exec counted s = exec row (onchipCorrected (dieOf p) 1 s))

/-- LDA, LDB, LDAT and LDBT: the panel, transposed or not, stands in the named half of every engine of the mask, tagged with its format;
every other byte of the buffers, and all memory, is unchanged. What keeps a load from its panel: a transposed format with no
transposition is OPERAND_FORMAT, a transposed read that is not whole tiles from a 64-byte line is ALIGN, a range outside the half or
the die's SRAM ADDR_RANGE; the buffers keep what they hold. ACCLD, FILL and PARLD: the bytes stand in the bank of each engine of the
mask, in side memory with their tags, in the parameter buffer; every other byte of that store is unchanged. Effects at issue are log
entry 7; SPILL and FILL offsets and unused fields are log entry 22. -/
def Obligations.SramLoads : Prop :=
  (∀ (i : Issue) (c : Common) (f : MoveF) (r : Run) (s : State),
     let p := i.prog
     let pr := prog r p
     let n := f.bytes.toNat
     let src := wrap48 (areg pr f.sreg.toNat)
     let off := f.wide.toNat % 65536
     let e := transposedSize f.fmt.toNat
     let loads (row : Instr) (op : BitVec 4) (side : Nat) (panel : List Byte) := RunsOn s r i c (.move op f) → Completes row s (fun t =>
       (∀ je ∈ maskEngines s p f.mask, ∀ j, j < n →
         Tab.get emptyByte t.units.buf (65536 * halfIdx je.2 side f.half.toNat + off + j) = (panel[j]?).getD 0) ∧
       (∀ je ∈ maskEngines s p f.mask, natAt t.units.bufFmt (halfIdx je.2 side f.half.toNat) = f.fmt.toNat + 1) ∧
       (∀ a, (∀ je ∈ maskEngines s p f.mask, a < 65536 * halfIdx je.2 side f.half.toNat + off ∨
         65536 * halfIdx je.2 side f.half.toNat + off + n ≤ a) → Tab.get emptyByte t.units.buf a = Tab.get emptyByte s.units.buf a) ∧
       t.units.bank = s.units.bank ∧ t.units.side = s.units.side ∧ t.units.param = s.units.param ∧ t.units.grad = s.units.grad ∧
       t.units.flags = s.units.flags ∧ Advanced r p t ∧ OnlyStep s t ∧ SameMemory s t ∧ t.tiers.objects = s.tiers.objects ∧
       t.counters = s.counters)
     off + n ≤ 65536 → canRead (dieOf p) src n = true →
     loads (.lda i c f) 0 0 (readBytes s.tiers.mem src n) ∧ loads (.ldb i c f) 1 1 (readBytes s.tiers.mem src n) ∧
     (f.fmt.toNat < 3 → n % (4096 * e) = 0 → src % 64 = 0 →
       loads (.ldat i c f) 2 0 (transposePanel e (n / (4096 * e)) (readBytes s.tiers.mem src n)) ∧
       loads (.ldbt i c f) 3 1 (transposePanel e (n / (4096 * e)) (readBytes s.tiers.mem src n)))) ∧
  (∀ (i : Issue) (c : Common) (f : MoveF) (r : Run) (s : State), r.abortAc = none → s.dealer.fault.valid = false →
     let p := i.prog
     let pr := prog r p
     let n := f.bytes.toNat
     let src := wrap48 (areg pr f.sreg.toNat)
     let off := f.wide.toNat % 65536
     let stops (row : Instr) (op : BitVec 4) (code : Nat) := Runs s r i c (.move op f) → Completes row s (fun t =>
       (∃ ac, Faulted r code p ac pr.pc t) ∧ t.units = s.units ∧ t.tiers = s.tiers)
     (3 ≤ f.fmt.toNat → stops (.ldat i c f) 2 FaultCode.operandFormat ∧ stops (.ldbt i c f) 3 FaultCode.operandFormat) ∧
     (f.fmt.toNat < 3 → (n % (4096 * transposedSize f.fmt.toNat) ≠ 0 ∨ src % 64 ≠ 0) →
       stops (.ldat i c f) 2 FaultCode.align ∧ stops (.ldbt i c f) 3 FaultCode.align) ∧
     ((65536 < off + n ∨ canRead (dieOf p) src n = false) → stops (.lda i c f) 0 FaultCode.addrRange ∧ stops (.ldb i c f) 1 FaultCode.addrRange)) ∧
  (∀ (i : Issue) (c : Common) (f : MoveF) (r : Run) (s : State),
     let p := i.prog
     let pr := prog r p
     let n := f.bytes.toNat
     let src := wrap48 (areg pr f.sreg.toNat)
     let off := f.wide.toNat % 65536
     let bytes := readBytes s.tiers.mem src n
     let rest (t : State) := t.units.buf = s.units.buf ∧ t.units.grad = s.units.grad ∧ t.units.flags = s.units.flags ∧ Advanced r p t ∧
       OnlyStep s t ∧ SameMemory s t ∧ t.tiers.objects = s.tiers.objects ∧ t.counters = s.counters
     canRead (dieOf p) src n = true →
     (RunsOn s r i c (.move 4 f) → off + n ≤ 16384 →
       (∀ je ∈ maskEngines s p f.mask, treeHolds s r (bankIdx je.2 f.bank.toNat) = false) → Completes (.accld i c f) s (fun t =>
         (∀ je ∈ maskEngines s p f.mask, natAt t.units.bankHas (bankIdx je.2 f.bank.toNat) = 2 ∧
           ∀ j, j < n → Tab.get emptyByte t.units.bank (16384 * bankIdx je.2 f.bank.toNat + off + j) = (bytes[j]?).getD 0) ∧
         (∀ a, (∀ je ∈ maskEngines s p f.mask, a < 16384 * bankIdx je.2 f.bank.toNat + off ∨
           16384 * bankIdx je.2 f.bank.toNat + off + n ≤ a) → Tab.get emptyByte t.units.bank a = Tab.get emptyByte s.units.bank a) ∧
         t.units.side = s.units.side ∧ t.units.param = s.units.param ∧ rest t)) ∧
     (RunsOn s r i c (.move 6 f) → off + n ≤ 262144 → Completes (.fill i c f) s (fun t =>
         (∀ j, j < n → Tab.get emptyByte t.units.side (262144 * p + off + j) = (bytes[j]?).getD 0) ∧
         (∀ a, (a < 262144 * p + off ∨ 262144 * p + off + n ≤ a) → Tab.get emptyByte t.units.side a = Tab.get emptyByte s.units.side a) ∧
         (∀ j, off / 8 ≤ j → j < (off + n + 7) / 8 →
           Tab.get emptyByte t.units.sideTag (65536 * p + 2 * j) = BitVec.ofNat 8 f.tagWp.toNat ∧
           Tab.get emptyByte t.units.sideTag (65536 * p + 2 * j + 1) = BitVec.ofNat 8 (f.tagWp.toNat / 256)) ∧
         t.units.bank = s.units.bank ∧ t.units.param = s.units.param ∧ rest t)) ∧
     (RunsOn s r i c (.move 7 f) → off + n ≤ 65536 → Completes (.parld i c f) s (fun t =>
         (∀ j, j < n → Tab.get emptyByte t.units.param (65536 * p + off + j) = (bytes[j]?).getD 0) ∧
         (∀ a, (a < 65536 * p + off ∨ 65536 * p + off + n ≤ a) → Tab.get emptyByte t.units.param a = Tab.get emptyByte s.units.param a) ∧
         t.units.bank = s.units.bank ∧ t.units.side = s.units.side ∧ rest t)))

/-- SPILL, GRADST, COPY and XFER: memory is as before but for the destination, which takes the bytes of the source. Effects at issue are
log entry 7; offsets and RO_SHARED are log entry 22. -/
def Obligations.MemoryMoves : Prop :=
  ∀ (i : Issue) (c : Common) (f : MoveF) (r : Run) (s : State),
    let p := i.prog
    let pr := prog r p
    let n := f.bytes.toNat
    let src := wrap48 (areg pr f.sreg.toNat)
    let dst := wrap48 (areg pr f.dreg.toNat)
    let off := f.wide.toNat % 65536
    let stores (row : Instr) (bytes : List Byte) := Completes row s (fun t =>
      t.tiers.mem = writeBytes s.tiers.mem dst bytes ∧ t.tiers.objects = s.tiers.objects ∧ t.tiers.flash = s.tiers.flash ∧
      t.units.buf = s.units.buf ∧ t.units.bank = s.units.bank ∧ t.units.side = s.units.side ∧ t.units.sideTag = s.units.sideTag ∧
      t.units.param = s.units.param ∧ t.units.grad = s.units.grad ∧ t.units.flags = s.units.flags ∧ Advanced r p t ∧ OnlyStep s t ∧
      t.counters = s.counters)
    (RunsOn s r i c (.move 5 f) → off + n ≤ 262144 → canWrite s (dieOf p) dst n = true →
      stores (.spill i c f) (tabSlice n (262144 * p + off) s.units.side)) ∧
    (RunsOn s r i c (.move 8 f) → off + n ≤ 65536 → canWrite s (dieOf p) dst n = true →
      stores (.gradst i c f) (tabSlice n (65536 * p + off) s.units.grad)) ∧
    (RunsOn s r i c (.move 9 f) → canRead (dieOf p) src n = true → canWrite s (dieOf p) dst n = true →
      stores (.copy i c f) (readBytes s.tiers.mem src n)) ∧
    (RunsOn s r i c (.move 12 f) → canRead (dieOf p) src n = true → canWrite s (f.wide.toNat % 4) dst n = true →
      stores (.xfer i c f) (readBytes s.tiers.mem src n))

/-- STREAM_IN and STREAM_OUT: the transfer is outstanding, with its WP and CMASK, on the ports that hold its lines, and memory is as yet
unchanged; a full FIFO of one of them holds the instruction; an object with RO_SHARED is no destination. STREAM_COMPLETE: a STREAM_IN
writes the bytes of its source into SRAM, a STREAM_OUT the SRAM bytes into LPDDR5X; then its completion is on its way to the programs
of its CMASK, with source STREAM. A failed one moves no data. A stream waits behind an earlier one of its ports and for the re-read of
a line whose tag is wrong. -/
def Obligations.Streams : Prop :=
  (∀ (i : Issue) (c : Common) (f : MoveF) (r : Run) (s : State),
     let p := i.prog
     let pr := prog r p
     let d := dieOf p
     let n := f.bytes.toNat
     let src := wrap48 (areg pr f.sreg.toNat)
     let dst := wrap48 (areg pr f.dreg.toNat)
     let op (out : Bool) (sram dram : Nat) : Op := .stream {
       prog := p, out := out, sram := sram, dram := dram, bytes := n, wp := f.tagWp.toNat % 1024, cmask := f.wide,
       ports := streamPorts s r p dram n, segs := [], reread := [], served := false, awaits := [],
       failed := (streamPorts s r p dram n).any (fun m => blockShut s (32 + m)) }
     let full (dram : Nat) := (streamPorts s r p dram n).any (streamFifoFull s)
     let owes (t : State) := (∃ r', t.dealer.run = some r' ∧ (prog r' p).pc = pr.pc + 1 ∧ (prog r' p).extOpen = pr.extOpen + 1 ∧
       ∀ q, q ≠ p → prog r' q = prog r q) ∧ SameButRun s t ∧ t.tiers = s.tiers ∧ t.units = s.units ∧ t.unlia = s.unlia ∧ t.out = s.out
     (RunsOn s r i c (.move 10 f) → inSram d dst n = true → inDram d src n = true → roShared s dst n = false →
       (full src = false → Completes (.streamIn i c f) s (fun t => opAt t s.host.nextOp = some (op false dst src) ∧ owes t)) ∧
       (full src = true → exec (.streamIn i c f) s = .next s)) ∧
     (RunsOn s r i c (.move 11 f) → inSram d src n = true → inDram d dst n = true → roShared s dst n = false →
       (full dst = false → Completes (.streamOut i c f) s (fun t => opAt t s.host.nextOp = some (op true src dst) ∧ owes t)) ∧
       (full dst = true → exec (.streamOut i c f) s = .next s)) ∧
     (Runs s r i c (.move 11 f) → roShared s dst n = true → r.abortAc = none → s.dealer.fault.valid = false →
       Completes (.streamOut i c f) s (fun t => Faulted r FaultCode.addrRange p pr.ready pr.pc t ∧ t.host = s.host ∧ t.tiers = s.tiers))) ∧
  (∀ (r : Run) (op : Nat) (x : StreamOp) (s : State), s.dealer.run = some r → r.stopped = false → op ≠ s.host.nextOp →
     opAt s op = some (.stream x) → x.served = false →
     let leaves (t : State) := opAt t op = none ∧
       opAt t s.host.nextOp = some (.ext (dieOf x.prog) .mc (maskProgs x.cmask 0) x.wp 1 x.segs x.failed (some x.prog)) ∧ SameButRun s t ∧
       t.units = s.units ∧ t.unlia = s.unlia ∧ t.out = s.out
     (streamBehind s op x = true → exec (.streamComplete op []) s = .next s) ∧
     (streamBehind s op x = false →
       (x.out = false → x.failed = false → x.awaits = [] → badLines s (opLines s x) = [] → Completes (.streamComplete op []) s (fun t =>
         Filled x.sram (streamBytes s r x.prog x.dram x.bytes) s t ∧ t.tiers.objects = s.tiers.objects ∧ leaves t)) ∧
       (x.out = true → x.failed = false → streamPieces s r x.prog x.dram x.bytes = none → Completes (.streamComplete op []) s (fun t =>
         t.tiers.mem = writeBytes s.tiers.mem x.dram (readBytes s.tiers.mem x.sram x.bytes) ∧ t.tiers.objects = s.tiers.objects ∧ leaves t)) ∧
       (x.failed = true → Completes (.streamComplete op []) s (fun t => t.tiers = s.tiers ∧ leaves t)) ∧
       (x.out = false → rereadDue s x = true → exec (.streamComplete op []) s = .next s)))

/-- MMA: on every engine of the mask the bank holds the tile of the panels, accumulated from zero or from the bank; no other bank, no
operand and no memory changes; the drain of each engine is under way. The faults of an MMA at issue: none of them changes a bank. Panel
strides and when an MMA is ready are the model's readings, log entries 23 and 24. -/
def Obligations.Multiplies : Prop :=
  (∀ (i : Issue) (c : Common) (f : MmaF) (r : Run) (s : State), RunsOn s r i c (.mma f) →
     let p := i.prog
     let es := maskEngines s p f.mask
     (f.start = 2 ∨ ∀ je ∈ es, treeHolds s r (bankIdx je.2 f.bank.toNat) = false) → mmaFault s p (prog r p) f = none →
     (es.map (fun je => je.2)).Nodup →
     Completes (.mma i c f) s (fun t =>
       (∀ je ∈ es, natAt t.units.bankHas (bankIdx je.2 f.bank.toNat) = 1 ∧
         ∀ j, j < 16384 → Tab.get emptyByte t.units.bank (16384 * bankIdx je.2 f.bank.toNat + j) =
           ((bytesOfWords (mmaResult s f.fmt.toNat f je.2))[j]?).getD (Tab.get emptyByte s.units.bank (16384 * bankIdx je.2 f.bank.toNat + j))) ∧
       (∀ a, (∀ je ∈ es, a / 16384 ≠ bankIdx je.2 f.bank.toNat) → Tab.get emptyByte t.units.bank a = Tab.get emptyByte s.units.bank a) ∧
       (∃ r' ds, t.dealer.run = some r' ∧ r'.drains = r.drains ++ ds ∧ ds.map (fun d => (d.cluster, d.engine, d.bank, d.action)) =
         es.map (fun je => (p, je.1, f.bank.toNat, f.drain.toNat))) ∧
       t.units.buf = s.units.buf ∧ t.units.side = s.units.side ∧ t.units.param = s.units.param ∧ t.units.grad = s.units.grad ∧
       t.units.flags = s.units.flags ∧ Advanced r p t ∧ OnlyStep s t ∧ t.tiers = s.tiers ∧ t.counters = s.counters)) ∧
  (∀ (i : Issue) (c : Common) (f : MmaF) (r : Run) (s : State), Runs s r i c (.mma f) → r.abortAc = none → s.dealer.fault.valid = false →
     let p := i.prog
     let es := maskEngines s p f.mask
     let stops (code : Nat) := Completes (.mma i c f) s (fun t => (∃ ac, Faulted r code p ac (prog r p).pc t) ∧ t.units = s.units ∧ t.tiers = s.tiers)
     (f.start = 2 ∨ ∀ je ∈ es, treeHolds s r (bankIdx je.2 f.bank.toNat) = false) →
     ((∃ je ∈ es, natAt s.units.bufFmt (halfIdx je.2 0 f.ahalf.toNat) ≠ f.fmt.toNat + 1) → stops FaultCode.operandFormat) ∧
     ((∀ je ∈ es, natAt s.units.bufFmt (halfIdx je.2 0 f.ahalf.toNat) = f.fmt.toNat + 1 ∧
         natAt s.units.bufFmt (halfIdx je.2 1 f.bhalf.toNat) = f.fmt.toNat + 1 + 2 * f.bcol.toNat) →
       mmaMaxK f.fmt.toNat < 32 * f.kq.toNat → stops FaultCode.kRange) ∧
     (∀ code, mmaFault s p (prog r p) f = some code → stops code))

/-- ROW instructions: each stores the row of every vector at A(OREG), and nothing outside those rows; with one vector the row is that of
Tables 4.3 and 4.5. GRADCLR clears the cluster's gradient buffer and stores nothing. The rounding of each formula is the model's
reading, log entry 19; functions are log entry 9. -/
def Obligations.RowOperations : Prop :=
  ∀ (i : Issue) (c : Common) (op : BitVec 4) (f : RowF) (row : Instr) (r : Run) (s : State), insnRow i c (.row op f) = some row →
    RunsOn s r i c (.row op f) →
    let p := i.prog
    let pr := prog r p
    let n := f.nm1.toNat + 1
    let xa := wrap48 (areg pr f.xreg.toNat)
    let ga := wrap48 (areg pr (f.xreg.toNat + 1))
    let oa := wrap48 (areg pr f.oreg.toNat)
    let fo : Fmt := if f.outfmt = 1 ∧ !rowScalar op.toNat then .bf16 else .fp32
    let width := if rowScalar op.toNat then 4 else n * (fo.params.bits / 8)
    let params := wordsOf 16384 (tabSlice 65536 (65536 * p) s.units.param)
    let rec_ := sideRecord s p (8 * f.sbase.toNat)
    let x := rowInput s xa n 0 (decide (f.infmt = 1))
    let g := if rowReads op.toNat then rowInput s ga n 0 (decide (f.infmt = 1)) else []
    let v := rowVector op.toNat f.eps (params.take n) ((params.drop 8192).take n) x g rec_.1 rec_.2.1
    rowFault s i r op.toNat f xa ga oa = none →
    Completes row s (fun t =>
      Advanced r p t ∧ OnlyStep s t ∧ t.units.buf = s.units.buf ∧ t.units.bank = s.units.bank ∧ t.units.param = s.units.param ∧
      t.tiers.objects = s.tiers.objects ∧ t.counters = s.counters ∧
      (op ≠ 8 → f.vm1 = 0 → t.tiers.mem = writeBytes s.tiers.mem oa (encodeRow fo c.sat (v.y.map f32)).1) ∧
      (op ≠ 8 → SameMemoryBut oa ((f.vm1.toNat + 1) * width) s t) ∧
      (op = 8 → t.tiers = s.tiers ∧ t.units.side = s.units.side ∧
        (∀ j, j < 65536 → Tab.get emptyByte t.units.grad (65536 * p + j) = 0) ∧
        (∀ a, a / 65536 ≠ p → Tab.get emptyByte t.units.grad a = Tab.get emptyByte s.units.grad a)) ∧
      (rowReads op.toNat = false → op ≠ 8 → t.units.grad = s.units.grad) ∧
      (rowSaves op.toNat f = false → t.units.side = s.units.side ∧ t.units.sideTag = s.units.sideTag))

/-- VEC instructions: rows of results, each computed from the operands' rows, go to the vector registers or to SRAM, and nowhere else. The
lanes of the arithmetic operations on registers: one rounding to FP32 each, with the immediate, the multiply-add, the select and the
sign operations as Table 5.8 gives them. Formats of operands are the model's reading, log entry 20; functions are log entry 9. -/
def Obligations.VectorOperations : Prop :=
  (∀ (i : Issue) (c : Common) (op : BitVec 4) (f : VecF) (row : Instr) (r : Run) (s : State), insnRow i c (.vec op f) = some row →
     RunsOn s r i c (.vec op f) →
     let p := i.prog
     let pr := prog r p
     let rows := f.rowsm1.toNat + 1
     let out := vecRows s pr c op.toNat f rows 0 []
     vecFault s (dieOf p) pr op.toNat f = none →
     Completes row s (fun t =>
       Advanced r p t ∧ OnlyStep s t ∧ t.units.buf = s.units.buf ∧ t.units.bank = s.units.bank ∧ t.units.side = s.units.side ∧
       t.units.param = s.units.param ∧ t.units.grad = s.units.grad ∧ t.tiers.objects = s.tiers.objects ∧ t.counters = s.counters ∧
       (inSramCode f.d = true → t.tiers.mem = out.zipIdx.foldl (fun m e =>
           writeBytes m (wrap48 (areg pr (codeReg f.d) + e.2 * (vecDstFmt op.toNat f).rowBytes)) e.1.1) s.tiers.mem ∧
         ∃ r', t.dealer.run = some r' ∧ (prog r' p).vlane = pr.vlane) ∧
       (inSramCode f.d = false → SameMemory s t ∧ ∃ r', t.dealer.run = some r' ∧
         (∀ j l, j < rows → l < 64 → Tab.get (fun _ => 0) (prog r' p).vlane (64 * (codeReg f.d + j) + l) =
           (((out[j]?).map (fun x => x.2.2)).bind (fun ws => ws[l]?)).getD (Tab.get (fun _ => 0) pr.vlane (64 * (codeReg f.d + j) + l))) ∧
         (∀ a, (a < 64 * codeReg f.d ∨ 64 * (codeReg f.d + rows) ≤ a) →
           Tab.get (fun _ => 0) (prog r' p).vlane a = Tab.get (fun _ => 0) pr.vlane a)))) ∧
  (∀ (a b d : W32),
     vecLane 0 0 a b d = toF32 ((f32 a).add (f32 b)) ∧ vecLane 2 0 a b d = toF32 ((f32 a).mul (f32 b)) ∧
     vecLane 3 0 a b d = toF32 (((f32 a).mul (f32 b)).add (f32 d)) ∧
     ((f32 a).isZero = true → vecLane 7 0 a b d = d) ∧ ((f32 a).isZero = false → vecLane 7 0 a b d = b) ∧
     ((f32 a).isNan = true → vecLane 0 0 a b d = 0x7FC00000 ∧ vecLane 4 0 a b d = 0x7FC00000 ∧ vecLane 5 0 a b d = 0x7FC00000))

/-- ETREE, CTREE and DTREE: a tree takes its inputs, one for each member of its group, and gives its root's tile, to SRAM or onward; a
CTREE or DTREE short of a partner waits for it. TOPK: the records of each vector, highest first, are stored at A(DREG); VALUE and
POSITION of the k-th best. Node intervals and the partner time are the model's readings, log entry 23. -/
def Obligations.TreesAndTopk : Prop :=
  ((∀ (i : Issue) (c : Common) (f : TreeF) (r : Run) (js : List Nat) (ds : List Drain) (s : State), Runs s r i c (.tree 0 f) →
     let p := i.prog
     let pr := prog r p
     let ins := ds.map (fun d => (max d.doneAc (pr.ready + 1), d.tile))
     let root := (treeReduce (1000 * p) 6 f.size.toNat 1 f.base.toNat ins).1
     groupMembers f 8 = some js →
     ds = js.filterMap (fun j => r.drains.find? (fun d => decide (d.cluster = p) && decide (d.engine = j) && decide (d.bank = f.bank.toNat) &&
       decide (d.action = 3))) → ds.length = js.length →
     (f.onward = 0 → canWrite s (dieOf p) (treeDest pr f) (treeBytes f) = true) →
     treeBusy r.nodes (treeReduce (1000 * p) 6 f.size.toNat 1 f.base.toNat ins).2 = false →
     Completes (.etree i c f) s (fun t => OnlyStep s t ∧ t.units.buf = s.units.buf ∧ t.units.bank = s.units.bank ∧
       t.tiers.objects = s.tiers.objects ∧
       (∃ r', t.dealer.run = some r' ∧ (prog r' p).pc = pr.pc + 1 ∧ (∀ q, q ≠ p → prog r' q = prog r q) ∧
         r'.drains = r.drains.filter (fun d => !ds.contains d) ∧ (f.onward = 0 → r'.trees = r.trees) ∧
         (f.onward = 1 → ∃ x, r'.trees = r.trees ++ [x] ∧ x.level = 1 ∧ x.cluster = p ∧ x.rows = root.2 ∧ x.waiting = false)) ∧
       (f.onward = 1 → SameMemory s t) ∧
       (f.onward = 0 → let fmt : Fmt := if f.outfmt = 1 then .bf16 else .fp32
         t.tiers.mem = ((rowsOf 64 root.2).map (fun w => (encodeRow fmt c.sat (w.map f32)).1)).zipIdx.foldl
           (fun m e => writeBytes m (treeDest pr f + fmt.rowBytes * e.2) e.1) s.tiers.mem))) ∧
   (∀ (i : Issue) (c : Common) (f : TreeF) (op level : Nat) (js : List Nat) (x : TreeItem) (r : Run) (s : State),
     (op = 1 ∧ level = 1 ∨ op = 2 ∧ level = 2) → Runs s r i c (.tree (BitVec.ofNat 4 op) f) →
     let p := i.prog
     groupMembers f (if op = 1 then 8 else 4) = some js → js.contains (if op = 1 then p % 8 else p / 8) = true → 2 ≤ js.length →
     r.trees = [x] → x.waiting = false → x.level = level → x.cluster = p →
     (f.onward = 0 → canWrite s (dieOf p) (treeDest (prog r p) f) (treeBytes f) = true) →
     Completes (if op = 1 then .ctree i c f else .dtree i c f) s (fun t => OnlyStep s t ∧ SameMemory s t ∧ t.units = s.units ∧
       ∃ r' w, t.dealer.run = some r' ∧ (prog r' p).pc = (prog r p).pc + 1 ∧ r'.trees = [w] ∧ w.waiting = true ∧ w.level = level ∧
         w.rows = x.rows ∧ w.cluster = p ∧ ∀ q, q ≠ p → prog r' q = prog r q)) ∧
   (∀ (i : Issue) (c : Common) (f : TreeF) (op level b : Nat) (w x : TreeItem) (r : Run) (s : State),
     (op = 1 ∧ level = 1 ∨ op = 2 ∧ level = 2) → Runs s r i c (.tree (BitVec.ofNat 4 op) f) →
     let p := i.prog
     let pr := prog r p
     let unitOf (k : Nat) := if op = 1 then k else k / 8
     let own := if op = 1 then p % 8 else p / 8
     let out := treeReduce (if op = 1 then 100000 + 1000 * (p / 8) else 200000) (if op = 1 then 9 else 49) f.size.toNat 1 f.base.toNat
       [(w.ac, w.rows), (max x.ac (pr.ready + 1), x.rows)]
     let fmt : Fmt := if w.field.outfmt = 1 then .bf16 else .fp32
     groupMembers f (if op = 1 then 8 else 4) = some [b, b + 1] → own = b + 1 → unitOf w.cluster + 1 = unitOf p →
     r.trees = [w, x] → w.waiting = true → x.waiting = false → w.level = level → x.level = level → x.cluster = p →
     w.field.size = f.size → w.field.base = f.base → w.field.onward = 0 →
     w.nth = natAt r.matched (((level * 4 + f.size.toNat) * 8 + f.base.toNat) * 64 + unitOf p) →
     treeBusy r.nodes out.2 = false →
     Completes (if op = 1 then .ctree i c f else .dtree i c f) s (fun t => OnlyStep s t ∧ t.units.buf = s.units.buf ∧
       t.units.bank = s.units.bank ∧ t.tiers.objects = s.tiers.objects ∧
       (∃ r', t.dealer.run = some r' ∧ r'.trees = [] ∧ (prog r' p).pc = pr.pc + 1) ∧
       t.tiers.mem = ((rowsOf 64 out.1.2).map (fun v => (encodeRow fmt w.sat (v.map f32)).1)).zipIdx.foldl
         (fun m e => writeBytes m (w.dest + fmt.rowBytes * e.2) e.1) s.tiers.mem))) ∧
  (∀ (i : Issue) (c : Common) (f : TopkF) (r : Run) (s : State), RunsOn s r i c (.topk f) →
     let p := i.prog
     let pr := prog r p
     let n := f.nm1.toNat + 1
     let k := f.km1.toNat + 1
     let rows := f.vm1.toNat + 1
     let w := if f.infmt = 1 then 2 else 4
     let fmt : Fmt := if f.infmt = 1 then .bf16 else .fp32
     let src := wrap48 (areg pr f.sreg.toNat)
     let dst := wrap48 (areg pr f.dreg.toNat)
     k ≤ n → canRead (dieOf p) src (rows * n * w) = true → canWrite s (dieOf p) dst (rows * 8 * k) = true →
     Completes (.topk i c f) s (fun t => Advanced r p t ∧ OnlyStep s t ∧ t.tiers.objects = s.tiers.objects ∧ t.units.bank = s.units.bank ∧
       t.units.buf = s.units.buf ∧ t.units.side = s.units.side ∧
       t.tiers.mem = ((List.range rows).map (fun v => topRecords k c.sat ((decodeVals fmt n
           (readBytes s.tiers.mem (src + v * n * w) (n * w))).map toF32))).zipIdx.foldl
         (fun m e => writeBytes m (dst + 8 * k * e.2) e.1) s.tiers.mem))

/-- SYNC: SIGNAL puts one addition on its way to every program of its masks; AWAIT goes on once its counter has reached TARGET and holds
until then, and faults at a failed wait point. COLL_START submits its descriptor and owes its completion. -/
def Obligations.SyncInstructions : Prop :=
  ∀ (i : Issue) (c : Common) (r : Run) (s : State),
    let p := i.prog
    let pr := prog r p
    (∀ wp cmask dmask, Runs s r i c (.signal wp cmask dmask) → Completes (.syncSignal i c wp cmask dmask) s (fun t =>
      (∃ r' gs, t.dealer.run = some r' ∧ r'.signals = r.signals ++ gs ∧ gs.map (fun g => g.prog) = maskProgs cmask dmask ∧
        (∀ g ∈ gs, g.wp = wp.toNat ∧ g.arrival.ac = pr.ready + signalDelay p g.prog) ∧ (prog r' p).pc = pr.pc + 1 ∧
        ∀ q, q ≠ p → prog r' q = prog r q) ∧ OnlyStep s t ∧ t.units = s.units ∧ t.tiers = s.tiers ∧ t.counters = s.counters)) ∧
    (∀ wp target, RunsOn s r i c (.await wp target) → (waitPt pr wp.toNat).failed = false →
      target.toNat ≤ (waitPt pr wp.toNat).arrivals.length → Completes (.syncAwait i c wp target) s (fun t =>
        Advanced r p t ∧ OnlyStep s t ∧ t.units = s.units ∧ t.tiers = s.tiers)) ∧
    (∀ wp target, RunsOn s r i c (.await wp target) → (waitPt pr wp.toNat).failed = false →
      (waitPt pr wp.toNat).arrivals.length < target.toNat → Completes (.syncAwait i c wp target) s (fun t =>
        WentTo r p pr.pc t ∧ (∃ r', t.dealer.run = some r' ∧ (prog r' p).hold = some { wp := some wp.toNat, since := pr.ready }) ∧
        OnlyStep s t ∧ t.units = s.units ∧ t.tiers = s.tiers ∧ t.counters = s.counters)) ∧
    (∀ wp target, Runs s r i c (.await wp target) → (waitPt pr wp.toNat).failed = true → r.abortAc = none → s.dealer.fault.valid = false →
      Completes (.syncAwait i c wp target) s (Faulted r FaultCode.waitError p (max pr.ready r.nowAc) pr.pc)) ∧
    (∀ sreg wp cmask dmask, RunsOn s r i c (.collStart sreg wp cmask dmask) → areg pr sreg.toNat % 64 = 0 → areg pr sreg.toNat < 2 ^ 48 →
      canRead (dieOf p) (areg pr sreg.toNat) 64 = true →
      let bs := readBytes s.tiers.mem (areg pr sreg.toNat) 64
      let b0 := collOf (bs.drop 16)
      let b := { b0 with reserved := b0.reserved || (bs.take 16).any (fun x => decide (x ≠ 0)) }
      Completes (.collStart i c sreg wp cmask dmask) s (fun t =>
        (∃ r', t.dealer.run = some r' ∧ (prog r' p).pc = pr.pc + 1) ∧
        (isP2p b = false → SameButRun s t ∧ SameMemory s t ∧ t.units = s.units ∧ t.host.queues = s.host.queues ∧ t.host.marks = s.host.marks ∧
          ((∃ x, t.unlia.colls = s.unlia.colls ++ [x] ∧ x.body = b ∧ x.active = false ∧ x.prog = some (p, wp.toNat, cmask, dmask)) ∨
            (∃ x, opAt t (s.host.nextOp + 1) =
              some (.ext (dieOf p) x (collPrograms p cmask dmask) wp.toNat (collSource b) [] true (some p)))))))

/-- CTRL and STAT: each advances its program, a taken branch to its target, and changes its own register of its own program alone. The
faults of CTRL and STAT: a branch out of the program is PC_RANGE, BNZ on 0 LOOP_RANGE, DUMP to an address off its line ALIGN; the
program does not go on and its registers are kept. -/
def Obligations.ControlInstructions : Prop :=
  (∀ (i : Issue) (c : Common) (r : Run) (s : State),
     let p := i.prog
     let pr := prog r p
     let gives (row : Instr) (x : Insn) (g : Prog → Prog) (cost pc : Nat) := Runs s r i c x →
       exec row s = .next { s with dealer := { s.dealer with run := some (setProg p (fun x => { g x with
         pc := pc, ready := pr.ready + cost, issued := pr.ready, hold := none }) { r with nowAc := max r.nowAc pr.ready }) } }
     (∀ ln imm, gives (.lset i c ln imm) (.lset ln imm) (fun x => { x with lreg := Tab.set (fun _ => 0) x.lreg ln.toNat imm }) 1 (pr.pc + 1)) ∧
     (∀ off n, branchTarget pr off = some n → gives (.jump i c off) (.jump off) id 3 n) ∧
     (∀ ln off n, branchTarget pr off = some n → 1 < (lreg pr ln.toNat).toNat →
       gives (.bnz i c ln off) (.bnz ln off) (fun x => { x with lreg := Tab.set (fun _ => 0) x.lreg ln.toNat (lreg pr ln.toNat - 1) }) 3 n) ∧
     (∀ ln off, lreg pr ln.toNat = 1 →
       gives (.bnz i c ln off) (.bnz ln off) (fun x => { x with lreg := Tab.set (fun _ => 0) x.lreg ln.toNat 0 }) 1 (pr.pc + 1)) ∧
     (∀ vb v off n, branchTarget pr off = some n → r.variant.getLsbD vb.toNat = v → gives (.bvar i c vb v off) (.bvar vb v off) id 3 n) ∧
     (∀ vb v off, r.variant.getLsbD vb.toNat ≠ v → gives (.bvar i c vb v off) (.bvar vb v off) id 1 (pr.pc + 1)) ∧
     (∀ an imm, gives (.seta i c an imm) (.seta an imm) (fun x => { x with areg := Tab.set (fun _ => 0) x.areg an.toNat imm }) 1 (pr.pc + 1)) ∧
     (∀ an imm, gives (.adda i c an imm) (.adda an imm) (fun x => { x with
       areg := Tab.set (fun _ => 0) x.areg an.toNat (Tab.get (fun _ => 0) pr.areg an.toNat + imm.signExtend 48) }) 1 (pr.pc + 1)) ∧
     (∀ imm, gives (.ctrlNop i c imm) (.nop imm) id (imm.toNat + 1) (pr.pc + 1)) ∧
     gives (.ctrlEnd i c) .stop (fun x => { x with atEnd := true }) 1 (pr.pc + 1) ∧
     (∀ sn imm, gives (.inc i c sn imm) (.inc sn imm) (fun x => { x with
       stats := Tab.set zero64 x.stats sn.toNat (statReg pr sn.toNat + imm.zeroExtend 64) }) 1 (pr.pc + 1)) ∧
     (∀ sn, gives (.stamp i c sn) (.stamp sn) (fun x => { x with stats := Tab.set zero64 x.stats sn.toNat (BitVec.ofNat 64 pr.ready) }) 1 (pr.pc + 1)) ∧
     (∀ dreg, Runs s r i c (.dump dreg) → areg pr dreg.toNat % 64 = 0 → canWrite s (dieOf p) (areg pr dreg.toNat) 64 = true →
       Completes (.dump i c dreg) s (fun t => Advanced r p t ∧ OnlyStep s t ∧ t.units = s.units ∧ t.tiers.objects = s.tiers.objects ∧
         t.tiers.mem = writeBytes s.tiers.mem (areg pr dreg.toNat)
           (((List.range 8).map (fun n => leBytes 8 (statReg pr n).toNat)).flatten)))) ∧
  (∀ (i : Issue) (c : Common) (r : Run) (s : State), r.abortAc = none → s.dealer.fault.valid = false →
     let p := i.prog
     let pr := prog r p
     let stops (row : Instr) (x : Insn) (code : Nat) := Runs s r i c x → Completes row s (fun t =>
       Faulted r code p pr.ready pr.pc t ∧ t.units = s.units ∧ t.tiers = s.tiers ∧ ∃ r', t.dealer.run = some r' ∧ (prog r' p).pc = pr.pc)
     (∀ off, branchTarget pr off = none → stops (.jump i c off) (.jump off) FaultCode.pcRange) ∧
     (∀ ln off, lreg pr ln.toNat = 0 → stops (.bnz i c ln off) (.bnz ln off) FaultCode.loopRange) ∧
     (∀ ln off, branchTarget pr off = none → 1 < (lreg pr ln.toNat).toNat → stops (.bnz i c ln off) (.bnz ln off) FaultCode.pcRange) ∧
     (∀ dreg, areg pr dreg.toNat % 64 ≠ 0 → stops (.dump i c dreg) (.dump dreg) FaultCode.align) ∧
     (∀ dreg, areg pr dreg.toNat % 64 = 0 → canWrite s (dieOf p) (areg pr dreg.toNat) 64 = false →
       stops (.dump i c dreg) (.dump dreg) FaultCode.addrRange))

/-- What a memory port does on its own: a frame edge grants background slots, a re-read counts and corrects or fails its line, a logged
line is rewritten, an idle port scrubs its next line. None of them changes a byte of memory. A line as its port stores it, data with
check image, reads clean while neither POISON nor a foreign tag stands in it. What MEM_BG_SLOTS counts is the model's reading, log
entry 21; outcomes of reads are operands, log entry 14. -/
def Obligations.PortActivity : Prop :=
  (∀ (m : Nat) (s : State), m < 12 →
     (portStreams s m = true → bgWaits s m = true → Completes (.frameEdge m) s (fun t =>
       Tab.get zero64 t.tiers.bgSlots m = Tab.get zero64 s.tiers.bgSlots m + BitVec.ofNat 64 (64 * frameBgShare s) ∧
       (∀ j, j ≠ m → Tab.get zero64 t.tiers.bgSlots j = Tab.get zero64 s.tiers.bgSlots j) ∧ SameMemory s t ∧ t.dealer = s.dealer)) ∧
     ((portStreams s m && bgWaits s m) = false → exec (.frameEdge m) s = .next s) ∧
     (∀ op x line raw a b, line < 2 ^ 29 → storedFault s (lineKey m line) = none → blockShut s (32 + m) = false →
       opAt s op = some (.stream x) → x.out = false → x.served = false → x.failed = false → (opLines s x).contains (lineKey m line) = true →
       x.reread.contains (lineKey m line) = false → Completes (.memReread op m line raw a b) s (fun t =>
         Tab.get zero64 t.tiers.reread m = Tab.get zero64 s.tiers.reread m + 1 ∧ SameMemory s t ∧ t.units = s.units ∧ t.unlia = s.unlia ∧
         (checkLine s (lineKey m line) raw = .clean → t.tiers.corrected = s.tiers.corrected ∧ t.tiers.lastErr = s.tiers.lastErr) ∧
         (checkLine s (lineKey m line) raw = .corrected →
           Tab.get zero64 t.tiers.corrected m = Tab.get zero64 s.tiers.corrected m + 1 ∧ t.tiers.lastErr = s.tiers.lastErr) ∧
         (∀ kind, checkLine s (lineKey m line) raw = .bad kind →
           (Tab.get (fun _ => LastErr.cold) t.tiers.lastErr m).address = BitVec.ofNat 48 (256 * lineKey m line) ∧
             (Tab.get (fun _ => LastErr.cold) t.tiers.lastErr m).kind = BitVec.ofNat 3 kind))) ∧
     (∀ k rest, Tab.get (fun _ => []) s.tiers.corrQueue m = k :: rest → Completes (.correctionRewrite m) s (fun t =>
       Tab.get (fun _ => []) t.tiers.corrQueue m = rest ∧
       (∀ j, j ≠ m → Tab.get (fun _ => []) t.tiers.corrQueue j = Tab.get (fun _ => []) s.tiers.corrQueue j) ∧ SameMemory s t ∧
       t.dealer = s.dealer ∧ t.host = s.host)) ∧
     (∀ raw, s.dealer.run = none → s.resets.powered = true → blockShut s (32 + m) = false →
       storedFault s (lineKey m (natAt s.tiers.scrubNext m)) = none → checkLine s (lineKey m (natAt s.tiers.scrubNext m)) raw = .clean →
       Completes (.patrolScrub m raw) s (fun t => natAt t.tiers.scrubNext m = (natAt s.tiers.scrubNext m + 1) % 2 ^ 29 ∧
         (∀ j, j ≠ m → natAt t.tiers.scrubNext j = natAt s.tiers.scrubNext j) ∧ SameMemory s t ∧ t.tiers.corrected = s.tiers.corrected ∧
         t.dealer = s.dealer ∧ t.host = s.host))) ∧
  (∀ (k : Nat) (s : State), storedFault s k = none → checkLine s k (storedLine s k) = .clean)

/-- Repairs: a source's clean line is written and counted, and its rewrite then ends the object's REPAIRING; without another source the
object is POISONED and its line poisoned. A peer is served a clean line of the version it names, and refused any other. Sources and
rewrites in detail are the model's readings, log entry 48. -/
def Obligations.LineRepairs : Prop :=
  (∀ (x : Repair) (clean : Option (List Byte)) (ac : Nat) (bs : List Byte) (s : State), NobodyWaits s → s.tiers.repairs = [x] → x.rewriting = false →
    sourceLine s x clean = some bs → Completes (.repairSourceDone x.id clean ac) s (fun t =>
      t.tiers.mem = writeBytes s.tiers.mem (256 * x.line) bs ∧ t.tiers.repairs = [{ x with rewriting := true }] ∧
      Tab.get zero64 t.tiers.repaired (linePort x.line) = Tab.get zero64 s.tiers.repaired (linePort x.line) + 1 ∧
      Tab.get zero64 t.tiers.repairFrom x.source = Tab.get zero64 s.tiers.repairFrom x.source + 1 ∧
      (obj t x.object).repairs = (obj s x.object).repairs + 1 ∧ (∀ o, o ≠ x.object → obj t o = obj s o) ∧ t.dealer = s.dealer ∧ t.units = s.units)) ∧
  (∀ (x : Repair) (ac : Nat) (s : State), NobodyWaits s → s.tiers.repairs = [x] → x.rewriting = false →
    nextSource s x.object x.line (x.source + 1) = none →
    Completes (.repairSourceDone x.id none ac) s (fun t =>
      t.tiers.repairs = [] ∧ (obj t x.object).poison = .poisoned ∧ Tab.get (fun _ => false) t.tiers.linePoison x.line = true ∧
      t.dealer.due = true ∧ SameMemory s t ∧ (∀ o, o ≠ x.object → obj t o = obj s o) ∧ t.units = s.units)) ∧
  (∀ (m line : Nat) (x : Repair) (s : State), m < 12 → NobodyWaits s → s.tiers.repairs = [x] → x.rewriting = true → x.line = lineKey m line →
    (obj s x.object).poison = .repairing → Completes (.repairRewriteDone m line true) s (fun t =>
      t.tiers.repairs = [] ∧ (obj t x.object).poison = .clean ∧ Tab.get (fun _ => false) t.tiers.linePoison x.line = false ∧
      Tab.get (fun _ => 0) t.tiers.lineTag x.line = expectedTag s x.line ∧ t.dealer.due = true ∧ SameMemory s t ∧
      (∀ o, o ≠ x.object → obj t o = obj s o) ∧ t.units = s.units)) ∧
  (∀ (m line : Nat) (s : State), m < 12 → exec (.repairRewriteDone m line false) s = .next s) ∧
  (∀ (node : BitVec 15) (o : W16) (offset : Nat) (version : W32) (s : State), s.resets.mgood = true →
    Completes (.repairRequest node o offset version) s (fun t =>
      let x := obj s o.toNat
      let a := x.base + offset / 256 * 256
      (x.inMem = true → x.poison = .clean → x.version = version → offset / 256 * 256 + 256 ≤ x.len →
        (rangeLines a 256).any (fun k => (storedFault s k).isSome) = false →
        t.out = s.out ++ [.bulkNode node Msg.repairLine (readBytes s.tiers.mem a 256)]) ∧
      ((x.inMem = false ∨ x.poison ≠ .clean ∨ x.version ≠ version) → t.out = s.out ++ [.bulkNode node Msg.refused []]) ∧
      SameMemory s t ∧ t.tiers.objects = s.tiers.objects ∧ t.tiers.repairs = s.tiers.repairs ∧ t.dealer = s.dealer))

/-- The translation layers: a decode counts its retries and its corrected or uncorrectable codeword, maintenance counts its erases and
programs, and a layer that has loaded its map is READY. The data of flash objects is unchanged. Wear and error counts are operands (log
entry 14); details are log entry 49. -/
def Obligations.FlashMaintenance : Prop :=
  ∀ (d : Nat) (s : State), d < 4 →
    (∀ errors retries softOk op o a b k mb bad segs, opAt s op = some (.move k mb bad segs) → mb.mode = 1 →
      codewordAt s (obj s mb.src.toNat) o d = true → mb.srcOffset.toNat ≤ o → o < mb.srcOffset.toNat + mb.bytes.toNat →
      Completes (.flashCodewordDecode d errors retries softOk op o a b) s (fun t =>
        let hard := decide (errors ≤ 100) && decide (retries ≤ 7)
        (mediaOf t d).retries = (mediaOf s d).retries + BitVec.ofNat 64 (if hard then retries else 7) ∧
        ((!hard && !softOk) = true → (mediaOf t d).uncorrectable = (mediaOf s d).uncorrectable + 1 ∧
          ∃ segs', opAt t op = some (.move k mb (bad ++ [o]) segs')) ∧
        ((!hard && !softOk) = false → (mediaOf t d).corrected = (mediaOf s d).corrected + BitVec.ofNat 64 errors ∧
          ∃ segs', opAt t op = some (.move k mb bad segs')) ∧
        t.tiers.flash = s.tiers.flash ∧ SameMemory s t ∧ t.dealer = s.dealer)) ∧
    ((layer s d).ready = true → ∀ disturb patrol badBlock, Completes (.flashRelocate d disturb patrol badBlock) s (fun t =>
      (mediaOf t d).erased = (if badBlock then (mediaOf s d).erased else (mediaOf s d).erased + 1) ∧
      (mediaOf t d).disturb = (mediaOf s d).disturb + BitVec.ofNat 32 (flag disturb) ∧
      (mediaOf t d).patrol = (mediaOf s d).patrol + BitVec.ofNat 32 (flag patrol) ∧
      (mediaOf t d).grownBad = (mediaOf s d).grownBad + BitVec.ofNat 32 (flag badBlock) ∧
      t.tiers.flash = s.tiers.flash ∧ SameMemory s t ∧ t.dealer = s.dealer)) ∧
    ((layer s d).ready = true → ∀ corrections retries, Completes (.flashPatrol d corrections retries) s (fun t =>
      (mediaOf t d).corrected = (mediaOf s d).corrected + BitVec.ofNat 64 corrections ∧
      (mediaOf t d).retries = (mediaOf s d).retries + BitVec.ofNat 64 retries ∧
      (60 < corrections → (mediaOf t d).erased = (mediaOf s d).erased + 1 ∧ (mediaOf t d).patrol = (mediaOf s d).patrol + 1) ∧
      (corrections ≤ 60 → retries = 0 → (mediaOf t d).erased = (mediaOf s d).erased) ∧
      t.tiers.flash = s.tiers.flash ∧ SameMemory s t ∧ t.dealer = s.dealer)) ∧
    (s.resets.mgood = true → (layer s d).ready = false → blockShut s (44 + d) = false → s.host.ops = [] →
      Completes (.flashLayerReady d) s (fun t => (layer t d).ready = true ∧ (layer t d).formatting = false ∧
        (∀ e, e ≠ d → layer t e = layer s e) ∧ t.tiers.flash = s.tiers.flash ∧ SameMemory s t ∧ t.dealer = s.dealer)) ∧
    ((layer s d).ready = false → (∀ a b c, exec (.flashRelocate d a b c) s = .next s) ∧ ∀ a b, exec (.flashPatrol d a b) s = .next s)

/-- Training: a port that trains comes UP, or keys first where it is to encrypt; a failed lane takes it DOWN and drops its replay buffer
and keys; a DOWN port tries again. No other port changes. Keying: an end that is not to encrypt refuses; the higher end answers a key
whose certificate and signature verify with its ciphertext, and refuses another; KEY_SWITCH puts the pending key into use with index 0;
a key gives way to the next after 2^32 flits. Details of training and keys are the model's readings, log entry 50; verification is a
constant without a value, log entry 10. -/
def Obligations.LinkTrainingAndKeys : Prop :=
  (∀ (u : Nat) (s : State), u < 16 →
     (mayLink s u = true → ((uport s u).state = .down ∨ (uport s u).state = .training) → ∀ reversed full peer,
       Completes (.portTrained u reversed { full := full, peerEncrypt := peer }) s (fun t =>
         (uport t u).state = (if (uport s u).encrypt || peer then .keying else .up) ∧ (uport t u).refused = decide ((uport s u).encrypt ≠ peer) ∧ (uport t u).reversed = reversed ∧
         (∀ w, w ≠ u → uport t w = uport s w) ∧ t.unlia.routes = s.unlia.routes ∧
         t.out = s.out ++ [.mgmtPort u Msg.hello (helloBytes s u)] ∧ t.dealer = s.dealer)) ∧
     (mayLink s u = true → (uport s u).state = .down → Completes (.portRetrainRetry u) s (fun t =>
       (uport t u).state = .training ∧ (∀ w, w ≠ u → uport t w = uport s w) ∧ t.dealer = s.dealer ∧ t.out = s.out)) ∧
     (linkOn (uport s u) = true → Completes (.laneFail u) s (fun t =>
       (uport t u).state = .training ∧ (uport t u).replay = [] ∧ (uport t u).txKey = [] ∧
       (uport t u).downCount = (uport s u).downCount + 1 ∧ (∀ w, w ≠ u → uport t w = uport s w) ∧ t.dealer = s.dealer)) ∧
     (linkOn (uport s u) = false → exec (.laneFail u) s = .next s) ∧
     (linkOn (uport s u) = true → (uport s u).encrypt = false → ∀ node port, Completes (.hello u node port) s (fun t =>
       (uport t u).peerNode = node ∧ (uport t u).peerPort = port ∧ (uport t u).peerValid = decide ((uport s u).state = .up) ∧
       (uport t u).probing = none ∧ (∀ w, w ≠ u → uport t w = uport s w) ∧ t.out = s.out ∧ t.dealer = s.dealer))) ∧
  (∀ (u : Nat) (s : State), u < 16 →
     (linkOn (uport s u) = true → (uport s u).encrypt = false → ∀ a b c d, Completes (.encapsulationKey u a b c d) s (fun t =>
       (uport t u).state = .keying ∧ (uport t u).refused = true ∧ (∀ w, w ≠ u → uport t w = uport s w) ∧ t.out = s.out ∧ t.dealer = s.dealer)) ∧
     ((uport s u).state = .keying → (uport s u).encrypt = true → (uport s u).peerNode < s.unlia.nodeId → ∀ cert pk key sig,
       Completes (.encapsulationKey u cert pk key sig) s (fun t => (∀ w, w ≠ u → uport t w = uport s w) ∧ t.dealer = s.dealer ∧
         (uport t u).state = .keying ∧
         ((certOk cert pk && Config.slhVerify pk key sig) = true → (uport t u).sendSwitch = true ∧ (uport t u).refused = (uport s u).refused) ∧
         ((certOk cert pk && Config.slhVerify pk key sig) = false → (uport t u).refused = true ∧ t.out = s.out))) ∧
     ((uport s u).state = .keying → (uport s u).kemId.isSome = true → ∀ cert pk ct sig,
       Completes (.kemCiphertext u cert pk ct sig) s (fun t => (∀ w, w ≠ u → uport t w = uport s w) ∧ t.dealer = s.dealer ∧ t.out = s.out ∧
         (uport t u).state = .keying ∧
         ((certOk cert pk && Config.slhVerify pk ct sig) = true → (uport t u).sendSwitch = true ∧ (uport t u).kemId = none) ∧
         ((certOk cert pk && Config.slhVerify pk ct sig) = false → (uport t u).refused = true))) ∧
     (∀ link, (uport s u).state = .keying → (uport s u).pendRx ≠ [] → Completes (.keySwitch { port := u, link := link }) s (fun t =>
       (uport t u).rxKey = (uport s u).pendRx ∧ (uport t u).pendRx = [] ∧ (uport t u).rxKeyIndex = 0 ∧ (uport t u).rxCount = 0 ∧
       (uport t u).state = (if (uport s u).txKey = [] then .keying else .up) ∧ (∀ w, w ≠ u → uport t w = uport s w) ∧ t.dealer = s.dealer)) ∧
     (∀ transmit, Completes (.keyRollover u transmit) s (fun t => (∀ w, w ≠ u → uport t w = uport s w) ∧ t.out = s.out ∧ t.dealer = s.dealer ∧
       (transmit = true → (uport s u).txKey ≠ [] → ((uport s u).keyIndex.toNat + 1) * 2 ^ 32 ≤ (uport s u).txCount.toNat →
         (uport t u).keyIndex = (uport s u).keyIndex + 1 ∧ (uport t u).txKey = nextKey (uport s u).txKey) ∧
       (transmit = false → (uport s u).rxKey ≠ [] → ((uport s u).rxKeyIndex.toNat + 1) * 2 ^ 32 ≤ (uport s u).rxCount.toNat →
         (uport t u).rxKeyIndex = (uport s u).rxKeyIndex + 1 ∧ (uport t u).rxKey = nextKey (uport s u).rxKey))))

/-- Flits: a bad CRC asks for a NAK; the expected flit is taken and its credit owed; another sequence number is not taken. A NAK resends
the replay buffer, what it acknowledges excepted, and returns its credits. A flit slot sends, in this order, a NAK that is due, a
KEY_SWITCH, the replay, a new flit, an IDLE: one flit on a port that carries flits, none on another. Details are the model's readings,
log entries 12 and 50. -/
def Obligations.FlitsAndSlots : Prop :=
  (∀ (u : Nat) (bs : List Byte) (fixed lost : Nat) (s : State), u < 16 → linkOn (uport s u) = true →
     let f := flitOf bs
     let fec (t : State) := (uport t u).fecCorrected = (uport s u).fecCorrected + BitVec.ofNat 64 fixed ∧
       (uport t u).fecUncorrectable = (uport s u).fecUncorrectable + BitVec.ofNat 64 lost
     (flitCrcOk bs = false → Completes (.flitReceive u { bytes := bs, corrected := fixed, uncorrectable := lost }) s (fun t =>
       (uport t u).crcErrors = (uport s u).crcErrors + 1 ∧ (uport t u).sendNak = true ∧ (uport t u).expected = (uport s u).expected ∧ fec t ∧
       (∀ w, w ≠ u → uport t w = uport s w) ∧ t.out = s.out ∧ t.dealer = s.dealer)) ∧
     (flitCrcOk bs = true → f.kind = 0 → f.seq = (uport s u).expected → (uport s u).rxKey = [] → carries s u f.vc.toNat = true →
       f.dst = s.unlia.nodeId → Completes (.flitReceive u { bytes := bs, corrected := fixed, uncorrectable := lost }) s (fun t =>
         (uport t u).expected = (uport s u).expected + 1 ∧ (uport t u).flitsRx = (uport s u).flitsRx + 1 ∧ fec t ∧
         natAt (uport t u).owed f.vc.toNat = natAt (uport s u).owed f.vc.toNat + 1 ∧ (∀ w, w ≠ u → uport t w = uport s w) ∧ t.dealer = s.dealer)) ∧
     (flitCrcOk bs = true → f.kind = 0 → f.seq ≠ (uport s u).expected → Completes (.flitReceive u { bytes := bs, corrected := fixed, uncorrectable := lost }) s (fun t =>
       (uport t u).expected = (uport s u).expected ∧ (uport t u).flitsRx = (uport s u).flitsRx ∧
       ((f.seq - (uport s u).expected).toNat < 512 → (uport t u).sendNak = true) ∧ (∀ w, w ≠ u → uport t w = uport s w) ∧ t.out = s.out)) ∧
     (flitCrcOk bs = true → f.kind ≠ 0 → Completes (.flitReceive u { bytes := bs, corrected := fixed, uncorrectable := lost }) s (fun t =>
       (uport t u).expected = (uport s u).expected ∧ (∀ x ∈ (uport t u).replay, x ∈ (uport s u).replay) ∧
       natAt (uport t u).credits f.creditVc.toNat = natAt (uport s u).credits f.creditVc.toNat - f.credits.toNat ∧
       (∀ w, w ≠ u → uport t w = uport s w) ∧ t.out = s.out)) ∧
     (∀ n v k, (uport s u).nakSeq ≠ n → Completes (.nakReceive u { ack := n, creditVc := v, credits := k }) s (fun t =>
       (uport t u).retries = (uport s u).retries + 1 ∧ (uport t u).nakSeq = n ∧ (uport t u).resend = (uport t u).replay ∧
       (uport t u).nakCount = 1 ∧ natAt (uport t u).credits v.toNat = natAt (uport s u).credits v.toNat - k.toNat ∧
       (∀ w, w ≠ u → uport t w = uport s w) ∧ t.dealer = s.dealer))) ∧
  (∀ (u : Nat) (s : State), u < 16 → s.framed = s.out.length →
     let others (t : State) := (∀ w, w ≠ u → uport t w = uport s w) ∧ t.dealer = s.dealer
     let control (kind : BitVec 2) (t : State) := ∃ g, t.out = s.out ++ [.flit u (flitBytes g)] ∧ g.kind = kind ∧ g.ack = (uport s u).expected
     (linkOn (uport s u) = false → Completes (.flitSlot u) s (fun t => t.out = s.out ∧ t.unlia = s.unlia ∧ t.dealer = s.dealer)) ∧
     (linkOn (uport s u) = true → (uport s u).sendNak = true → Completes (.flitSlot u) s (fun t =>
       control 2 t ∧ (uport t u).sendNak = false ∧ (uport t u).replay = (uport s u).replay ∧ others t)) ∧
     (linkOn (uport s u) = true → (uport s u).sendNak = false →
       ((uport s u).sendSwitch = true → (uport s u).rxKey = [] → Completes (.flitSlot u) s (fun t =>
         control 3 t ∧ (uport t u).sendSwitch = false ∧ (uport t u).txKey = (uport s u).pendTx ∧ (uport t u).keyIndex = 0 ∧
         (uport t u).txCount = 0 ∧ (uport t u).replay = (uport s u).replay ∧ others t)) ∧
       ((uport s u).sendSwitch = false →
         (∀ f rest, (uport s u).resend = f :: rest → Completes (.flitSlot u) s (fun t =>
           (∃ c n, t.out = s.out ++ [.flit u (flitBytes { f with ack := (uport s u).expected, creditVc := c, credits := n })]) ∧
           (uport t u).resend = rest ∧ (uport t u).flitsTx = (uport s u).flitsTx ∧ others t)) ∧
         (∀ f i n w, (uport s u).resend = [] → (uport s u).txQueue = [(i, f)] → i < 17 → (uport s u).txKey = [] →
           nextChannel s u 5 (uport s u).roundWeights (natAt (uport s u).served 0 % 4) (natAt (uport s u).served 1) = some (f.vc.toNat, n, w) →
           Completes (.flitSlot u) s (fun t =>
             (∃ c k, t.out = s.out ++ [.flit u (flitBytes { f with
               seq := (uport s u).nextSeq, ack := (uport s u).expected, creditVc := c, credits := k })]) ∧
             (uport t u).txQueue = [] ∧ (uport t u).flitsTx = (uport s u).flitsTx + 1 ∧ (uport t u).nextSeq = (uport s u).nextSeq + 1 ∧
             (uport t u).replay = (uport s u).replay ++ [{ f with seq := (uport s u).nextSeq, ack := 0, creditVc := 0, credits := 0 }] ∧
             natAt (uport t u).credits f.vc.toNat = natAt (uport s u).credits f.vc.toNat + 1 ∧
             (∀ x, x ≠ u → (uport t x).txQueue = (uport s x).txQueue) ∧ t.dealer = s.dealer)) ∧
         ((uport s u).resend = [] → (uport s u).txQueue = [] → Completes (.flitSlot u) s (fun t => control 1 t ∧
           (uport t u).flitsTx = (uport s u).flitsTx ∧ (uport t u).nextSeq = (uport s u).nextSeq ∧ others t)))))

/-- Hop counts: a flit that the module sources carries 15; one that it forwards leaves with one less, and one that arrives with 0 is
discarded and counted in HOP_LIMIT. -/
def Obligations.HopCounts : Prop :=
  (∀ (n : Nat) (vc : BitVec 2) (dst src : BitVec 15) (fuel : Nat) (first : Bool) (bs : List Byte) (f : Flit),
    f ∈ cutFlits n vc dst src fuel first bs → f.hops = 15) ∧
  (∀ (u o : Nat) (bs : List Byte) (s : State), u < 16 → linkOn (uport s u) = true → flitCrcOk bs = true →
    let f := flitOf bs
    f.kind = 0 → f.seq = (uport s u).expected → (uport s u).rxKey = [] → carries s u f.vc.toNat = true → s.unlia.nodeValid = true →
    f.dst ≠ s.unlia.nodeId →
    (f.hops = 0 → Completes (.flitReceive u { bytes := bs, corrected := 0, uncorrectable := 0 }) s (fun t => (uport t u).hopLimit = (uport s u).hopLimit + 1 ∧
      (∀ w, (uport t w).txQueue = (uport s w).txQueue) ∧ t.out = s.out ∧ t.dealer = s.dealer)) ∧
    (f.hops ≠ 0 → routeOf s f.dst u = .ok o → Completes (.flitReceive u { bytes := bs, corrected := 0, uncorrectable := 0 }) s (fun t =>
      (uport t o).txQueue = (uport s o).txQueue ++ [(u, { f with hops := f.hops - 1 })] ∧
      (∀ w, w ≠ o → (uport t w).txQueue = (uport s w).txQueue) ∧ (∀ w, (uport t w).hopLimit = (uport s w).hopLimit) ∧
      t.out = s.out ∧ t.dealer = s.dealer)))

/-- Management messages: queries and probes are answered; a position whose holder is lost is ABSENT, with LOSS_RECORD, the event to both
hosts and the message flooded once. Messages are typed by the model, log entries 12 and 50. -/
def Obligations.PositionsLost : Prop :=
  (∀ (node : BitVec 15) (s : State), mgmtServes s = true →
    exec (.probe { node := node, reply := false }) s = .next { s with out := s.out ++ [.mgmt node Msg.probeReply []] } ∧
    (∃ bs, exec (.mgmtQuery node) s = .next { s with out := s.out ++ [.mgmt node Msg.queryReply bs] })) ∧
  (∀ (u : Nat) (node : BitVec 15) (s : State), u < 16 → (uport s u).peerNode = node → Completes (.probe { node := node, reply := true }) s (fun t =>
    (uport t u).probing = none ∧ (∀ w, (uport s w).peerNode ≠ node → uport t w = uport s w) ∧ t.out = s.out ∧ t.dealer = s.dealer)) ∧
  (∀ (u : Nat) (p : BitVec 14) (node : BitVec 15) (count : W32) (s : State), u < 16 → (uport s u).state = .up → s.resets.mgood = true →
    (s.unlia.lossSeen.contains (p, node, count) = true → exec (.loss u p node count) s = .next s) ∧
    (s.unlia.lossSeen.contains (p, node, count) = false → (position s p.toNat).state ≠ 2 → s.unlia.colls = [] → s.dealer.building = none →
      s.dealer.castles = [] → Completes (.loss u p node count) s (fun t =>
        (position t p.toNat).state = 2 ∧ (∀ q, q ≠ p.toNat → position t q = position s q) ∧ t.unlia.lossLast = p ∧
        t.unlia.lossCount = s.unlia.lossCount + 1 ∧ t.unlia.lossSeen = s.unlia.lossSeen ++ [(p, node, count)] ∧
        (∀ x, (portSt t x).events.getLsbD Event.peerLost = true) ∧ t.dealer = s.dealer ∧ t.tiers = s.tiers))) ∧
  (∀ (u p : Nat) (s : State), u < 16 → probeOver s u = true → s.resets.mgood = true → positionOf s (uport s u).peerNode = some p →
    p < 16384 → (position s p).state ≠ 2 → s.unlia.colls = [] → s.dealer.building = none → s.dealer.castles = [] →
    Completes (.probeTimeout u) s (fun t =>
      (uport t u).probing = none ∧ (position t p).state = 2 ∧ t.unlia.lossCount = s.unlia.lossCount + 1 ∧
      t.unlia.lossLast = BitVec.ofNat 14 p ∧ (∀ x, (portSt t x).events.getLsbD Event.peerLost = true) ∧ t.dealer = s.dealer ∧ t.tiers = s.tiers)) ∧
  (∀ (u : Nat) (s : State), u < 16 → probeOver s u = false → exec (.probeTimeout u) s = .next s)

/-- The follower's acknowledgement, a split with its queries, and Glaren's answers: the lead keeps the role while it is heard, and the east
half takes it, under a new EPOCH, when the west has been silent for 2,000 ticks. HOLD makes a half the lead and fences the other;
FENCE, or no answer for 1,000 ticks, fences the half that asked. Once both have fenced the phase is FENCED and MGOOD is low. Silence
and takeover in detail are the model's readings, log entry 53. -/
def Obligations.DealerRoles : Prop :=
  (∀ (s : State),
     (∀ h n, s.dealer.needAck = some n → h ≠ s.dealer.lead → s.dealer.split = false → s.resets.mgood = true →
       exec (.boundaryRecord h) s = .next { s with dealer := { s.dealer with mirrorStep := n, needAck := none } }) ∧
     (s.resets.mgood = true → s.dealer.split = false → s.dealer.phase ≠ .fenced → Completes .splitDetect s (fun t =>
       t.dealer.split = true ∧ asks t .west = true ∧ asks t .east = true ∧ t.out = s.out ++ [.roleQuery .west, .roleQuery .east] ∧
       (s.dealer.halfFenced = false → noLaunch t = true) ∧ t.dealer.phase = s.dealer.phase ∧ t.tiers = s.tiers)) ∧
     (∀ h, asks s h = true → s.resets.glarenReady = true →
       (h = s.dealer.grant → Completes (.roleQuery h) s (fun t => t.out = s.out ++ [.roleAnswer h true s.host.epoch] ∧ t.host = s.host ∧ t.tiers = s.tiers)) ∧
       (h ≠ s.dealer.grant → westSilent s = false → Completes (.roleQuery h) s (fun t =>
         t.out = s.out ++ [.roleAnswer h false s.host.epoch] ∧ t.host = s.host ∧ t.tiers = s.tiers))) ∧
     (asks s .east = true → s.resets.glarenReady = true → westSilent s = true →
       Completes .roleSilenceGrant s (fun t => t.host.epoch = s.host.epoch + 1 ∧ t.host.holder = s.host.holder ∧
         (∃ pre, t.out = pre ++ [.roleAnswer .east true (s.host.epoch + 1)]) ∧ t.dealer = { s.dealer with grant := .east } ∧
         t.tiers = s.tiers ∧ exec .roleSilenceGrant t = .next t) ∧
       Completes (.roleQuery .east) s (fun t => t.host.epoch = s.host.epoch + 1 ∧ t.host.holder = s.host.holder ∧ t.dealer.grant = .east ∧
         t.tiers = s.tiers))) ∧
  (∀ (h : Half) (s : State), asks s h = true →
     (∀ epoch, isFenced s h = false → h = s.dealer.grant → Completes (.roleAnswer h true epoch) s (fun t =>
       t.dealer.lead = h ∧ t.dealer.roleEpoch = epoch ∧ t.dealer.halfFenced = true ∧ isFenced t (Half.other h) = true ∧ isFenced t h = false ∧
       t.dealer.due = true ∧ asks t h = false ∧ (∀ p, (portSt t p).events.getLsbD Event.halfFenced = true) ∧
       (inBoundary s = false → t.tiers = s.tiers ∧ t.units = s.units))) ∧
     (∀ epoch, (isFenced s h = true ∨ h ≠ s.dealer.grant) → exec (.roleAnswer h true epoch) s = .next s) ∧
     (∀ epoch, isFenced s (Half.other h) = false → s.dealer.run = none → Completes (.roleAnswer h false epoch) s (fun t =>
       isFenced t h = true ∧ isFenced t (Half.other h) = false ∧ t.dealer.phase = s.dealer.phase ∧ t.resets.mgood = s.resets.mgood)) ∧
     (∀ epoch, isFenced s (Half.other h) = true → s.dealer.run = none → Completes (.roleAnswer h false epoch) s (fun t =>
       isFenced t h = true ∧ t.dealer.phase = .fenced ∧ t.resets.mgood = false)) ∧
     (∀ e, s.dealer.queries.find? (fun x => decide (x.1 = Half.idx h)) = some e → 1000 ≤ (s.tick - e.2).toNat →
       exec (.roleQueryTimeout h) s = exec (.roleAnswer h false 0) s) ∧
     (∀ e, s.dealer.queries.find? (fun x => decide (x.1 = Half.idx h)) = some e → (s.tick - e.2).toNat < 1000 →
       exec (.roleQueryTimeout h) s = .next s))

/-- Heartbeats and watchdogs: a heartbeat is noted; 20,000 ticks without one of either half is a warm reset of cause 3; Glaren's own
watchdog, and a self-reset, clear its registers but not its records, its settings or the frequency in force; the third within 600 s is
a warm reset of cause 4. The twin's report of the step that the module has reported itself: equal digests advance MATCHED_STEP,
different ones set MISMATCH and raise the event; unarmed, reports are not kept. What a self-reset keeps, and twin details, are the
model's readings, log entries 51 and 54. -/
def Obligations.WatchdogsAndTwins : Prop :=
  (∀ (s : State),
     (∀ h, s.resets.mgood = true → s.resets.glarenReady = true → Completes (.dealerHeartbeat h) s (fun t =>
       Tab.get zero64 t.dealer.heartbeat (Half.idx h) = s.tick ∧
       Tab.get zero64 t.dealer.heartbeat (Half.idx (Half.other h)) = Tab.get zero64 s.dealer.heartbeat (Half.idx (Half.other h)) ∧
       t.dealer.phase = s.dealer.phase ∧ t.out = s.out ∧ t.resets = s.resets)) ∧
     (s.resets.glarenReady = true → canWarm s = true → s.resets.warmHeld = false → s.resets.warmAt = none →
       20000 ≤ (s.tick - Tab.get zero64 s.dealer.heartbeat 0).toNat → 20000 ≤ (s.tick - Tab.get zero64 s.dealer.heartbeat 1).toNat →
       Completes .watchdogDealer s (fun t => t.resets.warmAt = some s.tick ∧ t.resets.warmCauses = 8 ∧ t.dealer = s.dealer ∧ t.tiers = s.tiers)) ∧
     ((s.tick - Tab.get zero64 s.dealer.heartbeat 0).toNat < 20000 → exec .watchdogDealer s = .next s) ∧
     (s.resets.powered = true → s.resets.glarenReady = true → s.dealer.held = none → s.resets.selfResets = [] →
       let restarted (t : State) := t.resets.glarenReady = false ∧ t.resets.selfResets = [s.glaren.gcTick] ∧ t.glaren.sb = s.glaren.sb ∧
         t.glaren.sbNext = s.glaren.sbNext ∧ t.glaren.freq = s.glaren.freq ∧ t.glaren.failedList = s.glaren.failedList ∧
         t.glaren.temps = [] ∧ t.glaren.unlocked = 0 ∧ t.glaren.powerLimit = Glaren.cold.powerLimit ∧ t.dealer = s.dealer ∧ t.tiers = s.tiers ∧
         t.host.holder = s.host.holder ∧ t.host.epoch = s.host.epoch
       Completes .glarenSelfReset s restarted ∧ Completes .watchdogGlaren s restarted) ∧
     (∀ a b, s.resets.selfResets = [a, b] → (s.glaren.gcTick - a).toNat ≤ 600000000 → (s.glaren.gcTick - b).toNat ≤ 600000000 →
       canWarm s = true → s.resets.glarenReady = true → s.dealer.held = none → s.resets.warmHeld = false → s.resets.warmAt = none →
       Completes .watchdogGlaren s (fun t => t.resets.warmAt = some s.tick ∧ t.resets.warmCauses = 16 ∧ t.resets.selfResets = [] ∧
         t.resets.glarenReady = false ∧ t.dealer = s.dealer ∧ t.tiers = s.tiers)) ∧
     (s.resets.powered = true → s.resets.glarenReady = false → s.resets.heldRecords = [] → s.resets.droppedRecords = 0 →
       s.glaren.update.nextAction ≠ 1 → (portSt s .A).heldMove = none → (portSt s .B).heldMove = none → s.glaren.sbNext.toNat % 65536 ≠ 0 →
       Completes .glarenSelfResetEnd s (fun t => t.resets.glarenReady = true ∧ t.glaren.sbNext = s.glaren.sbNext + 1 ∧ t.host = s.host ∧
         (Tab.get (fun _ => Score.blank) t.glaren.sb (scoreIndex s.glaren.sbNext.toNat)).code = 7 ∧ t.dealer = s.dealer ∧ t.tiers = s.tiers))) ∧
  (∀ (x : Report) (step : W64) (plyId : W32) (health : W16) (abandoned : Bool) (digest : W64) (s : State),
     (s.conceal.armed = false → exec (.digestReport step plyId health abandoned digest) s = .next s) ∧
     (s.conceal.armed = true → s.conceal.mismatch = false → s.conceal.ownReports = [x] → s.conceal.twinReports = [] → x.step = step →
       (x.digest = digest → x.plyId = plyId → x.abandoned = abandoned → Completes (.digestReport step plyId health abandoned digest) s (fun t =>
         t.conceal.matched = step ∧ t.conceal.mismatch = false ∧ t.dealer.due = true ∧ t.tiers = s.tiers ∧ t.units = s.units)) ∧
       (x.digest ≠ digest → x.abandoned = false → abandoned = false → Completes (.digestReport step plyId health abandoned digest) s (fun t =>
         t.conceal.mismatch = true ∧ t.conceal.mismatchStep = step ∧ t.conceal.mismatchOwn = x.digest ∧ t.conceal.mismatchTwin = digest ∧
         (∀ p, (portSt t p).events.getLsbD Event.twinMismatch = true) ∧ t.tiers = s.tiers ∧ t.units = s.units))))

/-- Input power: without it everything but flash, the spare lines and what Glaren stores is lost; with it a cold start begins, whose end
raises MGOOD with a boundary due. Warm reset, 10 µs after its request: LPDDR5X, flash and the mark owners are kept, bonded SRAM, the
dealers, the queues and the holder are not; EPOCH advances and MGOOD is high again. WARM_N held low holds it. Order of records, retries
and the hold of WARM_N are the model's readings, log entry 51; the contents of LPDDR5X after power-on are log entry 4. -/
def Obligations.StartsAndResets : Prop :=
  (∀ (s : State),
     (s.resets.powered = true → Completes .inputLoss s (fun t => t.resets.powered = false ∧ t.resets.mgood = false ∧ t.tiers.mem = [] ∧
       t.tiers.objects = [] ∧ t.tiers.flash = s.tiers.flash ∧ t.tiers.spares = s.tiers.spares ∧ t.dealer.run = none ∧ t.dealer.phase = .idle ∧
       t.host.holder = none ∧ t.units = Units.cold ∧ t.tick = 0)) ∧
     (s.resets.powered = false → s.resets.recovery = false → s.resets.failedStarts < 3 → Completes .powerGood s (fun t =>
       t.resets.powered = true ∧ t.resets.starting = true ∧ t.resets.mgood = false ∧ t.resets.causes = 1 ∧
       t.resets.bootCount = s.resets.bootCount + 1 ∧ t.host.epoch = 1 ∧ t.host.holder = none ∧ t.glaren.gcTick = 0 ∧
       t.tiers.flash = s.tiers.flash ∧ t.tiers.mem = [])) ∧
     (s.resets.powered = false → s.resets.recovery = false → 3 ≤ s.resets.failedStarts → Completes .powerGood s (fun t =>
       t.resets.recovery = true ∧ t.resets.mgood = false ∧ t.resets.starting = false)) ∧
     (s.resets.starting = true → s.resets.startTest = none → s.glaren.update.incoming = false →
       (s.resets.warmN = true → ∀ saved failed, Completes (.coldStart saved false failed none) s (fun t =>
         t.resets.mgood = true ∧ t.resets.starting = false ∧ t.dealer.due = true ∧ t.resets.ddrRetrained = (!saved) ∧
         t.tiers.mem = s.tiers.mem ∧ t.tiers.flash = s.tiers.flash ∧ t.dealer.phase = s.dealer.phase ∧
         (∀ x ∈ failed, x.2 < 9 → (Tab.get (fun _ => 0) t.glaren.failedList x.1).getLsbD x.2 = true))) ∧
       (s.resets.warmN = false → ∀ saved failed, Completes (.coldStart saved false failed none) s (fun t =>
         t.resets.startTest = some failed ∧ t.resets.mgood = s.resets.mgood)) ∧
       (∀ saved failed, Completes (.coldStart saved false failed (some 4)) s (fun t =>
         t.resets.retry = true ∧ t.resets.failedStarts = s.resets.failedStarts + 1 ∧ t.resets.failStep = 4 ∧ t.resets.mgood = false))) ∧
     (∀ k, s.resets.starting = true → s.resets.startTest = none → 30000000 ≤ (s.glaren.gcTick - s.resets.startGc).toNat →
       Completes (.startTimeout k) s (fun t => t.resets.retry = true ∧ t.resets.failedStarts = s.resets.failedStarts + 1 ∧
         t.resets.failStep = k ∧ t.resets.mgood = false)) ∧
     (∀ k, s.resets.starting = false → exec (.startTimeout k) s = .next s) ∧
     (s.resets.retry = true → s.resets.powered = true → 1000000 ≤ (s.glaren.gcTick - s.resets.startGc).toNat → s.resets.failedStarts < 3 → s.resets.recovery = false → Completes .startRetry s (fun t =>
       t.resets.starting = true ∧ t.resets.causes = 0x40 ∧ t.resets.bootCount = s.resets.bootCount + 1 ∧ t.resets.retry = false))) ∧
  (∀ (s : State),
     (∀ t0, s.resets.warmAt = some t0 → s.dealer.building = none → s.resets.warmHeld = false → 10 ≤ (s.tick - t0).toNat → s.resets.startOk = true →
       s.resets.failedStarts < 3 → s.resets.recovery = false → s.glaren.update.nextAction = 0 →
       (s.resets.warmN = true → Completes (.warmReset none) s (fun t => t.resets.mgood = true ∧ t.resets.warmAt = none ∧ t.host.holder = none ∧
         t.host.epoch = s.host.epoch + 1 ∧ t.dealer.phase = .idle ∧ t.dealer.run = none ∧ t.tiers.objects = [] ∧ t.tiers.flash = s.tiers.flash ∧
         (∀ a, directBase ≤ a → readByte t.tiers.mem a = readByte s.tiers.mem a) ∧ (∀ a, a < sramEnd → readByte t.tiers.mem a = 0) ∧
         t.resets.causes = s.resets.warmCauses ∧ t.resets.warmCount = satInc s.resets.warmCount)) ∧
       (s.resets.warmN = false → Completes (.warmReset none) s (fun t => t.resets.warmHeld = true ∧ t.resets.mgood = false)) ∧
       (∀ k, Completes (.warmReset (some k)) s (fun t => t.resets.retry = true ∧ t.resets.failStep = k ∧ t.resets.mgood = false))) ∧
     (s.resets.warmAt = none → ∀ k, exec (.warmReset k) s = .next s) ∧
     (s.resets.warmN = true → canWarm s = true → s.resets.warmHeld = false → s.resets.warmAt = none → Completes .warmNAssert s (fun t =>
       t.resets.warmN = false ∧ t.resets.warmAt = some s.tick ∧ t.resets.warmCauses = 4 ∧ t.dealer = s.dealer ∧ t.tiers = s.tiers)) ∧
     (s.resets.warmN = false → s.resets.warmHeld = true → s.glaren.update.nextAction = 0 → Completes .warmNRelease s (fun t =>
       t.resets.warmN = true ∧ t.resets.mgood = true ∧ t.resets.warmHeld = false ∧ t.tiers.mem = s.tiers.mem ∧ t.tiers.flash = s.tiers.flash)) ∧
     (s.resets.warmN = true → exec .warmNRelease s = .next s))

/-- PCIe ports: PERST# and a lost link take the link down, and with it the move, the queues' running and the port's requests; a ready port
trains at a rate and width it has; a resize keeps the window in one view. The other port is unchanged but for its event. -/
def Obligations.PciePorts : Prop :=
  ∀ (p : Port) (s : State),
    (s.resets.mgood = true → (portSt s p).linkUp = true → s.host.queues = [] → s.dealer.requests = [] →
      Completes (.pcieLinkDown p) s (fun t => (portSt t p).linkUp = false ∧ (portSt t p).rate = 0 ∧ (portSt t p).width = 0 ∧
        t.host.holder = (if s.host.holder = some p then none else s.host.holder) ∧
        (portSt t (Port.other p)).linkUp = (portSt s (Port.other p)).linkUp ∧
        (portSt t (Port.other p)).events.getLsbD Event.otherPortDown = true ∧ t.dealer = s.dealer ∧ t.tiers = s.tiers) ∧
      ((portSt s p).perst = false → Completes (.perstAssert p) s (fun t => (portSt t p).perst = true ∧ (portSt t p).linkUp = false ∧
        (portSt t p).events = PortSt.cold.events ∧ t.host.holder = (if s.host.holder = some p then none else s.host.holder) ∧
        t.host.marks = s.host.marks ∧ t.dealer = s.dealer ∧ t.tiers = s.tiers))) ∧
    ((portSt s p).linkUp = false → exec (.pcieLinkDown p) s = .next s) ∧
    ((portSt s p).perst = true → Completes (.perstDeassert p) s (fun t => (portSt t p).perst = false ∧
      (portSt t p).ready = decide ((block s (portBlock p)).state = .open_) ∧ portSt t (Port.other p) = portSt s (Port.other p) ∧
      t.dealer = s.dealer ∧ t.tiers = s.tiers ∧ t.out = s.out)) ∧
    (∀ rate width, mayTrain s p rate width = true → Completes (.pcieLinkTrained p rate width) s (fun t =>
      (portSt t p).linkUp = true ∧ (portSt t p).rate = rate ∧ (portSt t p).width = width ∧ portSt t (Port.other p) = portSt s (Port.other p) ∧
      t.dealer = s.dealer ∧ t.tiers = s.tiers ∧ t.out = s.out)) ∧
    (∀ rate width, mayTrain s p rate width = false → exec (.pcieLinkTrained p rate width) s = .next s) ∧
    (∀ n d v, 30 ≤ n → n ≤ 40 → v ≤ 15 → Completes (.pcieConfigurationWrite p (some n) (some d) (some v)) s (fun t =>
      (portSt t p).bar2Log2 = n ∧ (portSt t p).d3hot = d ∧ (portSt t p).numVfs = v ∧
      windowOk (portSt t p).base.toNat n = (windowOk (portSt s p).base.toNat n || windowOk 0x400 n) ∧
      portSt t (Port.other p) = portSt s (Port.other p) ∧ t.dealer = s.dealer ∧ t.tiers = s.tiers ∧ t.out = s.out))

/-- Sensors, caps, the hold-up bank, the clock monitors and the summaries. Limits, caps and summaries in detail are the model's readings,
log entry 59; samples are operands, log entry 14. -/
def Obligations.SensorsAndClocks : Prop :=
  ∀ (s : State),
    (∀ i v a, i < 74 → i ≠ 48 → s.resets.powered = true → s.resets.glarenReady = true → judged s i = true →
      overCritical s i (sensorAt s i).value v = false → Completes (.sensorSample i v a) s (fun t =>
        (sensorAt t i).value = v ∧ (sensorAt t i).maxV = max (sensorAt s i).maxV v ∧ (sensorAt t i).amps = a ∧
        (overWarn s i false v = true → (sensorAt t i).level = 2) ∧ (∀ j, j < 74 → j ≠ i → sensorAt t j = sensorAt s j) ∧
        t.resets.mgood = s.resets.mgood ∧ t.tiers = s.tiers ∧ t.host = s.host)) ∧
    (∀ i v a, i < 74 → i ≠ 48 → s.resets.powered = true → s.resets.glarenReady = true → judged s i = true →
      overCritical s i (sensorAt s i).value v = true → Completes (.sensorSample i v a) s (fun t =>
        t.resets.shutdown = true ∧ t.resets.mgood = false ∧ t.resets.powered = true ∧ t.tiers.flash = s.tiers.flash)) ∧
    (∀ v a, s.resets.powered = true → s.resets.glarenReady = true → Completes (.sensorSample 48 v a) s (fun t =>
      (sensorAt t 48).value = v ∧ (sensorAt t 48).maxV = max (sensorAt s 48).maxV v ∧
      t.glaren.powerSamples = (s.glaren.powerSamples ++ [v.toNat * a]).drop (s.glaren.powerSamples.length + 1 - 10) ∧
      (∀ r, s.dealer.run = some r → ∃ r', t.dealer.run = some r' ∧ r'.energy = r.energy + 10 * (v.toNat * a)) ∧ t.tiers = s.tiers)) ∧
    (∀ i, i < 74 → (sensorAt s i).level = 2 → (sensorAt s i).warnSince ≠ 0 →
      1000000 ≤ (s.glaren.gcTick + 1 - (sensorAt s i).warnSince).toNat → Completes (.sensorWarnClear i) s (fun t =>
        (sensorAt t i).level = calmLevel i (sensorAt s i).value ∧ (sensorAt t i).value = (sensorAt s i).value ∧
        (∀ j, j < 74 → j ≠ i → sensorAt t j = sensorAt s j) ∧ t.dealer = s.dealer ∧ t.resets = s.resets)) ∧
    (s.glaren.peakCap.isSome = true → 2 ≤ s.glaren.peakBoundaries → 100000 ≤ (s.tick - s.glaren.peakTick).toNat →
      Completes .peakCapRelease s (fun t => t.glaren.peakCap = none ∧ t.glaren.thermalCap = s.glaren.thermalCap ∧ t.dealer = s.dealer)) ∧
    (s.glaren.peakBoundaries < 2 → exec .peakCapRelease s = .next s) ∧
    (∀ ok, s.resets.powered = true → Completes (.holdupCheck ok) s (fun t => t.glaren.holdupLow = (!ok) ∧ t.dealer = s.dealer ∧ t.tiers = s.tiers)) ∧
    (∀ k count, k < 39 → s.resets.powered = true → (Tab.get (fun _ => Clock.cold) s.resets.clocks k).locked = true →
      Completes (.clockMonitorWindow k true false count) s (fun t =>
      inWindow (clockExpected s k) count.toNat = true →
        (Tab.get (fun _ => Clock.cold) t.resets.clocks k).stable = true ∧ (Tab.get (fun _ => Clock.cold) t.resets.clocks k).lastCount = count ∧
        (∀ j, j ≠ k → Tab.get (fun _ => Clock.cold) t.resets.clocks j = Tab.get (fun _ => Clock.cold) s.resets.clocks j) ∧
        t.dealer = s.dealer ∧ t.units = s.units)) ∧
    (∀ k count, k < 4 → s.resets.powered = true → s.resets.mgood = true → canWarm s = true → s.resets.warmHeld = false → s.resets.warmAt = none →
      inWindow (clockExpected s k) count.toNat = false → Completes (.clockMonitorWindow k true false count) s (fun t =>
        t.resets.warmAt = some s.tick ∧ t.resets.warmCauses = 32 ∧ (Tab.get (fun _ => Clock.cold) t.resets.clocks k).stable = false ∧
        t.dealer = s.dealer)) ∧
    (s.resets.powered = true → 3600000000 ≤ (s.glaren.gcTick - s.glaren.lastSummary).toNat → Completes .scorebookSummary s (fun t =>
      t.glaren.lastSummary = s.glaren.gcTick ∧ (∀ b, (b < 4 ∨ 32 ≤ b ∧ b < 64) → natAt t.glaren.summary b = blockEvents s b) ∧
      t.dealer = s.dealer ∧ t.tiers = s.tiers ∧ t.host = s.host))

/-- Elements of the block formats: the code with the sign bit set and magnitude 0 is a NaN, every other code its signed integer scaled by
the block's and the group's exponents; no code is an infinity, and only the code 0 has the value 0. -/
def Obligations.BlockElements : Prop :=
  ∀ (f : Fmt) (blk i : Nat), f = .pb4 ∨ f = .pb6 → i < 64 →
    let w := f.elemBits
    let code := bitsOf blk (24 + w * i) w
    let e : Int := (bitsOf blk 0 8 : Nat) - 127 + (bitsOf blk (8 + 2 * (i / 8)) 2 : Nat)
    (code = 2 ^ (w - 1) → pbElem f blk i = .nan) ∧
    (code < 2 ^ (w - 1) → pbElem f blk i = .fin code e) ∧
    (2 ^ (w - 1) < code → pbElem f blk i = .fin (-((code : Int) - 2 ^ (w - 1))) e) ∧
    (∀ m x, pbElem f blk i = .fin m x → m = 0 → code = 0) ∧ (∀ neg, pbElem f blk i ≠ .inf neg)

/-- What reset leaves: no phase but IDLE, no step and no move holder, EPOCH 1, every object invalid, every request FREE, every mark 0 with
its port's owner, both slots EMPTY, no position, no fault, no book; memory in its canonical form. That the state after reset is the end
of a blank module's first cold start, and the contents of stores without a reset value, are the model's choices, log entries 3 to 5. -/
def Obligations.ResetState : Prop :=
  let s := State.reset
  s.pending = [] ∧ s.resets.mgood = true ∧ s.dealer.phase = .idle ∧ s.dealer.stepNumber = 0 ∧ s.dealer.run = none ∧
  s.dealer.lead = .west ∧ s.dealer.westFenced = false ∧ s.dealer.eastFenced = false ∧ s.dealer.genBook = none ∧ s.dealer.learnBook = none ∧
  s.dealer.fault.valid = false ∧ s.host.holder = none ∧ s.host.epoch = 1 ∧ s.unlia.colls = [] ∧ s.glaren.unlocked = 0 ∧ MemOk s ∧
  (∀ o, (obj s o).valid = false) ∧ (∀ e, (request s e).state = .free) ∧ (∀ i, (slot s i).state = .empty) ∧
  (∀ p, (position s p).state = 0) ∧ (∀ q, (queue s q).enable = false) ∧
  (∀ m, (mark s m).value = 0 ∧ (mark s m).owner = { port := if m < 2048 then .A else .B, num := 0 }) ∧
  (∀ k, Tab.get (fun _ => FlagSum.cold) s.units.flags k = FlagSum.cold) ∧ (∀ c, Tab.get zero64 s.counters.stallAc c = 0)

/-- Every step keeps the memory in its canonical form: addresses strictly rising, and no entry equal to what an unlisted address reads as.
The canonical form is the model's own (log entry 63). -/
def Obligations.MemoryCanonical : Prop :=
  ∀ (s t : State), MemOk s → step s = .next t → MemOk t

/-- Encoding and decoding of the 128-bit instructions agree: for every well-formed instruction, with every operand at every value, the word
that the encoding gives decodes to that instruction and its common fields. -/
def Obligations.InsnRoundTrip : Prop :=
  ∀ (c : Common) (x : Insn), x.wf = true → decodeInsn (encodeInsn c x) = some (c, x)
end

