-- ==== Sys2Proof/Laws/Tab.lean ====
section
/-! SUPPORT. Sparse tables: what an entry reads after each table operation, and that each keeps the canonical form. -/

namespace Sys2Proof.Machine

set_option Elab.async false

variable {α : Type}

@[simp] theorem Tab.get_nil (d : Nat → α) (k : Nat) : Tab.get d [] k = d k := rfl

theorem Tab.get_cons (d : Nat → α) (e : Nat × α) (t : Tab α) (k : Nat) :
    Tab.get d (e :: t) k = if e.1 = k then e.2 else Tab.get d t k := rfl

@[simp] theorem Tab.get_put (d : Nat → α) (t : Tab α) (j k : Nat) (v : α) :
    Tab.get d (Tab.put j v t) k = if j = k then v else Tab.get d t k := by
  induction t with
  | nil => rfl
  | cons e t ih =>
    simp only [Tab.put]
    split
    · rfl
    · split
      · rename_i h; subst h; simp only [Tab.get_cons]; split <;> rfl
      · rename_i h1 h2
        simp only [Tab.get_cons, ih]
        by_cases h : e.1 = k
        · subst h; simp [h2]
        · simp [h]

@[simp] theorem Tab.get_drop (d : Nat → α) (t : Tab α) (j k : Nat) :
    Tab.get d (Tab.drop j t) k = if j = k then d k else Tab.get d t k := by
  induction t with
  | nil => simp [Tab.drop]
  | cons e t ih =>
    rw [Tab.drop] at ih ⊢
    rw [List.filter_cons]
    by_cases h : e.1 = j
    · subst h; simp only [ne_eq, not_true_eq_false, decide_false, Bool.false_eq_true, if_false, ih, Tab.get_cons]
      split <;> rfl
    · simp only [ne_eq, h, not_false_eq_true, decide_true, if_true, ih, Tab.get_cons]
      by_cases h2 : e.1 = k
      · have h3 : ¬ j = k := fun x => h (h2.trans x.symm)
        simp [h2, h3]
      · simp [h2]

variable [DecidableEq α]

/-- Reading after a write: the value written at its index, the old value at every other. -/
@[simp] theorem Tab.get_set (d : Nat → α) (t : Tab α) (j k : Nat) (v : α) :
    Tab.get d (Tab.set d t j v) k = if j = k then v else Tab.get d t k := by
  unfold Tab.set
  split
  · rename_i h; rw [Tab.get_drop]; split
    · rename_i h2; subst h2; exact h.symm
    · rfl
  · exact Tab.get_put d t j k v

@[simp] theorem Tab.get_mod (d : Nat → α) (t : Tab α) (j k : Nat) (f : α → α) :
    Tab.get d (Tab.mod d t j f) k = if j = k then f (Tab.get d t k) else Tab.get d t k := by
  unfold Tab.mod
  rw [Tab.get_set]
  split
  · rename_i h; rw [h]
  · rfl

theorem Tab.wf_cons (d : Nat → α) (e : Nat × α) (t : Tab α) :
    Tab.wf d (e :: t) = true ↔ e.2 ≠ d e.1 ∧ (∀ x ∈ t, e.1 < x.1) ∧ Tab.wf d t = true := by
  simp [Tab.wf, and_assoc]

theorem Tab.mem_put (j : Nat) (v : α) (t : Tab α) (x : Nat × α) (h : x ∈ Tab.put j v t) : x = (j, v) ∨ x ∈ t := by
  induction t with
  | nil => simpa [Tab.put] using h
  | cons e t ih =>
    simp only [Tab.put] at h
    split at h
    · simpa using h
    · split at h
      · simp at h ⊢; tauto
      · simp at h ⊢
        rcases h with h | h
        · exact .inr (.inl h)
        · rcases ih h with h | h
          · exact .inl h
          · exact .inr (.inr h)

theorem Tab.wf_put (d : Nat → α) (j : Nat) (v : α) (t : Tab α) (hv : v ≠ d j) (h : Tab.wf d t = true) :
    Tab.wf d (Tab.put j v t) = true := by
  induction t with
  | nil => simp [Tab.put, Tab.wf, hv]
  | cons e t ih =>
    obtain ⟨h1, h2, h3⟩ := (Tab.wf_cons d e t).1 h
    simp only [Tab.put]
    split
    · rename_i hlt
      refine (Tab.wf_cons d _ _).2 ⟨hv, ?_, h⟩
      intro x hx
      rcases List.mem_cons.1 hx with rfl | hx
      · exact hlt
      · exact Nat.lt_trans hlt (h2 x hx)
    · split
      · rename_i he
        refine (Tab.wf_cons d _ _).2 ⟨hv, ?_, h3⟩
        intro x hx; have := h2 x hx; simp only [he]; exact this
      · rename_i hlt hne
        refine (Tab.wf_cons d _ _).2 ⟨h1, ?_, ih h3⟩
        intro x hx
        rcases Tab.mem_put j v t x hx with rfl | hx
        · simp; omega
        · exact h2 x hx

/-- Leaving entries out keeps the canonical form. -/
theorem Tab.wf_filter (d : Nat → α) (p : Nat × α → Bool) (t : Tab α) (h : Tab.wf d t = true) : Tab.wf d (t.filter p) = true := by
  induction t with
  | nil => rfl
  | cons e t ih =>
    obtain ⟨h1, h2, h3⟩ := (Tab.wf_cons d e t).1 h
    rw [List.filter_cons]
    split
    · exact (Tab.wf_cons d _ _).2 ⟨h1, fun x hx => h2 x (List.mem_filter.1 hx).1, ih h3⟩
    · exact ih h3

theorem Tab.wf_drop (d : Nat → α) (j : Nat) (t : Tab α) (h : Tab.wf d t = true) : Tab.wf d (Tab.drop j t) = true :=
  Tab.wf_filter d _ t h

/-- Writing an entry keeps the canonical form. -/
theorem Tab.wf_set (d : Nat → α) (t : Tab α) (j : Nat) (v : α) (h : Tab.wf d t = true) : Tab.wf d (Tab.set d t j v) = true := by
  unfold Tab.set
  split
  · exact Tab.wf_drop d j t h
  · rename_i hv; exact Tab.wf_put d j v t hv h

theorem Tab.wf_mod (d : Nat → α) (t : Tab α) (j : Nat) (f : α → α) (h : Tab.wf d t = true) : Tab.wf d (Tab.mod d t j f) = true :=
  Tab.wf_set d t j _ h

/-- Every listed index of a canonical table holds what is listed for it. -/
theorem Tab.get_of_mem (d : Nat → α) (t : Tab α) (h : Tab.wf d t = true) (k : Nat) (v : α) (hm : (k, v) ∈ t) : Tab.get d t k = v := by
  induction t with
  | nil => simp at hm
  | cons e t ih =>
    obtain ⟨_, h2, h3⟩ := (Tab.wf_cons d e t).1 h
    rcases List.mem_cons.1 hm with rfl | hm
    · simp [Tab.get_cons]
    · have := h2 _ hm
      have hne : ¬ e.1 = k := by simp at this; omega
      simp [Tab.get_cons, hne, ih h3 hm]

omit [DecidableEq α] in
/-- An index below every listed one reads as unlisted. -/
theorem Tab.get_of_lt (d : Nat → α) (t : Tab α) (k : Nat) (h : ∀ x ∈ t, k < x.1) : Tab.get d t k = d k := by
  induction t with
  | nil => rfl
  | cons e t ih =>
    have h1 := h e (by simp)
    have hne : ¬ e.1 = k := by omega
    simp [Tab.get_cons, hne, ih (fun x hx => h x (by simp [hx]))]

/-- Two canonical tables that read alike everywhere are equal. -/
theorem Tab.ext_wf (d : Nat → α) (t u : Tab α) (ht : Tab.wf d t = true) (hu : Tab.wf d u = true)
    (h : ∀ k, Tab.get d t k = Tab.get d u k) : t = u := by
  induction t generalizing u with
  | nil =>
    cases u with
    | nil => rfl
    | cons f u =>
      obtain ⟨h1, _, _⟩ := (Tab.wf_cons d f u).1 hu
      have := h f.1
      simp [Tab.get_cons] at this
      exact absurd this.symm h1
  | cons e t ih =>
    obtain ⟨e1, e2, e3⟩ := (Tab.wf_cons d e t).1 ht
    cases u with
    | nil =>
      have := h e.1
      simp [Tab.get_cons] at this
      exact absurd this e1
    | cons f u =>
      obtain ⟨f1, f2, f3⟩ := (Tab.wf_cons d f u).1 hu
      have hk : e.1 = f.1 := by
        rcases Nat.lt_trichotomy e.1 f.1 with hlt | heq | hgt
        · have := h e.1
          have hne : ¬ f.1 = e.1 := by omega
          rw [Tab.get_cons, Tab.get_cons, if_pos rfl, if_neg hne,
            Tab.get_of_lt d u e.1 (fun x hx => Nat.lt_trans hlt (f2 x hx))] at this
          exact absurd this e1
        · exact heq
        · have := h f.1
          have hne : ¬ e.1 = f.1 := by omega
          rw [Tab.get_cons, Tab.get_cons, if_pos rfl, if_neg hne,
            Tab.get_of_lt d t f.1 (fun x hx => Nat.lt_trans hgt (e2 x hx))] at this
          exact absurd this.symm f1
      have hv : e.2 = f.2 := by
        have := h e.1
        simpa [Tab.get_cons, hk] using this
      have hef : e = f := Prod.ext hk hv
      subst hef
      congr 1
      refine ih u e3 f3 (fun k => ?_)
      by_cases hk2 : e.1 = k
      · subst hk2; rw [Tab.get_of_lt d t _ e2, Tab.get_of_lt d u _ f2]
      · have := h k
        simpa [Tab.get_cons, hk2] using this

end Sys2Proof.Machine
end

