-- ==== Sys2Proof/Laws/State.lean ====
section
/-! SUPPORT. One lemma per field per update of State, and what each reader gives after each update. -/

namespace Sys2Proof.Machine

set_option Elab.async false

/-! ### setPort -/

@[simp] theorem setPort_pending (p : Port) (f : PortSt → PortSt) (s : State) : (setPort p f s).pending = s.pending := rfl
@[simp] theorem setPort_tick (p : Port) (f : PortSt → PortSt) (s : State) : (setPort p f s).tick = s.tick := rfl
@[simp] theorem setPort_dealer (p : Port) (f : PortSt → PortSt) (s : State) : (setPort p f s).dealer = s.dealer := rfl
@[simp] theorem setPort_units (p : Port) (f : PortSt → PortSt) (s : State) : (setPort p f s).units = s.units := rfl
@[simp] theorem setPort_counters (p : Port) (f : PortSt → PortSt) (s : State) : (setPort p f s).counters = s.counters := rfl
@[simp] theorem setPort_tiers (p : Port) (f : PortSt → PortSt) (s : State) : (setPort p f s).tiers = s.tiers := rfl
@[simp] theorem setPort_unlia (p : Port) (f : PortSt → PortSt) (s : State) : (setPort p f s).unlia = s.unlia := rfl
@[simp] theorem setPort_conceal (p : Port) (f : PortSt → PortSt) (s : State) : (setPort p f s).conceal = s.conceal := rfl
@[simp] theorem setPort_resets (p : Port) (f : PortSt → PortSt) (s : State) : (setPort p f s).resets = s.resets := rfl
@[simp] theorem setPort_glaren (p : Port) (f : PortSt → PortSt) (s : State) : (setPort p f s).glaren = s.glaren := rfl
@[simp] theorem setPort_out (p : Port) (f : PortSt → PortSt) (s : State) : (setPort p f s).out = s.out := rfl
@[simp] theorem setPort_framed (p : Port) (f : PortSt → PortSt) (s : State) : (setPort p f s).framed = s.framed := rfl
@[simp] theorem setPort_free (p : Port) (f : PortSt → PortSt) (s : State) : (setPort p f s).free = s.free := rfl
@[simp] theorem setPort_host_queues (p : Port) (f : PortSt → PortSt) (s : State) : (setPort p f s).host.queues = s.host.queues := rfl
@[simp] theorem setPort_host_marks (p : Port) (f : PortSt → PortSt) (s : State) : (setPort p f s).host.marks = s.host.marks := rfl
@[simp] theorem setPort_host_holder (p : Port) (f : PortSt → PortSt) (s : State) : (setPort p f s).host.holder = s.host.holder := rfl
@[simp] theorem setPort_host_epoch (p : Port) (f : PortSt → PortSt) (s : State) : (setPort p f s).host.epoch = s.host.epoch := rfl
@[simp] theorem setPort_host_lease (p : Port) (f : PortSt → PortSt) (s : State) : (setPort p f s).host.lease = s.host.lease := rfl
@[simp] theorem setPort_host_leaseStart (p : Port) (f : PortSt → PortSt) (s : State) : (setPort p f s).host.leaseStart = s.host.leaseStart := rfl
@[simp] theorem setPort_host_rejected (p : Port) (f : PortSt → PortSt) (s : State) : (setPort p f s).host.rejected = s.host.rejected := rfl
@[simp] theorem setPort_host_rejOffset (p : Port) (f : PortSt → PortSt) (s : State) : (setPort p f s).host.rejOffset = s.host.rejOffset := rfl
@[simp] theorem setPort_host_rejPort (p : Port) (f : PortSt → PortSt) (s : State) : (setPort p f s).host.rejPort = s.host.rejPort := rfl
@[simp] theorem setPort_host_heldFirst (p : Port) (f : PortSt → PortSt) (s : State) : (setPort p f s).host.heldFirst = s.host.heldFirst := rfl
@[simp] theorem setPort_host_ops (p : Port) (f : PortSt → PortSt) (s : State) : (setPort p f s).host.ops = s.host.ops := rfl
@[simp] theorem setPort_host_nextOp (p : Port) (f : PortSt → PortSt) (s : State) : (setPort p f s).host.nextOp = s.host.nextOp := rfl
@[simp] theorem queue_setPort (p : Port) (f : PortSt → PortSt) (k : Nat) (s : State) : queue (setPort p f s) k = queue s k := rfl
@[simp] theorem mark_setPort (p : Port) (f : PortSt → PortSt) (k : Nat) (s : State) : mark (setPort p f s) k = mark s k := rfl
@[simp] theorem obj_setPort (p : Port) (f : PortSt → PortSt) (k : Nat) (s : State) : obj (setPort p f s) k = obj s k := rfl
@[simp] theorem layer_setPort (p : Port) (f : PortSt → PortSt) (k : Nat) (s : State) : layer (setPort p f s) k = layer s k := rfl
@[simp] theorem request_setPort (p : Port) (f : PortSt → PortSt) (k : Nat) (s : State) : request (setPort p f s) k = request s k := rfl
@[simp] theorem slot_setPort (p : Port) (f : PortSt → PortSt) (k : Nat) (s : State) : slot (setPort p f s) k = slot s k := rfl
@[simp] theorem position_setPort (p : Port) (f : PortSt → PortSt) (k : Nat) (s : State) : position (setPort p f s) k = position s k := rfl
@[simp] theorem group_setPort (p : Port) (f : PortSt → PortSt) (k : Nat) (s : State) : group (setPort p f s) k = group s k := rfl
@[simp] theorem block_setPort (p : Port) (f : PortSt → PortSt) (k : Nat) (s : State) : block (setPort p f s) k = block s k := rfl
@[simp] theorem opAt_setPort (p : Port) (f : PortSt → PortSt) (k : Nat) (s : State) : opAt (setPort p f s) k = opAt s k := rfl
@[simp] theorem uport_setPort (p : Port) (f : PortSt → PortSt) (k : Nat) (s : State) : uport (setPort p f s) k = uport s k := rfl

/-! ### setQueue -/

@[simp] theorem setQueue_pending (q : Nat) (f : Queue → Queue) (s : State) : (setQueue q f s).pending = s.pending := rfl
@[simp] theorem setQueue_tick (q : Nat) (f : Queue → Queue) (s : State) : (setQueue q f s).tick = s.tick := rfl
@[simp] theorem setQueue_dealer (q : Nat) (f : Queue → Queue) (s : State) : (setQueue q f s).dealer = s.dealer := rfl
@[simp] theorem setQueue_units (q : Nat) (f : Queue → Queue) (s : State) : (setQueue q f s).units = s.units := rfl
@[simp] theorem setQueue_counters (q : Nat) (f : Queue → Queue) (s : State) : (setQueue q f s).counters = s.counters := rfl
@[simp] theorem setQueue_tiers (q : Nat) (f : Queue → Queue) (s : State) : (setQueue q f s).tiers = s.tiers := rfl
@[simp] theorem setQueue_unlia (q : Nat) (f : Queue → Queue) (s : State) : (setQueue q f s).unlia = s.unlia := rfl
@[simp] theorem setQueue_conceal (q : Nat) (f : Queue → Queue) (s : State) : (setQueue q f s).conceal = s.conceal := rfl
@[simp] theorem setQueue_resets (q : Nat) (f : Queue → Queue) (s : State) : (setQueue q f s).resets = s.resets := rfl
@[simp] theorem setQueue_glaren (q : Nat) (f : Queue → Queue) (s : State) : (setQueue q f s).glaren = s.glaren := rfl
@[simp] theorem setQueue_out (q : Nat) (f : Queue → Queue) (s : State) : (setQueue q f s).out = s.out := rfl
@[simp] theorem setQueue_framed (q : Nat) (f : Queue → Queue) (s : State) : (setQueue q f s).framed = s.framed := rfl
@[simp] theorem setQueue_free (q : Nat) (f : Queue → Queue) (s : State) : (setQueue q f s).free = s.free := rfl
@[simp] theorem setQueue_host_marks (q : Nat) (f : Queue → Queue) (s : State) : (setQueue q f s).host.marks = s.host.marks := rfl
@[simp] theorem setQueue_host_holder (q : Nat) (f : Queue → Queue) (s : State) : (setQueue q f s).host.holder = s.host.holder := rfl
@[simp] theorem setQueue_host_epoch (q : Nat) (f : Queue → Queue) (s : State) : (setQueue q f s).host.epoch = s.host.epoch := rfl
@[simp] theorem setQueue_host_lease (q : Nat) (f : Queue → Queue) (s : State) : (setQueue q f s).host.lease = s.host.lease := rfl
@[simp] theorem setQueue_host_leaseStart (q : Nat) (f : Queue → Queue) (s : State) : (setQueue q f s).host.leaseStart = s.host.leaseStart := rfl
@[simp] theorem setQueue_host_rejected (q : Nat) (f : Queue → Queue) (s : State) : (setQueue q f s).host.rejected = s.host.rejected := rfl
@[simp] theorem setQueue_host_rejOffset (q : Nat) (f : Queue → Queue) (s : State) : (setQueue q f s).host.rejOffset = s.host.rejOffset := rfl
@[simp] theorem setQueue_host_rejPort (q : Nat) (f : Queue → Queue) (s : State) : (setQueue q f s).host.rejPort = s.host.rejPort := rfl
@[simp] theorem setQueue_host_heldFirst (q : Nat) (f : Queue → Queue) (s : State) : (setQueue q f s).host.heldFirst = s.host.heldFirst := rfl
@[simp] theorem setQueue_host_ports (q : Nat) (f : Queue → Queue) (s : State) : (setQueue q f s).host.ports = s.host.ports := rfl
@[simp] theorem setQueue_host_ops (q : Nat) (f : Queue → Queue) (s : State) : (setQueue q f s).host.ops = s.host.ops := rfl
@[simp] theorem setQueue_host_nextOp (q : Nat) (f : Queue → Queue) (s : State) : (setQueue q f s).host.nextOp = s.host.nextOp := rfl
@[simp] theorem portSt_setQueue (q : Nat) (f : Queue → Queue) (p' : Port) (s : State) : portSt (setQueue q f s) p' = portSt s p' := rfl
@[simp] theorem mark_setQueue (q : Nat) (f : Queue → Queue) (k : Nat) (s : State) : mark (setQueue q f s) k = mark s k := rfl
@[simp] theorem obj_setQueue (q : Nat) (f : Queue → Queue) (k : Nat) (s : State) : obj (setQueue q f s) k = obj s k := rfl
@[simp] theorem layer_setQueue (q : Nat) (f : Queue → Queue) (k : Nat) (s : State) : layer (setQueue q f s) k = layer s k := rfl
@[simp] theorem request_setQueue (q : Nat) (f : Queue → Queue) (k : Nat) (s : State) : request (setQueue q f s) k = request s k := rfl
@[simp] theorem slot_setQueue (q : Nat) (f : Queue → Queue) (k : Nat) (s : State) : slot (setQueue q f s) k = slot s k := rfl
@[simp] theorem position_setQueue (q : Nat) (f : Queue → Queue) (k : Nat) (s : State) : position (setQueue q f s) k = position s k := rfl
@[simp] theorem group_setQueue (q : Nat) (f : Queue → Queue) (k : Nat) (s : State) : group (setQueue q f s) k = group s k := rfl
@[simp] theorem block_setQueue (q : Nat) (f : Queue → Queue) (k : Nat) (s : State) : block (setQueue q f s) k = block s k := rfl
@[simp] theorem opAt_setQueue (q : Nat) (f : Queue → Queue) (k : Nat) (s : State) : opAt (setQueue q f s) k = opAt s k := rfl
@[simp] theorem uport_setQueue (q : Nat) (f : Queue → Queue) (k : Nat) (s : State) : uport (setQueue q f s) k = uport s k := rfl

/-! ### setMark -/

@[simp] theorem setMark_pending (m : Nat) (f : Mark → Mark) (s : State) : (setMark m f s).pending = s.pending := rfl
@[simp] theorem setMark_tick (m : Nat) (f : Mark → Mark) (s : State) : (setMark m f s).tick = s.tick := rfl
@[simp] theorem setMark_dealer (m : Nat) (f : Mark → Mark) (s : State) : (setMark m f s).dealer = s.dealer := rfl
@[simp] theorem setMark_units (m : Nat) (f : Mark → Mark) (s : State) : (setMark m f s).units = s.units := rfl
@[simp] theorem setMark_counters (m : Nat) (f : Mark → Mark) (s : State) : (setMark m f s).counters = s.counters := rfl
@[simp] theorem setMark_tiers (m : Nat) (f : Mark → Mark) (s : State) : (setMark m f s).tiers = s.tiers := rfl
@[simp] theorem setMark_unlia (m : Nat) (f : Mark → Mark) (s : State) : (setMark m f s).unlia = s.unlia := rfl
@[simp] theorem setMark_conceal (m : Nat) (f : Mark → Mark) (s : State) : (setMark m f s).conceal = s.conceal := rfl
@[simp] theorem setMark_resets (m : Nat) (f : Mark → Mark) (s : State) : (setMark m f s).resets = s.resets := rfl
@[simp] theorem setMark_glaren (m : Nat) (f : Mark → Mark) (s : State) : (setMark m f s).glaren = s.glaren := rfl
@[simp] theorem setMark_out (m : Nat) (f : Mark → Mark) (s : State) : (setMark m f s).out = s.out := rfl
@[simp] theorem setMark_framed (m : Nat) (f : Mark → Mark) (s : State) : (setMark m f s).framed = s.framed := rfl
@[simp] theorem setMark_free (m : Nat) (f : Mark → Mark) (s : State) : (setMark m f s).free = s.free := rfl
@[simp] theorem setMark_host_queues (m : Nat) (f : Mark → Mark) (s : State) : (setMark m f s).host.queues = s.host.queues := rfl
@[simp] theorem setMark_host_holder (m : Nat) (f : Mark → Mark) (s : State) : (setMark m f s).host.holder = s.host.holder := rfl
@[simp] theorem setMark_host_epoch (m : Nat) (f : Mark → Mark) (s : State) : (setMark m f s).host.epoch = s.host.epoch := rfl
@[simp] theorem setMark_host_lease (m : Nat) (f : Mark → Mark) (s : State) : (setMark m f s).host.lease = s.host.lease := rfl
@[simp] theorem setMark_host_leaseStart (m : Nat) (f : Mark → Mark) (s : State) : (setMark m f s).host.leaseStart = s.host.leaseStart := rfl
@[simp] theorem setMark_host_rejected (m : Nat) (f : Mark → Mark) (s : State) : (setMark m f s).host.rejected = s.host.rejected := rfl
@[simp] theorem setMark_host_rejOffset (m : Nat) (f : Mark → Mark) (s : State) : (setMark m f s).host.rejOffset = s.host.rejOffset := rfl
@[simp] theorem setMark_host_rejPort (m : Nat) (f : Mark → Mark) (s : State) : (setMark m f s).host.rejPort = s.host.rejPort := rfl
@[simp] theorem setMark_host_heldFirst (m : Nat) (f : Mark → Mark) (s : State) : (setMark m f s).host.heldFirst = s.host.heldFirst := rfl
@[simp] theorem setMark_host_ports (m : Nat) (f : Mark → Mark) (s : State) : (setMark m f s).host.ports = s.host.ports := rfl
@[simp] theorem setMark_host_ops (m : Nat) (f : Mark → Mark) (s : State) : (setMark m f s).host.ops = s.host.ops := rfl
@[simp] theorem setMark_host_nextOp (m : Nat) (f : Mark → Mark) (s : State) : (setMark m f s).host.nextOp = s.host.nextOp := rfl
@[simp] theorem portSt_setMark (m : Nat) (f : Mark → Mark) (p' : Port) (s : State) : portSt (setMark m f s) p' = portSt s p' := rfl
@[simp] theorem queue_setMark (m : Nat) (f : Mark → Mark) (k : Nat) (s : State) : queue (setMark m f s) k = queue s k := rfl
@[simp] theorem obj_setMark (m : Nat) (f : Mark → Mark) (k : Nat) (s : State) : obj (setMark m f s) k = obj s k := rfl
@[simp] theorem layer_setMark (m : Nat) (f : Mark → Mark) (k : Nat) (s : State) : layer (setMark m f s) k = layer s k := rfl
@[simp] theorem request_setMark (m : Nat) (f : Mark → Mark) (k : Nat) (s : State) : request (setMark m f s) k = request s k := rfl
@[simp] theorem slot_setMark (m : Nat) (f : Mark → Mark) (k : Nat) (s : State) : slot (setMark m f s) k = slot s k := rfl
@[simp] theorem position_setMark (m : Nat) (f : Mark → Mark) (k : Nat) (s : State) : position (setMark m f s) k = position s k := rfl
@[simp] theorem group_setMark (m : Nat) (f : Mark → Mark) (k : Nat) (s : State) : group (setMark m f s) k = group s k := rfl
@[simp] theorem block_setMark (m : Nat) (f : Mark → Mark) (k : Nat) (s : State) : block (setMark m f s) k = block s k := rfl
@[simp] theorem opAt_setMark (m : Nat) (f : Mark → Mark) (k : Nat) (s : State) : opAt (setMark m f s) k = opAt s k := rfl
@[simp] theorem uport_setMark (m : Nat) (f : Mark → Mark) (k : Nat) (s : State) : uport (setMark m f s) k = uport s k := rfl

/-! ### setObj -/

@[simp] theorem setObj_pending (o : Nat) (f : Obj → Obj) (s : State) : (setObj o f s).pending = s.pending := rfl
@[simp] theorem setObj_tick (o : Nat) (f : Obj → Obj) (s : State) : (setObj o f s).tick = s.tick := rfl
@[simp] theorem setObj_dealer (o : Nat) (f : Obj → Obj) (s : State) : (setObj o f s).dealer = s.dealer := rfl
@[simp] theorem setObj_units (o : Nat) (f : Obj → Obj) (s : State) : (setObj o f s).units = s.units := rfl
@[simp] theorem setObj_counters (o : Nat) (f : Obj → Obj) (s : State) : (setObj o f s).counters = s.counters := rfl
@[simp] theorem setObj_unlia (o : Nat) (f : Obj → Obj) (s : State) : (setObj o f s).unlia = s.unlia := rfl
@[simp] theorem setObj_conceal (o : Nat) (f : Obj → Obj) (s : State) : (setObj o f s).conceal = s.conceal := rfl
@[simp] theorem setObj_host (o : Nat) (f : Obj → Obj) (s : State) : (setObj o f s).host = s.host := rfl
@[simp] theorem setObj_resets (o : Nat) (f : Obj → Obj) (s : State) : (setObj o f s).resets = s.resets := rfl
@[simp] theorem setObj_glaren (o : Nat) (f : Obj → Obj) (s : State) : (setObj o f s).glaren = s.glaren := rfl
@[simp] theorem setObj_out (o : Nat) (f : Obj → Obj) (s : State) : (setObj o f s).out = s.out := rfl
@[simp] theorem setObj_framed (o : Nat) (f : Obj → Obj) (s : State) : (setObj o f s).framed = s.framed := rfl
@[simp] theorem setObj_free (o : Nat) (f : Obj → Obj) (s : State) : (setObj o f s).free = s.free := rfl
@[simp] theorem setObj_tiers_mem (o : Nat) (f : Obj → Obj) (s : State) : (setObj o f s).tiers.mem = s.tiers.mem := rfl
@[simp] theorem setObj_tiers_lineTag (o : Nat) (f : Obj → Obj) (s : State) : (setObj o f s).tiers.lineTag = s.tiers.lineTag := rfl
@[simp] theorem setObj_tiers_linePoison (o : Nat) (f : Obj → Obj) (s : State) : (setObj o f s).tiers.linePoison = s.tiers.linePoison := rfl
@[simp] theorem setObj_tiers_corrected (o : Nat) (f : Obj → Obj) (s : State) : (setObj o f s).tiers.corrected = s.tiers.corrected := rfl
@[simp] theorem setObj_tiers_reread (o : Nat) (f : Obj → Obj) (s : State) : (setObj o f s).tiers.reread = s.tiers.reread := rfl
@[simp] theorem setObj_tiers_dropped (o : Nat) (f : Obj → Obj) (s : State) : (setObj o f s).tiers.dropped = s.tiers.dropped := rfl
@[simp] theorem setObj_tiers_repaired (o : Nat) (f : Obj → Obj) (s : State) : (setObj o f s).tiers.repaired = s.tiers.repaired := rfl
@[simp] theorem setObj_tiers_tagMiss (o : Nat) (f : Obj → Obj) (s : State) : (setObj o f s).tiers.tagMiss = s.tiers.tagMiss := rfl
@[simp] theorem setObj_tiers_bgSlots (o : Nat) (f : Obj → Obj) (s : State) : (setObj o f s).tiers.bgSlots = s.tiers.bgSlots := rfl
@[simp] theorem setObj_tiers_scrub (o : Nat) (f : Obj → Obj) (s : State) : (setObj o f s).tiers.scrub = s.tiers.scrub := rfl
@[simp] theorem setObj_tiers_scrubNext (o : Nat) (f : Obj → Obj) (s : State) : (setObj o f s).tiers.scrubNext = s.tiers.scrubNext := rfl
@[simp] theorem setObj_tiers_lastErr (o : Nat) (f : Obj → Obj) (s : State) : (setObj o f s).tiers.lastErr = s.tiers.lastErr := rfl
@[simp] theorem setObj_tiers_corrQueue (o : Nat) (f : Obj → Obj) (s : State) : (setObj o f s).tiers.corrQueue = s.tiers.corrQueue := rfl
@[simp] theorem setObj_tiers_sramCorrected (o : Nat) (f : Obj → Obj) (s : State) : (setObj o f s).tiers.sramCorrected = s.tiers.sramCorrected := rfl
@[simp] theorem setObj_tiers_sramLast (o : Nat) (f : Obj → Obj) (s : State) : (setObj o f s).tiers.sramLast = s.tiers.sramLast := rfl
@[simp] theorem setObj_tiers_sramHold (o : Nat) (f : Obj → Obj) (s : State) : (setObj o f s).tiers.sramHold = s.tiers.sramHold := rfl
@[simp] theorem setObj_tiers_sramPend (o : Nat) (f : Obj → Obj) (s : State) : (setObj o f s).tiers.sramPend = s.tiers.sramPend := rfl
@[simp] theorem setObj_tiers_spares (o : Nat) (f : Obj → Obj) (s : State) : (setObj o f s).tiers.spares = s.tiers.spares := rfl
@[simp] theorem setObj_tiers_bgShare (o : Nat) (f : Obj → Obj) (s : State) : (setObj o f s).tiers.bgShare = s.tiers.bgShare := rfl
@[simp] theorem setObj_tiers_bgInForce (o : Nat) (f : Obj → Obj) (s : State) : (setObj o f s).tiers.bgInForce = s.tiers.bgInForce := rfl
@[simp] theorem setObj_tiers_repairFrom (o : Nat) (f : Obj → Obj) (s : State) : (setObj o f s).tiers.repairFrom = s.tiers.repairFrom := rfl
@[simp] theorem setObj_tiers_lastPoisoned (o : Nat) (f : Obj → Obj) (s : State) : (setObj o f s).tiers.lastPoisoned = s.tiers.lastPoisoned := rfl
@[simp] theorem setObj_tiers_repairs (o : Nat) (f : Obj → Obj) (s : State) : (setObj o f s).tiers.repairs = s.tiers.repairs := rfl
@[simp] theorem setObj_tiers_failedWords (o : Nat) (f : Obj → Obj) (s : State) : (setObj o f s).tiers.failedWords = s.tiers.failedWords := rfl
@[simp] theorem setObj_tiers_refailed (o : Nat) (f : Obj → Obj) (s : State) : (setObj o f s).tiers.refailed = s.tiers.refailed := rfl
@[simp] theorem setObj_tiers_hardRepair (o : Nat) (f : Obj → Obj) (s : State) : (setObj o f s).tiers.hardRepair = s.tiers.hardRepair := rfl
@[simp] theorem setObj_tiers_flash (o : Nat) (f : Obj → Obj) (s : State) : (setObj o f s).tiers.flash = s.tiers.flash := rfl
@[simp] theorem setObj_tiers_layers (o : Nat) (f : Obj → Obj) (s : State) : (setObj o f s).tiers.layers = s.tiers.layers := rfl
@[simp] theorem setObj_tiers_media (o : Nat) (f : Obj → Obj) (s : State) : (setObj o f s).tiers.media = s.tiers.media := rfl
@[simp] theorem portSt_setObj (o : Nat) (f : Obj → Obj) (p' : Port) (s : State) : portSt (setObj o f s) p' = portSt s p' := rfl
@[simp] theorem queue_setObj (o : Nat) (f : Obj → Obj) (k : Nat) (s : State) : queue (setObj o f s) k = queue s k := rfl
@[simp] theorem mark_setObj (o : Nat) (f : Obj → Obj) (k : Nat) (s : State) : mark (setObj o f s) k = mark s k := rfl
@[simp] theorem layer_setObj (o : Nat) (f : Obj → Obj) (k : Nat) (s : State) : layer (setObj o f s) k = layer s k := rfl
@[simp] theorem request_setObj (o : Nat) (f : Obj → Obj) (k : Nat) (s : State) : request (setObj o f s) k = request s k := rfl
@[simp] theorem slot_setObj (o : Nat) (f : Obj → Obj) (k : Nat) (s : State) : slot (setObj o f s) k = slot s k := rfl
@[simp] theorem position_setObj (o : Nat) (f : Obj → Obj) (k : Nat) (s : State) : position (setObj o f s) k = position s k := rfl
@[simp] theorem group_setObj (o : Nat) (f : Obj → Obj) (k : Nat) (s : State) : group (setObj o f s) k = group s k := rfl
@[simp] theorem block_setObj (o : Nat) (f : Obj → Obj) (k : Nat) (s : State) : block (setObj o f s) k = block s k := rfl
@[simp] theorem opAt_setObj (o : Nat) (f : Obj → Obj) (k : Nat) (s : State) : opAt (setObj o f s) k = opAt s k := rfl
@[simp] theorem uport_setObj (o : Nat) (f : Obj → Obj) (k : Nat) (s : State) : uport (setObj o f s) k = uport s k := rfl

/-! ### setFlash -/

@[simp] theorem setFlash_pending (h : W32) (f : List Byte → List Byte) (s : State) : (setFlash h f s).pending = s.pending := rfl
@[simp] theorem setFlash_tick (h : W32) (f : List Byte → List Byte) (s : State) : (setFlash h f s).tick = s.tick := rfl
@[simp] theorem setFlash_dealer (h : W32) (f : List Byte → List Byte) (s : State) : (setFlash h f s).dealer = s.dealer := rfl
@[simp] theorem setFlash_units (h : W32) (f : List Byte → List Byte) (s : State) : (setFlash h f s).units = s.units := rfl
@[simp] theorem setFlash_counters (h : W32) (f : List Byte → List Byte) (s : State) : (setFlash h f s).counters = s.counters := rfl
@[simp] theorem setFlash_unlia (h : W32) (f : List Byte → List Byte) (s : State) : (setFlash h f s).unlia = s.unlia := rfl
@[simp] theorem setFlash_conceal (h : W32) (f : List Byte → List Byte) (s : State) : (setFlash h f s).conceal = s.conceal := rfl
@[simp] theorem setFlash_host (h : W32) (f : List Byte → List Byte) (s : State) : (setFlash h f s).host = s.host := rfl
@[simp] theorem setFlash_resets (h : W32) (f : List Byte → List Byte) (s : State) : (setFlash h f s).resets = s.resets := rfl
@[simp] theorem setFlash_glaren (h : W32) (f : List Byte → List Byte) (s : State) : (setFlash h f s).glaren = s.glaren := rfl
@[simp] theorem setFlash_out (h : W32) (f : List Byte → List Byte) (s : State) : (setFlash h f s).out = s.out := rfl
@[simp] theorem setFlash_framed (h : W32) (f : List Byte → List Byte) (s : State) : (setFlash h f s).framed = s.framed := rfl
@[simp] theorem setFlash_free (h : W32) (f : List Byte → List Byte) (s : State) : (setFlash h f s).free = s.free := rfl
@[simp] theorem setFlash_tiers_mem (h : W32) (f : List Byte → List Byte) (s : State) : (setFlash h f s).tiers.mem = s.tiers.mem := rfl
@[simp] theorem setFlash_tiers_lineTag (h : W32) (f : List Byte → List Byte) (s : State) : (setFlash h f s).tiers.lineTag = s.tiers.lineTag := rfl
@[simp] theorem setFlash_tiers_linePoison (h : W32) (f : List Byte → List Byte) (s : State) : (setFlash h f s).tiers.linePoison = s.tiers.linePoison := rfl
@[simp] theorem setFlash_tiers_objects (h : W32) (f : List Byte → List Byte) (s : State) : (setFlash h f s).tiers.objects = s.tiers.objects := rfl
@[simp] theorem setFlash_tiers_corrected (h : W32) (f : List Byte → List Byte) (s : State) : (setFlash h f s).tiers.corrected = s.tiers.corrected := rfl
@[simp] theorem setFlash_tiers_reread (h : W32) (f : List Byte → List Byte) (s : State) : (setFlash h f s).tiers.reread = s.tiers.reread := rfl
@[simp] theorem setFlash_tiers_dropped (h : W32) (f : List Byte → List Byte) (s : State) : (setFlash h f s).tiers.dropped = s.tiers.dropped := rfl
@[simp] theorem setFlash_tiers_repaired (h : W32) (f : List Byte → List Byte) (s : State) : (setFlash h f s).tiers.repaired = s.tiers.repaired := rfl
@[simp] theorem setFlash_tiers_tagMiss (h : W32) (f : List Byte → List Byte) (s : State) : (setFlash h f s).tiers.tagMiss = s.tiers.tagMiss := rfl
@[simp] theorem setFlash_tiers_bgSlots (h : W32) (f : List Byte → List Byte) (s : State) : (setFlash h f s).tiers.bgSlots = s.tiers.bgSlots := rfl
@[simp] theorem setFlash_tiers_scrub (h : W32) (f : List Byte → List Byte) (s : State) : (setFlash h f s).tiers.scrub = s.tiers.scrub := rfl
@[simp] theorem setFlash_tiers_scrubNext (h : W32) (f : List Byte → List Byte) (s : State) : (setFlash h f s).tiers.scrubNext = s.tiers.scrubNext := rfl
@[simp] theorem setFlash_tiers_lastErr (h : W32) (f : List Byte → List Byte) (s : State) : (setFlash h f s).tiers.lastErr = s.tiers.lastErr := rfl
@[simp] theorem setFlash_tiers_corrQueue (h : W32) (f : List Byte → List Byte) (s : State) : (setFlash h f s).tiers.corrQueue = s.tiers.corrQueue := rfl
@[simp] theorem setFlash_tiers_sramCorrected (h : W32) (f : List Byte → List Byte) (s : State) : (setFlash h f s).tiers.sramCorrected = s.tiers.sramCorrected := rfl
@[simp] theorem setFlash_tiers_sramLast (h : W32) (f : List Byte → List Byte) (s : State) : (setFlash h f s).tiers.sramLast = s.tiers.sramLast := rfl
@[simp] theorem setFlash_tiers_sramHold (h : W32) (f : List Byte → List Byte) (s : State) : (setFlash h f s).tiers.sramHold = s.tiers.sramHold := rfl
@[simp] theorem setFlash_tiers_sramPend (h : W32) (f : List Byte → List Byte) (s : State) : (setFlash h f s).tiers.sramPend = s.tiers.sramPend := rfl
@[simp] theorem setFlash_tiers_spares (h : W32) (f : List Byte → List Byte) (s : State) : (setFlash h f s).tiers.spares = s.tiers.spares := rfl
@[simp] theorem setFlash_tiers_bgShare (h : W32) (f : List Byte → List Byte) (s : State) : (setFlash h f s).tiers.bgShare = s.tiers.bgShare := rfl
@[simp] theorem setFlash_tiers_bgInForce (h : W32) (f : List Byte → List Byte) (s : State) : (setFlash h f s).tiers.bgInForce = s.tiers.bgInForce := rfl
@[simp] theorem setFlash_tiers_repairFrom (h : W32) (f : List Byte → List Byte) (s : State) : (setFlash h f s).tiers.repairFrom = s.tiers.repairFrom := rfl
@[simp] theorem setFlash_tiers_lastPoisoned (h : W32) (f : List Byte → List Byte) (s : State) : (setFlash h f s).tiers.lastPoisoned = s.tiers.lastPoisoned := rfl
@[simp] theorem setFlash_tiers_repairs (h : W32) (f : List Byte → List Byte) (s : State) : (setFlash h f s).tiers.repairs = s.tiers.repairs := rfl
@[simp] theorem setFlash_tiers_failedWords (h : W32) (f : List Byte → List Byte) (s : State) : (setFlash h f s).tiers.failedWords = s.tiers.failedWords := rfl
@[simp] theorem setFlash_tiers_refailed (h : W32) (f : List Byte → List Byte) (s : State) : (setFlash h f s).tiers.refailed = s.tiers.refailed := rfl
@[simp] theorem setFlash_tiers_hardRepair (h : W32) (f : List Byte → List Byte) (s : State) : (setFlash h f s).tiers.hardRepair = s.tiers.hardRepair := rfl
@[simp] theorem setFlash_tiers_layers (h : W32) (f : List Byte → List Byte) (s : State) : (setFlash h f s).tiers.layers = s.tiers.layers := rfl
@[simp] theorem setFlash_tiers_media (h : W32) (f : List Byte → List Byte) (s : State) : (setFlash h f s).tiers.media = s.tiers.media := rfl
@[simp] theorem portSt_setFlash (h : W32) (f : List Byte → List Byte) (p' : Port) (s : State) : portSt (setFlash h f s) p' = portSt s p' := rfl
@[simp] theorem queue_setFlash (h : W32) (f : List Byte → List Byte) (k : Nat) (s : State) : queue (setFlash h f s) k = queue s k := rfl
@[simp] theorem mark_setFlash (h : W32) (f : List Byte → List Byte) (k : Nat) (s : State) : mark (setFlash h f s) k = mark s k := rfl
@[simp] theorem obj_setFlash (h : W32) (f : List Byte → List Byte) (k : Nat) (s : State) : obj (setFlash h f s) k = obj s k := rfl
@[simp] theorem layer_setFlash (h : W32) (f : List Byte → List Byte) (k : Nat) (s : State) : layer (setFlash h f s) k = layer s k := rfl
@[simp] theorem request_setFlash (h : W32) (f : List Byte → List Byte) (k : Nat) (s : State) : request (setFlash h f s) k = request s k := rfl
@[simp] theorem slot_setFlash (h : W32) (f : List Byte → List Byte) (k : Nat) (s : State) : slot (setFlash h f s) k = slot s k := rfl
@[simp] theorem position_setFlash (h : W32) (f : List Byte → List Byte) (k : Nat) (s : State) : position (setFlash h f s) k = position s k := rfl
@[simp] theorem group_setFlash (h : W32) (f : List Byte → List Byte) (k : Nat) (s : State) : group (setFlash h f s) k = group s k := rfl
@[simp] theorem block_setFlash (h : W32) (f : List Byte → List Byte) (k : Nat) (s : State) : block (setFlash h f s) k = block s k := rfl
@[simp] theorem opAt_setFlash (h : W32) (f : List Byte → List Byte) (k : Nat) (s : State) : opAt (setFlash h f s) k = opAt s k := rfl
@[simp] theorem uport_setFlash (h : W32) (f : List Byte → List Byte) (k : Nat) (s : State) : uport (setFlash h f s) k = uport s k := rfl

/-! ### setLayer -/

@[simp] theorem setLayer_pending (d : Nat) (f : FlashLayer → FlashLayer) (s : State) : (setLayer d f s).pending = s.pending := rfl
@[simp] theorem setLayer_tick (d : Nat) (f : FlashLayer → FlashLayer) (s : State) : (setLayer d f s).tick = s.tick := rfl
@[simp] theorem setLayer_dealer (d : Nat) (f : FlashLayer → FlashLayer) (s : State) : (setLayer d f s).dealer = s.dealer := rfl
@[simp] theorem setLayer_units (d : Nat) (f : FlashLayer → FlashLayer) (s : State) : (setLayer d f s).units = s.units := rfl
@[simp] theorem setLayer_counters (d : Nat) (f : FlashLayer → FlashLayer) (s : State) : (setLayer d f s).counters = s.counters := rfl
@[simp] theorem setLayer_unlia (d : Nat) (f : FlashLayer → FlashLayer) (s : State) : (setLayer d f s).unlia = s.unlia := rfl
@[simp] theorem setLayer_conceal (d : Nat) (f : FlashLayer → FlashLayer) (s : State) : (setLayer d f s).conceal = s.conceal := rfl
@[simp] theorem setLayer_host (d : Nat) (f : FlashLayer → FlashLayer) (s : State) : (setLayer d f s).host = s.host := rfl
@[simp] theorem setLayer_resets (d : Nat) (f : FlashLayer → FlashLayer) (s : State) : (setLayer d f s).resets = s.resets := rfl
@[simp] theorem setLayer_glaren (d : Nat) (f : FlashLayer → FlashLayer) (s : State) : (setLayer d f s).glaren = s.glaren := rfl
@[simp] theorem setLayer_out (d : Nat) (f : FlashLayer → FlashLayer) (s : State) : (setLayer d f s).out = s.out := rfl
@[simp] theorem setLayer_framed (d : Nat) (f : FlashLayer → FlashLayer) (s : State) : (setLayer d f s).framed = s.framed := rfl
@[simp] theorem setLayer_free (d : Nat) (f : FlashLayer → FlashLayer) (s : State) : (setLayer d f s).free = s.free := rfl
@[simp] theorem setLayer_tiers_mem (d : Nat) (f : FlashLayer → FlashLayer) (s : State) : (setLayer d f s).tiers.mem = s.tiers.mem := rfl
@[simp] theorem setLayer_tiers_lineTag (d : Nat) (f : FlashLayer → FlashLayer) (s : State) : (setLayer d f s).tiers.lineTag = s.tiers.lineTag := rfl
@[simp] theorem setLayer_tiers_linePoison (d : Nat) (f : FlashLayer → FlashLayer) (s : State) : (setLayer d f s).tiers.linePoison = s.tiers.linePoison := rfl
@[simp] theorem setLayer_tiers_objects (d : Nat) (f : FlashLayer → FlashLayer) (s : State) : (setLayer d f s).tiers.objects = s.tiers.objects := rfl
@[simp] theorem setLayer_tiers_corrected (d : Nat) (f : FlashLayer → FlashLayer) (s : State) : (setLayer d f s).tiers.corrected = s.tiers.corrected := rfl
@[simp] theorem setLayer_tiers_reread (d : Nat) (f : FlashLayer → FlashLayer) (s : State) : (setLayer d f s).tiers.reread = s.tiers.reread := rfl
@[simp] theorem setLayer_tiers_dropped (d : Nat) (f : FlashLayer → FlashLayer) (s : State) : (setLayer d f s).tiers.dropped = s.tiers.dropped := rfl
@[simp] theorem setLayer_tiers_repaired (d : Nat) (f : FlashLayer → FlashLayer) (s : State) : (setLayer d f s).tiers.repaired = s.tiers.repaired := rfl
@[simp] theorem setLayer_tiers_tagMiss (d : Nat) (f : FlashLayer → FlashLayer) (s : State) : (setLayer d f s).tiers.tagMiss = s.tiers.tagMiss := rfl
@[simp] theorem setLayer_tiers_bgSlots (d : Nat) (f : FlashLayer → FlashLayer) (s : State) : (setLayer d f s).tiers.bgSlots = s.tiers.bgSlots := rfl
@[simp] theorem setLayer_tiers_scrub (d : Nat) (f : FlashLayer → FlashLayer) (s : State) : (setLayer d f s).tiers.scrub = s.tiers.scrub := rfl
@[simp] theorem setLayer_tiers_scrubNext (d : Nat) (f : FlashLayer → FlashLayer) (s : State) : (setLayer d f s).tiers.scrubNext = s.tiers.scrubNext := rfl
@[simp] theorem setLayer_tiers_lastErr (d : Nat) (f : FlashLayer → FlashLayer) (s : State) : (setLayer d f s).tiers.lastErr = s.tiers.lastErr := rfl
@[simp] theorem setLayer_tiers_corrQueue (d : Nat) (f : FlashLayer → FlashLayer) (s : State) : (setLayer d f s).tiers.corrQueue = s.tiers.corrQueue := rfl
@[simp] theorem setLayer_tiers_sramCorrected (d : Nat) (f : FlashLayer → FlashLayer) (s : State) : (setLayer d f s).tiers.sramCorrected = s.tiers.sramCorrected := rfl
@[simp] theorem setLayer_tiers_sramLast (d : Nat) (f : FlashLayer → FlashLayer) (s : State) : (setLayer d f s).tiers.sramLast = s.tiers.sramLast := rfl
@[simp] theorem setLayer_tiers_sramHold (d : Nat) (f : FlashLayer → FlashLayer) (s : State) : (setLayer d f s).tiers.sramHold = s.tiers.sramHold := rfl
@[simp] theorem setLayer_tiers_sramPend (d : Nat) (f : FlashLayer → FlashLayer) (s : State) : (setLayer d f s).tiers.sramPend = s.tiers.sramPend := rfl
@[simp] theorem setLayer_tiers_spares (d : Nat) (f : FlashLayer → FlashLayer) (s : State) : (setLayer d f s).tiers.spares = s.tiers.spares := rfl
@[simp] theorem setLayer_tiers_bgShare (d : Nat) (f : FlashLayer → FlashLayer) (s : State) : (setLayer d f s).tiers.bgShare = s.tiers.bgShare := rfl
@[simp] theorem setLayer_tiers_bgInForce (d : Nat) (f : FlashLayer → FlashLayer) (s : State) : (setLayer d f s).tiers.bgInForce = s.tiers.bgInForce := rfl
@[simp] theorem setLayer_tiers_repairFrom (d : Nat) (f : FlashLayer → FlashLayer) (s : State) : (setLayer d f s).tiers.repairFrom = s.tiers.repairFrom := rfl
@[simp] theorem setLayer_tiers_lastPoisoned (d : Nat) (f : FlashLayer → FlashLayer) (s : State) : (setLayer d f s).tiers.lastPoisoned = s.tiers.lastPoisoned := rfl
@[simp] theorem setLayer_tiers_repairs (d : Nat) (f : FlashLayer → FlashLayer) (s : State) : (setLayer d f s).tiers.repairs = s.tiers.repairs := rfl
@[simp] theorem setLayer_tiers_failedWords (d : Nat) (f : FlashLayer → FlashLayer) (s : State) : (setLayer d f s).tiers.failedWords = s.tiers.failedWords := rfl
@[simp] theorem setLayer_tiers_refailed (d : Nat) (f : FlashLayer → FlashLayer) (s : State) : (setLayer d f s).tiers.refailed = s.tiers.refailed := rfl
@[simp] theorem setLayer_tiers_hardRepair (d : Nat) (f : FlashLayer → FlashLayer) (s : State) : (setLayer d f s).tiers.hardRepair = s.tiers.hardRepair := rfl
@[simp] theorem setLayer_tiers_flash (d : Nat) (f : FlashLayer → FlashLayer) (s : State) : (setLayer d f s).tiers.flash = s.tiers.flash := rfl
@[simp] theorem setLayer_tiers_media (d : Nat) (f : FlashLayer → FlashLayer) (s : State) : (setLayer d f s).tiers.media = s.tiers.media := rfl
@[simp] theorem portSt_setLayer (d : Nat) (f : FlashLayer → FlashLayer) (p' : Port) (s : State) : portSt (setLayer d f s) p' = portSt s p' := rfl
@[simp] theorem queue_setLayer (d : Nat) (f : FlashLayer → FlashLayer) (k : Nat) (s : State) : queue (setLayer d f s) k = queue s k := rfl
@[simp] theorem mark_setLayer (d : Nat) (f : FlashLayer → FlashLayer) (k : Nat) (s : State) : mark (setLayer d f s) k = mark s k := rfl
@[simp] theorem obj_setLayer (d : Nat) (f : FlashLayer → FlashLayer) (k : Nat) (s : State) : obj (setLayer d f s) k = obj s k := rfl
@[simp] theorem request_setLayer (d : Nat) (f : FlashLayer → FlashLayer) (k : Nat) (s : State) : request (setLayer d f s) k = request s k := rfl
@[simp] theorem slot_setLayer (d : Nat) (f : FlashLayer → FlashLayer) (k : Nat) (s : State) : slot (setLayer d f s) k = slot s k := rfl
@[simp] theorem position_setLayer (d : Nat) (f : FlashLayer → FlashLayer) (k : Nat) (s : State) : position (setLayer d f s) k = position s k := rfl
@[simp] theorem group_setLayer (d : Nat) (f : FlashLayer → FlashLayer) (k : Nat) (s : State) : group (setLayer d f s) k = group s k := rfl
@[simp] theorem block_setLayer (d : Nat) (f : FlashLayer → FlashLayer) (k : Nat) (s : State) : block (setLayer d f s) k = block s k := rfl
@[simp] theorem opAt_setLayer (d : Nat) (f : FlashLayer → FlashLayer) (k : Nat) (s : State) : opAt (setLayer d f s) k = opAt s k := rfl
@[simp] theorem uport_setLayer (d : Nat) (f : FlashLayer → FlashLayer) (k : Nat) (s : State) : uport (setLayer d f s) k = uport s k := rfl

/-! ### setRequest -/

@[simp] theorem setRequest_pending (e : Nat) (f : Request → Request) (s : State) : (setRequest e f s).pending = s.pending := rfl
@[simp] theorem setRequest_tick (e : Nat) (f : Request → Request) (s : State) : (setRequest e f s).tick = s.tick := rfl
@[simp] theorem setRequest_units (e : Nat) (f : Request → Request) (s : State) : (setRequest e f s).units = s.units := rfl
@[simp] theorem setRequest_counters (e : Nat) (f : Request → Request) (s : State) : (setRequest e f s).counters = s.counters := rfl
@[simp] theorem setRequest_tiers (e : Nat) (f : Request → Request) (s : State) : (setRequest e f s).tiers = s.tiers := rfl
@[simp] theorem setRequest_unlia (e : Nat) (f : Request → Request) (s : State) : (setRequest e f s).unlia = s.unlia := rfl
@[simp] theorem setRequest_conceal (e : Nat) (f : Request → Request) (s : State) : (setRequest e f s).conceal = s.conceal := rfl
@[simp] theorem setRequest_host (e : Nat) (f : Request → Request) (s : State) : (setRequest e f s).host = s.host := rfl
@[simp] theorem setRequest_resets (e : Nat) (f : Request → Request) (s : State) : (setRequest e f s).resets = s.resets := rfl
@[simp] theorem setRequest_glaren (e : Nat) (f : Request → Request) (s : State) : (setRequest e f s).glaren = s.glaren := rfl
@[simp] theorem setRequest_out (e : Nat) (f : Request → Request) (s : State) : (setRequest e f s).out = s.out := rfl
@[simp] theorem setRequest_framed (e : Nat) (f : Request → Request) (s : State) : (setRequest e f s).framed = s.framed := rfl
@[simp] theorem setRequest_free (e : Nat) (f : Request → Request) (s : State) : (setRequest e f s).free = s.free := rfl
@[simp] theorem setRequest_dealer_phase (e : Nat) (f : Request → Request) (s : State) : (setRequest e f s).dealer.phase = s.dealer.phase := rfl
@[simp] theorem setRequest_dealer_pending (e : Nat) (f : Request → Request) (s : State) : (setRequest e f s).dealer.pending = s.dealer.pending := rfl
@[simp] theorem setRequest_dealer_learnQueue (e : Nat) (f : Request → Request) (s : State) : (setRequest e f s).dealer.learnQueue = s.dealer.learnQueue := rfl
@[simp] theorem setRequest_dealer_stepNumber (e : Nat) (f : Request → Request) (s : State) : (setRequest e f s).dealer.stepNumber = s.dealer.stepNumber := rfl
@[simp] theorem setRequest_dealer_evalInterval (e : Nat) (f : Request → Request) (s : State) : (setRequest e f s).dealer.evalInterval = s.dealer.evalInterval := rfl
@[simp] theorem setRequest_dealer_sinceEval (e : Nat) (f : Request → Request) (s : State) : (setRequest e f s).dealer.sinceEval = s.dealer.sinceEval := rfl
@[simp] theorem setRequest_dealer_sinceOld (e : Nat) (f : Request → Request) (s : State) : (setRequest e f s).dealer.sinceOld = s.dealer.sinceOld := rfl
@[simp] theorem setRequest_dealer_lead (e : Nat) (f : Request → Request) (s : State) : (setRequest e f s).dealer.lead = s.dealer.lead := rfl
@[simp] theorem setRequest_dealer_grant (e : Nat) (f : Request → Request) (s : State) : (setRequest e f s).dealer.grant = s.dealer.grant := rfl
@[simp] theorem setRequest_dealer_halfFenced (e : Nat) (f : Request → Request) (s : State) : (setRequest e f s).dealer.halfFenced = s.dealer.halfFenced := rfl
@[simp] theorem setRequest_dealer_genBook (e : Nat) (f : Request → Request) (s : State) : (setRequest e f s).dealer.genBook = s.dealer.genBook := rfl
@[simp] theorem setRequest_dealer_learnBook (e : Nat) (f : Request → Request) (s : State) : (setRequest e f s).dealer.learnBook = s.dealer.learnBook := rfl
@[simp] theorem setRequest_dealer_loading (e : Nat) (f : Request → Request) (s : State) : (setRequest e f s).dealer.loading = s.dealer.loading := rfl
@[simp] theorem setRequest_dealer_waitBound (e : Nat) (f : Request → Request) (s : State) : (setRequest e f s).dealer.waitBound = s.dealer.waitBound := rfl
@[simp] theorem setRequest_dealer_lastPly (e : Nat) (f : Request → Request) (s : State) : (setRequest e f s).dealer.lastPly = s.dealer.lastPly := rfl
@[simp] theorem setRequest_dealer_lastVariant (e : Nat) (f : Request → Request) (s : State) : (setRequest e f s).dealer.lastVariant = s.dealer.lastVariant := rfl
@[simp] theorem setRequest_dealer_lastBook (e : Nat) (f : Request → Request) (s : State) : (setRequest e f s).dealer.lastBook = s.dealer.lastBook := rfl
@[simp] theorem setRequest_dealer_fault (e : Nat) (f : Request → Request) (s : State) : (setRequest e f s).dealer.fault = s.dealer.fault := rfl
@[simp] theorem setRequest_dealer_slots (e : Nat) (f : Request → Request) (s : State) : (setRequest e f s).dealer.slots = s.dealer.slots := rfl
@[simp] theorem setRequest_dealer_castles (e : Nat) (f : Request → Request) (s : State) : (setRequest e f s).dealer.castles = s.dealer.castles := rfl
@[simp] theorem setRequest_dealer_building (e : Nat) (f : Request → Request) (s : State) : (setRequest e f s).dealer.building = s.dealer.building := rfl
@[simp] theorem setRequest_dealer_castlePending (e : Nat) (f : Request → Request) (s : State) : (setRequest e f s).dealer.castlePending = s.dealer.castlePending := rfl
@[simp] theorem setRequest_dealer_earlyChunks (e : Nat) (f : Request → Request) (s : State) : (setRequest e f s).dealer.earlyChunks = s.dealer.earlyChunks := rfl
@[simp] theorem setRequest_dealer_lastSent (e : Nat) (f : Request → Request) (s : State) : (setRequest e f s).dealer.lastSent = s.dealer.lastSent := rfl
@[simp] theorem setRequest_dealer_lastSwitch (e : Nat) (f : Request → Request) (s : State) : (setRequest e f s).dealer.lastSwitch = s.dealer.lastSwitch := rfl
@[simp] theorem setRequest_dealer_pinInterval (e : Nat) (f : Request → Request) (s : State) : (setRequest e f s).dealer.pinInterval = s.dealer.pinInterval := rfl
@[simp] theorem setRequest_dealer_chunk (e : Nat) (f : Request → Request) (s : State) : (setRequest e f s).dealer.chunk = s.dealer.chunk := rfl
@[simp] theorem setRequest_dealer_prefillSlots (e : Nat) (f : Request → Request) (s : State) : (setRequest e f s).dealer.prefillSlots = s.dealer.prefillSlots := rfl
@[simp] theorem setRequest_dealer_refillPeriod (e : Nat) (f : Request → Request) (s : State) : (setRequest e f s).dealer.refillPeriod = s.dealer.refillPeriod := rfl
@[simp] theorem setRequest_dealer_refillCount (e : Nat) (f : Request → Request) (s : State) : (setRequest e f s).dealer.refillCount = s.dealer.refillCount := rfl
@[simp] theorem setRequest_dealer_budgetSets (e : Nat) (f : Request → Request) (s : State) : (setRequest e f s).dealer.budgetSets = s.dealer.budgetSets := rfl
@[simp] theorem setRequest_dealer_budgetAll (e : Nat) (f : Request → Request) (s : State) : (setRequest e f s).dealer.budgetAll = s.dealer.budgetAll := rfl
@[simp] theorem setRequest_dealer_budgets (e : Nat) (f : Request → Request) (s : State) : (setRequest e f s).dealer.budgets = s.dealer.budgets := rfl
@[simp] theorem setRequest_dealer_refills (e : Nat) (f : Request → Request) (s : State) : (setRequest e f s).dealer.refills = s.dealer.refills := rfl
@[simp] theorem setRequest_dealer_frameShare (e : Nat) (f : Request → Request) (s : State) : (setRequest e f s).dealer.frameShare = s.dealer.frameShare := rfl
@[simp] theorem setRequest_dealer_pools (e : Nat) (f : Request → Request) (s : State) : (setRequest e f s).dealer.pools = s.dealer.pools := rfl
@[simp] theorem setRequest_dealer_batchObj (e : Nat) (f : Request → Request) (s : State) : (setRequest e f s).dealer.batchObj = s.dealer.batchObj := rfl
@[simp] theorem setRequest_dealer_frames (e : Nat) (f : Request → Request) (s : State) : (setRequest e f s).dealer.frames = s.dealer.frames := rfl
@[simp] theorem setRequest_dealer_freeHead (e : Nat) (f : Request → Request) (s : State) : (setRequest e f s).dealer.freeHead = s.dealer.freeHead := rfl
@[simp] theorem setRequest_dealer_freeTail (e : Nat) (f : Request → Request) (s : State) : (setRequest e f s).dealer.freeTail = s.dealer.freeTail := rfl
@[simp] theorem setRequest_dealer_freeCount (e : Nat) (f : Request → Request) (s : State) : (setRequest e f s).dealer.freeCount = s.dealer.freeCount := rfl
@[simp] theorem setRequest_dealer_pageTab (e : Nat) (f : Request → Request) (s : State) : (setRequest e f s).dealer.pageTab = s.dealer.pageTab := rfl
@[simp] theorem setRequest_dealer_admitSeq (e : Nat) (f : Request → Request) (s : State) : (setRequest e f s).dealer.admitSeq = s.dealer.admitSeq := rfl
@[simp] theorem setRequest_dealer_skip (e : Nat) (f : Request → Request) (s : State) : (setRequest e f s).dealer.skip = s.dealer.skip := rfl
@[simp] theorem setRequest_dealer_ends (e : Nat) (f : Request → Request) (s : State) : (setRequest e f s).dealer.ends = s.dealer.ends := rfl
@[simp] theorem setRequest_dealer_pageErrors (e : Nat) (f : Request → Request) (s : State) : (setRequest e f s).dealer.pageErrors = s.dealer.pageErrors := rfl
@[simp] theorem setRequest_dealer_roleEpoch (e : Nat) (f : Request → Request) (s : State) : (setRequest e f s).dealer.roleEpoch = s.dealer.roleEpoch := rfl
@[simp] theorem setRequest_dealer_split (e : Nat) (f : Request → Request) (s : State) : (setRequest e f s).dealer.split = s.dealer.split := rfl
@[simp] theorem setRequest_dealer_westFenced (e : Nat) (f : Request → Request) (s : State) : (setRequest e f s).dealer.westFenced = s.dealer.westFenced := rfl
@[simp] theorem setRequest_dealer_eastFenced (e : Nat) (f : Request → Request) (s : State) : (setRequest e f s).dealer.eastFenced = s.dealer.eastFenced := rfl
@[simp] theorem setRequest_dealer_queries (e : Nat) (f : Request → Request) (s : State) : (setRequest e f s).dealer.queries = s.dealer.queries := rfl
@[simp] theorem setRequest_dealer_heartbeat (e : Nat) (f : Request → Request) (s : State) : (setRequest e f s).dealer.heartbeat = s.dealer.heartbeat := rfl
@[simp] theorem setRequest_dealer_westHeard (e : Nat) (f : Request → Request) (s : State) : (setRequest e f s).dealer.westHeard = s.dealer.westHeard := rfl
@[simp] theorem setRequest_dealer_needAck (e : Nat) (f : Request → Request) (s : State) : (setRequest e f s).dealer.needAck = s.dealer.needAck := rfl
@[simp] theorem setRequest_dealer_mirrorStep (e : Nat) (f : Request → Request) (s : State) : (setRequest e f s).dealer.mirrorStep = s.dealer.mirrorStep := rfl
@[simp] theorem setRequest_dealer_before (e : Nat) (f : Request → Request) (s : State) : (setRequest e f s).dealer.before = s.dealer.before := rfl
@[simp] theorem setRequest_dealer_run (e : Nat) (f : Request → Request) (s : State) : (setRequest e f s).dealer.run = s.dealer.run := rfl
@[simp] theorem setRequest_dealer_held (e : Nat) (f : Request → Request) (s : State) : (setRequest e f s).dealer.held = s.dealer.held := rfl
@[simp] theorem setRequest_dealer_due (e : Nat) (f : Request → Request) (s : State) : (setRequest e f s).dealer.due = s.dealer.due := rfl
@[simp] theorem setRequest_dealer_idle (e : Nat) (f : Request → Request) (s : State) : (setRequest e f s).dealer.idle = s.dealer.idle := rfl
@[simp] theorem setRequest_dealer_idleSince (e : Nat) (f : Request → Request) (s : State) : (setRequest e f s).dealer.idleSince = s.dealer.idleSince := rfl
@[simp] theorem setRequest_dealer_abandoned (e : Nat) (f : Request → Request) (s : State) : (setRequest e f s).dealer.abandoned = s.dealer.abandoned := rfl
@[simp] theorem setRequest_dealer_lastBatch (e : Nat) (f : Request → Request) (s : State) : (setRequest e f s).dealer.lastBatch = s.dealer.lastBatch := rfl
@[simp] theorem setRequest_dealer_lastVersion (e : Nat) (f : Request → Request) (s : State) : (setRequest e f s).dealer.lastVersion = s.dealer.lastVersion := rfl
@[simp] theorem setRequest_dealer_exhausted (e : Nat) (f : Request → Request) (s : State) : (setRequest e f s).dealer.exhausted = s.dealer.exhausted := rfl
@[simp] theorem setRequest_dealer_sramExhausted (e : Nat) (f : Request → Request) (s : State) : (setRequest e f s).dealer.sramExhausted = s.dealer.sramExhausted := rfl
@[simp] theorem setRequest_dealer_midway (e : Nat) (f : Request → Request) (s : State) : (setRequest e f s).dealer.midway = s.dealer.midway := rfl
@[simp] theorem setRequest_dealer_plyRuns (e : Nat) (f : Request → Request) (s : State) : (setRequest e f s).dealer.plyRuns = s.dealer.plyRuns := rfl
@[simp] theorem setRequest_dealer_reqOps (e : Nat) (f : Request → Request) (s : State) : (setRequest e f s).dealer.reqOps = s.dealer.reqOps := rfl
@[simp] theorem setRequest_dealer_records (e : Nat) (f : Request → Request) (s : State) : (setRequest e f s).dealer.records = s.dealer.records := rfl
@[simp] theorem setRequest_dealer_later (e : Nat) (f : Request → Request) (s : State) : (setRequest e f s).dealer.later = s.dealer.later := rfl
@[simp] theorem portSt_setRequest (e : Nat) (f : Request → Request) (p' : Port) (s : State) : portSt (setRequest e f s) p' = portSt s p' := rfl
@[simp] theorem queue_setRequest (e : Nat) (f : Request → Request) (k : Nat) (s : State) : queue (setRequest e f s) k = queue s k := rfl
@[simp] theorem mark_setRequest (e : Nat) (f : Request → Request) (k : Nat) (s : State) : mark (setRequest e f s) k = mark s k := rfl
@[simp] theorem obj_setRequest (e : Nat) (f : Request → Request) (k : Nat) (s : State) : obj (setRequest e f s) k = obj s k := rfl
@[simp] theorem layer_setRequest (e : Nat) (f : Request → Request) (k : Nat) (s : State) : layer (setRequest e f s) k = layer s k := rfl
@[simp] theorem slot_setRequest (e : Nat) (f : Request → Request) (k : Nat) (s : State) : slot (setRequest e f s) k = slot s k := rfl
@[simp] theorem position_setRequest (e : Nat) (f : Request → Request) (k : Nat) (s : State) : position (setRequest e f s) k = position s k := rfl
@[simp] theorem group_setRequest (e : Nat) (f : Request → Request) (k : Nat) (s : State) : group (setRequest e f s) k = group s k := rfl
@[simp] theorem block_setRequest (e : Nat) (f : Request → Request) (k : Nat) (s : State) : block (setRequest e f s) k = block s k := rfl
@[simp] theorem opAt_setRequest (e : Nat) (f : Request → Request) (k : Nat) (s : State) : opAt (setRequest e f s) k = opAt s k := rfl
@[simp] theorem uport_setRequest (e : Nat) (f : Request → Request) (k : Nat) (s : State) : uport (setRequest e f s) k = uport s k := rfl

/-! ### setSlot -/

@[simp] theorem setSlot_pending (i : Nat) (f : Slot → Slot) (s : State) : (setSlot i f s).pending = s.pending := rfl
@[simp] theorem setSlot_tick (i : Nat) (f : Slot → Slot) (s : State) : (setSlot i f s).tick = s.tick := rfl
@[simp] theorem setSlot_units (i : Nat) (f : Slot → Slot) (s : State) : (setSlot i f s).units = s.units := rfl
@[simp] theorem setSlot_counters (i : Nat) (f : Slot → Slot) (s : State) : (setSlot i f s).counters = s.counters := rfl
@[simp] theorem setSlot_tiers (i : Nat) (f : Slot → Slot) (s : State) : (setSlot i f s).tiers = s.tiers := rfl
@[simp] theorem setSlot_unlia (i : Nat) (f : Slot → Slot) (s : State) : (setSlot i f s).unlia = s.unlia := rfl
@[simp] theorem setSlot_conceal (i : Nat) (f : Slot → Slot) (s : State) : (setSlot i f s).conceal = s.conceal := rfl
@[simp] theorem setSlot_host (i : Nat) (f : Slot → Slot) (s : State) : (setSlot i f s).host = s.host := rfl
@[simp] theorem setSlot_resets (i : Nat) (f : Slot → Slot) (s : State) : (setSlot i f s).resets = s.resets := rfl
@[simp] theorem setSlot_glaren (i : Nat) (f : Slot → Slot) (s : State) : (setSlot i f s).glaren = s.glaren := rfl
@[simp] theorem setSlot_out (i : Nat) (f : Slot → Slot) (s : State) : (setSlot i f s).out = s.out := rfl
@[simp] theorem setSlot_framed (i : Nat) (f : Slot → Slot) (s : State) : (setSlot i f s).framed = s.framed := rfl
@[simp] theorem setSlot_free (i : Nat) (f : Slot → Slot) (s : State) : (setSlot i f s).free = s.free := rfl
@[simp] theorem setSlot_dealer_phase (i : Nat) (f : Slot → Slot) (s : State) : (setSlot i f s).dealer.phase = s.dealer.phase := rfl
@[simp] theorem setSlot_dealer_pending (i : Nat) (f : Slot → Slot) (s : State) : (setSlot i f s).dealer.pending = s.dealer.pending := rfl
@[simp] theorem setSlot_dealer_learnQueue (i : Nat) (f : Slot → Slot) (s : State) : (setSlot i f s).dealer.learnQueue = s.dealer.learnQueue := rfl
@[simp] theorem setSlot_dealer_stepNumber (i : Nat) (f : Slot → Slot) (s : State) : (setSlot i f s).dealer.stepNumber = s.dealer.stepNumber := rfl
@[simp] theorem setSlot_dealer_evalInterval (i : Nat) (f : Slot → Slot) (s : State) : (setSlot i f s).dealer.evalInterval = s.dealer.evalInterval := rfl
@[simp] theorem setSlot_dealer_sinceEval (i : Nat) (f : Slot → Slot) (s : State) : (setSlot i f s).dealer.sinceEval = s.dealer.sinceEval := rfl
@[simp] theorem setSlot_dealer_sinceOld (i : Nat) (f : Slot → Slot) (s : State) : (setSlot i f s).dealer.sinceOld = s.dealer.sinceOld := rfl
@[simp] theorem setSlot_dealer_lead (i : Nat) (f : Slot → Slot) (s : State) : (setSlot i f s).dealer.lead = s.dealer.lead := rfl
@[simp] theorem setSlot_dealer_grant (i : Nat) (f : Slot → Slot) (s : State) : (setSlot i f s).dealer.grant = s.dealer.grant := rfl
@[simp] theorem setSlot_dealer_halfFenced (i : Nat) (f : Slot → Slot) (s : State) : (setSlot i f s).dealer.halfFenced = s.dealer.halfFenced := rfl
@[simp] theorem setSlot_dealer_genBook (i : Nat) (f : Slot → Slot) (s : State) : (setSlot i f s).dealer.genBook = s.dealer.genBook := rfl
@[simp] theorem setSlot_dealer_learnBook (i : Nat) (f : Slot → Slot) (s : State) : (setSlot i f s).dealer.learnBook = s.dealer.learnBook := rfl
@[simp] theorem setSlot_dealer_loading (i : Nat) (f : Slot → Slot) (s : State) : (setSlot i f s).dealer.loading = s.dealer.loading := rfl
@[simp] theorem setSlot_dealer_waitBound (i : Nat) (f : Slot → Slot) (s : State) : (setSlot i f s).dealer.waitBound = s.dealer.waitBound := rfl
@[simp] theorem setSlot_dealer_lastPly (i : Nat) (f : Slot → Slot) (s : State) : (setSlot i f s).dealer.lastPly = s.dealer.lastPly := rfl
@[simp] theorem setSlot_dealer_lastVariant (i : Nat) (f : Slot → Slot) (s : State) : (setSlot i f s).dealer.lastVariant = s.dealer.lastVariant := rfl
@[simp] theorem setSlot_dealer_lastBook (i : Nat) (f : Slot → Slot) (s : State) : (setSlot i f s).dealer.lastBook = s.dealer.lastBook := rfl
@[simp] theorem setSlot_dealer_fault (i : Nat) (f : Slot → Slot) (s : State) : (setSlot i f s).dealer.fault = s.dealer.fault := rfl
@[simp] theorem setSlot_dealer_castles (i : Nat) (f : Slot → Slot) (s : State) : (setSlot i f s).dealer.castles = s.dealer.castles := rfl
@[simp] theorem setSlot_dealer_building (i : Nat) (f : Slot → Slot) (s : State) : (setSlot i f s).dealer.building = s.dealer.building := rfl
@[simp] theorem setSlot_dealer_castlePending (i : Nat) (f : Slot → Slot) (s : State) : (setSlot i f s).dealer.castlePending = s.dealer.castlePending := rfl
@[simp] theorem setSlot_dealer_earlyChunks (i : Nat) (f : Slot → Slot) (s : State) : (setSlot i f s).dealer.earlyChunks = s.dealer.earlyChunks := rfl
@[simp] theorem setSlot_dealer_lastSent (i : Nat) (f : Slot → Slot) (s : State) : (setSlot i f s).dealer.lastSent = s.dealer.lastSent := rfl
@[simp] theorem setSlot_dealer_lastSwitch (i : Nat) (f : Slot → Slot) (s : State) : (setSlot i f s).dealer.lastSwitch = s.dealer.lastSwitch := rfl
@[simp] theorem setSlot_dealer_pinInterval (i : Nat) (f : Slot → Slot) (s : State) : (setSlot i f s).dealer.pinInterval = s.dealer.pinInterval := rfl
@[simp] theorem setSlot_dealer_chunk (i : Nat) (f : Slot → Slot) (s : State) : (setSlot i f s).dealer.chunk = s.dealer.chunk := rfl
@[simp] theorem setSlot_dealer_prefillSlots (i : Nat) (f : Slot → Slot) (s : State) : (setSlot i f s).dealer.prefillSlots = s.dealer.prefillSlots := rfl
@[simp] theorem setSlot_dealer_refillPeriod (i : Nat) (f : Slot → Slot) (s : State) : (setSlot i f s).dealer.refillPeriod = s.dealer.refillPeriod := rfl
@[simp] theorem setSlot_dealer_refillCount (i : Nat) (f : Slot → Slot) (s : State) : (setSlot i f s).dealer.refillCount = s.dealer.refillCount := rfl
@[simp] theorem setSlot_dealer_budgetSets (i : Nat) (f : Slot → Slot) (s : State) : (setSlot i f s).dealer.budgetSets = s.dealer.budgetSets := rfl
@[simp] theorem setSlot_dealer_budgetAll (i : Nat) (f : Slot → Slot) (s : State) : (setSlot i f s).dealer.budgetAll = s.dealer.budgetAll := rfl
@[simp] theorem setSlot_dealer_budgets (i : Nat) (f : Slot → Slot) (s : State) : (setSlot i f s).dealer.budgets = s.dealer.budgets := rfl
@[simp] theorem setSlot_dealer_refills (i : Nat) (f : Slot → Slot) (s : State) : (setSlot i f s).dealer.refills = s.dealer.refills := rfl
@[simp] theorem setSlot_dealer_frameShare (i : Nat) (f : Slot → Slot) (s : State) : (setSlot i f s).dealer.frameShare = s.dealer.frameShare := rfl
@[simp] theorem setSlot_dealer_pools (i : Nat) (f : Slot → Slot) (s : State) : (setSlot i f s).dealer.pools = s.dealer.pools := rfl
@[simp] theorem setSlot_dealer_batchObj (i : Nat) (f : Slot → Slot) (s : State) : (setSlot i f s).dealer.batchObj = s.dealer.batchObj := rfl
@[simp] theorem setSlot_dealer_frames (i : Nat) (f : Slot → Slot) (s : State) : (setSlot i f s).dealer.frames = s.dealer.frames := rfl
@[simp] theorem setSlot_dealer_freeHead (i : Nat) (f : Slot → Slot) (s : State) : (setSlot i f s).dealer.freeHead = s.dealer.freeHead := rfl
@[simp] theorem setSlot_dealer_freeTail (i : Nat) (f : Slot → Slot) (s : State) : (setSlot i f s).dealer.freeTail = s.dealer.freeTail := rfl
@[simp] theorem setSlot_dealer_freeCount (i : Nat) (f : Slot → Slot) (s : State) : (setSlot i f s).dealer.freeCount = s.dealer.freeCount := rfl
@[simp] theorem setSlot_dealer_pageTab (i : Nat) (f : Slot → Slot) (s : State) : (setSlot i f s).dealer.pageTab = s.dealer.pageTab := rfl
@[simp] theorem setSlot_dealer_requests (i : Nat) (f : Slot → Slot) (s : State) : (setSlot i f s).dealer.requests = s.dealer.requests := rfl
@[simp] theorem setSlot_dealer_admitSeq (i : Nat) (f : Slot → Slot) (s : State) : (setSlot i f s).dealer.admitSeq = s.dealer.admitSeq := rfl
@[simp] theorem setSlot_dealer_skip (i : Nat) (f : Slot → Slot) (s : State) : (setSlot i f s).dealer.skip = s.dealer.skip := rfl
@[simp] theorem setSlot_dealer_ends (i : Nat) (f : Slot → Slot) (s : State) : (setSlot i f s).dealer.ends = s.dealer.ends := rfl
@[simp] theorem setSlot_dealer_pageErrors (i : Nat) (f : Slot → Slot) (s : State) : (setSlot i f s).dealer.pageErrors = s.dealer.pageErrors := rfl
@[simp] theorem setSlot_dealer_roleEpoch (i : Nat) (f : Slot → Slot) (s : State) : (setSlot i f s).dealer.roleEpoch = s.dealer.roleEpoch := rfl
@[simp] theorem setSlot_dealer_split (i : Nat) (f : Slot → Slot) (s : State) : (setSlot i f s).dealer.split = s.dealer.split := rfl
@[simp] theorem setSlot_dealer_westFenced (i : Nat) (f : Slot → Slot) (s : State) : (setSlot i f s).dealer.westFenced = s.dealer.westFenced := rfl
@[simp] theorem setSlot_dealer_eastFenced (i : Nat) (f : Slot → Slot) (s : State) : (setSlot i f s).dealer.eastFenced = s.dealer.eastFenced := rfl
@[simp] theorem setSlot_dealer_queries (i : Nat) (f : Slot → Slot) (s : State) : (setSlot i f s).dealer.queries = s.dealer.queries := rfl
@[simp] theorem setSlot_dealer_heartbeat (i : Nat) (f : Slot → Slot) (s : State) : (setSlot i f s).dealer.heartbeat = s.dealer.heartbeat := rfl
@[simp] theorem setSlot_dealer_westHeard (i : Nat) (f : Slot → Slot) (s : State) : (setSlot i f s).dealer.westHeard = s.dealer.westHeard := rfl
@[simp] theorem setSlot_dealer_needAck (i : Nat) (f : Slot → Slot) (s : State) : (setSlot i f s).dealer.needAck = s.dealer.needAck := rfl
@[simp] theorem setSlot_dealer_mirrorStep (i : Nat) (f : Slot → Slot) (s : State) : (setSlot i f s).dealer.mirrorStep = s.dealer.mirrorStep := rfl
@[simp] theorem setSlot_dealer_before (i : Nat) (f : Slot → Slot) (s : State) : (setSlot i f s).dealer.before = s.dealer.before := rfl
@[simp] theorem setSlot_dealer_run (i : Nat) (f : Slot → Slot) (s : State) : (setSlot i f s).dealer.run = s.dealer.run := rfl
@[simp] theorem setSlot_dealer_held (i : Nat) (f : Slot → Slot) (s : State) : (setSlot i f s).dealer.held = s.dealer.held := rfl
@[simp] theorem setSlot_dealer_due (i : Nat) (f : Slot → Slot) (s : State) : (setSlot i f s).dealer.due = s.dealer.due := rfl
@[simp] theorem setSlot_dealer_idle (i : Nat) (f : Slot → Slot) (s : State) : (setSlot i f s).dealer.idle = s.dealer.idle := rfl
@[simp] theorem setSlot_dealer_idleSince (i : Nat) (f : Slot → Slot) (s : State) : (setSlot i f s).dealer.idleSince = s.dealer.idleSince := rfl
@[simp] theorem setSlot_dealer_abandoned (i : Nat) (f : Slot → Slot) (s : State) : (setSlot i f s).dealer.abandoned = s.dealer.abandoned := rfl
@[simp] theorem setSlot_dealer_lastBatch (i : Nat) (f : Slot → Slot) (s : State) : (setSlot i f s).dealer.lastBatch = s.dealer.lastBatch := rfl
@[simp] theorem setSlot_dealer_lastVersion (i : Nat) (f : Slot → Slot) (s : State) : (setSlot i f s).dealer.lastVersion = s.dealer.lastVersion := rfl
@[simp] theorem setSlot_dealer_exhausted (i : Nat) (f : Slot → Slot) (s : State) : (setSlot i f s).dealer.exhausted = s.dealer.exhausted := rfl
@[simp] theorem setSlot_dealer_sramExhausted (i : Nat) (f : Slot → Slot) (s : State) : (setSlot i f s).dealer.sramExhausted = s.dealer.sramExhausted := rfl
@[simp] theorem setSlot_dealer_midway (i : Nat) (f : Slot → Slot) (s : State) : (setSlot i f s).dealer.midway = s.dealer.midway := rfl
@[simp] theorem setSlot_dealer_plyRuns (i : Nat) (f : Slot → Slot) (s : State) : (setSlot i f s).dealer.plyRuns = s.dealer.plyRuns := rfl
@[simp] theorem setSlot_dealer_reqOps (i : Nat) (f : Slot → Slot) (s : State) : (setSlot i f s).dealer.reqOps = s.dealer.reqOps := rfl
@[simp] theorem setSlot_dealer_records (i : Nat) (f : Slot → Slot) (s : State) : (setSlot i f s).dealer.records = s.dealer.records := rfl
@[simp] theorem setSlot_dealer_later (i : Nat) (f : Slot → Slot) (s : State) : (setSlot i f s).dealer.later = s.dealer.later := rfl
@[simp] theorem portSt_setSlot (i : Nat) (f : Slot → Slot) (p' : Port) (s : State) : portSt (setSlot i f s) p' = portSt s p' := rfl
@[simp] theorem queue_setSlot (i : Nat) (f : Slot → Slot) (k : Nat) (s : State) : queue (setSlot i f s) k = queue s k := rfl
@[simp] theorem mark_setSlot (i : Nat) (f : Slot → Slot) (k : Nat) (s : State) : mark (setSlot i f s) k = mark s k := rfl
@[simp] theorem obj_setSlot (i : Nat) (f : Slot → Slot) (k : Nat) (s : State) : obj (setSlot i f s) k = obj s k := rfl
@[simp] theorem layer_setSlot (i : Nat) (f : Slot → Slot) (k : Nat) (s : State) : layer (setSlot i f s) k = layer s k := rfl
@[simp] theorem request_setSlot (i : Nat) (f : Slot → Slot) (k : Nat) (s : State) : request (setSlot i f s) k = request s k := rfl
@[simp] theorem position_setSlot (i : Nat) (f : Slot → Slot) (k : Nat) (s : State) : position (setSlot i f s) k = position s k := rfl
@[simp] theorem group_setSlot (i : Nat) (f : Slot → Slot) (k : Nat) (s : State) : group (setSlot i f s) k = group s k := rfl
@[simp] theorem block_setSlot (i : Nat) (f : Slot → Slot) (k : Nat) (s : State) : block (setSlot i f s) k = block s k := rfl
@[simp] theorem opAt_setSlot (i : Nat) (f : Slot → Slot) (k : Nat) (s : State) : opAt (setSlot i f s) k = opAt s k := rfl
@[simp] theorem uport_setSlot (i : Nat) (f : Slot → Slot) (k : Nat) (s : State) : uport (setSlot i f s) k = uport s k := rfl

/-! ### setRun -/

@[simp] theorem setRun_pending (f : Run → Run) (s : State) : (setRun f s).pending = s.pending := rfl
@[simp] theorem setRun_tick (f : Run → Run) (s : State) : (setRun f s).tick = s.tick := rfl
@[simp] theorem setRun_units (f : Run → Run) (s : State) : (setRun f s).units = s.units := rfl
@[simp] theorem setRun_counters (f : Run → Run) (s : State) : (setRun f s).counters = s.counters := rfl
@[simp] theorem setRun_tiers (f : Run → Run) (s : State) : (setRun f s).tiers = s.tiers := rfl
@[simp] theorem setRun_unlia (f : Run → Run) (s : State) : (setRun f s).unlia = s.unlia := rfl
@[simp] theorem setRun_conceal (f : Run → Run) (s : State) : (setRun f s).conceal = s.conceal := rfl
@[simp] theorem setRun_host (f : Run → Run) (s : State) : (setRun f s).host = s.host := rfl
@[simp] theorem setRun_resets (f : Run → Run) (s : State) : (setRun f s).resets = s.resets := rfl
@[simp] theorem setRun_glaren (f : Run → Run) (s : State) : (setRun f s).glaren = s.glaren := rfl
@[simp] theorem setRun_out (f : Run → Run) (s : State) : (setRun f s).out = s.out := rfl
@[simp] theorem setRun_framed (f : Run → Run) (s : State) : (setRun f s).framed = s.framed := rfl
@[simp] theorem setRun_free (f : Run → Run) (s : State) : (setRun f s).free = s.free := rfl
@[simp] theorem setRun_dealer_phase (f : Run → Run) (s : State) : (setRun f s).dealer.phase = s.dealer.phase := rfl
@[simp] theorem setRun_dealer_pending (f : Run → Run) (s : State) : (setRun f s).dealer.pending = s.dealer.pending := rfl
@[simp] theorem setRun_dealer_learnQueue (f : Run → Run) (s : State) : (setRun f s).dealer.learnQueue = s.dealer.learnQueue := rfl
@[simp] theorem setRun_dealer_stepNumber (f : Run → Run) (s : State) : (setRun f s).dealer.stepNumber = s.dealer.stepNumber := rfl
@[simp] theorem setRun_dealer_evalInterval (f : Run → Run) (s : State) : (setRun f s).dealer.evalInterval = s.dealer.evalInterval := rfl
@[simp] theorem setRun_dealer_sinceEval (f : Run → Run) (s : State) : (setRun f s).dealer.sinceEval = s.dealer.sinceEval := rfl
@[simp] theorem setRun_dealer_sinceOld (f : Run → Run) (s : State) : (setRun f s).dealer.sinceOld = s.dealer.sinceOld := rfl
@[simp] theorem setRun_dealer_lead (f : Run → Run) (s : State) : (setRun f s).dealer.lead = s.dealer.lead := rfl
@[simp] theorem setRun_dealer_grant (f : Run → Run) (s : State) : (setRun f s).dealer.grant = s.dealer.grant := rfl
@[simp] theorem setRun_dealer_halfFenced (f : Run → Run) (s : State) : (setRun f s).dealer.halfFenced = s.dealer.halfFenced := rfl
@[simp] theorem setRun_dealer_genBook (f : Run → Run) (s : State) : (setRun f s).dealer.genBook = s.dealer.genBook := rfl
@[simp] theorem setRun_dealer_learnBook (f : Run → Run) (s : State) : (setRun f s).dealer.learnBook = s.dealer.learnBook := rfl
@[simp] theorem setRun_dealer_loading (f : Run → Run) (s : State) : (setRun f s).dealer.loading = s.dealer.loading := rfl
@[simp] theorem setRun_dealer_waitBound (f : Run → Run) (s : State) : (setRun f s).dealer.waitBound = s.dealer.waitBound := rfl
@[simp] theorem setRun_dealer_lastPly (f : Run → Run) (s : State) : (setRun f s).dealer.lastPly = s.dealer.lastPly := rfl
@[simp] theorem setRun_dealer_lastVariant (f : Run → Run) (s : State) : (setRun f s).dealer.lastVariant = s.dealer.lastVariant := rfl
@[simp] theorem setRun_dealer_lastBook (f : Run → Run) (s : State) : (setRun f s).dealer.lastBook = s.dealer.lastBook := rfl
@[simp] theorem setRun_dealer_fault (f : Run → Run) (s : State) : (setRun f s).dealer.fault = s.dealer.fault := rfl
@[simp] theorem setRun_dealer_slots (f : Run → Run) (s : State) : (setRun f s).dealer.slots = s.dealer.slots := rfl
@[simp] theorem setRun_dealer_castles (f : Run → Run) (s : State) : (setRun f s).dealer.castles = s.dealer.castles := rfl
@[simp] theorem setRun_dealer_building (f : Run → Run) (s : State) : (setRun f s).dealer.building = s.dealer.building := rfl
@[simp] theorem setRun_dealer_castlePending (f : Run → Run) (s : State) : (setRun f s).dealer.castlePending = s.dealer.castlePending := rfl
@[simp] theorem setRun_dealer_earlyChunks (f : Run → Run) (s : State) : (setRun f s).dealer.earlyChunks = s.dealer.earlyChunks := rfl
@[simp] theorem setRun_dealer_lastSent (f : Run → Run) (s : State) : (setRun f s).dealer.lastSent = s.dealer.lastSent := rfl
@[simp] theorem setRun_dealer_lastSwitch (f : Run → Run) (s : State) : (setRun f s).dealer.lastSwitch = s.dealer.lastSwitch := rfl
@[simp] theorem setRun_dealer_pinInterval (f : Run → Run) (s : State) : (setRun f s).dealer.pinInterval = s.dealer.pinInterval := rfl
@[simp] theorem setRun_dealer_chunk (f : Run → Run) (s : State) : (setRun f s).dealer.chunk = s.dealer.chunk := rfl
@[simp] theorem setRun_dealer_prefillSlots (f : Run → Run) (s : State) : (setRun f s).dealer.prefillSlots = s.dealer.prefillSlots := rfl
@[simp] theorem setRun_dealer_refillPeriod (f : Run → Run) (s : State) : (setRun f s).dealer.refillPeriod = s.dealer.refillPeriod := rfl
@[simp] theorem setRun_dealer_refillCount (f : Run → Run) (s : State) : (setRun f s).dealer.refillCount = s.dealer.refillCount := rfl
@[simp] theorem setRun_dealer_budgetSets (f : Run → Run) (s : State) : (setRun f s).dealer.budgetSets = s.dealer.budgetSets := rfl
@[simp] theorem setRun_dealer_budgetAll (f : Run → Run) (s : State) : (setRun f s).dealer.budgetAll = s.dealer.budgetAll := rfl
@[simp] theorem setRun_dealer_budgets (f : Run → Run) (s : State) : (setRun f s).dealer.budgets = s.dealer.budgets := rfl
@[simp] theorem setRun_dealer_refills (f : Run → Run) (s : State) : (setRun f s).dealer.refills = s.dealer.refills := rfl
@[simp] theorem setRun_dealer_frameShare (f : Run → Run) (s : State) : (setRun f s).dealer.frameShare = s.dealer.frameShare := rfl
@[simp] theorem setRun_dealer_pools (f : Run → Run) (s : State) : (setRun f s).dealer.pools = s.dealer.pools := rfl
@[simp] theorem setRun_dealer_batchObj (f : Run → Run) (s : State) : (setRun f s).dealer.batchObj = s.dealer.batchObj := rfl
@[simp] theorem setRun_dealer_frames (f : Run → Run) (s : State) : (setRun f s).dealer.frames = s.dealer.frames := rfl
@[simp] theorem setRun_dealer_freeHead (f : Run → Run) (s : State) : (setRun f s).dealer.freeHead = s.dealer.freeHead := rfl
@[simp] theorem setRun_dealer_freeTail (f : Run → Run) (s : State) : (setRun f s).dealer.freeTail = s.dealer.freeTail := rfl
@[simp] theorem setRun_dealer_freeCount (f : Run → Run) (s : State) : (setRun f s).dealer.freeCount = s.dealer.freeCount := rfl
@[simp] theorem setRun_dealer_pageTab (f : Run → Run) (s : State) : (setRun f s).dealer.pageTab = s.dealer.pageTab := rfl
@[simp] theorem setRun_dealer_requests (f : Run → Run) (s : State) : (setRun f s).dealer.requests = s.dealer.requests := rfl
@[simp] theorem setRun_dealer_admitSeq (f : Run → Run) (s : State) : (setRun f s).dealer.admitSeq = s.dealer.admitSeq := rfl
@[simp] theorem setRun_dealer_skip (f : Run → Run) (s : State) : (setRun f s).dealer.skip = s.dealer.skip := rfl
@[simp] theorem setRun_dealer_ends (f : Run → Run) (s : State) : (setRun f s).dealer.ends = s.dealer.ends := rfl
@[simp] theorem setRun_dealer_pageErrors (f : Run → Run) (s : State) : (setRun f s).dealer.pageErrors = s.dealer.pageErrors := rfl
@[simp] theorem setRun_dealer_roleEpoch (f : Run → Run) (s : State) : (setRun f s).dealer.roleEpoch = s.dealer.roleEpoch := rfl
@[simp] theorem setRun_dealer_split (f : Run → Run) (s : State) : (setRun f s).dealer.split = s.dealer.split := rfl
@[simp] theorem setRun_dealer_westFenced (f : Run → Run) (s : State) : (setRun f s).dealer.westFenced = s.dealer.westFenced := rfl
@[simp] theorem setRun_dealer_eastFenced (f : Run → Run) (s : State) : (setRun f s).dealer.eastFenced = s.dealer.eastFenced := rfl
@[simp] theorem setRun_dealer_queries (f : Run → Run) (s : State) : (setRun f s).dealer.queries = s.dealer.queries := rfl
@[simp] theorem setRun_dealer_heartbeat (f : Run → Run) (s : State) : (setRun f s).dealer.heartbeat = s.dealer.heartbeat := rfl
@[simp] theorem setRun_dealer_westHeard (f : Run → Run) (s : State) : (setRun f s).dealer.westHeard = s.dealer.westHeard := rfl
@[simp] theorem setRun_dealer_needAck (f : Run → Run) (s : State) : (setRun f s).dealer.needAck = s.dealer.needAck := rfl
@[simp] theorem setRun_dealer_mirrorStep (f : Run → Run) (s : State) : (setRun f s).dealer.mirrorStep = s.dealer.mirrorStep := rfl
@[simp] theorem setRun_dealer_before (f : Run → Run) (s : State) : (setRun f s).dealer.before = s.dealer.before := rfl
@[simp] theorem setRun_dealer_held (f : Run → Run) (s : State) : (setRun f s).dealer.held = s.dealer.held := rfl
@[simp] theorem setRun_dealer_due (f : Run → Run) (s : State) : (setRun f s).dealer.due = s.dealer.due := rfl
@[simp] theorem setRun_dealer_idle (f : Run → Run) (s : State) : (setRun f s).dealer.idle = s.dealer.idle := rfl
@[simp] theorem setRun_dealer_idleSince (f : Run → Run) (s : State) : (setRun f s).dealer.idleSince = s.dealer.idleSince := rfl
@[simp] theorem setRun_dealer_abandoned (f : Run → Run) (s : State) : (setRun f s).dealer.abandoned = s.dealer.abandoned := rfl
@[simp] theorem setRun_dealer_lastBatch (f : Run → Run) (s : State) : (setRun f s).dealer.lastBatch = s.dealer.lastBatch := rfl
@[simp] theorem setRun_dealer_lastVersion (f : Run → Run) (s : State) : (setRun f s).dealer.lastVersion = s.dealer.lastVersion := rfl
@[simp] theorem setRun_dealer_exhausted (f : Run → Run) (s : State) : (setRun f s).dealer.exhausted = s.dealer.exhausted := rfl
@[simp] theorem setRun_dealer_sramExhausted (f : Run → Run) (s : State) : (setRun f s).dealer.sramExhausted = s.dealer.sramExhausted := rfl
@[simp] theorem setRun_dealer_midway (f : Run → Run) (s : State) : (setRun f s).dealer.midway = s.dealer.midway := rfl
@[simp] theorem setRun_dealer_plyRuns (f : Run → Run) (s : State) : (setRun f s).dealer.plyRuns = s.dealer.plyRuns := rfl
@[simp] theorem setRun_dealer_reqOps (f : Run → Run) (s : State) : (setRun f s).dealer.reqOps = s.dealer.reqOps := rfl
@[simp] theorem setRun_dealer_records (f : Run → Run) (s : State) : (setRun f s).dealer.records = s.dealer.records := rfl
@[simp] theorem setRun_dealer_later (f : Run → Run) (s : State) : (setRun f s).dealer.later = s.dealer.later := rfl
@[simp] theorem portSt_setRun (f : Run → Run) (p' : Port) (s : State) : portSt (setRun f s) p' = portSt s p' := rfl
@[simp] theorem queue_setRun (f : Run → Run) (k : Nat) (s : State) : queue (setRun f s) k = queue s k := rfl
@[simp] theorem mark_setRun (f : Run → Run) (k : Nat) (s : State) : mark (setRun f s) k = mark s k := rfl
@[simp] theorem obj_setRun (f : Run → Run) (k : Nat) (s : State) : obj (setRun f s) k = obj s k := rfl
@[simp] theorem layer_setRun (f : Run → Run) (k : Nat) (s : State) : layer (setRun f s) k = layer s k := rfl
@[simp] theorem request_setRun (f : Run → Run) (k : Nat) (s : State) : request (setRun f s) k = request s k := rfl
@[simp] theorem slot_setRun (f : Run → Run) (k : Nat) (s : State) : slot (setRun f s) k = slot s k := rfl
@[simp] theorem position_setRun (f : Run → Run) (k : Nat) (s : State) : position (setRun f s) k = position s k := rfl
@[simp] theorem group_setRun (f : Run → Run) (k : Nat) (s : State) : group (setRun f s) k = group s k := rfl
@[simp] theorem block_setRun (f : Run → Run) (k : Nat) (s : State) : block (setRun f s) k = block s k := rfl
@[simp] theorem opAt_setRun (f : Run → Run) (k : Nat) (s : State) : opAt (setRun f s) k = opAt s k := rfl
@[simp] theorem uport_setRun (f : Run → Run) (k : Nat) (s : State) : uport (setRun f s) k = uport s k := rfl

/-! ### setGroup -/

@[simp] theorem setGroup_pending (g : Nat) (f : Group → Group) (s : State) : (setGroup g f s).pending = s.pending := rfl
@[simp] theorem setGroup_tick (g : Nat) (f : Group → Group) (s : State) : (setGroup g f s).tick = s.tick := rfl
@[simp] theorem setGroup_dealer (g : Nat) (f : Group → Group) (s : State) : (setGroup g f s).dealer = s.dealer := rfl
@[simp] theorem setGroup_units (g : Nat) (f : Group → Group) (s : State) : (setGroup g f s).units = s.units := rfl
@[simp] theorem setGroup_counters (g : Nat) (f : Group → Group) (s : State) : (setGroup g f s).counters = s.counters := rfl
@[simp] theorem setGroup_tiers (g : Nat) (f : Group → Group) (s : State) : (setGroup g f s).tiers = s.tiers := rfl
@[simp] theorem setGroup_conceal (g : Nat) (f : Group → Group) (s : State) : (setGroup g f s).conceal = s.conceal := rfl
@[simp] theorem setGroup_host (g : Nat) (f : Group → Group) (s : State) : (setGroup g f s).host = s.host := rfl
@[simp] theorem setGroup_resets (g : Nat) (f : Group → Group) (s : State) : (setGroup g f s).resets = s.resets := rfl
@[simp] theorem setGroup_glaren (g : Nat) (f : Group → Group) (s : State) : (setGroup g f s).glaren = s.glaren := rfl
@[simp] theorem setGroup_out (g : Nat) (f : Group → Group) (s : State) : (setGroup g f s).out = s.out := rfl
@[simp] theorem setGroup_framed (g : Nat) (f : Group → Group) (s : State) : (setGroup g f s).framed = s.framed := rfl
@[simp] theorem setGroup_free (g : Nat) (f : Group → Group) (s : State) : (setGroup g f s).free = s.free := rfl
@[simp] theorem setGroup_unlia_ports (g : Nat) (f : Group → Group) (s : State) : (setGroup g f s).unlia.ports = s.unlia.ports := rfl
@[simp] theorem setGroup_unlia_nodeId (g : Nat) (f : Group → Group) (s : State) : (setGroup g f s).unlia.nodeId = s.unlia.nodeId := rfl
@[simp] theorem setGroup_unlia_nodeValid (g : Nat) (f : Group → Group) (s : State) : (setGroup g f s).unlia.nodeValid = s.unlia.nodeValid := rfl
@[simp] theorem setGroup_unlia_routes (g : Nat) (f : Group → Group) (s : State) : (setGroup g f s).unlia.routes = s.unlia.routes := rfl
@[simp] theorem setGroup_unlia_positions (g : Nat) (f : Group → Group) (s : State) : (setGroup g f s).unlia.positions = s.unlia.positions := rfl
@[simp] theorem setGroup_unlia_posDigest (g : Nat) (f : Group → Group) (s : State) : (setGroup g f s).unlia.posDigest = s.unlia.posDigest := rfl
@[simp] theorem setGroup_unlia_posSets (g : Nat) (f : Group → Group) (s : State) : (setGroup g f s).unlia.posSets = s.unlia.posSets := rfl
@[simp] theorem setGroup_unlia_colls (g : Nat) (f : Group → Group) (s : State) : (setGroup g f s).unlia.colls = s.unlia.colls := rfl
@[simp] theorem setGroup_unlia_early (g : Nat) (f : Group → Group) (s : State) : (setGroup g f s).unlia.early = s.unlia.early := rfl
@[simp] theorem setGroup_unlia_collErrors (g : Nat) (f : Group → Group) (s : State) : (setGroup g f s).unlia.collErrors = s.unlia.collErrors := rfl
@[simp] theorem setGroup_unlia_lossLast (g : Nat) (f : Group → Group) (s : State) : (setGroup g f s).unlia.lossLast = s.unlia.lossLast := rfl
@[simp] theorem setGroup_unlia_lossCount (g : Nat) (f : Group → Group) (s : State) : (setGroup g f s).unlia.lossCount = s.unlia.lossCount := rfl
@[simp] theorem setGroup_unlia_lossSeen (g : Nat) (f : Group → Group) (s : State) : (setGroup g f s).unlia.lossSeen = s.unlia.lossSeen := rfl
@[simp] theorem portSt_setGroup (g : Nat) (f : Group → Group) (p' : Port) (s : State) : portSt (setGroup g f s) p' = portSt s p' := rfl
@[simp] theorem queue_setGroup (g : Nat) (f : Group → Group) (k : Nat) (s : State) : queue (setGroup g f s) k = queue s k := rfl
@[simp] theorem mark_setGroup (g : Nat) (f : Group → Group) (k : Nat) (s : State) : mark (setGroup g f s) k = mark s k := rfl
@[simp] theorem obj_setGroup (g : Nat) (f : Group → Group) (k : Nat) (s : State) : obj (setGroup g f s) k = obj s k := rfl
@[simp] theorem layer_setGroup (g : Nat) (f : Group → Group) (k : Nat) (s : State) : layer (setGroup g f s) k = layer s k := rfl
@[simp] theorem request_setGroup (g : Nat) (f : Group → Group) (k : Nat) (s : State) : request (setGroup g f s) k = request s k := rfl
@[simp] theorem slot_setGroup (g : Nat) (f : Group → Group) (k : Nat) (s : State) : slot (setGroup g f s) k = slot s k := rfl
@[simp] theorem position_setGroup (g : Nat) (f : Group → Group) (k : Nat) (s : State) : position (setGroup g f s) k = position s k := rfl
@[simp] theorem block_setGroup (g : Nat) (f : Group → Group) (k : Nat) (s : State) : block (setGroup g f s) k = block s k := rfl
@[simp] theorem opAt_setGroup (g : Nat) (f : Group → Group) (k : Nat) (s : State) : opAt (setGroup g f s) k = opAt s k := rfl
@[simp] theorem uport_setGroup (g : Nat) (f : Group → Group) (k : Nat) (s : State) : uport (setGroup g f s) k = uport s k := rfl

/-! ### setUPort -/

@[simp] theorem setUPort_pending (u : Nat) (f : UPort → UPort) (s : State) : (setUPort u f s).pending = s.pending := rfl
@[simp] theorem setUPort_tick (u : Nat) (f : UPort → UPort) (s : State) : (setUPort u f s).tick = s.tick := rfl
@[simp] theorem setUPort_dealer (u : Nat) (f : UPort → UPort) (s : State) : (setUPort u f s).dealer = s.dealer := rfl
@[simp] theorem setUPort_units (u : Nat) (f : UPort → UPort) (s : State) : (setUPort u f s).units = s.units := rfl
@[simp] theorem setUPort_counters (u : Nat) (f : UPort → UPort) (s : State) : (setUPort u f s).counters = s.counters := rfl
@[simp] theorem setUPort_tiers (u : Nat) (f : UPort → UPort) (s : State) : (setUPort u f s).tiers = s.tiers := rfl
@[simp] theorem setUPort_conceal (u : Nat) (f : UPort → UPort) (s : State) : (setUPort u f s).conceal = s.conceal := rfl
@[simp] theorem setUPort_host (u : Nat) (f : UPort → UPort) (s : State) : (setUPort u f s).host = s.host := rfl
@[simp] theorem setUPort_resets (u : Nat) (f : UPort → UPort) (s : State) : (setUPort u f s).resets = s.resets := rfl
@[simp] theorem setUPort_glaren (u : Nat) (f : UPort → UPort) (s : State) : (setUPort u f s).glaren = s.glaren := rfl
@[simp] theorem setUPort_out (u : Nat) (f : UPort → UPort) (s : State) : (setUPort u f s).out = s.out := rfl
@[simp] theorem setUPort_framed (u : Nat) (f : UPort → UPort) (s : State) : (setUPort u f s).framed = s.framed := rfl
@[simp] theorem setUPort_free (u : Nat) (f : UPort → UPort) (s : State) : (setUPort u f s).free = s.free := rfl
@[simp] theorem setUPort_unlia_nodeId (u : Nat) (f : UPort → UPort) (s : State) : (setUPort u f s).unlia.nodeId = s.unlia.nodeId := rfl
@[simp] theorem setUPort_unlia_nodeValid (u : Nat) (f : UPort → UPort) (s : State) : (setUPort u f s).unlia.nodeValid = s.unlia.nodeValid := rfl
@[simp] theorem setUPort_unlia_routes (u : Nat) (f : UPort → UPort) (s : State) : (setUPort u f s).unlia.routes = s.unlia.routes := rfl
@[simp] theorem setUPort_unlia_positions (u : Nat) (f : UPort → UPort) (s : State) : (setUPort u f s).unlia.positions = s.unlia.positions := rfl
@[simp] theorem setUPort_unlia_groups (u : Nat) (f : UPort → UPort) (s : State) : (setUPort u f s).unlia.groups = s.unlia.groups := rfl
@[simp] theorem setUPort_unlia_posDigest (u : Nat) (f : UPort → UPort) (s : State) : (setUPort u f s).unlia.posDigest = s.unlia.posDigest := rfl
@[simp] theorem setUPort_unlia_posSets (u : Nat) (f : UPort → UPort) (s : State) : (setUPort u f s).unlia.posSets = s.unlia.posSets := rfl
@[simp] theorem setUPort_unlia_colls (u : Nat) (f : UPort → UPort) (s : State) : (setUPort u f s).unlia.colls = s.unlia.colls := rfl
@[simp] theorem setUPort_unlia_early (u : Nat) (f : UPort → UPort) (s : State) : (setUPort u f s).unlia.early = s.unlia.early := rfl
@[simp] theorem setUPort_unlia_collErrors (u : Nat) (f : UPort → UPort) (s : State) : (setUPort u f s).unlia.collErrors = s.unlia.collErrors := rfl
@[simp] theorem setUPort_unlia_lossLast (u : Nat) (f : UPort → UPort) (s : State) : (setUPort u f s).unlia.lossLast = s.unlia.lossLast := rfl
@[simp] theorem setUPort_unlia_lossCount (u : Nat) (f : UPort → UPort) (s : State) : (setUPort u f s).unlia.lossCount = s.unlia.lossCount := rfl
@[simp] theorem setUPort_unlia_lossSeen (u : Nat) (f : UPort → UPort) (s : State) : (setUPort u f s).unlia.lossSeen = s.unlia.lossSeen := rfl
@[simp] theorem portSt_setUPort (u : Nat) (f : UPort → UPort) (p' : Port) (s : State) : portSt (setUPort u f s) p' = portSt s p' := rfl
@[simp] theorem queue_setUPort (u : Nat) (f : UPort → UPort) (k : Nat) (s : State) : queue (setUPort u f s) k = queue s k := rfl
@[simp] theorem mark_setUPort (u : Nat) (f : UPort → UPort) (k : Nat) (s : State) : mark (setUPort u f s) k = mark s k := rfl
@[simp] theorem obj_setUPort (u : Nat) (f : UPort → UPort) (k : Nat) (s : State) : obj (setUPort u f s) k = obj s k := rfl
@[simp] theorem layer_setUPort (u : Nat) (f : UPort → UPort) (k : Nat) (s : State) : layer (setUPort u f s) k = layer s k := rfl
@[simp] theorem request_setUPort (u : Nat) (f : UPort → UPort) (k : Nat) (s : State) : request (setUPort u f s) k = request s k := rfl
@[simp] theorem slot_setUPort (u : Nat) (f : UPort → UPort) (k : Nat) (s : State) : slot (setUPort u f s) k = slot s k := rfl
@[simp] theorem position_setUPort (u : Nat) (f : UPort → UPort) (k : Nat) (s : State) : position (setUPort u f s) k = position s k := rfl
@[simp] theorem group_setUPort (u : Nat) (f : UPort → UPort) (k : Nat) (s : State) : group (setUPort u f s) k = group s k := rfl
@[simp] theorem block_setUPort (u : Nat) (f : UPort → UPort) (k : Nat) (s : State) : block (setUPort u f s) k = block s k := rfl
@[simp] theorem opAt_setUPort (u : Nat) (f : UPort → UPort) (k : Nat) (s : State) : opAt (setUPort u f s) k = opAt s k := rfl

/-! ### setBlock -/

@[simp] theorem setBlock_pending (b : Nat) (f : Block → Block) (s : State) : (setBlock b f s).pending = s.pending := rfl
@[simp] theorem setBlock_tick (b : Nat) (f : Block → Block) (s : State) : (setBlock b f s).tick = s.tick := rfl
@[simp] theorem setBlock_dealer (b : Nat) (f : Block → Block) (s : State) : (setBlock b f s).dealer = s.dealer := rfl
@[simp] theorem setBlock_units (b : Nat) (f : Block → Block) (s : State) : (setBlock b f s).units = s.units := rfl
@[simp] theorem setBlock_counters (b : Nat) (f : Block → Block) (s : State) : (setBlock b f s).counters = s.counters := rfl
@[simp] theorem setBlock_tiers (b : Nat) (f : Block → Block) (s : State) : (setBlock b f s).tiers = s.tiers := rfl
@[simp] theorem setBlock_unlia (b : Nat) (f : Block → Block) (s : State) : (setBlock b f s).unlia = s.unlia := rfl
@[simp] theorem setBlock_conceal (b : Nat) (f : Block → Block) (s : State) : (setBlock b f s).conceal = s.conceal := rfl
@[simp] theorem setBlock_host (b : Nat) (f : Block → Block) (s : State) : (setBlock b f s).host = s.host := rfl
@[simp] theorem setBlock_glaren (b : Nat) (f : Block → Block) (s : State) : (setBlock b f s).glaren = s.glaren := rfl
@[simp] theorem setBlock_out (b : Nat) (f : Block → Block) (s : State) : (setBlock b f s).out = s.out := rfl
@[simp] theorem setBlock_framed (b : Nat) (f : Block → Block) (s : State) : (setBlock b f s).framed = s.framed := rfl
@[simp] theorem setBlock_free (b : Nat) (f : Block → Block) (s : State) : (setBlock b f s).free = s.free := rfl
@[simp] theorem setBlock_resets_mgood (b : Nat) (f : Block → Block) (s : State) : (setBlock b f s).resets.mgood = s.resets.mgood := rfl
@[simp] theorem setBlock_resets_causes (b : Nat) (f : Block → Block) (s : State) : (setBlock b f s).resets.causes = s.resets.causes := rfl
@[simp] theorem setBlock_resets_warmCount (b : Nat) (f : Block → Block) (s : State) : (setBlock b f s).resets.warmCount = s.resets.warmCount := rfl
@[simp] theorem setBlock_resets_bootCount (b : Nat) (f : Block → Block) (s : State) : (setBlock b f s).resets.bootCount = s.resets.bootCount := rfl
@[simp] theorem setBlock_resets_failedStarts (b : Nat) (f : Block → Block) (s : State) : (setBlock b f s).resets.failedStarts = s.resets.failedStarts := rfl
@[simp] theorem setBlock_resets_recovery (b : Nat) (f : Block → Block) (s : State) : (setBlock b f s).resets.recovery = s.resets.recovery := rfl
@[simp] theorem setBlock_resets_glarenReady (b : Nat) (f : Block → Block) (s : State) : (setBlock b f s).resets.glarenReady = s.resets.glarenReady := rfl
@[simp] theorem setBlock_resets_failStep (b : Nat) (f : Block → Block) (s : State) : (setBlock b f s).resets.failStep = s.resets.failStep := rfl
@[simp] theorem setBlock_resets_ddrRetrained (b : Nat) (f : Block → Block) (s : State) : (setBlock b f s).resets.ddrRetrained = s.resets.ddrRetrained := rfl
@[simp] theorem setBlock_resets_flashFormatted (b : Nat) (f : Block → Block) (s : State) : (setBlock b f s).resets.flashFormatted = s.resets.flashFormatted := rfl
@[simp] theorem setBlock_resets_mgoodTime (b : Nat) (f : Block → Block) (s : State) : (setBlock b f s).resets.mgoodTime = s.resets.mgoodTime := rfl
@[simp] theorem setBlock_resets_clocks (b : Nat) (f : Block → Block) (s : State) : (setBlock b f s).resets.clocks = s.resets.clocks := rfl
@[simp] theorem setBlock_resets_warmAt (b : Nat) (f : Block → Block) (s : State) : (setBlock b f s).resets.warmAt = s.resets.warmAt := rfl
@[simp] theorem setBlock_resets_warmCauses (b : Nat) (f : Block → Block) (s : State) : (setBlock b f s).resets.warmCauses = s.resets.warmCauses := rfl
@[simp] theorem setBlock_resets_warmN (b : Nat) (f : Block → Block) (s : State) : (setBlock b f s).resets.warmN = s.resets.warmN := rfl
@[simp] theorem setBlock_resets_warmHeld (b : Nat) (f : Block → Block) (s : State) : (setBlock b f s).resets.warmHeld = s.resets.warmHeld := rfl
@[simp] theorem setBlock_resets_starting (b : Nat) (f : Block → Block) (s : State) : (setBlock b f s).resets.starting = s.resets.starting := rfl
@[simp] theorem setBlock_resets_startTest (b : Nat) (f : Block → Block) (s : State) : (setBlock b f s).resets.startTest = s.resets.startTest := rfl
@[simp] theorem setBlock_resets_startGc (b : Nat) (f : Block → Block) (s : State) : (setBlock b f s).resets.startGc = s.resets.startGc := rfl
@[simp] theorem setBlock_resets_retry (b : Nat) (f : Block → Block) (s : State) : (setBlock b f s).resets.retry = s.resets.retry := rfl
@[simp] theorem setBlock_resets_powered (b : Nat) (f : Block → Block) (s : State) : (setBlock b f s).resets.powered = s.resets.powered := rfl
@[simp] theorem setBlock_resets_shutdown (b : Nat) (f : Block → Block) (s : State) : (setBlock b f s).resets.shutdown = s.resets.shutdown := rfl
@[simp] theorem setBlock_resets_startOk (b : Nat) (f : Block → Block) (s : State) : (setBlock b f s).resets.startOk = s.resets.startOk := rfl
@[simp] theorem setBlock_resets_firstStart (b : Nat) (f : Block → Block) (s : State) : (setBlock b f s).resets.firstStart = s.resets.firstStart := rfl
@[simp] theorem setBlock_resets_startKind (b : Nat) (f : Block → Block) (s : State) : (setBlock b f s).resets.startKind = s.resets.startKind := rfl
@[simp] theorem setBlock_resets_selfResets (b : Nat) (f : Block → Block) (s : State) : (setBlock b f s).resets.selfResets = s.resets.selfResets := rfl
@[simp] theorem setBlock_resets_heldRecords (b : Nat) (f : Block → Block) (s : State) : (setBlock b f s).resets.heldRecords = s.resets.heldRecords := rfl
@[simp] theorem setBlock_resets_droppedRecords (b : Nat) (f : Block → Block) (s : State) : (setBlock b f s).resets.droppedRecords = s.resets.droppedRecords := rfl
@[simp] theorem portSt_setBlock (b : Nat) (f : Block → Block) (p' : Port) (s : State) : portSt (setBlock b f s) p' = portSt s p' := rfl
@[simp] theorem queue_setBlock (b : Nat) (f : Block → Block) (k : Nat) (s : State) : queue (setBlock b f s) k = queue s k := rfl
@[simp] theorem mark_setBlock (b : Nat) (f : Block → Block) (k : Nat) (s : State) : mark (setBlock b f s) k = mark s k := rfl
@[simp] theorem obj_setBlock (b : Nat) (f : Block → Block) (k : Nat) (s : State) : obj (setBlock b f s) k = obj s k := rfl
@[simp] theorem layer_setBlock (b : Nat) (f : Block → Block) (k : Nat) (s : State) : layer (setBlock b f s) k = layer s k := rfl
@[simp] theorem request_setBlock (b : Nat) (f : Block → Block) (k : Nat) (s : State) : request (setBlock b f s) k = request s k := rfl
@[simp] theorem slot_setBlock (b : Nat) (f : Block → Block) (k : Nat) (s : State) : slot (setBlock b f s) k = slot s k := rfl
@[simp] theorem position_setBlock (b : Nat) (f : Block → Block) (k : Nat) (s : State) : position (setBlock b f s) k = position s k := rfl
@[simp] theorem group_setBlock (b : Nat) (f : Block → Block) (k : Nat) (s : State) : group (setBlock b f s) k = group s k := rfl
@[simp] theorem opAt_setBlock (b : Nat) (f : Block → Block) (k : Nat) (s : State) : opAt (setBlock b f s) k = opAt s k := rfl
@[simp] theorem uport_setBlock (b : Nat) (f : Block → Block) (k : Nat) (s : State) : uport (setBlock b f s) k = uport s k := rfl

/-! ### addOp -/

@[simp] theorem addOp_pending (o : Op) (s : State) : (addOp o s).pending = s.pending := rfl
@[simp] theorem addOp_tick (o : Op) (s : State) : (addOp o s).tick = s.tick := rfl
@[simp] theorem addOp_dealer (o : Op) (s : State) : (addOp o s).dealer = s.dealer := rfl
@[simp] theorem addOp_units (o : Op) (s : State) : (addOp o s).units = s.units := rfl
@[simp] theorem addOp_counters (o : Op) (s : State) : (addOp o s).counters = s.counters := rfl
@[simp] theorem addOp_tiers (o : Op) (s : State) : (addOp o s).tiers = s.tiers := rfl
@[simp] theorem addOp_unlia (o : Op) (s : State) : (addOp o s).unlia = s.unlia := rfl
@[simp] theorem addOp_conceal (o : Op) (s : State) : (addOp o s).conceal = s.conceal := rfl
@[simp] theorem addOp_resets (o : Op) (s : State) : (addOp o s).resets = s.resets := rfl
@[simp] theorem addOp_glaren (o : Op) (s : State) : (addOp o s).glaren = s.glaren := rfl
@[simp] theorem addOp_out (o : Op) (s : State) : (addOp o s).out = s.out := rfl
@[simp] theorem addOp_framed (o : Op) (s : State) : (addOp o s).framed = s.framed := rfl
@[simp] theorem addOp_free (o : Op) (s : State) : (addOp o s).free = s.free := rfl
@[simp] theorem addOp_host_queues (o : Op) (s : State) : (addOp o s).host.queues = s.host.queues := rfl
@[simp] theorem addOp_host_marks (o : Op) (s : State) : (addOp o s).host.marks = s.host.marks := rfl
@[simp] theorem addOp_host_holder (o : Op) (s : State) : (addOp o s).host.holder = s.host.holder := rfl
@[simp] theorem addOp_host_epoch (o : Op) (s : State) : (addOp o s).host.epoch = s.host.epoch := rfl
@[simp] theorem addOp_host_lease (o : Op) (s : State) : (addOp o s).host.lease = s.host.lease := rfl
@[simp] theorem addOp_host_leaseStart (o : Op) (s : State) : (addOp o s).host.leaseStart = s.host.leaseStart := rfl
@[simp] theorem addOp_host_rejected (o : Op) (s : State) : (addOp o s).host.rejected = s.host.rejected := rfl
@[simp] theorem addOp_host_rejOffset (o : Op) (s : State) : (addOp o s).host.rejOffset = s.host.rejOffset := rfl
@[simp] theorem addOp_host_rejPort (o : Op) (s : State) : (addOp o s).host.rejPort = s.host.rejPort := rfl
@[simp] theorem addOp_host_heldFirst (o : Op) (s : State) : (addOp o s).host.heldFirst = s.host.heldFirst := rfl
@[simp] theorem addOp_host_ports (o : Op) (s : State) : (addOp o s).host.ports = s.host.ports := rfl
@[simp] theorem portSt_addOp (o : Op) (p' : Port) (s : State) : portSt (addOp o s) p' = portSt s p' := rfl
@[simp] theorem queue_addOp (o : Op) (k : Nat) (s : State) : queue (addOp o s) k = queue s k := rfl
@[simp] theorem mark_addOp (o : Op) (k : Nat) (s : State) : mark (addOp o s) k = mark s k := rfl
@[simp] theorem obj_addOp (o : Op) (k : Nat) (s : State) : obj (addOp o s) k = obj s k := rfl
@[simp] theorem layer_addOp (o : Op) (k : Nat) (s : State) : layer (addOp o s) k = layer s k := rfl
@[simp] theorem request_addOp (o : Op) (k : Nat) (s : State) : request (addOp o s) k = request s k := rfl
@[simp] theorem slot_addOp (o : Op) (k : Nat) (s : State) : slot (addOp o s) k = slot s k := rfl
@[simp] theorem position_addOp (o : Op) (k : Nat) (s : State) : position (addOp o s) k = position s k := rfl
@[simp] theorem group_addOp (o : Op) (k : Nat) (s : State) : group (addOp o s) k = group s k := rfl
@[simp] theorem block_addOp (o : Op) (k : Nat) (s : State) : block (addOp o s) k = block s k := rfl
@[simp] theorem uport_addOp (o : Op) (k : Nat) (s : State) : uport (addOp o s) k = uport s k := rfl

/-! ### setOp -/

@[simp] theorem setOp_pending (id : Nat) (o : Op) (s : State) : (setOp id o s).pending = s.pending := rfl
@[simp] theorem setOp_tick (id : Nat) (o : Op) (s : State) : (setOp id o s).tick = s.tick := rfl
@[simp] theorem setOp_dealer (id : Nat) (o : Op) (s : State) : (setOp id o s).dealer = s.dealer := rfl
@[simp] theorem setOp_units (id : Nat) (o : Op) (s : State) : (setOp id o s).units = s.units := rfl
@[simp] theorem setOp_counters (id : Nat) (o : Op) (s : State) : (setOp id o s).counters = s.counters := rfl
@[simp] theorem setOp_tiers (id : Nat) (o : Op) (s : State) : (setOp id o s).tiers = s.tiers := rfl
@[simp] theorem setOp_unlia (id : Nat) (o : Op) (s : State) : (setOp id o s).unlia = s.unlia := rfl
@[simp] theorem setOp_conceal (id : Nat) (o : Op) (s : State) : (setOp id o s).conceal = s.conceal := rfl
@[simp] theorem setOp_resets (id : Nat) (o : Op) (s : State) : (setOp id o s).resets = s.resets := rfl
@[simp] theorem setOp_glaren (id : Nat) (o : Op) (s : State) : (setOp id o s).glaren = s.glaren := rfl
@[simp] theorem setOp_out (id : Nat) (o : Op) (s : State) : (setOp id o s).out = s.out := rfl
@[simp] theorem setOp_framed (id : Nat) (o : Op) (s : State) : (setOp id o s).framed = s.framed := rfl
@[simp] theorem setOp_free (id : Nat) (o : Op) (s : State) : (setOp id o s).free = s.free := rfl
@[simp] theorem setOp_host_queues (id : Nat) (o : Op) (s : State) : (setOp id o s).host.queues = s.host.queues := rfl
@[simp] theorem setOp_host_marks (id : Nat) (o : Op) (s : State) : (setOp id o s).host.marks = s.host.marks := rfl
@[simp] theorem setOp_host_holder (id : Nat) (o : Op) (s : State) : (setOp id o s).host.holder = s.host.holder := rfl
@[simp] theorem setOp_host_epoch (id : Nat) (o : Op) (s : State) : (setOp id o s).host.epoch = s.host.epoch := rfl
@[simp] theorem setOp_host_lease (id : Nat) (o : Op) (s : State) : (setOp id o s).host.lease = s.host.lease := rfl
@[simp] theorem setOp_host_leaseStart (id : Nat) (o : Op) (s : State) : (setOp id o s).host.leaseStart = s.host.leaseStart := rfl
@[simp] theorem setOp_host_rejected (id : Nat) (o : Op) (s : State) : (setOp id o s).host.rejected = s.host.rejected := rfl
@[simp] theorem setOp_host_rejOffset (id : Nat) (o : Op) (s : State) : (setOp id o s).host.rejOffset = s.host.rejOffset := rfl
@[simp] theorem setOp_host_rejPort (id : Nat) (o : Op) (s : State) : (setOp id o s).host.rejPort = s.host.rejPort := rfl
@[simp] theorem setOp_host_heldFirst (id : Nat) (o : Op) (s : State) : (setOp id o s).host.heldFirst = s.host.heldFirst := rfl
@[simp] theorem setOp_host_ports (id : Nat) (o : Op) (s : State) : (setOp id o s).host.ports = s.host.ports := rfl
@[simp] theorem setOp_host_nextOp (id : Nat) (o : Op) (s : State) : (setOp id o s).host.nextOp = s.host.nextOp := rfl
@[simp] theorem portSt_setOp (id : Nat) (o : Op) (p' : Port) (s : State) : portSt (setOp id o s) p' = portSt s p' := rfl
@[simp] theorem queue_setOp (id : Nat) (o : Op) (k : Nat) (s : State) : queue (setOp id o s) k = queue s k := rfl
@[simp] theorem mark_setOp (id : Nat) (o : Op) (k : Nat) (s : State) : mark (setOp id o s) k = mark s k := rfl
@[simp] theorem obj_setOp (id : Nat) (o : Op) (k : Nat) (s : State) : obj (setOp id o s) k = obj s k := rfl
@[simp] theorem layer_setOp (id : Nat) (o : Op) (k : Nat) (s : State) : layer (setOp id o s) k = layer s k := rfl
@[simp] theorem request_setOp (id : Nat) (o : Op) (k : Nat) (s : State) : request (setOp id o s) k = request s k := rfl
@[simp] theorem slot_setOp (id : Nat) (o : Op) (k : Nat) (s : State) : slot (setOp id o s) k = slot s k := rfl
@[simp] theorem position_setOp (id : Nat) (o : Op) (k : Nat) (s : State) : position (setOp id o s) k = position s k := rfl
@[simp] theorem group_setOp (id : Nat) (o : Op) (k : Nat) (s : State) : group (setOp id o s) k = group s k := rfl
@[simp] theorem block_setOp (id : Nat) (o : Op) (k : Nat) (s : State) : block (setOp id o s) k = block s k := rfl
@[simp] theorem uport_setOp (id : Nat) (o : Op) (k : Nat) (s : State) : uport (setOp id o s) k = uport s k := rfl

/-! ### dropOp -/

@[simp] theorem dropOp_pending (id : Nat) (s : State) : (dropOp id s).pending = s.pending := rfl
@[simp] theorem dropOp_tick (id : Nat) (s : State) : (dropOp id s).tick = s.tick := rfl
@[simp] theorem dropOp_dealer (id : Nat) (s : State) : (dropOp id s).dealer = s.dealer := rfl
@[simp] theorem dropOp_units (id : Nat) (s : State) : (dropOp id s).units = s.units := rfl
@[simp] theorem dropOp_counters (id : Nat) (s : State) : (dropOp id s).counters = s.counters := rfl
@[simp] theorem dropOp_tiers (id : Nat) (s : State) : (dropOp id s).tiers = s.tiers := rfl
@[simp] theorem dropOp_unlia (id : Nat) (s : State) : (dropOp id s).unlia = s.unlia := rfl
@[simp] theorem dropOp_conceal (id : Nat) (s : State) : (dropOp id s).conceal = s.conceal := rfl
@[simp] theorem dropOp_resets (id : Nat) (s : State) : (dropOp id s).resets = s.resets := rfl
@[simp] theorem dropOp_glaren (id : Nat) (s : State) : (dropOp id s).glaren = s.glaren := rfl
@[simp] theorem dropOp_out (id : Nat) (s : State) : (dropOp id s).out = s.out := rfl
@[simp] theorem dropOp_framed (id : Nat) (s : State) : (dropOp id s).framed = s.framed := rfl
@[simp] theorem dropOp_free (id : Nat) (s : State) : (dropOp id s).free = s.free := rfl
@[simp] theorem dropOp_host_queues (id : Nat) (s : State) : (dropOp id s).host.queues = s.host.queues := rfl
@[simp] theorem dropOp_host_marks (id : Nat) (s : State) : (dropOp id s).host.marks = s.host.marks := rfl
@[simp] theorem dropOp_host_holder (id : Nat) (s : State) : (dropOp id s).host.holder = s.host.holder := rfl
@[simp] theorem dropOp_host_epoch (id : Nat) (s : State) : (dropOp id s).host.epoch = s.host.epoch := rfl
@[simp] theorem dropOp_host_lease (id : Nat) (s : State) : (dropOp id s).host.lease = s.host.lease := rfl
@[simp] theorem dropOp_host_leaseStart (id : Nat) (s : State) : (dropOp id s).host.leaseStart = s.host.leaseStart := rfl
@[simp] theorem dropOp_host_rejected (id : Nat) (s : State) : (dropOp id s).host.rejected = s.host.rejected := rfl
@[simp] theorem dropOp_host_rejOffset (id : Nat) (s : State) : (dropOp id s).host.rejOffset = s.host.rejOffset := rfl
@[simp] theorem dropOp_host_rejPort (id : Nat) (s : State) : (dropOp id s).host.rejPort = s.host.rejPort := rfl
@[simp] theorem dropOp_host_heldFirst (id : Nat) (s : State) : (dropOp id s).host.heldFirst = s.host.heldFirst := rfl
@[simp] theorem dropOp_host_ports (id : Nat) (s : State) : (dropOp id s).host.ports = s.host.ports := rfl
@[simp] theorem dropOp_host_nextOp (id : Nat) (s : State) : (dropOp id s).host.nextOp = s.host.nextOp := rfl
@[simp] theorem portSt_dropOp (id : Nat) (p' : Port) (s : State) : portSt (dropOp id s) p' = portSt s p' := rfl
@[simp] theorem queue_dropOp (id : Nat) (k : Nat) (s : State) : queue (dropOp id s) k = queue s k := rfl
@[simp] theorem mark_dropOp (id : Nat) (k : Nat) (s : State) : mark (dropOp id s) k = mark s k := rfl
@[simp] theorem obj_dropOp (id : Nat) (k : Nat) (s : State) : obj (dropOp id s) k = obj s k := rfl
@[simp] theorem layer_dropOp (id : Nat) (k : Nat) (s : State) : layer (dropOp id s) k = layer s k := rfl
@[simp] theorem request_dropOp (id : Nat) (k : Nat) (s : State) : request (dropOp id s) k = request s k := rfl
@[simp] theorem slot_dropOp (id : Nat) (k : Nat) (s : State) : slot (dropOp id s) k = slot s k := rfl
@[simp] theorem position_dropOp (id : Nat) (k : Nat) (s : State) : position (dropOp id s) k = position s k := rfl
@[simp] theorem group_dropOp (id : Nat) (k : Nat) (s : State) : group (dropOp id s) k = group s k := rfl
@[simp] theorem block_dropOp (id : Nat) (k : Nat) (s : State) : block (dropOp id s) k = block s k := rfl
@[simp] theorem uport_dropOp (id : Nat) (k : Nat) (s : State) : uport (dropOp id s) k = uport s k := rfl

/-! ### What a reader gives after its own update -/

theorem Port.idx_inj (p q : Port) : Port.idx p = Port.idx q ↔ p = q := by cases p <;> cases q <;> decide
@[simp] theorem Port.other_other (p : Port) : Port.other (Port.other p) = p := by cases p <;> rfl
@[simp] theorem Port.other_ne (p : Port) : ¬ Port.other p = p := by cases p <;> decide
@[simp] theorem Port.ne_other (p : Port) : ¬ p = Port.other p := by cases p <;> decide

@[simp] theorem portSt_setPort (p q : Port) (f : PortSt → PortSt) (s : State) :
    portSt (setPort p f s) q = if p = q then f (portSt s q) else portSt s q := by
  simp only [portSt, setPort, Tab.get_mod, Port.idx_inj]
@[simp] theorem queue_setQueue (j k : Nat) (f : Queue → Queue) (s : State) : queue (setQueue j f s) k = if j = k then f (queue s k) else queue s k := by
  simp only [queue, setQueue, Tab.get_mod]
@[simp] theorem mark_setMark (j k : Nat) (f : Mark → Mark) (s : State) : mark (setMark j f s) k = if j = k then f (mark s k) else mark s k := by
  simp only [mark, setMark, Tab.get_mod]
@[simp] theorem obj_setObj (j k : Nat) (f : Obj → Obj) (s : State) : obj (setObj j f s) k = if j = k then f (obj s k) else obj s k := by
  simp only [obj, setObj, Tab.get_mod]
@[simp] theorem layer_setLayer (j k : Nat) (f : FlashLayer → FlashLayer) (s : State) : layer (setLayer j f s) k = if j = k then f (layer s k) else layer s k := by
  simp only [layer, setLayer, Tab.get_mod]
@[simp] theorem request_setRequest (j k : Nat) (f : Request → Request) (s : State) : request (setRequest j f s) k = if j = k then f (request s k) else request s k := by
  simp only [request, setRequest, Tab.get_mod]
@[simp] theorem slot_setSlot (j k : Nat) (f : Slot → Slot) (s : State) : slot (setSlot j f s) k = if j = k then f (slot s k) else slot s k := by
  simp only [slot, setSlot, Tab.get_mod]
@[simp] theorem group_setGroup (j k : Nat) (f : Group → Group) (s : State) : group (setGroup j f s) k = if j = k then f (group s k) else group s k := by
  simp only [group, setGroup, Tab.get_mod]
@[simp] theorem block_setBlock (j k : Nat) (f : Block → Block) (s : State) : block (setBlock j f s) k = if j = k then f (block s k) else block s k := by
  simp only [block, setBlock, Tab.get_mod]
@[simp] theorem uport_setUPort (j k : Nat) (f : UPort → UPort) (s : State) : uport (setUPort j f s) k = if j = k then f (uport s k) else uport s k := by
  simp only [uport, setUPort, Tab.get_mod]
@[simp] theorem setRun_run (f : Run → Run) (s : State) : (setRun f s).dealer.run = s.dealer.run.map f := rfl
@[simp] theorem prog_setProg (p q : Nat) (f : Prog → Prog) (r : Run) : prog (setProg p f r) q = if p = q then f (prog r q) else prog r q := by
  simp only [prog, setProg, Tab.get_mod]

/-- The entry found at an id by the list search is the table's. -/
theorem opAt_put (id k : Nat) (o : Op) (t : Tab Op) :
    ((Tab.put id o t).find? (fun e => decide (e.1 = k))).map (fun e => e.2) =
      if id = k then some o else (t.find? (fun e => decide (e.1 = k))).map (fun e => e.2) := by
  induction t with
  | nil => by_cases h : id = k <;> simp [Tab.put, h]
  | cons e t ih =>
    simp only [Tab.put]
    by_cases h : id = k
    · subst h; split
      · simp
      · split
        · simp
        · rename_i h1 h2
          have : ¬ e.1 = id := fun x => h2 x.symm
          simp [this, ih]
    · split
      · simp [h]
      · split
        · rename_i h2; subst h2; simp [h]
        · by_cases h3 : e.1 = k
          · simp [h3]
          · simp [h3, ih, h]

@[simp] theorem opAt_addOp (k : Nat) (o : Op) (s : State) : opAt (addOp o s) k = if s.host.nextOp = k then some o else opAt s k :=
  opAt_put s.host.nextOp k o s.host.ops
@[simp] theorem opAt_setOp (j k : Nat) (o : Op) (s : State) : opAt (setOp j o s) k = if j = k then some o else opAt s k :=
  opAt_put j k o s.host.ops
@[simp] theorem addOp_nextOp (o : Op) (s : State) : (addOp o s).host.nextOp = s.host.nextOp + 1 := rfl

@[simp] theorem opAt_dropOp (j k : Nat) (s : State) : opAt (dropOp j s) k = if j = k then none else opAt s k := by
  simp only [opAt, dropOp, Tab.drop, List.find?_filter]
  by_cases h : j = k
  · subst h
    rw [List.find?_eq_none.2 (by intro x _; by_cases h1 : x.1 = j <;> simp [h1])]; simp
  · simp only [h, if_false]
    congr 2
    funext x
    by_cases h2 : x.1 = k
    · simp [h2, Ne.symm h]
    · simp [h2]

/-! ### The same readers over states with the same tables -/

theorem portSt_congr (p' : Port) {s t : State} (h : t.host.ports = s.host.ports) : portSt t p' = portSt s p' := by simp only [portSt, h]
theorem queue_congr (k : Nat) {s t : State} (h : t.host.queues = s.host.queues) : queue t k = queue s k := by simp only [queue, h]
theorem mark_congr (k : Nat) {s t : State} (h : t.host.marks = s.host.marks) : mark t k = mark s k := by simp only [mark, h]
theorem obj_congr (k : Nat) {s t : State} (h : t.tiers.objects = s.tiers.objects) : obj t k = obj s k := by simp only [obj, h]
theorem layer_congr (k : Nat) {s t : State} (h : t.tiers.layers = s.tiers.layers) : layer t k = layer s k := by simp only [layer, h]
theorem request_congr (k : Nat) {s t : State} (h : t.dealer.requests = s.dealer.requests) : request t k = request s k := by simp only [request, h]
theorem slot_congr (k : Nat) {s t : State} (h : t.dealer.slots = s.dealer.slots) : slot t k = slot s k := by simp only [slot, h]
theorem position_congr (k : Nat) {s t : State} (h : t.unlia.positions = s.unlia.positions) : position t k = position s k := by simp only [position, h]
theorem group_congr (k : Nat) {s t : State} (h : t.unlia.groups = s.unlia.groups) : group t k = group s k := by simp only [group, h]
theorem block_congr (k : Nat) {s t : State} (h : t.resets.blocks = s.resets.blocks) : block t k = block s k := by simp only [block, h]
theorem opAt_congr (k : Nat) {s t : State} (h : t.host.ops = s.host.ops) : opAt t k = opAt s k := by simp only [opAt, h]

end Sys2Proof.Machine
end

