-- ==== Sys2Proof/Laws/Command.lean ====
section
/-! SUPPORT. What taking a command and completing it can do: the queue, the record, the mark, and nothing else. -/

namespace Sys2Proof.Machine

set_option Elab.async false

/-! ### Emission -/

/-- Emission changes what the module has sent, and nothing else. -/
@[simp] theorem emit_frame (e : Emit) (s : State) :
    (emit e s).pending = s.pending ∧ (emit e s).tick = s.tick ∧ (emit e s).dealer = s.dealer ∧ (emit e s).units = s.units ∧
    (emit e s).counters = s.counters ∧ (emit e s).tiers = s.tiers ∧ (emit e s).unlia = s.unlia ∧
    (emit e s).conceal = s.conceal ∧ (emit e s).host = s.host ∧ (emit e s).resets = s.resets ∧
    (emit e s).glaren = s.glaren ∧ (emit e s).framed = s.framed ∧ (emit e s).free = s.free := by
  unfold emit
  split
  · split <;> simp
  · simp

/-- What is emitted comes after what had been sent; an interrupt to a port whose link is down is not sent. -/
theorem emit_out (e : Emit) (s : State) : ∃ l, (emit e s).out = s.out ++ l := by
  unfold emit
  split
  · split
    · exact ⟨_, rfl⟩
    · exact ⟨[], by simp⟩
  · exact ⟨_, rfl⟩

/-- A completion record is always sent. -/
@[simp] theorem emit_completion (q : Nat) (tag idx : W16) (st fl : Byte) (r addr : W64) (s : State) :
    (emit (.completion q tag idx st fl r addr) s).out = s.out ++ [.completion q tag idx st fl r addr] := rfl

/-- An interrupt message is sent while the port's link is up. -/
theorem emit_msix (f : Fn) (v : Nat) (s : State) :
    (emit (.msix f v) s).out = if (portSt s f.port).linkUp = true then s.out ++ [.msix f v] else s.out := by
  show (if _ then _ else _ : State).out = _
  split <;> rfl

/-! ### Marks -/

@[simp] theorem markNotify_frame (m : Nat) (s : State) :
    (markNotify m s).pending = s.pending ∧ (markNotify m s).tick = s.tick ∧ (markNotify m s).dealer = s.dealer ∧
    (markNotify m s).units = s.units ∧ (markNotify m s).counters = s.counters ∧ (markNotify m s).tiers = s.tiers ∧
    (markNotify m s).unlia = s.unlia ∧ (markNotify m s).conceal = s.conceal ∧ (markNotify m s).host.queues = s.host.queues ∧
    (markNotify m s).host.holder = s.host.holder ∧ (markNotify m s).host.epoch = s.host.epoch ∧
    (markNotify m s).host.lease = s.host.lease ∧ (markNotify m s).host.leaseStart = s.host.leaseStart ∧
    (markNotify m s).host.rejected = s.host.rejected ∧ (markNotify m s).host.rejOffset = s.host.rejOffset ∧
    (markNotify m s).host.rejPort = s.host.rejPort ∧ (markNotify m s).host.heldFirst = s.host.heldFirst ∧
    (markNotify m s).host.ports = s.host.ports ∧ (markNotify m s).host.ops = s.host.ops ∧
    (markNotify m s).host.nextOp = s.host.nextOp ∧ (markNotify m s).resets = s.resets ∧ (markNotify m s).glaren = s.glaren ∧
    (markNotify m s).framed = s.framed ∧ (markNotify m s).free = s.free := by
  unfold markNotify
  dsimp only
  split <;> simp

theorem markNotify_out (m : Nat) (s : State) : ∃ l, (markNotify m s).out = s.out ++ l := by
  unfold markNotify
  dsimp only
  split
  · exact emit_out _ _
  · exact ⟨[], by simp⟩

/-- MARK_NOTIFY disarms at most the mark itself. -/
theorem markNotify_mark (m k : Nat) (s : State) :
    mark (markNotify m s) k =
      if m = k ∧ (mark s m).armed = true ∧ (mark s m).notifyAt ≤ (mark s m).value then { mark s k with armed := false } else mark s k := by
  unfold markNotify
  dsimp only
  by_cases h : (mark s m).armed = true ∧ (mark s m).notifyAt ≤ (mark s m).value
  · rw [if_pos h]
    have e : mark (emit (.msix (mark s m).owner (mark s m).vector.toNat) (setMark m (fun x => { x with armed := false }) s)) k
        = mark (setMark m (fun x => { x with armed := false }) s) k := mark_congr k (by simp)
    rw [e, mark_setMark]
    simp [h]
  · rw [if_neg h]
    split
    · rename_i h2; exact absurd h2.2 h
    · rfl

@[simp] theorem addMark_frame (m n : Nat) (s : State) :
    (addMark m n s).pending = s.pending ∧ (addMark m n s).tick = s.tick ∧ (addMark m n s).dealer = s.dealer ∧
    (addMark m n s).units = s.units ∧ (addMark m n s).counters = s.counters ∧ (addMark m n s).tiers = s.tiers ∧
    (addMark m n s).unlia = s.unlia ∧ (addMark m n s).conceal = s.conceal ∧ (addMark m n s).host.queues = s.host.queues ∧
    (addMark m n s).host.holder = s.host.holder ∧ (addMark m n s).host.epoch = s.host.epoch ∧
    (addMark m n s).host.lease = s.host.lease ∧ (addMark m n s).host.leaseStart = s.host.leaseStart ∧
    (addMark m n s).host.rejected = s.host.rejected ∧ (addMark m n s).host.rejOffset = s.host.rejOffset ∧
    (addMark m n s).host.rejPort = s.host.rejPort ∧ (addMark m n s).host.heldFirst = s.host.heldFirst ∧
    (addMark m n s).host.ports = s.host.ports ∧ (addMark m n s).host.ops = s.host.ops ∧
    (addMark m n s).host.nextOp = s.host.nextOp ∧ (addMark m n s).resets = s.resets ∧ (addMark m n s).glaren = s.glaren ∧
    (addMark m n s).framed = s.framed ∧ (addMark m n s).free = s.free := by
  simp [addMark]

theorem addMark_out (m n : Nat) (s : State) : ∃ l, (addMark m n s).out = s.out ++ l := by
  obtain ⟨l, h⟩ := markNotify_out m (setMark m (fun x => { x with value := markSum x.value n }) s)
  exact ⟨l, by simpa [addMark] using h⟩

/-- Adding to a mark gives its sum, and leaves every other mark alone (R401). -/
theorem addMark_value (m n k : Nat) (s : State) :
    (mark (addMark m n s) k).value = if m = k then markSum (mark s k).value n else (mark s k).value := by
  unfold addMark
  rw [markNotify_mark]
  split
  · rename_i h; obtain ⟨rfl, _⟩ := h; simp
  · simp; split <;> rfl

theorem addMark_other (m n k : Nat) (s : State) (h : k ≠ m) : mark (addMark m n s) k = mark s k := by
  unfold addMark
  rw [markNotify_mark]
  simp [Ne.symm h]

/-! ### Completion -/

/-- The queue after its command's end: a place given back, a record written unless the queue is in error or has no ring. -/
def ended (x : Queue) : Queue :=
  if x.error = true ∨ x.cqSize = 0 then { x with inFlight := x.inFlight - 1 }
  else { x with inFlight := x.inFlight - 1, cqTail := x.cqTail + 1 }

/-- Completion touches the queue, the mark and what is sent. -/
@[simp] theorem complete_frame (t : Ticket) (st : Byte) (r : W64) (nf : Bool) (s : State) :
    (complete t st r nf s).pending = s.pending ∧ (complete t st r nf s).tick = s.tick ∧
    (complete t st r nf s).dealer = s.dealer ∧ (complete t st r nf s).units = s.units ∧
    (complete t st r nf s).counters = s.counters ∧ (complete t st r nf s).tiers = s.tiers ∧
    (complete t st r nf s).unlia = s.unlia ∧ (complete t st r nf s).conceal = s.conceal ∧
    (complete t st r nf s).host.holder = s.host.holder ∧ (complete t st r nf s).host.epoch = s.host.epoch ∧
    (complete t st r nf s).host.lease = s.host.lease ∧ (complete t st r nf s).host.leaseStart = s.host.leaseStart ∧
    (complete t st r nf s).host.rejected = s.host.rejected ∧ (complete t st r nf s).host.rejOffset = s.host.rejOffset ∧
    (complete t st r nf s).host.rejPort = s.host.rejPort ∧ (complete t st r nf s).host.heldFirst = s.host.heldFirst ∧
    (complete t st r nf s).host.ports = s.host.ports ∧ (complete t st r nf s).host.ops = s.host.ops ∧
    (complete t st r nf s).host.nextOp = s.host.nextOp ∧ (complete t st r nf s).resets = s.resets ∧
    (complete t st r nf s).glaren = s.glaren ∧ (complete t st r nf s).framed = s.framed ∧
    (complete t st r nf s).free = s.free := by
  unfold complete
  dsimp only
  split <;> split <;> (try split) <;> simp

@[simp] theorem finish_frame (t : Ticket) (st : Byte) (s : State) :
    (finish t st s).pending = s.pending ∧ (finish t st s).tick = s.tick ∧ (finish t st s).dealer = s.dealer ∧
    (finish t st s).units = s.units ∧ (finish t st s).counters = s.counters ∧ (finish t st s).tiers = s.tiers ∧
    (finish t st s).unlia = s.unlia ∧ (finish t st s).conceal = s.conceal ∧ (finish t st s).host.holder = s.host.holder ∧
    (finish t st s).host.epoch = s.host.epoch ∧ (finish t st s).host.lease = s.host.lease ∧
    (finish t st s).host.leaseStart = s.host.leaseStart ∧ (finish t st s).host.rejected = s.host.rejected ∧
    (finish t st s).host.rejOffset = s.host.rejOffset ∧ (finish t st s).host.rejPort = s.host.rejPort ∧
    (finish t st s).host.heldFirst = s.host.heldFirst ∧ (finish t st s).host.ports = s.host.ports ∧
    (finish t st s).host.ops = s.host.ops ∧ (finish t st s).host.nextOp = s.host.nextOp ∧
    (finish t st s).resets = s.resets ∧ (finish t st s).glaren = s.glaren ∧ (finish t st s).framed = s.framed ∧
    (finish t st s).free = s.free :=
  complete_frame t st 0 false s

theorem complete_queue (t : Ticket) (st : Byte) (r : W64) (nf : Bool) (s : State) (k : Nat) :
    queue (complete t st r nf s) k = if t.q = k then ended (queue s k) else queue s k := by
  have hm : ∀ m n (u : State), queue (addMark m n u) k = queue u k := fun m n u => queue_congr k (by simp)
  have he : ∀ e (u : State), queue (emit e u) k = queue u k := fun e u => queue_congr k (by simp)
  unfold complete
  dsimp only
  by_cases hq : t.q = k
  · subst hq
    by_cases h : (queue s t.q).error = true ∨ (queue s t.q).cqSize = 0
    · simp only [h, if_true, ended]
      split <;> simp [hm]
    · simp only [h, if_false, ended]
      split <;> split <;> simp [hm, he]
  · simp only [hq, if_false]
    split <;> split <;> (try split) <;> simp [hm, he, hq]

theorem finish_queue (t : Ticket) (st : Byte) (s : State) (k : Nat) :
    queue (finish t st s) k = if t.q = k then ended (queue s k) else queue s k := complete_queue t st 0 false s k

/-- What comes after a state's emissions. -/
theorem out_then {s t u : State} {x : List Emit} (h : ∃ l, t.out = s.out ++ x ++ l) (h2 : ∃ l, u.out = t.out ++ l) :
    ∃ l, u.out = s.out ++ x ++ l := by
  obtain ⟨l, e⟩ := h
  obtain ⟨l2, e2⟩ := h2
  exact ⟨l ++ l2, by rw [e2, e]; simp⟩

/-- The record that a completion commits. -/
theorem complete_reported (t : Ticket) (st : Byte) (r : W64) (nf : Bool) (s : State)
    (h1 : (queue s t.q).error = false) (h2 : (queue s t.q).cqSize ≠ 0) : Reported t st r s (complete t st r nf s) := by
  suffices h : ∃ fl addr l, (complete t st r nf s).out =
      s.out ++ [.completion t.q t.hdr.tag (BitVec.ofNat 16 t.index.toNat) st fl r addr] ++ l by
    obtain ⟨fl, addr, l, e⟩ := h
    exact ⟨fl, addr, l, by rw [e]; simp⟩
  unfold complete
  dsimp only
  have h : ¬ ((queue s t.q).error = true ∨ (queue s t.q).cqSize = 0) := by simpa [h1] using h2
  simp only [h, if_false]
  refine ⟨BitVec.ofNat 8 (passBit (queue s t.q) + 2 * flag (t.hdr.done && decide (st = Status.ok ∨ st = Status.cancelled ∨
    st = Status.lateCancel)) + 4 * flag nf),
    ringAddr (queue s t.q).cqBase 16 (queue s t.q).cqSize (queue s t.q).cqTail, ?_⟩
  split <;> split
  · exact out_then (out_then ⟨[], by simp⟩ (emit_out _ _)) (addMark_out _ _ _)
  · exact out_then ⟨[], by simp⟩ (addMark_out _ _ _)
  · exact out_then ⟨[], by simp⟩ (emit_out _ _)
  · exact ⟨[], by simp⟩

theorem finish_reported (t : Ticket) (st : Byte) (s : State) (h1 : (queue s t.q).error = false) (h2 : (queue s t.q).cqSize ≠ 0) :
    Reported t st 0 s (finish t st s) := complete_reported t st 0 false s h1 h2

theorem complete_mark_value (t : Ticket) (st : Byte) (r : W64) (nf : Bool) (s : State) (k : Nat) :
    (mark (complete t st r nf s) k).value =
      if t.hdr.done = true ∧ (st = Status.ok ∨ st = Status.cancelled ∨ st = Status.lateCancel) ∧ t.hdr.doneMark.toNat = k
      then markSum (mark s k).value 1 else (mark s k).value := by
  have he : ∀ e (u : State), mark (emit e u) k = mark u k := fun e u => mark_congr k (by simp)
  unfold complete
  dsimp only
  by_cases hd : (t.hdr.done && decide (st = Status.ok ∨ st = Status.cancelled ∨ st = Status.lateCancel)) = true
  · simp only [hd, if_true]
    rw [addMark_value]
    simp only [Bool.and_eq_true, decide_eq_true_eq] at hd
    simp only [hd, true_and]
    split <;> (split <;> (try split) <;> simp [he])
  · simp only [hd]
    simp only [Bool.and_eq_true, decide_eq_true_eq] at hd
    have : ¬ (t.hdr.done = true ∧ (st = Status.ok ∨ st = Status.cancelled ∨ st = Status.lateCancel) ∧ t.hdr.doneMark.toNat = k) :=
      fun h => hd ⟨h.1, h.2.1⟩
    simp only [this, if_false]
    split
    · simp at *
    · split <;> (try split) <;> simp [he]

/-- Completion leaves every mark but the DONE_MARK as it is. -/
theorem complete_mark_other (t : Ticket) (st : Byte) (r : W64) (nf : Bool) (s : State) (k : Nat) (h : k ≠ t.hdr.doneMark.toNat) :
    mark (complete t st r nf s) k = mark s k := by
  have he : ∀ e (u : State), mark (emit e u) k = mark u k := fun e u => mark_congr k (by simp)
  unfold complete
  dsimp only
  split <;> split <;> (try split) <;> simp [he, addMark_other _ _ _ _ h]

/-- Without DONE, or with a status that is no success, no mark changes. -/
theorem complete_marks_same (t : Ticket) (st : Byte) (r : W64) (nf : Bool) (s : State)
    (h : t.hdr.done = false ∨ (st ≠ Status.ok ∧ st ≠ Status.cancelled ∧ st ≠ Status.lateCancel)) :
    (complete t st r nf s).host.marks = s.host.marks := by
  unfold complete
  dsimp only
  have : (t.hdr.done && decide (st = Status.ok ∨ st = Status.cancelled ∨ st = Status.lateCancel)) = false := by
    rcases h with h | h
    · simp [h]
    · simp [h.1, h.2.1, h.2.2]
  simp only [this, Bool.false_eq_true, if_false]
  split <;> (try split) <;> simp

/-! ### Taking -/

/-- A record goes to the scorebook, or is held until Glaren returns. -/
@[simp] theorem score_frame (a b c : Nat) (x : W64) (d : List Byte) (s : State) :
    (score a b c x d s).pending = s.pending ∧ (score a b c x d s).tick = s.tick ∧ (score a b c x d s).dealer = s.dealer ∧
    (score a b c x d s).units = s.units ∧ (score a b c x d s).counters = s.counters ∧ (score a b c x d s).tiers = s.tiers ∧
    (score a b c x d s).unlia = s.unlia ∧ (score a b c x d s).conceal = s.conceal ∧ (score a b c x d s).host = s.host ∧
    (score a b c x d s).resets.mgood = s.resets.mgood ∧ (score a b c x d s).resets.causes = s.resets.causes ∧
    (score a b c x d s).resets.warmCount = s.resets.warmCount ∧ (score a b c x d s).resets.bootCount = s.resets.bootCount ∧
    (score a b c x d s).resets.failedStarts = s.resets.failedStarts ∧
    (score a b c x d s).resets.recovery = s.resets.recovery ∧
    (score a b c x d s).resets.glarenReady = s.resets.glarenReady ∧
    (score a b c x d s).resets.failStep = s.resets.failStep ∧
    (score a b c x d s).resets.ddrRetrained = s.resets.ddrRetrained ∧
    (score a b c x d s).resets.flashFormatted = s.resets.flashFormatted ∧
    (score a b c x d s).resets.mgoodTime = s.resets.mgoodTime ∧ (score a b c x d s).resets.blocks = s.resets.blocks ∧
    (score a b c x d s).resets.clocks = s.resets.clocks ∧ (score a b c x d s).resets.warmAt = s.resets.warmAt ∧
    (score a b c x d s).resets.warmCauses = s.resets.warmCauses ∧ (score a b c x d s).resets.warmN = s.resets.warmN ∧
    (score a b c x d s).resets.warmHeld = s.resets.warmHeld ∧ (score a b c x d s).resets.starting = s.resets.starting ∧
    (score a b c x d s).resets.startTest = s.resets.startTest ∧ (score a b c x d s).resets.startGc = s.resets.startGc ∧
    (score a b c x d s).resets.retry = s.resets.retry ∧ (score a b c x d s).resets.powered = s.resets.powered ∧
    (score a b c x d s).resets.shutdown = s.resets.shutdown ∧ (score a b c x d s).resets.startOk = s.resets.startOk ∧
    (score a b c x d s).resets.firstStart = s.resets.firstStart ∧
    (score a b c x d s).resets.startKind = s.resets.startKind ∧
    (score a b c x d s).resets.selfResets = s.resets.selfResets ∧ (score a b c x d s).glaren.temps = s.glaren.temps ∧
    (score a b c x d s).glaren.rails = s.glaren.rails ∧ (score a b c x d s).glaren.inlet = s.glaren.inlet ∧
    (score a b c x d s).glaren.outlet = s.glaren.outlet ∧ (score a b c x d s).glaren.stepAvg = s.glaren.stepAvg ∧
    (score a b c x d s).glaren.peak1ms = s.glaren.peak1ms ∧ (score a b c x d s).glaren.lastMj = s.glaren.lastMj ∧
    (score a b c x d s).glaren.flashAlert = s.glaren.flashAlert ∧
    (score a b c x d s).glaren.holdupLow = s.glaren.holdupLow ∧
    (score a b c x d s).glaren.powerLimit = s.glaren.powerLimit ∧ (score a b c x d s).glaren.maxFreq = s.glaren.maxFreq ∧
    (score a b c x d s).glaren.freq = s.glaren.freq ∧ (score a b c x d s).glaren.standby = s.glaren.standby ∧
    (score a b c x d s).glaren.standbyStable = s.glaren.standbyStable ∧
    (score a b c x d s).glaren.thermalCap = s.glaren.thermalCap ∧ (score a b c x d s).glaren.peakCap = s.glaren.peakCap ∧
    (score a b c x d s).glaren.peakBoundaries = s.glaren.peakBoundaries ∧
    (score a b c x d s).glaren.overshoots = s.glaren.overshoots ∧ (score a b c x d s).glaren.table = s.glaren.table ∧
    (score a b c x d s).glaren.govKeys = s.glaren.govKeys ∧ (score a b c x d s).glaren.crcErrors = s.glaren.crcErrors ∧
    (score a b c x d s).glaren.sbBlock = s.glaren.sbBlock ∧ (score a b c x d s).glaren.gcTick = s.glaren.gcTick ∧
    (score a b c x d s).glaren.update = s.glaren.update ∧ (score a b c x d s).glaren.unlocked = s.glaren.unlocked ∧
    (score a b c x d s).glaren.challenge = s.glaren.challenge ∧ (score a b c x d s).glaren.measure7 = s.glaren.measure7 ∧
    (score a b c x d s).glaren.debugBlock = s.glaren.debugBlock ∧ (score a b c x d s).glaren.debugArm = s.glaren.debugArm ∧
    (score a b c x d s).glaren.pips = s.glaren.pips ∧ (score a b c x d s).glaren.reports = s.glaren.reports ∧
    (score a b c x d s).glaren.failedList = s.glaren.failedList ∧
    (score a b c x d s).glaren.clearPending = s.glaren.clearPending ∧
    (score a b c x d s).glaren.linkCr1 = s.glaren.linkCr1 ∧ (score a b c x d s).glaren.linkEncrypt = s.glaren.linkEncrypt ∧
    (score a b c x d s).glaren.coeffs = s.glaren.coeffs ∧ (score a b c x d s).glaren.ddrSaved = s.glaren.ddrSaved ∧
    (score a b c x d s).glaren.securityMin = s.glaren.securityMin ∧
    (score a b c x d s).glaren.settingsSeq = s.glaren.settingsSeq ∧
    (score a b c x d s).glaren.lastSummary = s.glaren.lastSummary ∧ (score a b c x d s).glaren.summary = s.glaren.summary ∧
    (score a b c x d s).glaren.powerSamples = s.glaren.powerSamples ∧
    (score a b c x d s).glaren.coolSince = s.glaren.coolSince ∧ (score a b c x d s).glaren.peakTick = s.glaren.peakTick ∧
    (score a b c x d s).glaren.trayCoords = s.glaren.trayCoords ∧
    (score a b c x d s).glaren.bankFormat = s.glaren.bankFormat ∧
    (score a b c x d s).glaren.otherFormat = s.glaren.otherFormat ∧
    (score a b c x d s).glaren.migrating = s.glaren.migrating ∧ (score a b c x d s).out = s.out ∧
    (score a b c x d s).framed = s.framed ∧ (score a b c x d s).free = s.free := by
  unfold score
  dsimp only
  split
  · split <;> simp [commitScore]
  · split <;> simp

/-- The first command taken after MGOOD makes the start a success (R434), and changes nothing else that a host sees. -/
@[simp] theorem startOk_frame (s : State) :
    (startOk s).pending = s.pending ∧ (startOk s).tick = s.tick ∧ (startOk s).dealer = s.dealer ∧
    (startOk s).units = s.units ∧ (startOk s).counters = s.counters ∧ (startOk s).tiers = s.tiers ∧
    (startOk s).unlia = s.unlia ∧ (startOk s).conceal = s.conceal ∧ (startOk s).host = s.host ∧
    (startOk s).resets.mgood = s.resets.mgood ∧ (startOk s).resets.causes = s.resets.causes ∧
    (startOk s).resets.warmCount = s.resets.warmCount ∧ (startOk s).resets.bootCount = s.resets.bootCount ∧
    (startOk s).resets.recovery = s.resets.recovery ∧ (startOk s).resets.glarenReady = s.resets.glarenReady ∧
    (startOk s).resets.failStep = s.resets.failStep ∧ (startOk s).resets.ddrRetrained = s.resets.ddrRetrained ∧
    (startOk s).resets.flashFormatted = s.resets.flashFormatted ∧ (startOk s).resets.mgoodTime = s.resets.mgoodTime ∧
    (startOk s).resets.blocks = s.resets.blocks ∧ (startOk s).resets.clocks = s.resets.clocks ∧
    (startOk s).resets.warmAt = s.resets.warmAt ∧ (startOk s).resets.warmCauses = s.resets.warmCauses ∧
    (startOk s).resets.warmN = s.resets.warmN ∧ (startOk s).resets.warmHeld = s.resets.warmHeld ∧
    (startOk s).resets.starting = s.resets.starting ∧ (startOk s).resets.startTest = s.resets.startTest ∧
    (startOk s).resets.startGc = s.resets.startGc ∧ (startOk s).resets.retry = s.resets.retry ∧
    (startOk s).resets.powered = s.resets.powered ∧ (startOk s).resets.shutdown = s.resets.shutdown ∧
    (startOk s).resets.firstStart = s.resets.firstStart ∧ (startOk s).resets.selfResets = s.resets.selfResets ∧
    (startOk s).glaren.temps = s.glaren.temps ∧ (startOk s).glaren.rails = s.glaren.rails ∧
    (startOk s).glaren.inlet = s.glaren.inlet ∧ (startOk s).glaren.outlet = s.glaren.outlet ∧
    (startOk s).glaren.stepAvg = s.glaren.stepAvg ∧ (startOk s).glaren.peak1ms = s.glaren.peak1ms ∧
    (startOk s).glaren.lastMj = s.glaren.lastMj ∧ (startOk s).glaren.flashAlert = s.glaren.flashAlert ∧
    (startOk s).glaren.holdupLow = s.glaren.holdupLow ∧ (startOk s).glaren.powerLimit = s.glaren.powerLimit ∧
    (startOk s).glaren.maxFreq = s.glaren.maxFreq ∧ (startOk s).glaren.freq = s.glaren.freq ∧
    (startOk s).glaren.standby = s.glaren.standby ∧ (startOk s).glaren.standbyStable = s.glaren.standbyStable ∧
    (startOk s).glaren.thermalCap = s.glaren.thermalCap ∧ (startOk s).glaren.peakCap = s.glaren.peakCap ∧
    (startOk s).glaren.peakBoundaries = s.glaren.peakBoundaries ∧ (startOk s).glaren.overshoots = s.glaren.overshoots ∧
    (startOk s).glaren.table = s.glaren.table ∧ (startOk s).glaren.govKeys = s.glaren.govKeys ∧
    (startOk s).glaren.crcErrors = s.glaren.crcErrors ∧ (startOk s).glaren.sbBlock = s.glaren.sbBlock ∧
    (startOk s).glaren.gcTick = s.glaren.gcTick ∧ (startOk s).glaren.update = s.glaren.update ∧
    (startOk s).glaren.unlocked = s.glaren.unlocked ∧ (startOk s).glaren.challenge = s.glaren.challenge ∧
    (startOk s).glaren.measure7 = s.glaren.measure7 ∧ (startOk s).glaren.debugBlock = s.glaren.debugBlock ∧
    (startOk s).glaren.debugArm = s.glaren.debugArm ∧ (startOk s).glaren.pips = s.glaren.pips ∧
    (startOk s).glaren.reports = s.glaren.reports ∧ (startOk s).glaren.failedList = s.glaren.failedList ∧
    (startOk s).glaren.clearPending = s.glaren.clearPending ∧ (startOk s).glaren.linkCr1 = s.glaren.linkCr1 ∧
    (startOk s).glaren.linkEncrypt = s.glaren.linkEncrypt ∧ (startOk s).glaren.coeffs = s.glaren.coeffs ∧
    (startOk s).glaren.ddrSaved = s.glaren.ddrSaved ∧ (startOk s).glaren.securityMin = s.glaren.securityMin ∧
    (startOk s).glaren.settingsSeq = s.glaren.settingsSeq ∧ (startOk s).glaren.lastSummary = s.glaren.lastSummary ∧
    (startOk s).glaren.summary = s.glaren.summary ∧ (startOk s).glaren.powerSamples = s.glaren.powerSamples ∧
    (startOk s).glaren.coolSince = s.glaren.coolSince ∧ (startOk s).glaren.peakTick = s.glaren.peakTick ∧
    (startOk s).glaren.trayCoords = s.glaren.trayCoords ∧ (startOk s).glaren.bankFormat = s.glaren.bankFormat ∧
    (startOk s).glaren.otherFormat = s.glaren.otherFormat ∧ (startOk s).out = s.out ∧ (startOk s).framed = s.framed ∧
    (startOk s).free = s.free := by
  unfold startOk
  split <;> simp

@[simp] theorem startOk_startOk (s : State) : (startOk s).resets.startOk = true := by
  unfold startOk
  split <;> simp_all

@[simp] theorem taken_frame (q : Nat) (s : State) :
    (taken q s).pending = s.pending ∧ (taken q s).tick = s.tick ∧ (taken q s).dealer = s.dealer ∧
    (taken q s).units = s.units ∧ (taken q s).counters = s.counters ∧ (taken q s).tiers = s.tiers ∧
    (taken q s).unlia = s.unlia ∧ (taken q s).conceal = s.conceal ∧ (taken q s).host.marks = s.host.marks ∧
    (taken q s).host.holder = s.host.holder ∧ (taken q s).host.epoch = s.host.epoch ∧
    (taken q s).host.lease = s.host.lease ∧ (taken q s).host.leaseStart = s.host.leaseStart ∧
    (taken q s).host.rejected = s.host.rejected ∧ (taken q s).host.rejOffset = s.host.rejOffset ∧
    (taken q s).host.rejPort = s.host.rejPort ∧ (taken q s).host.heldFirst = s.host.heldFirst ∧
    (taken q s).host.ports = s.host.ports ∧ (taken q s).host.ops = s.host.ops ∧ (taken q s).host.nextOp = s.host.nextOp ∧
    (taken q s).resets.mgood = s.resets.mgood ∧ (taken q s).resets.causes = s.resets.causes ∧
    (taken q s).resets.warmCount = s.resets.warmCount ∧ (taken q s).resets.bootCount = s.resets.bootCount ∧
    (taken q s).resets.recovery = s.resets.recovery ∧ (taken q s).resets.glarenReady = s.resets.glarenReady ∧
    (taken q s).resets.failStep = s.resets.failStep ∧ (taken q s).resets.ddrRetrained = s.resets.ddrRetrained ∧
    (taken q s).resets.flashFormatted = s.resets.flashFormatted ∧ (taken q s).resets.mgoodTime = s.resets.mgoodTime ∧
    (taken q s).resets.blocks = s.resets.blocks ∧ (taken q s).resets.clocks = s.resets.clocks ∧
    (taken q s).resets.warmAt = s.resets.warmAt ∧ (taken q s).resets.warmCauses = s.resets.warmCauses ∧
    (taken q s).resets.warmN = s.resets.warmN ∧ (taken q s).resets.warmHeld = s.resets.warmHeld ∧
    (taken q s).resets.starting = s.resets.starting ∧ (taken q s).resets.startTest = s.resets.startTest ∧
    (taken q s).resets.startGc = s.resets.startGc ∧ (taken q s).resets.retry = s.resets.retry ∧
    (taken q s).resets.powered = s.resets.powered ∧ (taken q s).resets.shutdown = s.resets.shutdown ∧
    (taken q s).resets.firstStart = s.resets.firstStart ∧ (taken q s).resets.selfResets = s.resets.selfResets ∧
    (taken q s).glaren.temps = s.glaren.temps ∧ (taken q s).glaren.rails = s.glaren.rails ∧
    (taken q s).glaren.inlet = s.glaren.inlet ∧ (taken q s).glaren.outlet = s.glaren.outlet ∧
    (taken q s).glaren.stepAvg = s.glaren.stepAvg ∧ (taken q s).glaren.peak1ms = s.glaren.peak1ms ∧
    (taken q s).glaren.lastMj = s.glaren.lastMj ∧ (taken q s).glaren.flashAlert = s.glaren.flashAlert ∧
    (taken q s).glaren.holdupLow = s.glaren.holdupLow ∧ (taken q s).glaren.powerLimit = s.glaren.powerLimit ∧
    (taken q s).glaren.maxFreq = s.glaren.maxFreq ∧ (taken q s).glaren.freq = s.glaren.freq ∧
    (taken q s).glaren.standby = s.glaren.standby ∧ (taken q s).glaren.standbyStable = s.glaren.standbyStable ∧
    (taken q s).glaren.thermalCap = s.glaren.thermalCap ∧ (taken q s).glaren.peakCap = s.glaren.peakCap ∧
    (taken q s).glaren.peakBoundaries = s.glaren.peakBoundaries ∧ (taken q s).glaren.overshoots = s.glaren.overshoots ∧
    (taken q s).glaren.table = s.glaren.table ∧ (taken q s).glaren.govKeys = s.glaren.govKeys ∧
    (taken q s).glaren.crcErrors = s.glaren.crcErrors ∧ (taken q s).glaren.sbBlock = s.glaren.sbBlock ∧
    (taken q s).glaren.gcTick = s.glaren.gcTick ∧ (taken q s).glaren.update = s.glaren.update ∧
    (taken q s).glaren.unlocked = s.glaren.unlocked ∧ (taken q s).glaren.challenge = s.glaren.challenge ∧
    (taken q s).glaren.measure7 = s.glaren.measure7 ∧ (taken q s).glaren.debugBlock = s.glaren.debugBlock ∧
    (taken q s).glaren.debugArm = s.glaren.debugArm ∧ (taken q s).glaren.pips = s.glaren.pips ∧
    (taken q s).glaren.reports = s.glaren.reports ∧ (taken q s).glaren.failedList = s.glaren.failedList ∧
    (taken q s).glaren.clearPending = s.glaren.clearPending ∧ (taken q s).glaren.linkCr1 = s.glaren.linkCr1 ∧
    (taken q s).glaren.linkEncrypt = s.glaren.linkEncrypt ∧ (taken q s).glaren.coeffs = s.glaren.coeffs ∧
    (taken q s).glaren.ddrSaved = s.glaren.ddrSaved ∧ (taken q s).glaren.securityMin = s.glaren.securityMin ∧
    (taken q s).glaren.settingsSeq = s.glaren.settingsSeq ∧ (taken q s).glaren.lastSummary = s.glaren.lastSummary ∧
    (taken q s).glaren.summary = s.glaren.summary ∧ (taken q s).glaren.powerSamples = s.glaren.powerSamples ∧
    (taken q s).glaren.coolSince = s.glaren.coolSince ∧ (taken q s).glaren.peakTick = s.glaren.peakTick ∧
    (taken q s).glaren.trayCoords = s.glaren.trayCoords ∧ (taken q s).glaren.bankFormat = s.glaren.bankFormat ∧
    (taken q s).glaren.otherFormat = s.glaren.otherFormat ∧ (taken q s).out = s.out ∧ (taken q s).framed = s.framed ∧
    (taken q s).free = s.free := by
  simp [taken]

@[simp] theorem taken_startOk (q : Nat) (s : State) : (taken q s).resets.startOk = true := by simp [taken]

/-- Taking advances the queue's SQ_HEAD and reserves one completion entry. -/
theorem taken_queue (q k : Nat) (s : State) :
    queue (taken q s) k = if q = k then { queue s k with sqHead := (queue s k).sqHead + 1, inFlight := (queue s k).inFlight + 1, waiting := false }
      else queue s k := by
  rw [show queue (taken q s) k = queue (setQueue q (fun x => { x with sqHead := x.sqHead + 1, inFlight := x.inFlight + 1, waiting := false }) s) k
    from queue_congr k (by simp [taken])]
  simp

@[simp] theorem taken_owner (q k : Nat) (s : State) : (queue (taken q s) k).owner = (queue s k).owner := by
  rw [taken_queue]; split <;> rfl
@[simp] theorem taken_error (q k : Nat) (s : State) : (queue (taken q s) k).error = (queue s k).error := by
  rw [taken_queue]; split <;> rfl
@[simp] theorem taken_cqSize (q k : Nat) (s : State) : (queue (taken q s) k).cqSize = (queue s k).cqSize := by
  rw [taken_queue]; split <;> rfl

/-- A queue whose next command is accepted exists, has a ring and is not in error. -/
theorem accepts_spec {s : State} {q : Nat} {h : Hdr} {wide : Bool} (ha : accepts s q h wide = true) :
    q < 256 ∧ canTake s q h = true ∧ halfFenced s (queue s q).owner.port = false ∧
      (h.done = true → (mark s h.doneMark.toNat).owner = (queue s q).owner) ∧ (wide = true → isHolder s (queue s q).owner = true) := by
  simp only [accepts, Bool.and_eq_true, decide_eq_true_eq, Bool.not_eq_true', Bool.or_eq_true] at ha
  obtain ⟨⟨⟨⟨h1, h2⟩, h3⟩, h4⟩, h5⟩ := ha
  refine ⟨h1, h2, h3, fun hd => ?_, fun hw => ?_⟩
  · rcases h4 with h4 | h4
    · rw [hd] at h4; cases h4
    · exact h4
  · rcases h5 with h5 | h5
    · rw [hw] at h5; cases h5
    · exact h5

theorem canTake_cqSize {s : State} {q : Nat} {h : Hdr} (hc : canTake s q h = true) : (queue s q).cqSize ≠ 0 := by
  intro h0
  simp [canTake, hasRoom, h0] at hc

theorem canTake_open {s : State} {q : Nat} {h : Hdr} (hc : canTake s q h = true) : queueOpen s q = true := by
  simp only [canTake, Bool.and_eq_true] at hc
  exact hc.1.1

/-- An accepted command runs its own body on the state in which it begins. -/
theorem takeCmd_accepts {q : Nat} {h : Hdr} {wide : Bool} {ready : State → Bool} {k : Ticket → State → State} {s : State}
    (ha : accepts s q h wide = true) (hr : ready s = true) : takeCmd q h wide ready k s = k (nextTicket s q h) (taken q s) := by
  obtain ⟨_, h2, h3, h4, h5⟩ := accepts_spec ha
  have e : startOk (setQueue q (fun x => { x with sqHead := x.sqHead + 1, inFlight := x.inFlight + 1, waiting := false }) s) = taken q s := rfl
  have f1 : halfFenced (taken q s) (queue s q).owner.port = false := by rw [← h3]; simp [halfFenced]
  have f2 : ¬ (h.done = true ∧ (mark (taken q s) h.doneMark.toNat).owner ≠ (queue s q).owner) := by
    rintro ⟨a, b⟩; exact b (by rw [mark_congr _ (show (taken q s).host.marks = s.host.marks by simp)]; exact h4 a)
  have f3 : ¬ (wide = true ∧ ¬ isHolder (taken q s) (queue s q).owner = true) := by
    rintro ⟨a, b⟩; apply b; have := h5 a; simpa [isHolder] using this
  unfold takeCmd
  simp only [h2, hr, Bool.and_self, if_true, e, f1, f2, f3, Bool.false_eq_true, if_false, nextTicket]

/-- A command that cannot be taken now waits: nothing but Q_STATUS.WAITING of its queue changes. -/
theorem takeCmd_waits {q : Nat} {h : Hdr} {wide : Bool} {ready : State → Bool} {k : Ticket → State → State} {s : State}
    (hn : (canTake s q h && ready s) = false) : takeCmd q h wide ready k s =
      setQueue q (fun x => { x with waiting := queueOpen s q && !waitOk s h }) s := by
  unfold takeCmd
  simp [hn]

/-- The three checks that every command meets (R397, R408). -/
theorem takeCmd_checks {q : Nat} {h : Hdr} {wide : Bool} {ready : State → Bool} {k : Ticket → State → State} {s : State}
    (h1 : canTake s q h = true) (h2 : ready s = true) :
    takeCmd q h wide ready k s =
      if halfFenced s (queue s q).owner.port = true then finish (nextTicket s q h) Status.fenced (taken q s)
      else if h.done = true ∧ (mark s h.doneMark.toNat).owner ≠ (queue s q).owner then finish (nextTicket s q h) Status.notOwner (taken q s)
      else if wide = true ∧ isHolder s (queue s q).owner = false then finish (nextTicket s q h) Status.notMove (taken q s)
      else k (nextTicket s q h) (taken q s) := by
  have e : startOk (setQueue q (fun x => { x with sqHead := x.sqHead + 1, inFlight := x.inFlight + 1, waiting := false }) s) = taken q s := rfl
  have f1 : halfFenced (taken q s) (queue s q).owner.port = halfFenced s (queue s q).owner.port := by simp [halfFenced]
  have f2 : mark (taken q s) h.doneMark.toNat = mark s h.doneMark.toNat := mark_congr _ (by simp)
  have f3 : isHolder (taken q s) (queue s q).owner = isHolder s (queue s q).owner := by simp [isHolder]
  unfold takeCmd
  simp only [h1, h2, Bool.and_self, if_true, e, f1, f2, f3, nextTicket, Bool.not_eq_true]

/-- A taken command that ends at once has one record, after what had been sent. -/
theorem taken_reported {q : Nat} {h : Hdr} {s : State} {st : Byte} {r : W64} {nf : Bool} (h1 : canTake s q h = true) :
    Reported (nextTicket s q h) st r s (complete (nextTicket s q h) st r nf (taken q s)) := by
  have he : (queue s q).error = false := by
    have := canTake_open h1
    simp [queueOpen] at this
    tauto
  have := complete_reported (nextTicket s q h) st r nf (taken q s) (by simpa [nextTicket] using he)
    (by simpa [nextTicket] using canTake_cqSize h1)
  simpa [Reported] using this

/-! ### Each command, accepted -/

theorem exec_nop_accepts (q : Nat) (h : Hdr) (s : State) (ha : accepts s q h false = true) :
    exec (.nop q h) s = .next (finish (nextTicket s q h) Status.ok (taken q s)) := by
  simp only [exec, execNop, withUnit, (accepts_spec ha).1, if_true, takeNop]
  rw [takeCmd_accepts ha]
  rfl
theorem exec_phase_accepts (q : Nat) (h : Hdr) (target : Byte) (lq : W16) (s : State) (ha : accepts s q h true = true) (hr : (s.dealer.pending.isNone || halfFenced s (queue s q).owner.port) = true) :
    exec (.phase q h target lq) s = .next (phaseBody target lq (nextTicket s q h) (taken q s)) := by
  simp only [exec, execPhase, withUnit, (accepts_spec ha).1, if_true, takePhase]
  rw [takeCmd_accepts ha]
  simpa using hr
theorem exec_bookLoad_accepts (q : Nat) (h : Hdr) (o : W16) (s : State) (ha : accepts s q h true = true) :
    exec (.bookLoad q h o) s = .next (bookLoadBody h o (nextTicket s q h) (taken q s)) := by
  simp only [exec, execBookLoad, withUnit, (accepts_spec ha).1, if_true, takeBookLoad]
  rw [takeCmd_accepts ha]
  rfl
theorem exec_place_accepts (q : Nat) (h : Hdr) (b : PlaceBody) (s : State) (ha : accepts s q h true = true) :
    exec (.place q h b) s = .next (placeBodyRun b (nextTicket s q h) (taken q s)) := by
  simp only [exec, execPlace, withUnit, (accepts_spec ha).1, if_true, takePlace]
  rw [takeCmd_accepts ha]
  rfl
theorem exec_objectMove_accepts (q : Nat) (h : Hdr) (b : MoveBody) (s : State) (ha : accepts s q h true = true) :
    exec (.objectMove q h b) s = .next (objectMoveBody h b (nextTicket s q h) (taken q s)) := by
  simp only [exec, execObjectMove, withUnit, (accepts_spec ha).1, if_true, takeObjectMove]
  rw [takeCmd_accepts ha]
  rfl
theorem exec_flashObjCreate_accepts (q : Nat) (h : Hdr) (size : W64) (s : State) (ha : accepts s q h true = true) :
    exec (.flashObjCreate q h size) s = .next (flashObjCreateBody h size (nextTicket s q h) (taken q s)) := by
  simp only [exec, execFlashObjCreate, withUnit, (accepts_spec ha).1, if_true, takeFlashObjCreate]
  rw [takeCmd_accepts ha]
  rfl
theorem exec_flashObjDelete_accepts (q : Nat) (h : Hdr) (x : W32) (s : State) (ha : accepts s q h true = true) :
    exec (.flashObjDelete q h x) s = .next (flashObjDeleteBody h x (nextTicket s q h) (taken q s)) := by
  simp only [exec, execFlashObjDelete, withUnit, (accepts_spec ha).1, if_true, takeFlashObjDelete]
  rw [takeCmd_accepts ha]
  rfl
theorem exec_hostCopy_accepts (q : Nat) (h : Hdr) (b : HostCopyBody) (s : State) (ha : accepts s q h (decide (b.dir = 1)) = true) :
    exec (.hostCopy q h b) s = .next (hostCopyBodyRun b (nextTicket s q h) (taken q s)) := by
  simp only [exec, execHostCopy, withUnit, (accepts_spec ha).1, if_true, takeHostCopy]
  rw [takeCmd_accepts ha]
  rfl
theorem exec_castle_accepts (q : Nat) (h : Hdr) (b : CastleBody) (s : State) (ha : accepts s q h true = true) :
    exec (.castle q h b) s = .next (castleRun b (nextTicket s q h) (taken q s)) := by
  simp only [exec, execCastle, withUnit, (accepts_spec ha).1, if_true, takeCastle]
  rw [takeCmd_accepts ha]
  rfl
theorem exec_collective_accepts (q : Nat) (h : Hdr) (b : CollBody) (s : State) (ha : accepts s q h true = true) (hr : queueWaiting s < 192) :
    exec (.collective q h b) s = .next (submitColl (some (nextTicket s q h)) none false b (taken q s)) := by
  simp only [exec, execCollective, withUnit, (accepts_spec ha).1, if_true, takeCollective]
  rw [takeCmd_accepts ha]
  simpa using hr
theorem exec_routeSet_accepts (q : Nat) (h : Hdr) (o first count : W16) (s : State) (ha : accepts s q h true = true) :
    exec (.routeSet q h o first count) s = .next (routeSetBody h o first count (nextTicket s q h) (taken q s)) := by
  simp only [exec, execRouteSet, withUnit, (accepts_spec ha).1, if_true, takeRouteSet]
  rw [takeCmd_accepts ha]
  rfl
theorem exec_positionSet_accepts (q : Nat) (h : Hdr) (o first count : W16) (s : State) (ha : accepts s q h true = true) :
    exec (.positionSet q h o first count) s = .next (positionSetBody h o first count (nextTicket s q h) (taken q s)) := by
  simp only [exec, execPositionSet, withUnit, (accepts_spec ha).1, if_true, takePositionSet]
  rw [takeCmd_accepts ha]
  rfl
theorem exec_groupSet_accepts (q : Nat) (h : Hdr) (o first count : W16) (s : State) (ha : accepts s q h true = true) :
    exec (.groupSet q h o first count) s = .next (groupSetBody h o first count (nextTicket s q h) (taken q s)) := by
  simp only [exec, execGroupSet, withUnit, (accepts_spec ha).1, if_true, takeGroupSet]
  rw [takeCmd_accepts ha]
  rfl
theorem exec_checkpoint_accepts (q : Nat) (h : Hdr) (b : CkptBody) (s : State) (ha : accepts s q h true = true) :
    exec (.checkpoint q h b) s = .next (checkpointBody h b (nextTicket s q h) (taken q s)) := by
  simp only [exec, execCheckpoint, withUnit, (accepts_spec ha).1, if_true, takeCheckpointCmd]
  rw [takeCmd_accepts ha]
  rfl
theorem exec_restore_accepts (q : Nat) (h : Hdr) (b : RestoreBody) (s : State) (ha : accepts s q h true = true) :
    exec (.restore q h b) s = .next (restoreBodyRun h b (nextTicket s q h) (taken q s)) := by
  simp only [exec, execRestore, withUnit, (accepts_spec ha).1, if_true, takeRestore]
  rw [takeCmd_accepts ha]
  rfl
theorem exec_snapshot_accepts (q : Nat) (h : Hdr) (b : SnapshotBody) (s : State) (ha : accepts s q h true = true) :
    exec (.snapshot q h b) s = .next (snapshotBodyRun h b (nextTicket s q h) (taken q s)) := by
  simp only [exec, execSnapshot, withUnit, (accepts_spec ha).1, if_true, takeSnapshot]
  rw [takeCmd_accepts ha]
  rfl
theorem exec_admitEntry_accepts (q : Nat) (h : Hdr) (b : AdmitBody) (s : State) (ha : accepts s q h false = true) :
    exec (.admitEntry q h b) s = .next (reqOp (.admitEntry q h b) (nextTicket s q h) (taken q s)) := by
  simp only [exec, execAdmitEntry, withUnit, (accepts_spec ha).1, if_true, takeAdmit]
  rw [takeCmd_accepts ha]
  rfl
theorem exec_cancel_accepts (q : Nat) (h : Hdr) (entry : W16) (key : W32) (s : State) (ha : accepts s q h false = true) :
    exec (.cancel q h entry key) s = .next (reqOp (.cancel q h entry key) (nextTicket s q h) (taken q s)) := by
  simp only [exec, execCancel, withUnit, (accepts_spec ha).1, if_true, takeCancel]
  rw [takeCmd_accepts ha]
  rfl
theorem exec_pageMove_accepts (q : Nat) (h : Hdr) (b : PageMoveBody) (s : State) (ha : accepts s q h false = true) :
    exec (.pageMove q h b) s = .next (reqOp (.pageMove q h b) (nextTicket s q h) (taken q s)) := by
  simp only [exec, execPageMove, withUnit, (accepts_spec ha).1, if_true, takePageMove]
  rw [takeCmd_accepts ha]
  rfl
theorem exec_plyRun_accepts (q : Nat) (h : Hdr) (plyId : W32) (mask value : Byte) (inputId : W64) (s : State)
    (ha : accepts s q h true = true) (hi : s.dealer.idle = false) (hr : plyRunReady q s = true) :
    exec (.plyRun q h plyId mask value inputId) s = .next (plyRunBody plyId mask value inputId (nextTicket s q h) (taken q s)) := by
  simp only [exec, execPlyRun, withUnit, (accepts_spec ha).1, if_true, takePlyRun, plyRunWakes, hi, Bool.false_eq_true, false_and, if_false]
  rw [takeCmd_accepts ha hr]

end Sys2Proof.Machine
end

