-- ==== Sys2Proof/Laws/Decode.lean ====
section
/-! SUPPORT. What reading one field of a word gives, when the word is a union of fields. -/

namespace Sys2Proof

set_option Elab.async false

/-- Reading a field where it was put gives its value. -/
theorem field_extract_same {n : Nat} (lo : Nat) (v : BitVec n) (h : lo + n ≤ 128) :
    (field lo v).extractLsb' lo n = v := by
  apply BitVec.eq_of_getLsbD_eq
  intro i hi
  have h1 : lo + i < 128 := by omega
  have h2 : i < 128 := by omega
  simp [field, hi, h1]

/-- Reading where another field was put gives 0. -/
theorem field_extract_other {n : Nat} (lo k m : Nat) (v : BitVec n) (h : lo + m ≤ k ∨ k + n ≤ lo) :
    (field k v).extractLsb' lo m = 0 := by
  apply BitVec.eq_of_getLsbD_eq
  intro i hi
  simp only [field, BitVec.getLsbD_extractLsb', BitVec.getLsbD_shiftLeft, BitVec.getLsbD_setWidth]
  have h0 : (0 : BitVec m).getLsbD i = false := by simp
  rw [h0]
  by_cases h1 : lo + i < k
  · simp [h1]
  · have h2 : n ≤ lo + i - k := by omega
    simp [BitVec.getLsbD_of_ge v _ h2]

/-- One bit of a field. -/
theorem field_getLsbD {n : Nat} (lo i : Nat) (v : BitVec n) (hi : i < 128) :
    (field lo v).getLsbD i = (decide (lo ≤ i) && v.getLsbD (i - lo)) := by
  simp only [field, BitVec.getLsbD_shiftLeft, BitVec.getLsbD_setWidth]
  by_cases h : i < lo
  · have h3 : ¬ lo ≤ i := by omega
    simp [h, h3]
  · have h2 : i - lo < 128 := by omega
    have h3 : lo ≤ i := by omega
    simp [h, h2, hi, h3]

/-- The same bit by index. -/
theorem field_getElem {n : Nat} (lo i : Nat) (v : BitVec n) (hi : i < 128) :
    (field lo v)[i] = (decide (lo ≤ i) && v.getLsbD (i - lo)) := by
  rw [← BitVec.getLsbD_eq_getElem, field_getLsbD lo i v hi]

/-- A mask meets a field in the mask's own field. -/
theorem field_and {n : Nat} (lo : Nat) (v : BitVec n) (m : W128) :
    field lo v &&& m = field lo (v &&& m.extractLsb' lo n) := by
  apply BitVec.eq_of_getLsbD_eq
  intro i hi
  rw [BitVec.getLsbD_and, field_getLsbD _ _ _ hi, field_getLsbD _ _ _ hi, BitVec.getLsbD_and, BitVec.getLsbD_extractLsb']
  by_cases h : lo ≤ i
  · have h4 : lo + (i - lo) = i := by omega
    by_cases h2 : i - lo < n
    · simp [h, h2, h4]
    · simp [h, BitVec.getLsbD_of_ge v (i - lo) (by omega)]
  · simp [h]

/-- An empty field adds nothing. -/
theorem field_zero {n : Nat} (lo : Nat) : field lo (0#n) = 0#128 := by simp [field]

end Sys2Proof
end

