-- ==== Sys2Proof/Laws/Memory.lean ====
section
/-! SUPPORT. Memory: reading after writing, and that every operation on memory keeps its canonical form. -/

namespace Sys2Proof.Machine

set_option Elab.async false

@[simp] theorem leBytes_length (n v : Nat) : (leBytes n v).length = n := by
  induction n generalizing v with
  | zero => rfl
  | succ n ih => simp [leBytes, ih]

@[simp] theorem freeBytes_length (c n : Nat) : (freeBytes c n).length = n := by simp [freeBytes]

@[simp] theorem readBytes_length (m : Tab Byte) (a n : Nat) : (readBytes m a n).length = n := by
  induction n generalizing a with
  | zero => rfl
  | succ n ih => simp [readBytes, ih]

theorem readByte_writeByte (m : Tab Byte) (a b : Nat) (v : Byte) :
    readByte (writeByte m a v) b =
      if (physOf b).isSome ∧ physOf a = physOf b then v else readByte m b := by
  unfold readByte writeByte
  cases hb : physOf b with
  | none => simp
  | some q =>
    cases ha : physOf a with
    | none => simp
    | some p => simp [Tab.get_set]

/-- The byte written is the byte read. -/
theorem readByte_writeByte_same (m : Tab Byte) (a : Nat) (v : Byte) (h : (physOf a).isSome = true) :
    readByte (writeByte m a v) a = v := by
  simp [readByte_writeByte, h]

/-- A write leaves every other physical byte alone. -/
theorem readByte_writeByte_other (m : Tab Byte) (a b : Nat) (v : Byte) (h : physOf a ≠ physOf b) :
    readByte (writeByte m a v) b = readByte m b := by
  simp [readByte_writeByte, h]

@[simp] theorem writeBytes_nil (m : Tab Byte) (a : Nat) : writeBytes m a [] = m := rfl
theorem writeBytes_cons (m : Tab Byte) (a : Nat) (b : Byte) (t : List Byte) :
    writeBytes m a (b :: t) = writeBytes (writeByte m a b) (a + 1) t := rfl

/-- Bytes stored leave every address alone whose physical byte is none of theirs. -/
theorem readByte_writeBytes_other (bs : List Byte) (m : Tab Byte) (a b : Nat)
    (h : ∀ i, i < bs.length → physOf (a + i) ≠ physOf b) : readByte (writeBytes m a bs) b = readByte m b := by
  induction bs generalizing m a with
  | nil => rfl
  | cons x t ih =>
    rw [writeBytes_cons, ih (writeByte m a x) (a + 1), readByte_writeByte_other]
    · exact h 0 (by simp)
    · intro i hi
      have := h (i + 1) (by simp; omega)
      rwa [show a + (i + 1) = a + 1 + i by omega] at this

/-- Bonded SRAM is addressed by itself. -/
theorem physOf_sram (a : Nat) (h : a < sramEnd) : physOf a = some a := by simp [physOf, h]
/-- The direct view names LPDDR5X by its own address. -/
theorem physOf_direct (a : Nat) (h1 : directBase ≤ a) (h2 : a < directEnd) : physOf a = some a := by
  have : ¬ a < sramEnd := by simp only [sramEnd, directBase] at *; omega
  simp [physOf, this, h1, h2]

/-- The interleaved view lands in the direct view's range. -/
theorem physOf_range (a p : Nat) (h : physOf a = some p) : p < sramEnd ∨ directBase ≤ p ∧ p < directEnd := by
  unfold physOf at h
  split at h
  · injection h with h; subst h; left; assumption
  · split at h
    · injection h with h; subst h; right; assumption
    · split at h
      · injection h with h
        right
        rename_i h3
        simp only [sramEnd, directBase, directEnd, interBase, interEnd] at *
        have e1 : (a - 0x40000000000) / 0x6000000000 < 4 := by omega
        have e2 : (a - 0x40000000000) % 0x6000000000 / 256 / 3 < 0x2000000000 / 256 := by omega
        generalize (a - 0x40000000000) / 0x6000000000 = d at *
        generalize (a - 0x40000000000) % 0x6000000000 / 256 = l at *
        omega
      · simp at h

/-- A run of bytes that stays within bonded SRAM and the direct view reads back what was stored. -/
theorem readBytes_writeBytes_other (n : Nat) (m : Tab Byte) (a b : Nat) (bs : List Byte)
    (h : ∀ i j, i < bs.length → j < n → physOf (a + i) ≠ physOf (b + j)) :
    readBytes (writeBytes m a bs) b n = readBytes m b n := by
  induction n generalizing b with
  | zero => rfl
  | succ n ih =>
    simp only [readBytes]
    rw [ih (b + 1), readByte_writeBytes_other]
    · intro i hi; exact h i 0 hi (by omega)
    · intro i j hi hj
      have := h i (j + 1) hi (by omega)
      rwa [show b + (j + 1) = b + 1 + j by omega] at this

/-- What is stored at distinct physical bytes is what is read there. -/
theorem readBytes_writeBytes_same (bs : List Byte) (m : Tab Byte) (a : Nat)
    (h1 : ∀ i, i < bs.length → (physOf (a + i)).isSome = true)
    (h2 : ∀ i j, i < bs.length → j < bs.length → physOf (a + i) = physOf (a + j) → i = j) :
    readBytes (writeBytes m a bs) a bs.length = bs := by
  induction bs generalizing m a with
  | nil => rfl
  | cons x t ih =>
    simp only [List.length_cons, readBytes, writeBytes_cons]
    congr 1
    · rw [readByte_writeBytes_other, readByte_writeByte_same]
      · simpa using h1 0 (by simp)
      · intro i hi he
        have := h2 (i + 1) 0 (by simp; omega) (by simp) (by rw [show a + (i + 1) = a + 1 + i by omega]; simpa using he)
        omega
    · apply ih
      · intro i hi
        have := h1 (i + 1) (by simp; omega)
        rwa [show a + (i + 1) = a + 1 + i by omega] at this
      · intro i j hi hj he
        have := h2 (i + 1) (j + 1) (by simp; omega) (by simp; omega)
          (by rwa [show a + (i + 1) = a + 1 + i by omega, show a + (j + 1) = a + 1 + j by omega])
        omega

/-! ### The canonical form -/

@[simp] theorem Memory.wf_nil : Memory.wf [] = true := rfl

theorem writeByte_wf (m : Tab Byte) (a : Nat) (v : Byte) (h : Memory.wf m = true) : Memory.wf (writeByte m a v) = true := by
  unfold writeByte; split
  · exact Tab.wf_set emptyByte m _ v h
  · exact h

theorem writeBytes_wf (bs : List Byte) (m : Tab Byte) (a : Nat) (h : Memory.wf m = true) : Memory.wf (writeBytes m a bs) = true := by
  induction bs generalizing m a with
  | nil => exact h
  | cons x t ih => exact ih _ _ (writeByte_wf m a x h)

theorem writeWord_wf (m : Tab Byte) (a : Nat) (v : W32) (h : Memory.wf m = true) : Memory.wf (writeWord m a v) = true :=
  writeBytes_wf _ m a h

theorem Memory.wf_filter (m : Tab Byte) (p : Nat × Byte → Bool) (h : Memory.wf m = true) : Memory.wf (m.filter p) = true :=
  Tab.wf_filter emptyByte p m h

theorem writeBytes_foldl_wf {β : Type} (addr : β → Nat) (data : β → List Byte) (ws : List β) (m : Tab Byte) (h : Memory.wf m = true) :
    Memory.wf (ws.foldl (fun m x => writeBytes m (addr x) (data x)) m) = true := by
  induction ws generalizing m with
  | nil => exact h
  | cons w ws ih => exact ih _ (writeBytes_wf _ m _ h)

theorem fillWrite_wf (a : Nat) (bs : List Byte) (s : State) (h : Memory.wf s.tiers.mem = true) :
    Memory.wf (fillWrite a bs s).tiers.mem = true := by
  have hw := writeBytes_wf bs s.tiers.mem a h
  unfold fillWrite
  split
  · split
    · exact hw
    · exact writeBytes_foldl_wf _ _ _ _ hw
  · exact hw

/-- Without a running step a fill is the plain write. -/
theorem fillWrite_idle (a : Nat) (bs : List Byte) (s : State) (h : s.dealer.run = none) :
    fillWrite a bs s = { s with tiers := { s.tiers with mem := writeBytes s.tiers.mem a bs } } := by
  simp only [fillWrite, h]

theorem undefineBytes_wf (a n : Nat) (s : State) (h : Memory.wf s.tiers.mem = true) : Memory.wf (undefineBytes a n s).tiers.mem = true :=
  fillWrite_wf a _ s h

/-- Storing lines marks them and stores the bytes, whatever step runs. -/
theorem storeLines_wf (a : Nat) (bs : List Byte) (s : State) (h : Memory.wf s.tiers.mem = true) :
    Memory.wf (storeLines a bs s).tiers.mem = true := by
  have hl (ls : List Nat) (t : Tiers) : (ls.foldl (fun t p =>
      { t with lineTag := Tab.set (fun _ => 0) t.lineTag (p / 256) (expectedTag s (p / 256)),
               linePoison := Tab.set (fun _ => false) t.linePoison (p / 256) false }) t).mem = t.mem := by
    induction ls generalizing t with
    | nil => rfl
    | cons p ls ih => exact ih _
  simp only [storeLines, hl]
  exact fillWrite_wf a bs s h

end Sys2Proof.Machine
end

