-- ==== Sys2Proof/Laws/Flits.lean ====
section
/-! SUPPORT. The bytes of a flit: their number and their CRC. -/

namespace Sys2Proof.Machine

set_option Elab.async false

/-- Little-endian bytes spell the number that they were made from. -/
theorem ofLe_leBytes (n v : Nat) (h : v < 256 ^ n) : ofLe (leBytes n v) = v := by
  induction n generalizing v with
  | zero => simp only [Nat.pow_zero, Nat.lt_one_iff] at h; simp [leBytes, ofLe, h]
  | succ n ih =>
    have hv : v / 256 < 256 ^ n := Nat.div_lt_of_lt_mul (by rwa [Nat.pow_succ, Nat.mul_comm] at h)
    simp only [leBytes, ofLe, ih _ hv, BitVec.toNat_ofNat]
    omega

/-- Bytes 0 to 251 with a CRC word pass the check exactly where the word is their CRC-32C. -/
theorem flitCrcOk_append (b : List Byte) (c : W32) (h : b.length = 252) :
    flitCrcOk (b ++ leBytes 4 c.toNat) = decide (c = crc32c b) := by
  have hl : ofLe (leBytes 4 c.toNat) = c.toNat := ofLe_leBytes 4 _ (by have := c.isLt; omega)
  have ht : (leBytes 4 c.toNat).take 4 = leBytes 4 c.toNat := List.take_of_length_le (by simp)
  simp [flitCrcOk, fieldAt, h, ht, hl]

/-- A flit is 256 bytes, and what is sent passes the check. -/
theorem flitBytes_length (f : Flit) : (flitBytes f).length = 256 := by
  simp only [flitBytes, headerBytes, List.length_append, leBytes_length, List.length_take, List.length_replicate]
  omega
theorem flitCrcOk_flitBytes (f : Flit) : flitCrcOk (flitBytes f) = true := by
  rw [flitBytes, flitCrcOk_append _ _ (by
    simp only [headerBytes, List.length_append, leBytes_length, List.length_take, List.length_replicate]; omega)]
  exact decide_eq_true rfl

end Sys2Proof.Machine
end

