-- ==== Sys2Proof/Laws/Lines.lean ====
section
/-! SUPPORT. When the read of an engine command's source finds good data, and when a POISONED object. -/

namespace Sys2Proof.Machine

set_option Elab.async false

/-- No object that a read touches is POISONED, no word of SRAM is bad, no line is bad or under repair. -/
def ReadSet.clear (r : ReadSet) (s : State) : Bool :=
  !r.objects.any (fun o => decide ((obj s o).poison = .poisoned)) && decide (sramTouched s .clean r.sram = none) &&
    !r.lines.any (lineInRepair s) && decide (badLines s r.lines = [])

/-- A read that touches nothing bad gives good data and changes nothing. -/
theorem engineReadSet_clear {r : ReadSet} {s : State} (h : r.clear s = true) : engineReadSet r .clean s = .good s := by
  simp only [ReadSet.clear, Bool.and_eq_true, Bool.not_eq_true', decide_eq_true_eq] at h
  obtain ⟨⟨⟨h1, h2⟩, h3⟩, h4⟩ := h
  simp [engineReadSet, h1, h2, h3, h4, countSingle]

/-- As `engineReadSet_clear`, for parts of objects. -/
theorem readsGood_of_clear {s : State} {xs : List ReadSpan} (h : (spanSet s xs).clear s = true) : ReadsGood s xs :=
  engineReadSet_clear h

/-- A read that touches a POISONED object fails with OBJECT_POISONED and changes nothing. -/
theorem engineReadSet_poisoned {r : ReadSet} {s : State} (ecc : Ecc)
    (h : r.objects.any (fun o => decide ((obj s o).poison = .poisoned)) = true) :
    engineReadSet r ecc s = .fails Status.objectPoisoned s := by
  simp [engineReadSet, h]

/-- As `engineReadSet_poisoned`, for parts of objects. -/
theorem engineRead_poisoned {xs : List ReadSpan} {s : State} (ecc : Ecc)
    (h : (spanSet s xs).objects.any (fun o => decide ((obj s o).poison = .poisoned)) = true) :
    engineRead xs ecc s = .fails Status.objectPoisoned s := engineReadSet_poisoned ecc h

/-- A shard that lies within its object and whose lines are good reads good. -/
theorem readShard_clear {e : MapEntry} {s : State}
    (h : ((obj s e.sourceObject).inMem && decide (e.sourceOffset + e.srcBytes ≤ (obj s e.sourceObject).len) &&
      (spanSet s [e.source]).clear s) = true) : readShard e s = .good s := by
  simp only [Bool.and_eq_true, decide_eq_true_eq] at h
  have hn : ¬((¬(obj s e.sourceObject).inMem = true) ∨ (obj s e.sourceObject).len < e.sourceOffset + e.srcBytes) := by
    intro hc
    rcases hc with hc | hc
    · exact hc h.1.1
    · omega
  exact (if_neg hn).trans (engineReadSet_clear h.2)

end Sys2Proof.Machine
end

