-- ==== Sys2Proof/Tests/Slice0.lean ====
section
/-! SUPPORT. The package's own tests: what well-formedness refuses, words decoded, the manual's worked examples, single steps; and for
every statement with hypotheses the witness that meets those of each of its clauses. -/

open Sys2Proof Sys2Proof.Machine

set_option Elab.async false

namespace Sys2Proof.Tests

/-! ### States and operands of the tests -/

/-- Function 0 of port A. -/
def pfA : Fn := { port := .A, num := 0 }
/-- Function 0 of port B. -/
def pfB : Fn := { port := .B, num := 0 }
/-- A header that asks for mark 9 to advance and does not wait. -/
def hdr0 : Hdr := { wait := false, done := true, irq := false, waitMark := 0, doneMark := 9, tag := 0x77, waitValue := 0 }
def ticket0 (q : Nat) : Ticket := { q := q, index := 5, hdr := hdr0 }
def bytesN (n : Nat) : List Byte := (List.range n).map (BitVec.ofNat 8)
/-- Queue q runs for function 0 of port A, which holds the move; it has one command and room for its record. -/
def readyQ (q : Nat) (s : State) : State :=
  let s1 := setMark 9 (fun m => { m with owner := pfA })
    (setQueue q (fun k => { k with enable := true, owner := pfA, sqSize := 16, cqSize := 16, sqTail := k.sqHead + 1 }) s)
  let s2 := setPort .A (fun p => { p with d3hot := false }) s1
  { s2 with resets := { s2.resets with mgood := true }, host := { s2.host with holder := some .A } }
/-- No block is in reset. -/
def openBlocks (s : State) : State := { s with resets := { s.resets with blocks := [] } }
def memObj (o addr size : Nat) : State → State := setObj o (fun _ => { Obj.none with
  address := BitVec.ofNat 64 addr, size := BitVec.ofNat 64 size, tier := if addr < directBase then 0 else 1, valid := true })
def flashObjAt (o handle : Nat) : State → State := setObj o (fun _ => { Obj.none with
  address := BitVec.ofNat 64 handle, size := 0x100000, tier := 2, valid := true })
/-- The four translation layers are READY and hold these objects. -/
def flashUp (fs : List FlashObj) (s : State) : State := { s with
  tiers := { s.tiers with flash := fs, layers := (List.range 4).map (fun d => (d, { FlashLayer.cold with ready := true })) } }
def onDealer (f : Dealer → Dealer) (s : State) : State := { s with dealer := f s.dealer }
def onUnlia (f : Unlia → Unlia) (s : State) : State := { s with unlia := f s.unlia }
def onHost (f : HostIf → HostIf) (s : State) : State := { s with host := f s.host }
def onResets (f : Resets → Resets) (s : State) : State := { s with resets := f s.resets }
def onGlaren (f : Glaren → Glaren) (s : State) : State := { s with glaren := f s.glaren }
def onTiers (f : Tiers → Tiers) (s : State) : State := { s with tiers := f s.tiers }
def onConceal (f : Conceal → Conceal) (s : State) : State := { s with conceal := f s.conceal }
def onUpdate (f : Update → Update) : State → State := onGlaren (fun g => { g with update := f g.update })

/-! #### Host commands -/
def place0 : PlaceBody := { objectId := 7, address := 0x40, size := 0x80, tier := 0, attr := 0, state := 1, lineTag := 0, version := 3, altObject := 0xFFFF, flashCopy := 0xFFFF, peerPos := 0xFFFF, peerObject := 0xFFFF }
def desc (l : List Byte) : List Byte := l ++ List.replicate (64 - l.length) 0
def moveB (mode : Nat) : MoveBody := { mode := BitVec.ofNat 8 mode, src := 7, dst := 8, wp := 0, srcOffset := 0, dstOffset := 0, bytes := 4096, cmask := 0, dmask := 0, signalStep := 0 }
def moveS : State := flashUp [{ handle := 5, size := 0x100000, data := bytesN 8192 }] (memObj 7 0 0x10000 (memObj 8 0x20000 0x10000 (openBlocks (readyQ 3 State.reset))))
def moveS1 : State := flashObjAt 7 5 (memObj 8 directBase 0x10000 moveS)
def moveS2 : State := flashObjAt 8 5 moveS
def copyB (dir : Nat) : HostCopyBody := { dir := BitVec.ofNat 8 dir, object := 7, offset := 64, hostAddr := 0x1000, bytes := 128 }
def pageB : PageMoveBody := { entry := 12, tier := 1, key := 0x55, first := 0, count := 1, frame := 0 }
def decoding : State → State := setRequest 12 (fun r => { r with state := .decode, key := 0x55, owner := pfA, pages := 2, headPage := 3, tailPage := 4 })
def opS (o : Op) : State → State := onHost (fun h => { h with ops := [(40, o)] })
def genBook0 : Book := { kind := .gen, modelId := 1, epoch := 1, digestLo := 0, plies := [] }
def learnBook0 : Book := { genBook0 with kind := .learn }
def poisonedS : State := setObj 7 (fun o => { o with poison := .poisoned }) (opS (.move (ticket0 3) (moveB 0) [] []) moveS)
def phaseS : State := onDealer (fun d => { d with genBook := some genBook0, learnBook := some learnBook0, slots := [(0, { Slot.cold with state := .live })] }) (readyQ 3 State.reset)
def plyS : State := onDealer (fun d => { d with idle := false, learnQueue := some 3, phase := .learn, midway := true }) phaseS
/-- A ply image of one empty program, its digest taken in. -/
def plyImage : List Byte :=
  let h := leBytes 4 0x4B485031 ++ leBytes 2 1 ++ [0, 0] ++ leBytes 4 9 ++ leBytes 4 1 ++ List.replicate 64 0
  let p := h ++ List.replicate (0x170 - h.length) 0 ++ leBytes 4 0x200 ++ leBytes 4 0x200 ++ leBytes 4 512 ++ leBytes 4 0
  let z := p ++ List.replicate (512 - p.length) 0
  z.take 0x180 ++ leBytes 64 3822713113410282810926784413419267430795022263299135724725134239937787231231939783420703991268816000211524996896642744452650602454904356286844074023282738 ++ z.drop (0x180 + 64)
/-- A book image with that ply alone. -/
def bookImage : List Byte :=
  let h := leBytes 4 0x4B484231 ++ leBytes 2 1 ++ [0, 0] ++ leBytes 4 77 ++ leBytes 4 1 ++ leBytes 2 1 ++ leBytes 2 0 ++ leBytes 4 832 ++ leBytes 4 256
  let idx := leBytes 4 9 ++ leBytes 4 320 ++ leBytes 4 512 ++ [0, 0, 0, 0]
  let z := h ++ List.replicate (256 - h.length) 0 ++ idx ++ List.replicate 48 0 ++ plyImage
  z.take 0x40 ++ leBytes 64 13185608995272051202903028225275215396422341865279648090809880976803293861269575141085483894904096804351705717433878540866539366756919940064567563239795691 ++ z.drop (0x40 + 64)
def man0 : ManifestEntry := { version := 1, epoch := 1, security := 0, accept := [], settings := 0, minSettings := 0 }
def bookS : State := onUpdate (fun u => { u with running := [(1, man0)] }) (storeLines 0x4000 bookImage (memObj 7 0x4000 832 (readyQ 3 State.reset)))
def castleB (mode : Nat) : CastleBody := { mode := BitVec.ofNat 8 mode, role := 1, target := 1, flags := 0, share := 0, version := 9, base := 7, adapter := 0xFFFF, map := 0, source := 8, group := 0, seq := 0, chunks := 0, castleId := 0xABC }
def castle0 (mode : Nat) : Castle := { ticket := ticket0 3, body := castleB mode, checked := false, base := 7, map := [], done := [], retries := [], flagged := 0, sent := false, toSend := [] }
def castleS (mode : Nat) : State :=
  let s := setObj 7 (fun _ => { Obj.none with address := BitVec.ofNat 64 directBase, size := 0x1000, tier := 1, valid := true, attr := 5, version := 9 }) (flashUp [{ handle := 5, size := 0x10000, data := bytesN 0x1000 }] (openBlocks (readyQ 3 State.reset)))
  let s := setObj 8 (fun _ => { Obj.none with address := 5, size := 0x1000, tier := 2, valid := true }) s
  onDealer (fun d => { d with slots := [], castles := [castle0 mode] }) s
def mapE : MapEntry := { destOffset := 0, elements := 64, sourcePos := 2, sourceObject := 8, sourceOffset := 0, srcFmt := 0, dstFmt := 1, member := 0 }
def castleM : Castle := { castle0 0 with map := [mapE, mapE] }
def castleM3 : Castle := { castleM with retries := [(0, 3)] }
def buildingS (c : Option Castle) : State := onDealer (fun d => { d with building := c }) (castleS 0)
def collB (kind : Nat) : CollBody := { kind := BitVec.ofNat 8 kind, fmt := 0, flags := 0, dieMask := 1, group := 4, peer := 1, seq := 6, group2 := 0xFFFF, tag := 3, seq2 := 0, count := 192, src := 0x1000, dst := 0x2000, dieStride := 0, reserved := false }
def member (n : W16) : Position := { Position.cold with node := n, twin := 0xFFFF, state := 1 }
/-- Group 4 has positions 0, 1 and 2; the module is at position 1. -/
def collS : State := onUnlia (fun u => { u with
  nodeId := 11, nodeValid := true, colls := [], posSets := [], positions := [(0, member 10), (1, member 11), (2, member 12)]
  groups := [(4, { Group.cold with rackMask := 1, trayMask := 1, moduleMask := 7, valid := true, nextSeq := 6 })] })
  (openBlocks (readyQ 3 State.reset))
def coll0 (kind : Nat) : Coll := { id := 99, ticket := some (ticket0 3), prog := none, body := collB kind, active := false, reading := false, granted := false, taken := false, digests := [], agreed := false, sent := [], last := 0, nodes := [] }
def collA (kind : Nat) : Coll := { coll0 kind with active := true }
def withColl (c : Coll) : State := onUnlia (fun u => { u with colls := [c] }) collS
def collC : Coll := { collA 2 with digests := [0], sent := [0], nodes := [(0, 0, List.replicate 64 0x3F800000), (0, 4, List.replicate 64 7), (0, 8, List.replicate 64 9)] }
def tableS (bs : List Byte) : State := storeLines 0x1000 bs (memObj 7 0x1000 bs.length (readyQ 3 State.reset))
def routeT : List Byte := leBytes 8 0x102030405 ++ leBytes 8 0x7
def groupT : List Byte := List.replicate 32 1 ++ [1, 7, 1, 0] ++ List.replicate 28 0
def posT : List Byte := [5, 0, 0xFF, 0xFF, 1, 0, 0, 0] ++ leBytes 8 0
/-- The n entries of w bytes of object 7. -/
def entries (s : State) (n w : Nat) : List (List Byte) := (List.range n).map (fun i => objBytes s (obj s 7) (w * i) w)
def ckptB (mode : Nat) : CkptBody := { mode := BitVec.ofNat 8 mode, flags := 0, list := 7, objCount := 1, targetA := 20, targetB := 21, buddyPos := 0xFFFF, buddyA := 0, buddyB := 0, logA := 0, logB := 0, period := 1, buddyLogA := 0, buddyLogB := 0, reserved := false }
def flashO5 : FlashObj := { handle := 5, size := 0x100000, data := [] }
def ckptS : State :=
  let s := flashUp [flashO5, { flashO5 with handle := 6 }] (openBlocks (readyQ 3 State.reset))
  storeLines 0x1000 [9, 0] (setObj 9 (fun _ => { Obj.none with address := BitVec.ofNat 64 directBase, size := 256, tier := 1, attr := 8, valid := true })
    (flashObjAt 20 5 (flashObjAt 21 6 (memObj 7 0x1000 2 s))))
def job0 : CkptJob := { step := 44, target := some true, body := { ckptB 0 with buddyPos := 6 }, ticket := some (ticket0 3), reading := [9] }
def buddyS : State := onConceal (fun c => { c with buddyOpen := [20], buddySent := true }) ckptS
def log0 : LogRec := { step := 1, plyId := 0, kind := 0, variant := 0, flags := 0, inputId := 0, version := 0, epoch := 0, posDigest := 0, digest := 0, tick := 0 }
def logS : State := onConceal (fun c => { c with ckpt := some (ticket0 3, { ckptB 0 with flags := 1, logA := 20, logB := 21 }), logBuffer := List.replicate 1024 log0 }) ckptS
def restoreB (src : Nat) : RestoreBody := { source := BitVec.ofNat 8 src, object := 20, peerPos := 4, step := 0, logObject := 0xFFFF, localLog := 0 }
def restoreS : State := onConceal (fun c => { c with restores := [(ticket0 3, restoreB 1)] }) (onUpdate (fun u => { u with running := [(1, man0)] }) ckptS)
/-- The first 256 bytes of a checkpoint of no objects, step 77. -/
def ckptHead : List Byte := ckptHeader restoreS 77 0 0
/-- That checkpoint, its trailer's DIGEST taken in. -/
def ckptImg : List Byte := ckptHead ++ leBytes 4 0x4B484354 ++ leBytes 4 1 ++ leBytes 8 77 ++ leBytes 8 256 ++ List.replicate 40 0 ++ leBytes 64 9650615999017339610603799827385596059417228314469196957510698039193661356129840803173972538907922322331591395527206491571774071954187162285513711819176889
def snapB : SnapshotBody := { slot := 1, flags := 0, image := 20, manifest := 21, peerPos := 0, peerImage := 0, peerManifest := 0 }
def snapS : State := onDealer (fun d => { d with slots := [(1, { Slot.cold with state := .live, base := 9 })] }) ckptS
def snapJ : SnapJob := { ticket := ticket0 3, body := snapB, step := 44, slot := slot snapS 1 }
def entryB : AdmitBody := { entry := 12, tenant := 3, priority := 2, eval := false, pin := false, reserved := false, outRing := 3, topK := 1, topP := 0, key := 0x99, promptLen := 2, maxLen := 9, deadline := -1, seed := 5, temp := 0, stop0 := 0, stop1 := 0, promptObject := 7, promptOffset := 0 }
def entryS : State := memObj 7 0x1000 64 (setQueue 3 (fun k => { k with orSize := 16, orHead := k.orTail }) (readyQ 3 State.reset))

/-! #### Glaren, registers, boundaries -/

/-- A request with this opcode waits in port A's mailbox, and Glaren serves it. -/
def mboxS (op : Nat) : State := onHost (fun h => { h with holder := some .A })
  (onResets (fun r => { r with powered := true, glarenReady := true, recovery := false })
    (setPort .A (fun x => { x with mboxBusy := true, mboxOp := BitVec.ofNat 8 op }) State.reset))
def noHolder : State → State := onHost (fun h => { h with holder := none })
/-- Port A holds the move, and its registers answer. -/
def regS : State := onResets (fun r => { r with glarenReady := true }) (readyQ 3 State.reset)
def heldBy (h : Option Port) : State → State := onHost (fun x => { x with holder := h })
def idleS : State := onDealer (fun d => { d with pools := (List.range 4).map (fun k => (k, { Pool.cold with dram := 7 })) }) (memObj 7 directBase 0x100000 regS)
def enabledS (en : Bool) : State := setQueue 3 (fun k => { k with enable := en, orSize := 16 }) regS
def markS (v n : Nat) (ar : Bool) : State := setPort .A (fun p => { p with linkUp := true })
  (setMark 9 (fun m => { m with value := BitVec.ofNat 64 v, notifyAt := BitVec.ofNat 64 n, armed := ar, vector := 3 }) regS)
def barS : State := setPort .A (fun p => { p with linkUp := true, d3hot := false, base := 0, bar2Log2 := 34 }) (openBlocks regS)
def blockS (b : Nat) (st : BlockState) : State := setBlock b (fun x => { x with state := st }) regS
def dueS : State := onDealer (fun d => { d with due := true }) State.reset

/-! #### Running steps -/
def c0 : Common := { sat := false, vg := false, vb := 0, vp := false }
def clean (p : Nat) : Issue := { prog := p, ecc := .clean }
def aregs : Tab Addr := [(1, 0x10000), (2, 0x20000), (3, 0x30040), (4, 0x10000000040), (5, 0x10001)]
def progAt (c : Common) (x : Insn) : Prog := { Prog.cold with code := [encodeInsn c x, encodeInsn c0 .stop], ended := false, ready := 100, areg := aregs }
/-- A running step of one program. -/
def runOf (p : Nat) (pr : Prog) : Run :=
  { step := 90, ply := { plyId := 9, kind := .aux, epoch := 0, totalAc := 50, energyEst := 0, energyMax := 0, batchClass := 0, contextClass := 0, variant := 0, resourceMap := 0, diffMode := BitVec.allOnes 256, peakPower := 0, waits := [(0,0),(1,1),(1,2),(1,4)], binds := [], progs := [] }, book := .learn, cls := .learn, variant := 5, slot := 0, version := 3, inputId := 7, ticket := none, batch := [], progs := [(p, pr)], signals := [], drains := [], trees := [], nodes := [], matched := [], wpHolds := [], writes := [], undo := [], bankUse := [], nowAc := 20, abortAc := none, recorded := none, stopped := false, launchTick := 0, freq := 0, freqChanged := false, freqCancelled := false, govHold := 0, energy := 0, extDst := [], flagged := [] }
def withRun (r : Run) : State → State := onDealer (fun d => { d with run := some r, fault := { d.fault with valid := false } })
def ended0 : Prog := { Prog.cold with ended := false, atEnd := true, ready := 60, lastDone := 77 }
/-- Program p stands before x. -/
def runAt (p : Nat) (x : Insn) : Run := runOf p (progAt c0 x)
/-- The step runs, no block is in reset, and 256 bytes from 10000H hold data. -/
def stepS (r : Run) : State := withRun r (openBlocks (onTiers (fun t => { t with
  mem := writeBytes t.mem 0x10000 ((List.range 256).map (fun i => BitVec.ofNat 8 (7 * i + 3))) }) State.reset))
def held0 : Held := { cls := .learn, slot := 0, book := .learn, ply := (runOf 0 ended0).ply, variant := 5, inputId := 7, ticket := some (ticket0 3), batch := [], freq := 2, since := State.reset.tick, progs := [(0, ended0)] }
def heldS : State := onDealer (fun d => { d with held := some held0 }) (readyQ 3 State.reset)
/-- Held for 300 ticks. -/
def heldT : Held := { held0 with since := State.reset.tick - 300 }
def heldTS : State := onDealer (fun d => { d with held := some heldT }) heldS
def run9 : Run := { runOf 4 ended0 with ticket := some (ticket0 3) }
def abortR : Run := { run9 with abortAc := some 100, writes := [{ fill := false, ac := 80, cluster := none, src := 0, addr := 4096, bytes := [2], old := [1] }] }
def stoppedR : Run := { run9 with abortAc := some 100, stopped := true }
def awaitP : Prog := progAt c0 (.await 1 2)
def deadR : Run := runOf 4 awaitP
def treeF0 : TreeF := { size := 0, base := 0, bank := 0, outfmt := 0, onward := 0, dreg := 0, doff := 0, tileM := 0, tileN := 0 }
def treeWaiting : TreeItem := { level := 1, cluster := 4, waiting := true, field := treeF0, sat := false, nth := 0, ac := 0, issued := 50, dest := 0, pc := 3, rows := [], lag := [] }
def holdR (k : Nat) : Run := runOf 4 { awaitP with hold := some { wp := some k, since := 70 } }
def sig0 : Signal := { prog := 4, wp := 0, arrival := { ac := 150, lag := [], segs := [] } }
def signalR : Run := { deadR with signals := [{ sig0 with wp := 1 }, sig0] }
def drainE (e a : Nat) : Drain := { cluster := 4, engine := e, bank := 1, action := a, sat := false, dest := 0x1000, doneAc := 200, complete := false, prog := 4, pc := 3, tileM := 0, tileN := 0, tile := List.replicate 4096 0x3F800000 }
def drainR (a : Nat) : Run := { deadR with drains := [drainE 2 a] }
def mv : MoveF := { sreg := 1, dreg := 0, half := 1, bank := 0, port := 0, bytes := 64, mask := 5, fmt := 0, tagWp := 0, wide := 0 }
def mvT : MoveF := { mv with bytes := 4096 }
def mvB : MoveF := { mv with half := 0, bank := 1, wide := 7 }
def mvC : MoveF := { mv with half := 0, bytes := 19, mask := 0, wide := 13 }
def mvF : MoveF := { mvC with tagWp := 0x1234 }
def mvD : MoveF := { mvC with sreg := 0, dreg := 2 }
def mvE : MoveF := { mvC with dreg := 2, wide := 0 }
def mvI : MoveF := { mvE with bytes := 64, tagWp := 3, wide := 5, sreg := 4 }
def mvU : MoveF := { mvI with sreg := 1, dreg := 4 }
def mvX : MoveF := { mvE with wide := 1 }
def crossR : Run := runOf 32 { progAt c0 (.move 12 mvX) with areg := [(1, 0x10000), (2, 0x100020000)] }
def mm : MmaF := { fmt := 0, mask := 3, bank := 1, ahalf := 0, bhalf := 1, start := 0, drain := 1, kq := 2, bcol := 0, ahb := 0, bhb := 0, aoff := 0, boff := 0, dreg := 2, doff := 0, tileM := 0, tileN := 0 }
def mmK : MmaF := { mm with fmt := 2, kq := 32 }
/-- Every operand half of the step's cluster holds this format. -/
def mmaS (f : MmaF) (ft : Nat) : State :=
  let s := stepS (runAt 4 (.mma f))
  { s with units := { s.units with bufFmt := (List.range 2000).map (fun i => (i, ft)) } }
def rowF0 : RowF := { xreg := 1, oreg := 3, save := 0, infmt := 0, outfmt := 0, nm1 := 3, vm1 := 0, layer := 0, sbase := 0, tag := 0, eps := 0x3727C5AC }
def vecF0 : VecF := { s1 := 33, s2 := 34, s3 := 0, d := 35, s2imm := 0, s2bc := 0, fn := 0, sfmt := 0, dfmt := 0, rowsm1 := 0, imm := 0x3F800000 }
def treeF1 : TreeF := { treeF0 with size := 1, base := 2, bank := 1, dreg := 2, doff := 3 }
def treeR (f : TreeF) : Run := { runAt 4 (.tree 0 f) with drains := [drainE 2 3, { drainE 2 3 with bank := 0 }, drainE 3 3, drainE 5 3] }
def treeItem (l cl : Nat) (f : TreeF) : TreeItem := { treeWaiting with level := l, cluster := cl, waiting := false, field := f, ac := 100, issued := 0, rows := [1, 2, 3] }
def treeF4 : TreeF := { treeF1 with base := 4, onward := 1 }
def ctreeR : Run := { runAt 4 (.tree 1 treeF4) with trees := [treeItem 1 4 treeF4] }
def treeL : TreeF := { treeF1 with base := 4 }
def partner (cl : Nat) (f : TreeF) : TreeItem := { treeItem 1 cl f with waiting := true, dest := 0x40040 }
def lastR : Run := { runAt 5 (.tree 1 treeL) with trees := [partner 4 treeL, treeItem 1 5 treeL] }
def topkF0 : TopkF := { sreg := 1, dreg := 2, infmt := 0, nm1 := 5, km1 := 2, vm1 := 1 }
def arrived (n : Nat) (f : Bool) : Run := { runAt 4 (.await 1 (BitVec.ofNat 16 n)) with progs := [(4, { progAt c0 (.await 1 (BitVec.ofNat 16 n)) with waits := [(1, { arrivals := [sig0.arrival], failed := f })] })] }
def ctrlR (x : Insn) : Run := runOf 4 { progAt c0 x with lreg := [(2, 5), (3, 1)], stats := [(1, 77)] }

/-! #### Streams, ports, repairs, links, resets -/
def noRun : State → State := onDealer (fun d => { d with run := none })
def stream0 (out f : Bool) : StreamOp := { prog := 4, out := out, sram := 0x1000, dram := 0x10000000040, bytes := 300, wp := 3, cmask := 0x13, ports := [0], segs := [], reread := [], served := false, awaits := [], failed := f }
def streamOp (out f : Bool) : Op := .stream (stream0 out f)
def streamS (out f : Bool) : State := onHost (fun h => { h with ops := [(7, streamOp out f)], nextOp := 900 }) (openBlocks (withRun (runOf 4 ended0) State.reset))
def rawOk (b : Byte) : RawLine := { data := List.replicate 256 0, check := checkImage (List.replicate 256 0) b }
/-- Every FIFO of port 0 is full. -/
def fullS : State → State := onHost (fun h => { h with ops := (List.range 64).map (fun i => (i, streamOp true false)) })
def readS : State := noRun (streamS false false)
def repair0 : Repair := { id := 3, object := 6, line := 0x100000000, op := none, source := 0, rewriting := false }
def repairS : State :=
  let s := setObj 6 (fun _ => { Obj.none with address := 0x10000000000, size := 0x10000, tier := 1, valid := true, altObject := 5, flashCopy := 0xFFFF, peerPos := 0xFFFF, version := 4, poison := .repairing }) (openBlocks State.reset)
  onTiers (fun t => { t with repairs := [repair0] })
    (setObj 5 (fun _ => { Obj.none with address := 0x10000100000, size := 0x10000, tier := 1, valid := true, altObject := 0xFFFF, version := 4 }) s)
def flashMove : MoveBody := { moveB 1 with src := 8, dst := 9 }
def flashS : State := onHost (fun h => { h with ops := [(7, .move (ticket0 3) flashMove [] [])], nextOp := 900 })
  (flashObjAt 8 0x200 (flashUp [{ handle := 0x200, size := 0x100000, data := bytesN 256 }] (openBlocks State.reset)))
def formatS : State := onHost (fun h => { h with ops := [] }) (onTiers (fun t => { t with layers := [(1, { FlashLayer.cold with formatting := true })] }) flashS)
/-- Line 0 of LPDDR5X has a tag of another object. -/
def otherTag : State → State := onTiers (fun t => { t with lineTag := [(0x100000000, 5)] })
/-- Port 3 of Unlia is in this state, encrypting or not, and port 4 is UP; two routes lead over them. -/
def linkS (st : LinkState) (enc : Bool) : State :=
  let s := onUnlia (fun u => { u with nodeValid := true, nodeId := 0x55, routes := [(2, BitVec.ofNat 64 (2^31 + 3 * 2^32)), (5, BitVec.ofNat 64 (2^31 + 4 * 2^32))] })
    (onResets (fun r => { r with mgood := true, recovery := false, powered := true }) (openBlocks State.reset))
  setUPort 4 (fun x => { x with state := .up }) (setUPort 3 (fun x => { x with enable := true, state := st, encrypt := enc, expected := 9 }) s)
def flit0 : Flit := { vc := 1, kind := 0, first := true, last := true, hops := 3, dst := 0x55, src := 0x66, seq := 9, ack := 3, creditVc := 2, credits := 1, payload := [1, 2, 3] ++ List.replicate 241 0 }
/-- The same flit with a wrong CRC word. -/
def badFlit : List Byte := (flitBytes flit0).take 252 ++ leBytes 4 (crc32c ((flitBytes flit0).take 252) + 1).toNat
def onward0 : Flit := { flit0 with dst := 0x56 }
def slotS (st : LinkState) (nak : Bool) (rs : List Flit) : State := setUPort 3 (fun x => { x with sendNak := nak, sendSwitch := false, resend := rs, txQueue := [] }) (linkS st true)
/-- A flit of the module itself waits on port 3. -/
def queuedS : State := setUPort 3 (fun x => { x with txKey := [], txQueue := [(16, flit0)], credits := [] }) (slotS .up false [])
def peerS (k : Option Nat) : State := setUPort 3 (fun x => { x with peerNode := 1, kemId := k, pendRx := [5, 6] }) (linkS .keying true)
def lossS : State := onUnlia (fun u => { u with lossSeen := [(1, 2, 3)], positions := [(6, { node := 0x44, twin := 0x7FFF, state := 1, reserve := false, gen := 3 }), (8, { node := 0x45, twin := 0x46, state := 3, reserve := false, gen := 3 })] })
  (setUPort 3 (fun x => { x with peerNode := 0x44, probing := some 0 }) (linkS .up false))
/-- No probe of port 3 was answered for 64 ticks. -/
def lossP : State := setUPort 3 (fun x => { x with probing := some (lossS.tick - 64) }) lossS
def halvesS (lead : Half) (split : Bool) (q : List (Nat × W64)) (heard : W64) : State := onResets (fun r => { r with mgood := true, glarenReady := true })
  (onDealer (fun d => { d with lead := lead, grant := lead, split := split, queries := q, westHeard := State.reset.tick - heard, needAck := some 44 }) State.reset)
def upS : State := onResets (fun r => { r with mgood := true, powered := true, glarenReady := true, starting := false, startOk := true, selfResets := [], heldRecords := [], failedStarts := 1 }) State.reset
def beatS (a b : W64) : State := onDealer (fun d => { d with heartbeat := [(0, upS.tick - a), (1, upS.tick - b)] }) upS
def report5 : Report := { step := 5, plyId := 7, health := 1, abandoned := false, digest := 99 }
def twinS (armed : Bool) : State := onConceal (fun c => { c with armed := armed, mismatch := false, ownReports := [report5], twinReports := [] }) State.reset
def offS (n : Nat) : State := onResets (fun r => { r with powered := false, failedStarts := n }) upS
def startS (w : Bool) : State := onResets (fun r => { r with starting := true, warmN := w, mgood := false }) upS
def warmS (w : Bool) : State := onResets (fun r => { r with warmAt := some (upS.tick - 10), warmN := w }) upS
def portS (link perst ready : Bool) : State := setPort .A (fun p => { p with linkUp := link, perst := perst, ready := ready }) upS

/-! ### Well-formedness: what each check refuses -/

def descBad : List Byte := List.replicate 63 0
theorem test_wf_queue_refused : (Instr.nop 256 hdr0).wf = false := by decide
theorem test_wf_queue_taken : (Instr.nop 255 hdr0).wf = true := by decide
theorem test_wf_descriptor_length_refused : (Instr.commandTake 3 (.descriptor descBad)).wf = false := by decide
theorem test_wf_function_refused : (Instr.stepNumberWrite { port := .A, num := 16 } 0).wf = false := by decide
theorem test_wf_flag_cluster_refused : (Instr.flagClear pfA 32 1).wf = false := by decide
theorem test_wf_pool_refused : (Instr.pageConfigWrite pfA (some 4) 0).wf = false := by decide
theorem test_wf_mark_refused : (Instr.markAdd pfA 4096 1).wf = false := by decide
theorem test_wf_queue_register_refused : (Instr.sqDoorbell pfA 256 0).wf = false := by decide
theorem test_wf_owner_refused : (Instr.qOwnerChange pfA false 3 { port := .B, num := 16 }).wf = false := by decide
theorem test_wf_unlia_port_refused : (Instr.portEnableWrite pfA 16 true).wf = false := by decide
theorem test_wf_pip_refused : (Instr.pipSelectWrite pfA 4 0).wf = false := by decide
theorem test_wf_offset_refused : (Instr.registerWrite pfA 0x4000000 0).wf = false := by decide
theorem test_wf_program_refused : (Instr.ctrlNop (clean 36) c0 5).wf = false := by decide
theorem test_wf_wait_program_refused : (Instr.waitTimeout 36).wf = false := by decide
theorem test_wf_tree_cluster_refused : (Instr.treePartnerTimeout 32).wf = false := by decide
theorem test_wf_engine_refused : (Instr.mmaBankComplete 31 8 1).wf = false := by decide
theorem test_wf_bank_refused : (Instr.mmaBankComplete 31 7 2).wf = false := by decide
theorem test_wf_memory_port_refused : (Instr.frameEdge 12).wf = false := by decide
theorem test_wf_line_refused : (Instr.repairRewriteDone 11 0x20000000 true).wf = false := by decide
theorem test_wf_flash_die_refused : (Instr.flashLayerReady 4).wf = false := by decide
theorem test_wf_link_port_refused : (Instr.flitSlot 16).wf = false := by decide
theorem test_wf_block_refused : (Instr.blockInitDone 66).wf = false := by decide
theorem test_wf_clock_refused : (Instr.clockMonitorWindow 39 true false 0).wf = false := by decide
theorem test_wf_sensor_refused : (Instr.sensorSample 74 0 0).wf = false := by decide
theorem test_wf_service_engine_refused : (Instr.engineService .A 31 9 true).wf = false := by decide
theorem test_wf_move_unused_field_refused : (Insn.move 9 { mvE with half := 1 }).wf = false := by decide
theorem test_wf_mma_kq_refused : (Insn.mma { mm with kq := 33 }).wf = false := by decide
theorem test_wf_row_register_refused : (Insn.row 5 { rowF0 with xreg := 31 }).wf = false := by decide
theorem test_wf_vec_function_refused : (Insn.vec 0 { vecF0 with fn := 1 }).wf = false := by decide
theorem test_wf_tree_size_refused : (Insn.tree 0 treeF0).wf = false := by decide
theorem test_wf_lset_zero_refused : (Insn.lset 4 0).wf = false := by decide

/-! ### Decoding: words written out from Tables 5.3 to 5.14 -/

/-- MOVE 0: SREG 1, HALF 1, PORT 2, BYTES 64, MASK 05H, FMT 2, UOFF 40H. -/
theorem test_decode_lda : decodeInsn 0x00000040_00000205_00000040_24010000#128 =
    some (c0, .move 0 { sreg := 1, dreg := 0, half := 1, bank := 0, port := 2, bytes := 64, mask := 5, fmt := 2, tagWp := 0, wide := 0x40 }) := by
  decide +kernel
/-- The worked example of section 5.4. -/
theorem test_decode_mma_example : decodeInsn 0x00050000_00000000_00000020_00FF0110#128 =
    some ({ c0 with sat := true }, .mma { fmt := 0, mask := 0xFF, bank := 0, ahalf := 0, bhalf := 0, start := 0, drain := 0, kq := 32, bcol := 0, ahb := 0, bhb := 0, aoff := 0, boff := 0, dreg := 0, doff := 0, tileM := 0, tileN := 5 }) := by
  decide +kernel
/-- MMA 2: MASK 03H, BANK 1, DRAIN 1, KQ 32, AOFF 1000H, DREG 2, TILE_M 1, TILE_N 2. -/
theorem test_decode_mma : decodeInsn 0x00020001_00020000_10000020_21030012#128 =
    some (c0, .mma { fmt := 2, mask := 3, bank := 1, ahalf := 0, bhalf := 0, start := 0, drain := 1, kq := 32, bcol := 0, ahb := 0, bhb := 0, aoff := 0x1000, boff := 0, dreg := 2, doff := 0, tileM := 1, tileN := 2 }) := by
  decide +kernel
/-- ROW 0: XREG 1, OREG 3, NM1 3, VM1 1, TAG 9, EPS 3727C5ACH. -/
theorem test_decode_row : decodeInsn 0x3727C5AC_00090000_00040003_00610020#128 =
    some (c0, .row 0 { xreg := 1, oreg := 3, save := 0, infmt := 0, outfmt := 0, nm1 := 3, vm1 := 1, layer := 0, sbase := 0, tag := 9, eps := 0x3727C5AC }) := by
  decide +kernel
/-- VEC 0: S1 33, S2 34, D 35, ROWSM1 1, IMM 3F800000H. -/
theorem test_decode_vec : decodeInsn 0x00000000_3F800000_0010008C_08A10030#128 =
    some (c0, .vec 0 { s1 := 33, s2 := 34, s3 := 0, d := 35, s2imm := 0, s2bc := 0, fn := 0, sfmt := 0, dfmt := 0, rowsm1 := 1, imm := 0x3F800000 }) := by
  decide +kernel
/-- RED 0: SIZE 1, BASE 2, BANK 1, DREG 2, DOFF 3. -/
theorem test_decode_red : decodeInsn 0x00000000_00000000_00000003_02290040#128 =
    some (c0, .tree 0 { size := 1, base := 2, bank := 1, outfmt := 0, onward := 0, dreg := 2, doff := 3, tileM := 0, tileN := 0 }) := by
  decide +kernel
/-- COLL.START: SREG 1, WP 5, CMASK 10H, DMASK 8. -/
theorem test_decode_coll : decodeInsn 0x00000008_00000010_00000005_00010050#128 = some (c0, .collStart 1 5 0x10 8) := by decide +kernel
/-- SYNC.SIGNAL: WP 5, CMASK 13H, DMASK 5. -/
theorem test_decode_sync : decodeInsn 0x00000005_00000013_00000000_00050061#128 = some (c0, .signal 5 0x13 5) := by decide +kernel
/-- BVAR with VB 3, P 1, OFF -2, gated: VG 1, VB 2, VP 1. -/
theorem test_decode_ctrl : decodeInsn 0x00000000_00000000_0000FFFE_16002A73#128 =
    some ({ sat := false, vg := true, vb := 2, vp := true }, .bvar 3 true 0xFFFE) := by decide +kernel
/-- INC: SN 1, IMM 3. -/
theorem test_decode_stat : decodeInsn 0x00000000_00000003_00000000_00010080#128 = some (c0, .inc 1 3) := by decide +kernel
/-- Class 9, bit 14, an MMA with KQ 0, an LSET of 0 and bit 19 of an INC are ILLEGAL (R144, R153, Table 5.14). -/
theorem test_decode_illegal : decodeInsn 0x90#128 = none ∧ decodeInsn 0x4076#128 = none ∧
    decodeInsn 0x00FF0110#128 = none ∧ decodeInsn 0x70#128 = none ∧ decodeInsn 0x00080080#128 = none := by decide +kernel
/-- No row of the opcode table gives bits. -/
theorem test_table_word : decodeTableWord 128 0x76 = none := by decide

/-! ### Worked examples of the manual -/

/-- Section 2.3's group of a PB4 block: 0.30, -1.20, 0.05, 2.90, 0.00, -0.70, 1.60, 0.45 (as FP32 values), 11.0 in another group. -/
def pbGroup : List Exact :=
  ([0x3E99999A, 0xBF99999A, 0x3D4CCCCD, 0x4039999A, 0, 0xBF333333, 0x3FCCCCCD, 0x3EE66666, 0x41300000] : List W32).map f32 ++ List.replicate 55 (.fin 0 0)
theorem test_pb4_example : let v := (pbEncode .pb4 false pbGroup).1
    (leBytes 1 v, (leBytes 7 v).drop 3, v / 256 % 4) = ([0x7D], [0xA1, 0x60, 0x90, 0x13], 1) := by decide +kernel
/-- Section 7.3: module address 0460_0000_1300H is line 6 of port M4, at its direct alias 0180_0000_0600H. -/
theorem test_interleave_example : physOf 0x046000001300 = some 0x018000000600 := by decide
theorem test_port_line_example : linePort (0x018000000600 / 256) = 4 ∧ portLine (0x018000000600 / 256) = 6 := by decide
/-- Section 7.3: F(6) = 06H. -/
theorem test_line_hash_example : lineHash 6 = 6 := by decide
/-- Section 15.4: record 1,000,000 stands at index 225,856. -/
theorem test_scorebook_example : scoreIndex 1000000 = 225856 := by decide

/-! ### Steps -/

/-- What a command's next state shows. -/
def after {α : Type} (c : Instr) (s : State) (f : State → α) : Option α := match exec c s with
  | .next t => some (f t)
  | _ => none
/-- R395, R403: a NOP's record, status OK, and its DONE_MARK's advance. -/
theorem test_nop_mark : after (.nop 3 hdr0) (readyQ 3 State.reset) (fun t => (mark t 9).value) = some 1 := by decide +kernel
theorem test_step_takes_front : (match step { (readyQ 3 State.reset) with pending := [.nop 3 hdr0, .boundary] } with
    | .next t => some t.pending
    | _ => none) = some [.boundary] := by decide +kernel
/-- R406: a free move is given to the port that asks with the EPOCH in force, and EPOCH advances. -/
theorem test_acquire : after (.moveAcquire pfA 1) (heldBy none regS) (fun t => (t.host.holder, t.host.epoch)) = some (some .A, 2) := by decide +kernel
theorem test_stale_epoch : after (.moveAcquire pfA 7) (heldBy none regS) (fun t => (portSt t .A).result) = some .staleEpoch := by decide +kernel
/-- R402: a mark stops at its highest value. -/
theorem test_mark_saturates : after (.markAdd pfA 9 7) (markS (2^64 - 2) 9 false) (fun t => (mark t 9).value) = some (BitVec.allOnes 64) := by decide +kernel
/-- R29: a boundary's length, 2,400 ac without an entry. -/
theorem test_boundary_ac : after .boundary dueS (fun t => t.counters.boundaryAc) = some 2400 := by decide +kernel
/-- Table 5.14: a JUMP goes to PC + OFF; a BNZ that reaches 0 falls through. -/
theorem test_jump : after (.jump (clean 4) c0 1) (stepS (ctrlR (.jump 1))) (fun t => (t.dealer.run.map (fun r => (prog r 4).pc))) = some (some 1) := by decide +kernel
theorem test_bnz_falls_through : after (.bnz (clean 4) c0 3 5) (stepS (ctrlR (.bnz 3 5))) (fun t => (t.dealer.run.map (fun r => (prog r 4).pc))) = some (some 1) := by decide +kernel
/-- Table 5.14: ADDA adds its immediate sign-extended: 10000H - 1. -/
theorem test_adda : after (.adda (clean 4) c0 1 0xFFFFFFFF) (stepS (ctrlR (.adda 1 0xFFFFFFFF)))
    (fun t => (t.dealer.run.map (fun r => areg (prog r 4) 1))) = some (some 0xFFFF) := by decide +kernel
/-- Table 5.14: BNZ on 0 is LOOP_RANGE. -/
theorem test_loop_range : after (.bnz (clean 4) c0 5 1) (stepS (ctrlR (.bnz 5 1))) (fun t => t.dealer.fault.code.toNat) = some FaultCode.loopRange := by decide +kernel
/-- COPY moves its bytes: memory's byte k from 10000H is 7k + 3. -/
theorem test_copy : after (.copy (clean 4) c0 mvE) (stepS (runAt 4 (.move 9 mvE))) (fun t => readBytes t.tiers.mem 0x20000 3) = some [3, 10, 17] := by decide +kernel
/-- FP32 lanes: 1.5 + 2.5 = 4; 1.5 x 2.5 = 3.75; a NaN gives the one NaN. -/
theorem test_lane_add : vecLane 0 0 0x3FC00000 0x40200000 0 = 0x40800000 := by decide +kernel
theorem test_lane_mul : vecLane 2 0 0x3FC00000 0x40200000 0 = 0x40700000 := by decide +kernel
theorem test_lane_nan : vecLane 0 0 0x7FC00001 0x3F800000 0 = 0x7FC00000 := by decide +kernel
/-- R324, Table 11.2: a header of channel 1, first and last, HOPS 3, to 55H from 66H, SEQ 9, ACK 3, a credit on channel 2. -/
theorem test_flit_header : (let f := flitOf (leBytes 8 0x600C0900CC0154F1)
    (f.vc, f.kind, f.first, f.last, f.hops) = (1, 0, true, true, 3) ∧ (f.dst, f.src, f.seq, f.ack, f.creditVc, f.credits) = (0x55, 0x66, 9, 3, 2, 1)) := by decide +kernel
/-- R474: a locked test access port has no effect. -/
theorem test_tap_locked : after (.testAccessPort false true true) State.reset (fun t => t.glaren.unlocked) = some 0 := by decide +kernel
/-- R428: with its initialisation done a block is open. -/
theorem test_block_open : after (.blockInitDone 65) (blockS 65 .init) (fun t => (block t 65).state) = some .open_ := by decide +kernel
/-- An empty queue passes one tick. -/
theorem test_tick : (match step State.reset with
    | .next t => some t.tick
    | _ => none) = some (State.reset.tick + 1) := by decide +kernel

/-! ### Witnesses -/

def st1 := onDealer (fun d => { d with westFenced := true }) (readyQ 3 State.reset)
def st2 := setMark 9 (fun m => { m with owner := pfB }) (readyQ 3 State.reset)
def st3 := heldBy (some .B) (readyQ 3 State.reset)
def st4 := decoding moveS
def st5 := onDealer (fun d => { d with pending := some (.idle, 0, ticket0 2) }) phaseS
def st6 := onDealer (fun d => { d with slots := [] }) phaseS
def st7 := onDealer (fun d => { d with learnQueue := none }) plyS
def st8 := onDealer (fun d => { d with loading := [(genBook0, ticket0 3, 7)] }) (readyQ 3 State.reset)
def st9 := onDealer (fun d => { d with loading := [(learnBook0, ticket0 3, 7)] }) (readyQ 3 State.reset)
def st10 := setObj 8 (fun _ => Obj.none) (castleS 1)
def st11 := onUnlia (fun u => { u with nodeId := 0x11, nodeValid := true, positions := [(2, member 0x11)] }) (onDealer (fun d => { d with lastSent := some castleM }) (memObj 8 0x100 0x1000 (castleS 0)))
def sb1 : CollBody := { collB 0 with reserved := true }
def sb2 : Coll := { collA 6 with reading := true }
def sb3 : Coll := { collC with last := 0 - 2 ^ 32 }
def st12 := entries (tableS routeT) 2 8
def st13 := entries (tableS (groupT ++ groupT)) 2 64
def st14 := entries (tableS posT) 1 16
def st15 := onUnlia (fun u => { u with posSets := [(ticket0 3, 16383, [member 5])] }) (readyQ 3 State.reset)
def st16 := onConceal (fun c => { c with jobs := [job0] }) ckptS
def st17 := onConceal (fun c => { c with snapshots := [snapJ] }) snapS
def st18 := decoding entryS
def sb4 : AdmitBody := { entryB with topK := 0 }
def st19 := onGlaren (fun g => { g with sbNext := 1 }) (setPort .A (fun x => { x with appended := [], mboxData := [(0x23, 0x90), (0x21, 3)] }) (mboxS 1))
def st20 := onResets (fun r => { r with recovery := true }) (mboxS 7)
def st21 := onUpdate (fun u => { u with state := 1, imageLength := 500 }) (mboxS 3)
def st22 := onUpdate (fun u => { u with state := 1, imageLength := 500 }) (mboxS 4)
def st23 := onUpdate (fun u => { u with state := 3, chain := [4, 5] }) (mboxS 5)
def st24 := onUpdate (fun u => { u with state := 5, manifest := [{ man0 with version := 5 }, man0], slotA := [(0, man0), (1, man0)] }) (mboxS 6)
def st25 := onResets (fun r => { r with mgood := true }) (mboxS 0)
def st26 := onUpdate (fun u => { u with forwardTo := some 2, chain := [4, 5, 6, 7], forwardSince := (mboxS 0).glaren.gcTick - 60000000 }) (mboxS 0)
def st27 := onUpdate (fun u => { u with state := 3, manifest := [man0] }) (mboxS 0)
def st28 := onUpdate (fun u => { u with token := some 600, state := 5, tokenSince := (mboxS 0).glaren.gcTick - 600000000 }) (mboxS 0)
def st29 := onUpdate (fun u => { u with tokenAt := some 2, tokenTimeout := 60, visitSince := (mboxS 0).glaren.gcTick - 660000000 }) (mboxS 0)
def st30 := onGlaren (fun g => { g with challenge := some ([3], 5, g.gcTick) }) (mboxS 10)
def st31 := onGlaren (fun g => { g with challenge := some ([3], 5, 0), gcTick := 600000000 }) (mboxS 0)
def st32 := onGlaren (fun g => { g with challenge := some ([3], 5, 0), gcTick := 599999999 }) (mboxS 0)
def st33 := onGlaren (fun g => { g with unlocked := 5 }) (mboxS 0)
def st34 := onGlaren (fun g => { g with unlocked := 2 }) (mboxS 0)
def st35 := onUnlia (fun u => { u with nodeValid := true }) (mboxS 0)
def st36 := onUnlia (fun u => { u with nodeValid := false }) (mboxS 0)
def st37 := setPort .A (fun p => { p with linkUp := true }) (mboxS 0)
def st38 := onGlaren (fun g => { g with reports := [(.A, [1])] }) (mboxS 0)
def st39 := heldBy (some .B) regS
def st40 := setPort .B (fun x => { x with linkUp := true, perst := false }) (onHost (fun h => { h with holder := some .B, lease := 5, leaseStart := regS.tick }) regS)
def st41 := withRun run9 regS
def st42 := onDealer (fun d => { d with phase := .learn }) idleS
def st43 := onGlaren (fun g => { g with unlocked := 7 }) regS
def st44 := setQueue 3 (fun k => { k with cqSize := 17 }) (enabledS false)
def st45 := ({ port := .A, num := 1 } : Fn)
def st46 := setPort .A (fun p => { p with numVfs := 4 }) (setMark 9 (fun m => { m with owner := { port := .A, num := 1 } }) (markS 10 9 false))
def st47 := setPort .A (fun p => { p with base := 0x400 }) barS
def st48 := setPort .A (fun p => { p with linkUp := false }) barS
def st49 := setBlock 32 (fun b => { b with state := .inReset }) (setPort .A (fun p => { p with base := 0x400 }) barS)
def st50 := setPort .A (fun p => { p with barReads := [{ addr := 7, length := 8, since := barS.tick - 10000 }] }) barS
def st51 := ({ addr := 7, length := 8, since := barS.tick - 10000 } : BarRead)
def st52 := onGlaren (fun g => { g with unlocked := 7, debugArm := true, debugBlock := 5 }) (blockS 5 .inReset)
def st53 := ({ port := .A, num := 2 } : Fn)
def st54 := onDealer (fun d => { d with due := false }) State.reset
def st55 := onDealer (fun d => { d with idle := true, idleSince := 0 - 1000 }) State.reset
def st56 := onDealer (fun d => { d with idle := true, idleSince := 0 - 999 }) State.reset
def st57 := onDealer (fun d => { d with split := true }) heldS
def st58 := withRun run9 (readyQ 3 State.reset)
def st59 := withRun abortR (readyQ 3 State.reset)
def st60 := withRun stoppedR (readyQ 3 State.reset)
def st61 := onHost (fun h => { h with ops := [(1, streamOp true false)] }) (withRun stoppedR (readyQ 3 State.reset))
def st62 := withRun deadR State.reset
def sb5 : Run := { deadR with trees := [treeWaiting] }
def st63 := withRun sb5 State.reset
def st64 := withRun (holdR 1) State.reset
def st65 := withRun (holdR 3) State.reset
def st66 := withRun signalR State.reset
def sb6 : Signal := { sig0 with wp := 1 }
def st67 := onHost (fun h => { h with ops := [(7, .ext 2 .mc [4] 1 1 [] false none)] }) (withRun signalR State.reset)
def st68 := withRun (drainR 0) State.reset
def st69 := withRun (drainR 3) State.reset
def st70 := withRun (drainR 1) State.reset
def st71 := withRun (drainR 2) State.reset
def sb7 : Common := { c0 with vg := true }
def st72 := runOf 4 (progAt sb7 (.nop 5))
def sb8 : Prog := { progAt c0 .stop with pc := 2 }
def st73 := runOf 4 sb8
def st74 := ({ prog := 4, ecc := .storeDouble } : Issue)
def st75 := encodeInsn c0 .stop
def sb9 : Prog := { progAt c0 .stop with code := [BitVec.allOnes 128] }
def st76 := runOf 4 sb9
def st77 := BitVec.allOnes 128
def sb10 : Run := { runAt 4 (.nop 5) with abortAc := some 101 }
def sb11 : MoveF := { mvT with fmt := 3 }
def sb12 : MoveF := { mvT with sreg := 5 }
def sb13 : MoveF := { mvT with wide := 61441 }
def st78 := fullS (stepS (runAt 32 (.move 10 mvI)))
def st79 := fullS (stepS (runAt 32 (.move 11 mvU)))
def st80 := setObj 9 (fun _ => { Obj.none with address := 0x10000000040, size := 0x10000, valid := true, attr := 1, tier := 1 }) (stepS (runAt 32 (.move 11 mvU)))
def st81 := stream0 false false
def st82 := onHost (fun h => { h with ops := [(6, streamOp true false), (7, streamOp false false)] }) (streamS false false)
def st83 := stream0 true false
def st84 := stream0 true true
def st85 := otherTag (streamS false false)
def sb14 : VecF := { vecF0 with s1 := 1, s2 := 2, d := 3 }
def sb15 : Prog := { progAt c0 (.dump 6) with areg := [(6, 0x800000000)] }
def st86 := runOf 4 sb15
def st87 := onTiers (fun t => { t with corrQueue := [(0, [5, 6])] }) (streamS false false)
def st88 := onTiers (fun t => { t with corrQueue := [(1, [5, 6]), (3, [7])] }) readS
def st89 := onTiers (fun t => { t with scrubNext := [(2, 5)] }) readS
def st90 := (sourceLine repairS repair0 (some (bytesN 256))).getD []
def sb16 : Repair := { repair0 with rewriting := true }
def st91 := onTiers (fun t => { t with repairs := [sb16] }) repairS
def st92 := (((List.range 4).find? (fun d => codewordAt flashS (obj flashS 8) 0 d))).getD 0
def sb17 : Flit := { flit0 with seq := 10 }
def sb18 : Flit := { flit0 with kind := 1 }
def st93 := setUPort 3 (fun x => { x with sendSwitch := true, rxKey := [] }) (slotS .keying false [])
def st94 := (cutFlits 244 1 5 6 3 true [1, 2]).headD flit0
def sb19 : Flit := { onward0 with hops := 0 }
def st95 := onUnlia (fun u => { u with routes := [(5, BitVec.ofNat 64 (2^31 + 4 * 2^32))] }) (linkS .up false)
def st96 := setUPort 3 (fun x => { x with probing := none }) lossS
def st97 := onDealer (fun d => { d with westFenced := true }) (halvesS .west true [(0, 5), (1, 5)] 2000)
def st98 := onDealer (fun d => { d with eastFenced := true }) (halvesS .west true [(0, 5), (1, 5)] 2000)
def st99 := onResets (fun r => { r with selfResets := [upS.glaren.gcTick - 600000000, upS.glaren.gcTick - 5] }) upS
def st100 := onResets (fun r => { r with glarenReady := false }) (onGlaren (fun g => { g with sbNext := 1 }) upS)
def st101 := onResets (fun r => { r with startGc := upS.glaren.gcTick - 30000000 }) (startS true)
def st102 := onResets (fun r => { r with retry := true, failedStarts := 2, startGc := upS.glaren.gcTick - 1000000 }) upS
def st103 := onResets (fun r => { r with warmN := true }) upS
def st104 := onResets (fun r => { r with warmN := false, warmHeld := true }) upS
def st105 := setSensor 73 (fun x => { x with level := 2, warnSince := upS.glaren.gcTick + 1 - 1000000 }) upS
def st106 := onGlaren (fun g => { g with peakCap := some 1, peakBoundaries := 2, peakTick := upS.tick - 100000 }) upS
def st107 := onGlaren (fun g => { g with peakCap := some 1, peakBoundaries := 1 }) upS
def st108 := onResets (fun r => { r with clocks := [(38, { Clock.cold with locked := true })] }) upS
def st109 := onGlaren (fun g => { g with lastSummary := g.gcTick - 3600000000 }) upS
def st110 := onDealer (fun d => { d with held := some held0 }) entryS

/-- `AtInsn` holds where its parts are checked on the program's word. -/
theorem atInsn_of {s : State} {r : Run} {i : Issue} {c : Common} {x : Insn} (hr : s.dealer.run = some r)
    (h : (decide (i.prog < 36) && canIssue r i.prog &&
      decide (((prog r i.prog).code[(prog r i.prog).pc]?).bind (decodeFor i.prog) = some (c, x))) = true) : AtInsn s r i c x := by
  simp only [Bool.and_eq_true, decide_eq_true_eq, Option.bind_eq_some_iff] at h
  exact ⟨h.1.1, hr, h.1.2, h.2⟩
theorem runs_of {s : State} {r : Run} {i : Issue} {c : Common} {x : Insn} (hr : s.dealer.run = some r)
    (h : (decide (i.prog < 36) && canIssue r i.prog &&
      decide (((prog r i.prog).code[(prog r i.prog).pc]?).bind (decodeFor i.prog) = some (c, x)) && !gatedOff r c &&
      decide (i.ecc = .clean)) = true) : Runs s r i c x := by
  simp only [Bool.and_eq_true, decide_eq_true_eq, Option.bind_eq_some_iff, Bool.not_eq_true'] at h
  exact ⟨⟨h.1.1.1.1, hr, h.1.1.1.2, h.1.1.2⟩, h.1.2, h.2⟩
theorem runsOn_of {s : State} {r : Run} {i : Issue} {c : Common} {x : Insn} (hr : s.dealer.run = some r)
    (h : (decide (i.prog < 36) && canIssue r i.prog &&
      decide (((prog r i.prog).code[(prog r i.prog).pc]?).bind (decodeFor i.prog) = some (c, x)) && !gatedOff r c &&
      decide (i.ecc = .clean)) = true) (ha : r.abortAc = none) (hp : s.tiers.sramPend = []) : RunsOn s r i c x :=
  ⟨runs_of hr h, ha, hp⟩
theorem nobody_of {s : State} (hc : s.unlia.colls = []) (hb : s.dealer.building = none) (ho : s.host.ops = []) : NobodyWaits s :=
  ⟨hc, hb, by simp [ho]⟩
theorem badFlit_bad : flitCrcOk badFlit = false := by
  rw [badFlit, flitCrcOk_append _ _ (by rw [List.length_take, flitBytes_length]; rfl)]
  exact decide_eq_false (by intro h; bv_omega)
/-- A table-writing command's read, its parts checked. -/
theorem tableRead_of {s : State} {o first count : W16} {w limit : Nat} {es : List (List Byte)}
    (h : ((obj s o.toNat).inMem = true ∧ (obj s o.toNat).poison = .clean ∧ count.toNat * w ≤ (obj s o.toNat).len ∧ count ≠ 0 ∧
      first.toNat + count.toNat ≤ limit) ∧ (spanSet s [{ object := o.toNat, off := 0, bytes := count.toNat * w }]).clear s = true ∧
      es = (List.range count.toNat).map (fun i => objBytes s (obj s o.toNat) (w * i) w)) : TableRead s o first count w limit es :=
  ⟨h.1.1, h.1.2.1, h.1.2.2.1, h.1.2.2.2.1, h.1.2.2.2.2, engineReadSet_clear h.2.1, h.2.2⟩
theorem runIs {s : State} {r : Run} (h : s.dealer.run = some r) : s.dealer.run = some r := h
theorem drainsIs {r : Run} {ds : List Drain} (h : r.drains = ds) : r.drains = ds := h
theorem stepS_run (r : Run) : (stepS r).dealer.run = some r := rfl
/-- The drains of engines 2 and 3 that the tree takes. -/
theorem treeF1_drains : [drainE 2 3, drainE 3 3] = List.filterMap (fun (j : ℕ) => List.find? (fun (d : Drain) => decide (d.cluster = (clean 4).prog) && decide (d.engine = j) && decide (d.bank = treeF1.bank.toNat) && decide (d.action = 3)) (treeR treeF1).drains) [2, 3] := rfl
theorem none_of {P : Castle → Prop} {o : Option Castle} (h : o = none) : ∀ c, o = some c → P c := fun _ hc => by rw [h] at hc; cases hc
theorem add_one_ne (x : W64) : x + 1 ≠ x := by intro h; bv_omega

/-! ### Digests, block by block -/

theorem absorb_next {m : List Byte} {a a' : List W64} (n k : Nat) (hk : 136 * k < (shakePad m).length)
    (h : absorbBlock a (((shakePad m).drop (136 * k)).take 136) = a') :
    absorb (n + 1) a ((shakePad m).drop (136 * k)) = absorb n a' ((shakePad m).drop (136 * (k + 1))) := by
  have hb : (shakePad m).drop (136 * k) ≠ [] := by
    intro he
    have := congrArg List.length he
    simp only [List.length_drop, List.length_nil] at this
    omega
  rw [absorb, if_neg hb, h, List.drop_drop, Nat.mul_add_one]
theorem shake_of {m : List Byte} {a : List W64} (n k : Nat) (hk : m.length / 136 + 1 = k)
    (h : absorb k (List.replicate 25 0) ((shakePad m).drop (136 * 0)) = a) :
    shake256 n m = ((a.map (fun w => leBytes 8 w.toNat)).flatten).take n := by
  rw [Nat.mul_zero, List.drop_zero] at h
  rw [shake256, hk, h]

def plyMsg : List Byte := plyImage.take 0x180 ++ List.replicate 64 0 ++ plyImage.drop (0x180 + 64)
def bookMsg : List Byte := bookImage.take 0x40 ++ List.replicate 64 0 ++ bookImage.drop (0x40 + 64)
def plySt1 : List W64 := [1584892865414837335, 5970225512385625193, 9560602556591214116, 11527129350314358610, 4851095075877905771, 18037264249144743087, 9947750267240015274, 17175751210998060007, 13102742009862041569, 10231384693508397529, 6998031709358725979, 11405810671888810721, 377588737574206486, 7069390806760244529, 11652960922726288935, 10770696671008849447, 12745736425743449575, 12828388302188229802, 2525746760770990309, 7702655214507902724, 5727708913907880388, 9770950532551255678, 17438834567092801677, 7707458243576023403, 17373491896015540348]
theorem ply_block1 : absorbBlock (List.replicate 25 0) (((shakePad plyMsg).drop (136 * 0)).take 136) = plySt1 := by decide +kernel
def plySt2 : List W64 := [9923996450651632751, 7988416727646868054, 10550683795289534704, 858656413364154341, 8321217643656848152, 17283782837823887321, 14146179010424733489, 9997475163329353841, 430394043419938833, 6220459648453168587, 717957195192084905, 15279551030830582582, 7126524520735615080, 6670486729222824400, 3231123398917980572, 13583071796212499838, 4875975879361824206, 7240414385742678247, 6871003006202527377, 6406724611575823994, 8823563286722153017, 3670340948407731876, 2208392051429782913, 7319399027509994931, 14562787561427843206]
theorem ply_block2 : absorbBlock plySt1 (((shakePad plyMsg).drop (136 * 1)).take 136) = plySt2 := by decide +kernel
def plySt3 : List W64 := [15429281565027869547, 11234899250503533249, 563548176881911340, 18023232148410526973, 3859557457593507622, 964416100926145514, 11582556752388241135, 956501400643813491, 18395085050873766755, 5076731338201730245, 5502916558555501364, 14532147383340579965, 117502816643736990, 4586116445352662842, 8540801641182036076, 18150028645096074536, 3511699247440180794, 16006868387186645324, 12026779153088341637, 16440207682318990095, 5348399742902737517, 5624253879574246418, 1566298552113277444, 13137493279626996269, 15767645145149037281]
theorem ply_block3 : absorbBlock plySt2 (((shakePad plyMsg).drop (136 * 2)).take 136) = plySt3 := by decide +kernel
def plySt4 : List W64 := [4647233559598557234, 5002197074730249926, 6716134232832005495, 1489008884306511832, 8570398620257987141, 14718281420235528407, 13187488708697409454, 5259369080967646779, 17969686020609923234, 4046822468744010539, 18043319498965464330, 9323785009800139090, 2914248299701331025, 18062549072167483444, 926085636102972379, 13474074869513905372, 2612884240723817330, 1227645254992413617, 16631308965938909338, 9581027267138132621, 10353621289683089829, 15441334860840862811, 14795311928854599430, 6829429693513322057, 7527045645466802334]
theorem ply_block4 : absorbBlock plySt3 (((shakePad plyMsg).drop (136 * 3)).take 136) = plySt4 := by decide +kernel
theorem ply_absorbed : absorb 4 (List.replicate 25 0) ((shakePad plyMsg).drop (136 * 0)) = plySt4 :=
  ((absorb_next 3 0 (by decide +kernel) ply_block1).trans
    ((absorb_next 2 1 (by decide +kernel) ply_block2).trans
    ((absorb_next 1 2 (by decide +kernel) ply_block3).trans
    (absorb_next 0 3 (by decide +kernel) ply_block4))))
def bookSt1 : List W64 := [3572328257765394295, 8485828052317987097, 1240705311989038786, 17962209873037503040, 16940912437033999377, 2416834749493168580, 4474184809326166766, 1938367392354130166, 12936560173874208763, 8407435926155767476, 7259625962445131056, 3199574873196138524, 6982469371804239765, 14866377808395440985, 12413063435316231467, 6466157473810908950, 16779931867745280113, 2129553801527903796, 9767451644744664047, 13196916694313861921, 17606402830256690154, 1652829635354061806, 8942234815725105468, 2916869685368438641, 14379837139198554949]
theorem book_block1 : absorbBlock (List.replicate 25 0) (((shakePad bookMsg).drop (136 * 0)).take 136) = bookSt1 := by decide +kernel
def bookSt2 : List W64 := [3242249672214627748, 6779530837715876468, 14639211213002283608, 12641555163881062318, 8689802366625458257, 17649945155413687019, 10911202857748537522, 8216648426034021744, 13053991119771859691, 12583259062298639885, 15238800248589590187, 12942897977428964764, 16656889293365404370, 9836698850544180698, 2087655322720382846, 14294705854209325430, 7369251530584178753, 14230249822630138028, 16916964584932360975, 14171617206904306741, 3588702078412187409, 2892657044604907473, 1130974356061446227, 7127919036173114120, 9522718648629812970]
theorem book_block2 : absorbBlock bookSt1 (((shakePad bookMsg).drop (136 * 1)).take 136) = bookSt2 := by decide +kernel
def bookSt3 : List W64 := [5870568282912565670, 941992310953108179, 12727136659400370119, 11088220649651945258, 11403297008989457084, 8519975103746618280, 7737263202632702894, 12013398956417667563, 2338783950080351397, 9684304008549092746, 6798409313212140227, 8947303579897089758, 8616256160111516529, 8849515338470841287, 7463448405914160284, 10221308585416792400, 723688085287434655, 4076098346380455909, 5590210089916798958, 3619549966180881063, 534928206893271866, 10031616241695253177, 433539048253410505, 9205165283586843570, 13425997565459282252]
theorem book_block3 : absorbBlock bookSt2 (((shakePad bookMsg).drop (136 * 2)).take 136) = bookSt3 := by decide +kernel
def bookSt4 : List W64 := [5317853767895854602, 14551239285088879305, 7021169450124454938, 3184946533217533720, 17146520645397332878, 11743372452393776234, 7305375419527493630, 8295913230378260989, 11762426555520296275, 13781418257729753722, 12624300157916164722, 13434493914220946990, 18205523538045069328, 690341440134214276, 4971476689244615770, 10937161678525304419, 14075642814839309902, 12764321183249593309, 17175605993702840543, 4976538749392790371, 12949596925918576812, 2445098515211010229, 17746086282753282495, 4220617181760039459, 7068638165664132154]
theorem book_block4 : absorbBlock bookSt3 (((shakePad bookMsg).drop (136 * 3)).take 136) = bookSt4 := by decide +kernel
def bookSt5 : List W64 := [13379563834534104038, 14685436372263226553, 4219387959064367926, 16225972273296757611, 12826472660698934347, 6459654345425287701, 16988806161010470161, 5502755294910498532, 6579673244721729348, 4895486204161056200, 1744404819946032287, 16737410689231906268, 10251891631523164600, 613082480717365971, 15599189613235459165, 3461964495849730317, 18341576887318716017, 13298793604913822479, 1130687042758114438, 16366666098068681736, 6047458989597985999, 2144822167408107136, 98809701786621436, 17353899612381786751, 17740357370373379544]
theorem book_block5 : absorbBlock bookSt4 (((shakePad bookMsg).drop (136 * 4)).take 136) = bookSt5 := by decide +kernel
def bookSt6 : List W64 := [8171855683502129908, 12705235868278907758, 5221281522268830101, 12220292408557852966, 14402643617669320127, 9605932773288559262, 4143701493652388647, 10272455447015485486, 16357767858206128105, 2283542956277043261, 11470468555753628292, 11047660100905150492, 11727962150194964257, 16856663733911418671, 16222095123747141060, 17303662149596337563, 2495467665201286390, 5843178876201018674, 7053796933694957137, 12344754630879678090, 15369943200941644538, 14675246999967616315, 12590164609297589670, 10066975644344491392, 13541239930829805636]
theorem book_block6 : absorbBlock bookSt5 (((shakePad bookMsg).drop (136 * 5)).take 136) = bookSt6 := by decide +kernel
def bookSt7 : List W64 := [13746796357199047659, 9302927762584935397, 12289084860461361883, 11783222890005243864, 4411907883736995458, 17961966236513937094, 1836217627467215237, 18141038107250646894, 1414638063572965583, 12912117522492429468, 18253301054293781900, 6307587071191402198, 17454837701075793120, 2780757465703468128, 16163626460822963267, 13528876688239189916, 4255041578269218731, 5862019488200152103, 13682143937259776886, 3682264807849278270, 1598313492578388367, 18204059340600169384, 1373260441961972181, 8486352680518620723, 16076346708799846739]
theorem book_block7 : absorbBlock bookSt6 (((shakePad bookMsg).drop (136 * 6)).take 136) = bookSt7 := by decide +kernel
theorem book_absorbed : absorb 7 (List.replicate 25 0) ((shakePad bookMsg).drop (136 * 0)) = bookSt7 :=
  ((absorb_next 6 0 (by decide +kernel) book_block1).trans
    ((absorb_next 5 1 (by decide +kernel) book_block2).trans
    ((absorb_next 4 2 (by decide +kernel) book_block3).trans
    ((absorb_next 3 3 (by decide +kernel) book_block4).trans
    ((absorb_next 2 4 (by decide +kernel) book_block5).trans
    ((absorb_next 1 5 (by decide +kernel) book_block6).trans
    (absorb_next 0 6 (by decide +kernel) book_block7)))))))
def ckptSt1 : List W64 := [4609923063698385373, 8777071798067607393, 10041873220065328598, 11381455358360512519, 7658636960239711607, 7670547207958925074, 10213839804617216274, 10042160405543086733, 11588192325734447906, 4052036745515079640, 5657165693547374309, 15701850102575643930, 8762997608092316598, 4623253345859070325, 15660612012330461515, 1878133024456557746, 5814777602907853330, 5773000602756940979, 6694459986552660990, 13107771354276707874, 13258153291519867611, 10869143000847223677, 9058217367943457882, 18112606894090410470, 2089773594442600026]
theorem ckpt_block1 : absorbBlock (List.replicate 25 0) (((shakePad ckptHead).drop (136 * 0)).take 136) = ckptSt1 := by decide +kernel
def ckptSt2 : List W64 := [782061836041468857, 6099975980019318478, 9525552767984329763, 7971195929276618619, 12986881436196766190, 13894387971905469086, 12502668205471698956, 13277520413307551135, 9574038727650447538, 10325965329711894002, 5509478161718656708, 13754511823483589027, 15146628060761819387, 11865758209199995502, 179550629815229960, 9593274461535660375, 7383355902516857990, 13329390317593354614, 3447649581464985588, 123825465059543356, 8409338355318600469, 339047472278018524, 11773296765690563414, 10316741323190577180, 2093634466842922562]
theorem ckpt_block2 : absorbBlock ckptSt1 (((shakePad ckptHead).drop (136 * 1)).take 136) = ckptSt2 := by decide +kernel
theorem ckpt_absorbed : absorb 2 (List.replicate 25 0) ((shakePad ckptHead).drop (136 * 0)) = ckptSt2 :=
  ((absorb_next 1 0 (by decide +kernel) ckpt_block1).trans
    (absorb_next 0 1 (by decide +kernel) ckpt_block2))
theorem ply_digest : imageDigest plyImage 0x180 = part plyImage 0x180 64 :=
  (shake_of 64 4 (by decide +kernel) ply_absorbed).trans (by decide +kernel)
theorem book_digest : imageDigest bookImage 0x40 = part bookImage 0x40 64 :=
  (shake_of 64 7 (by decide +kernel) book_absorbed).trans (by decide +kernel)
theorem ckpt_digest : ((ckptImg.drop 256).drop 64).take 64 = shake256 64 (ckptImg.take 256) := by
  rw [show ckptImg.take 256 = ckptHead by decide +kernel, shake_of 64 2 (by decide +kernel) ckpt_absorbed]
  decide +kernel
theorem ckptImg_committed : ckptCommitted ckptImg = true := by
  rw [ckptCommitted, show ckptImg.length - 128 = 256 by decide +kernel, decide_eq_true ckpt_digest]
  decide +kernel
theorem ckptImg_restores : restoreFault restoreS (restoreB 1) ckptImg [] = none := by
  rw [restoreFault, ckptImg_committed]
  decide +kernel
theorem bookImage_digests : bookDigestOk bookImage = true := by
  rw [bookDigestOk, show bookImage.take (fieldAt bookImage 0x14 4) = bookImage by decide +kernel, decide_eq_true book_digest,
    show bookIndex bookImage = [{ plyId := 9, offset := 320, size := 512, kind := 0, batch := 0, context := 0, variant := 0 }] from rfl]
  rw [List.all_cons, List.all_nil, show part bookImage 320 512 = plyImage by decide +kernel, decide_eq_true ply_digest]
  rfl
theorem bookImage_read (m : Tab Byte) : readBytes (writeBytes m 0x4000 bookImage) 0x4000 832 = bookImage := by
  have hl : bookImage.length = 832 := by decide +kernel
  have hp (i : Nat) (hi : i < bookImage.length) : physOf (0x4000 + i) = some (0x4000 + i) :=
    physOf_sram _ (by rw [hl] at hi; exact Nat.lt_trans (Nat.add_lt_add_left hi _) (by decide))
  have h := readBytes_writeBytes_same bookImage m 0x4000 (fun i hi => by rw [hp i hi]; rfl)
    (fun i j hi hj h => by rw [hp i hi, hp j hj] at h; exact Nat.add_left_cancel (Option.some.inj h))
  rwa [hl] at h
theorem lines_mem (f : Tiers → Nat → Tiers) (hf : ∀ t p, (f t p).mem = t.mem) (l : List Nat) (t : Tiers) : (l.foldl f t).mem = t.mem := by
  induction l generalizing t with
  | nil => rfl
  | cons p l ih => rw [List.foldl_cons, ih, hf]
theorem stored_mem (a : Nat) (bs : List Byte) (s : State) (h : s.dealer.run = none) :
    (storeLines a bs s).tiers.mem = writeBytes s.tiers.mem a bs := by
  unfold storeLines
  dsimp only
  rw [lines_mem]
  · simp [fillWrite, h]
  · intros
    rfl
theorem bookS_mem : bookS.tiers.mem = writeBytes (memObj 7 0x4000 832 (readyQ 3 State.reset)).tiers.mem 0x4000 bookImage :=
  stored_mem 0x4000 bookImage (memObj 7 0x4000 832 (readyQ 3 State.reset)) rfl
theorem bookS_object : objBytes bookS (obj bookS (BitVec.toNat (7 : W16))) 0 (obj bookS (BitVec.toNat (7 : W16))).len = bookImage := by
  rw [objBytes, if_neg (by decide +kernel), show (obj bookS (BitVec.toNat (7 : W16))).base + 0 = 0x4000 by decide +kernel,
    show (obj bookS (BitVec.toNat (7 : W16))).len = 832 by decide +kernel, bookS_mem]
  exact bookImage_read _
theorem bookImage_loads : bookFault (taken 3 bookS) (objBytes bookS (obj bookS (BitVec.toNat (7 : W16))) 0 (obj bookS (BitVec.toNat (7 : W16))).len) = none := by
  rw [bookS_object, bookFault, bookImage_digests]
  decide +kernel
theorem wit_CommandsMeetCommonChecks :
    (accepts (readyQ 3 State.reset) 3 hdr0 false = true) ∧
    ((255 : ℕ) < (256 : ℕ) ∧ canTake State.reset 255 hdr0 = false) ∧
    ((3 : ℕ) < (256 : ℕ) ∧ canTake st1 3 hdr0 = true ∧ halfFenced st1 (queue st1 3).owner.port = true) ∧
    ((3 : ℕ) < (256 : ℕ) ∧ canTake st2 3 hdr0 = true ∧ halfFenced st2 (queue st2 3).owner.port = false ∧ hdr0.done = true ∧ (mark st2 hdr0.doneMark.toNat).owner ≠ (queue st2 3).owner) ∧
    ((3 : ℕ) < (256 : ℕ) ∧ canTake st3 3 hdr0 = true ∧ halfFenced st3 (queue st3 3).owner.port = false ∧ ¬(hdr0.done = true ∧ (mark st3 hdr0.doneMark.toNat).owner ≠ (queue st3 3).owner) ∧ isHolder st3 (queue st3 3).owner = false) := by
  repeat' with_reducible refine And.intro ?_ ?_
  all_goals decide +kernel

theorem wit_CommandTakeReadsDescriptor :
    ((3 : ℕ) < (256 : ℕ) ∧ queueOpen (readyQ 3 State.reset) 3 = true ∧ hdrOk (desc [0, 2, 0, 0, 9, 0]) = true ∧ fieldAt (desc [0, 2, 0, 0, 9, 0]) 0 1 = 0) ∧
    ((3 : ℕ) < (256 : ℕ) ∧ queueOpen (readyQ 3 State.reset) 3 = true ∧ hdrOk (desc [1, 2, 0, 0, 9, 0]) = true ∧ fieldAt (desc [1, 2, 0, 0, 9, 0]) 0 1 = 1) ∧
    ((3 : ℕ) < (256 : ℕ) ∧ queueOpen (readyQ 3 State.reset) 3 = true ∧ hdrOk (desc [2, 2, 0, 0, 9, 0]) = true ∧ fieldAt (desc [2, 2, 0, 0, 9, 0]) 0 1 = 2) ∧
    ((3 : ℕ) < (256 : ℕ) ∧ queueOpen (readyQ 3 State.reset) 3 = true ∧ hdrOk (desc [3, 2, 0, 0, 9, 0]) = true ∧ fieldAt (desc [3, 2, 0, 0, 9, 0]) 0 1 = 3) ∧
    ((3 : ℕ) < (256 : ℕ) ∧ queueOpen (readyQ 3 State.reset) 3 = true ∧ hdrOk (desc [4, 2, 0, 0, 9, 0]) = true ∧ fieldAt (desc [4, 2, 0, 0, 9, 0]) 0 1 = 4) ∧
    ((3 : ℕ) < (256 : ℕ) ∧ queueOpen (readyQ 3 State.reset) 3 = true ∧ hdrOk (desc [5, 2, 0, 0, 9, 0]) = true ∧ fieldAt (desc [5, 2, 0, 0, 9, 0]) 0 1 = 5) ∧
    ((3 : ℕ) < (256 : ℕ) ∧ queueOpen (readyQ 3 State.reset) 3 = true ∧ hdrOk (desc [6, 2, 0, 0, 9, 0]) = true ∧ fieldAt (desc [6, 2, 0, 0, 9, 0]) 0 1 = 6 ∧ fieldAt (desc [6, 2, 0, 0, 9, 0]) 16 1 = 0) ∧
    ((3 : ℕ) < (256 : ℕ) ∧ queueOpen (readyQ 3 State.reset) 3 = true ∧ hdrOk (desc ([6, 2, 0, 0, 9, 0] ++ List.replicate 10 0 ++ [1])) = true ∧ fieldAt (desc ([6, 2, 0, 0, 9, 0] ++ List.replicate 10 0 ++ [1])) 0 1 = 6 ∧ fieldAt (desc ([6, 2, 0, 0, 9, 0] ++ List.replicate 10 0 ++ [1])) 16 1 = 1) ∧
    ((3 : ℕ) < (256 : ℕ) ∧ queueOpen (readyQ 3 State.reset) 3 = true ∧ hdrOk (desc [7, 2, 0, 0, 9, 0]) = true ∧ fieldAt (desc [7, 2, 0, 0, 9, 0]) 0 1 = 7) ∧
    ((3 : ℕ) < (256 : ℕ) ∧ queueOpen (readyQ 3 State.reset) 3 = true ∧ hdrOk (desc [8, 2, 0, 0, 9, 0]) = true ∧ fieldAt (desc [8, 2, 0, 0, 9, 0]) 0 1 = 8) ∧
    ((3 : ℕ) < (256 : ℕ) ∧ queueOpen (readyQ 3 State.reset) 3 = true ∧ hdrOk (desc [9, 2, 0, 0, 9, 0]) = true ∧ fieldAt (desc [9, 2, 0, 0, 9, 0]) 0 1 = 9) ∧
    ((3 : ℕ) < (256 : ℕ) ∧ queueOpen (readyQ 3 State.reset) 3 = true ∧ hdrOk (desc [10, 2, 0, 0, 9, 0]) = true ∧ fieldAt (desc [10, 2, 0, 0, 9, 0]) 0 1 = 10) ∧
    ((3 : ℕ) < (256 : ℕ) ∧ queueOpen (readyQ 3 State.reset) 3 = true ∧ hdrOk (desc [11, 2, 0, 0, 9, 0]) = true ∧ fieldAt (desc [11, 2, 0, 0, 9, 0]) 0 1 = 11) ∧
    ((3 : ℕ) < (256 : ℕ) ∧ queueOpen (readyQ 3 State.reset) 3 = true ∧ hdrOk (desc [12, 2, 0, 0, 9, 0]) = true ∧ fieldAt (desc [12, 2, 0, 0, 9, 0]) 0 1 = 12) ∧
    ((3 : ℕ) < (256 : ℕ) ∧ queueOpen (readyQ 3 State.reset) 3 = true ∧ hdrOk (desc [13, 2, 0, 0, 9, 0]) = true ∧ fieldAt (desc [13, 2, 0, 0, 9, 0]) 0 1 = 13) ∧
    ((3 : ℕ) < (256 : ℕ) ∧ queueOpen (readyQ 3 State.reset) 3 = true ∧ hdrOk (desc [14, 2, 0, 0, 9, 0]) = true ∧ fieldAt (desc [14, 2, 0, 0, 9, 0]) 0 1 = 14) ∧
    ((3 : ℕ) < (256 : ℕ) ∧ queueOpen (readyQ 3 State.reset) 3 = true ∧ hdrOk (desc [15, 2, 0, 0, 9, 0]) = true ∧ fieldAt (desc [15, 2, 0, 0, 9, 0]) 0 1 = 15) ∧
    ((3 : ℕ) < (256 : ℕ) ∧ queueOpen (readyQ 3 State.reset) 3 = true ∧ hdrOk (desc [16, 2, 0, 0, 9, 0]) = true ∧ fieldAt (desc [16, 2, 0, 0, 9, 0]) 0 1 = 16) ∧
    ((3 : ℕ) < (256 : ℕ) ∧ queueOpen (readyQ 3 State.reset) 3 = true ∧ hdrOk (desc [17, 2, 0, 0, 9, 0]) = true ∧ fieldAt (desc [17, 2, 0, 0, 9, 0]) 0 1 = 17) ∧
    ((3 : ℕ) < (256 : ℕ) ∧ queueOpen (readyQ 3 State.reset) 3 = true ∧ hdrOk (desc [18, 2, 0, 0, 9, 0]) = true ∧ fieldAt (desc [18, 2, 0, 0, 9, 0]) 0 1 = 18) ∧
    ((3 : ℕ) < (256 : ℕ) ∧ queueOpen (readyQ 3 State.reset) 3 = true ∧ hdrOk (desc [19, 2, 0, 0, 9, 0]) = true ∧ 19 ≤ fieldAt (desc [19, 2, 0, 0, 9, 0]) 0 1 ∧ accepts (readyQ 3 State.reset) 3 (have __src : Hdr := hdrOf (desc [19, 2, 0, 0, 9, 0]); { wait := __src.wait, done := false, irq := __src.irq, waitMark := __src.waitMark, doneMark := __src.doneMark, tag := __src.tag, waitValue := __src.waitValue }) false = true) := by
  repeat' with_reducible refine And.intro ?_ ?_
  all_goals decide +kernel

theorem wit_PlacementAndFlashObjects :
    (accepts (readyQ 3 State.reset) 3 hdr0 true = true ∧ placeFault (taken 3 (readyQ 3 State.reset)) place0 = none) ∧
    (accepts moveS 3 hdr0 true = true ∧ flashReady moveS = true ∧ flashWorn moveS = false ∧ (17592186044416 : W64) ≠ (0 : W64) ∧ BitVec.toNat (17592186044416 : W64) % (65536 : ℕ) = (0 : ℕ) ∧ BitVec.toNat (17592186044416 : W64) ≤ (2 : ℕ) ^ (44 : ℕ)) ∧
    (accepts moveS 3 hdr0 true = true ∧ flashReady moveS = true ∧ (flashOf moveS 5).isSome = true ∧ handleInUse (taken 3 moveS) 5 = false) := by
  repeat' with_reducible refine And.intro ?_ ?_
  all_goals decide +kernel

theorem wit_CopiesRunAndComplete :
    (accepts moveS 3 hdr0 true = true ∧ ((moveB 0).mode = 0 ∨ flashReady moveS = true) ∧ moveFault (taken 3 moveS) (moveB 0) = none ∧ shutFor (taken 3 moveS) (Op.move (nextTicket moveS 3 hdr0) (moveB 0) [] []) = none) ∧
    (accepts moveS1 3 hdr0 true = true ∧ ((moveB 1).mode = 0 ∨ flashReady moveS1 = true) ∧ moveFault (taken 3 moveS1) (moveB 1) = none ∧ shutFor (taken 3 moveS1) (Op.move (nextTicket moveS1 3 hdr0) (moveB 1) [] []) = none) ∧
    (accepts moveS2 3 hdr0 true = true ∧ ((moveB 2).mode = 0 ∨ flashReady moveS2 = true) ∧ moveFault (taken 3 moveS2) (moveB 2) = none ∧ shutFor (taken 3 moveS2) (Op.move (nextTicket moveS2 3 hdr0) (moveB 2) [] []) = none) ∧
    (accepts moveS 3 hdr0 (decide ((copyB 0).dir = 1)) = true ∧ hostCopyFault (taken 3 moveS) (copyB 0) = none ∧ shutFor (taken 3 moveS) (Op.hostCopy (nextTicket moveS 3 hdr0) (copyB 0)) = none) ∧
    (accepts moveS 3 hdr0 (decide ((copyB 1).dir = 1)) = true ∧ hostCopyFault (taken 3 moveS) (copyB 1) = none ∧ shutFor (taken 3 moveS) (Op.hostCopy (nextTicket moveS 3 hdr0) (copyB 1)) = none) ∧
    (accepts st4 3 hdr0 false = true ∧ inBoundary st4 = false ∧ entryFault (taken 3 st4) (queue st4 3).owner pageB.entry pageB.key = none ∧ pageMoveFault (taken 3 st4) pageB = none ∧ shutFor (taken 3 st4) (Op.pageMove (nextTicket st4 3 hdr0) pageB) = none) ∧
    (opAt (opS (Op.move (ticket0 3) (moveB 0) [] []) moveS) 40 = some (Op.move (ticket0 3) (moveB 0) [] []) ∧ ReadsGood (opS (Op.move (ticket0 3) (moveB 0) [] []) moveS) [{ object := BitVec.toNat (moveB 0).src, off := BitVec.toNat (moveB 0).srcOffset, bytes := BitVec.toNat (moveB 0).bytes }] ∧ (queue (opS (Op.move (ticket0 3) (moveB 0) [] []) moveS) (ticket0 3).q).error = false ∧ (queue (opS (Op.move (ticket0 3) (moveB 0) [] []) moveS) (ticket0 3).q).cqSize ≠ 0) ∧
    (opAt (opS (Op.move (ticket0 3) (moveB 2) [] []) moveS2) 40 = some (Op.move (ticket0 3) (moveB 2) [] []) ∧ ReadsGood (opS (Op.move (ticket0 3) (moveB 2) [] []) moveS2) [{ object := BitVec.toNat (moveB 2).src, off := BitVec.toNat (moveB 2).srcOffset, bytes := BitVec.toNat (moveB 2).bytes }] ∧ (queue (opS (Op.move (ticket0 3) (moveB 2) [] []) moveS2) (ticket0 3).q).error = false ∧ (queue (opS (Op.move (ticket0 3) (moveB 2) [] []) moveS2) (ticket0 3).q).cqSize ≠ 0) ∧
    (opAt (opS (Op.hostCopy (ticket0 3) (copyB 1)) moveS) 40 = some (Op.hostCopy (ticket0 3) (copyB 1)) ∧ (queue (opS (Op.hostCopy (ticket0 3) (copyB 1)) moveS) (ticket0 3).q).error = false ∧ (queue (opS (Op.hostCopy (ticket0 3) (copyB 1)) moveS) (ticket0 3).q).cqSize ≠ 0 ∧ (copyB 1).dir = 1) ∧
    (opAt (opS (Op.hostCopy (ticket0 3) (copyB 0)) moveS) 40 = some (Op.hostCopy (ticket0 3) (copyB 0)) ∧ (queue (opS (Op.hostCopy (ticket0 3) (copyB 0)) moveS) (ticket0 3).q).error = false ∧ (queue (opS (Op.hostCopy (ticket0 3) (copyB 0)) moveS) (ticket0 3).q).cqSize ≠ 0 ∧ (copyB 0).dir ≠ 1 ∧ ReadsGood (opS (Op.hostCopy (ticket0 3) (copyB 0)) moveS) [{ object := BitVec.toNat (copyB 0).object, off := BitVec.toNat (copyB 0).offset, bytes := BitVec.toNat (copyB 0).bytes }]) ∧
    (opAt (opS (Op.hostCopy (ticket0 3) (copyB 0)) moveS) 40 = some (Op.hostCopy (ticket0 3) (copyB 0)) ∧ (queue (opS (Op.hostCopy (ticket0 3) (copyB 0)) moveS) (ticket0 3).q).error = false ∧ (queue (opS (Op.hostCopy (ticket0 3) (copyB 0)) moveS) (ticket0 3).q).cqSize ≠ 0) ∧
    (opAt poisonedS 40 = some (Op.move (ticket0 3) (moveB 0) [] []) ∧ (queue poisonedS (ticket0 3).q).error = false ∧ (queue poisonedS (ticket0 3).q).cqSize ≠ 0 ∧ engineRead [{ object := BitVec.toNat (moveB 0).src, off := BitVec.toNat (moveB 0).srcOffset, bytes := BitVec.toNat (moveB 0).bytes }] Ecc.clean poisonedS = EngineRead.fails Status.objectPoisoned poisonedS ∧ poisonedS.out = poisonedS.out ∧ poisonedS.host = poisonedS.host) := by
  repeat' with_reducible refine And.intro ?_ ?_
  all_goals first | with_reducible exact readsGood_of_clear (by decide +kernel) | with_reducible exact engineRead_poisoned _ (by decide +kernel) | decide +kernel

theorem wit_PhaseAndPlyRun :
    ((3 : ℕ) < (256 : ℕ) ∧ st5.dealer.pending.isSome = true ∧ halfFenced st5 (queue st5 3).owner.port = false) ∧
    (accepts phaseS 3 hdr0 true = true ∧ phaseS.dealer.pending = none) ∧
    (accepts phaseS 3 hdr0 true = true ∧ phaseS.dealer.pending = none ∧ phaseS.dealer.genBook.isSome = true ∧ ((liveSlot phaseS).isSome = true ∨ phaseS.dealer.castlePending.isSome = true)) ∧
    (accepts phaseS 3 hdr0 true = true ∧ phaseS.dealer.pending = none ∧ phaseS.dealer.learnBook.isSome = true ∧ BitVec.toNat (255 : W16) < (256 : ℕ)) ∧
    (accepts (readyQ 3 State.reset) 3 hdr0 true = true ∧ (readyQ 3 State.reset).dealer.pending = none ∧ (readyQ 3 State.reset).dealer.genBook = none) ∧
    (accepts (readyQ 3 State.reset) 3 hdr0 true = true ∧ (readyQ 3 State.reset).dealer.pending = none ∧ (readyQ 3 State.reset).dealer.learnBook = none) ∧
    (accepts st6 3 hdr0 true = true ∧ st6.dealer.pending = none ∧ st6.dealer.genBook.isSome = true ∧ liveSlot st6 = none ∧ st6.dealer.castlePending = none) ∧
    (accepts phaseS 3 hdr0 true = true ∧ phaseS.dealer.pending = none ∧ (2 : ℕ) < BitVec.toNat (3 : Byte)) ∧
    (accepts st7 3 hdr0 true = true ∧ learningQueue st7 3 = false ∧ st7.dealer.idle = false) ∧
    (accepts plyS 3 hdr0 true = true ∧ learningQueue plyS 3 = true ∧ learnBoundary plyS 3 = true ∧ plyS.dealer.plyRuns = [] ∧ plyS.dealer.idle = false ∧ (∃ (b : Book), plyS.dealer.learnBook = some b ∧ List.find? (fun (p : Ply) => decide (p.plyId = 5)) b.plies = none)) ∧
    (accepts plyS 3 hdr0 true = true ∧ learningQueue plyS 3 = true ∧ learnBoundary plyS 3 = true ∧ plyS.dealer.idle = false) := by
  repeat' with_reducible refine And.intro ?_ ?_
  all_goals decide +kernel

theorem wit_BookLoads :
    (accepts bookS 3 hdr0 true = true ∧ (obj bookS (BitVec.toNat (7 : W16))).inMem = true ∧ ReadsGood (taken (3 : ℕ) bookS) [{ object := BitVec.toNat (7 : W16), off := (0 : ℕ), bytes := (obj bookS (BitVec.toNat (7 : W16))).len }] ∧ bookFault (taken (3 : ℕ) bookS) (objBytes bookS (obj bookS (BitVec.toNat (7 : W16))) (0 : ℕ) (obj bookS (BitVec.toNat (7 : W16))).len) = none) ∧
    (st8.dealer.loading = [(genBook0, ticket0 3, 7)] ∧ st8.tiers.sramPend = [] ∧ (queue st8 (ticket0 3).q).error = false ∧ (queue st8 (ticket0 3).q).cqSize ≠ 0) ∧
    (st9.dealer.loading = [(learnBook0, ticket0 3, 7)] ∧ st9.tiers.sramPend = [] ∧ (queue st9 (ticket0 3).q).error = false ∧ (queue st9 (ticket0 3).q).cqSize ≠ 0) := by
  repeat' with_reducible refine And.intro ?_ ?_
  all_goals first | with_reducible exact readsGood_of_clear (by decide +kernel) | with_reducible exact bookImage_loads | decide +kernel

theorem wit_CastlesRun :
    (accepts (readyQ 3 State.reset) 3 hdr0 true = true ∧ castleCodesOk (castleB 0) = true) ∧
    (st10.dealer.building = none ∧ st10.dealer.castlePending = none ∧ st10.dealer.castles = [castle0 1] ∧ (castle0 1).checked = false ∧ (castleFault1 st10 (castle0 1).body = some Status.objectFormat ∨ castleFault1 st10 (castle0 1).body = none ∧ readMap (castle0 1).body st10 = EngineRead.good st10 ∧ castleFault2 st10 (castle0 1).body = some Status.objectFormat) ∧ (queue st10 (castle0 1).ticket.q).error = false ∧ (queue st10 (castle0 1).ticket.q).cqSize ≠ 0) ∧
    ((castleS 1).dealer.building = none ∧ (castleS 1).dealer.castlePending = none ∧ (castleS 1).dealer.castles = [castle0 1] ∧ castleFault (castleS 1) (castle0 1).body = none ∧ castleWaits (castleS 1) (castle0 1).body = false ∧ castleShut (castleS 1) { ticket := (castle0 1).ticket, body := (castle0 1).body, checked := (castle0 1).checked, base := (castle0 1).body.base, map := [], done := (castle0 1).done, retries := (castle0 1).retries, flagged := (castle0 1).flagged, sent := (castle0 1).sent, toSend := (castle0 1).toSend } = false ∧ (castle0 1).body.role ≠ 2 ∧ (castle0 1).body.mode = 1 ∧ BitVec.getLsbD (castle0 1).body.flags 0 = false) ∧
    ((castleS 2).dealer.building = none ∧ (castleS 2).dealer.castlePending = none ∧ (castleS 2).dealer.castles = [castle0 2] ∧ castleFault (castleS 2) (castle0 2).body = none ∧ castleWaits (castleS 2) (castle0 2).body = false ∧ (castle0 2).body.role ≠ 2 ∧ (castle0 2).body.mode = 2 ∧ BitVec.getLsbD (castle0 2).body.flags 0 = false ∧ BitVec.getLsbD (castle0 2).body.flags 1 = false) ∧
    ((buildingS (some castleM)).dealer.building = some castleM ∧ castleM.body.role ≠ 2 ∧ castleM.done.contains 0 = false ∧ castleM.map[0]? = some mapE ∧ (bytesN mapE.destBytes).length = mapE.destBytes ∧ (BitVec.getLsbD castleM.body.flags 3 = false ∨ 3 = 0)) ∧
    ((buildingS (some castleM)).dealer.building = some castleM ∧ castleM.body.role ≠ 2 ∧ castleM.done.contains 0 = false ∧ castleM.map[0]? = some mapE ∧ crc64 [1] ≠ 0 ∧ natAt castleM.retries 0 < 3) ∧
    ((buildingS (some castleM3)).dealer.building = some castleM3 ∧ castleM3.body.role ≠ 2 ∧ castleM3.done.contains 0 = false ∧ castleM3.map[0]? = some mapE ∧ crc64 [1] ≠ 0 ∧ 3 ≤ natAt castleM3.retries 0 ∧ (queue (buildingS (some castleM3)) castleM3.ticket.q).error = false ∧ (queue (buildingS (some castleM3)) castleM3.ticket.q).cqSize ≠ 0) ∧
    ((buildingS (some castleM)).dealer.building = some castleM ∧ castleM.body.role ≠ 2 ∧ castleM.done.contains 0 = false ∧ (queue (buildingS (some castleM)) castleM.ticket.q).error = false ∧ (queue (buildingS (some castleM)) castleM.ticket.q).cqSize ≠ 0) ∧
    ((∀ (c : Castle), (castleS 0).dealer.building = some c → c.body.castleId ≠ 7)) ∧
    (st11.dealer.lastSent = some castleM ∧ castleM.map[0]? = some mapE ∧ some mapE.sourcePos = ownPos st11 ∧ readShard mapE st11 = EngineRead.good st11) := by
  repeat' with_reducible refine And.intro ?_ ?_
  all_goals try refine .inr ⟨?_, if_neg ?_, ?_⟩
  all_goals first | with_reducible exact none_of (by decide +kernel) | with_reducible exact readShard_clear (by decide +kernel) | decide +kernel

theorem wit_CollectivesStart :
    (accepts collS 3 hdr0 true = true ∧ queueWaiting collS < 192 ∧ collFault (taken 3 collS) false (collB 0) = none ∧ isP2p (collB 0) = false) ∧
    (accepts collS 3 hdr0 true = true ∧ queueWaiting collS < 192 ∧ collFault (taken 3 collS) false sb1 = some Status.collFormat) ∧
    (mayStart (withColl (coll0 0)) = true ∧ List.filter (eligible (withColl (coll0 0))) (withColl (coll0 0)).unlia.colls = [coll0 0] ∧ isP2p (coll0 0).body = false ∧ inGroup2 (withColl (coll0 0)) (coll0 0).body = false) := by
  repeat' with_reducible refine And.intro ?_ ?_
  all_goals decide +kernel

theorem wit_CollectivesRun :
    ((withColl (collA 0)).unlia.colls = [collA 0] ∧ (collA 0).active = true ∧ (collA 0).agreed = false ∧ (collA 0).reading = false ∧ (collA 0).digests.contains 2 = false ∧ (∀ x ∈ collSends (withColl (collA 0)) (collA 0), (collA 0).sent.contains x.1 = true) ∧ passVerdict { id := (collA 0).id, ticket := (collA 0).ticket, prog := (collA 0).prog, body := (collA 0).body, active := (collA 0).active, reading := (collA 0).reading, granted := (collA 0).granted, taken := (collA 0).taken, digests := (collA 0).digests ++ [2], agreed := (collA 0).agreed, sent := (collA 0).sent, last := (withColl (collA 0)).tick, nodes := (collA 0).nodes } (withColl (collA 0)) = ({ id := (collA 0).id, ticket := (collA 0).ticket, prog := (collA 0).prog, body := (collA 0).body, active := (collA 0).active, reading := (collA 0).reading, granted := (collA 0).granted, taken := (collA 0).taken, digests := (collA 0).digests ++ [2], agreed := (collA 0).agreed, sent := (collA 0).sent, last := (withColl (collA 0)).tick, nodes := (collA 0).nodes }, withColl (collA 0))) ∧
    ((withColl (collA 0)).unlia.colls = [collA 0] ∧ (collA 0).active = true ∧ (collA 0).agreed = false ∧ (collA 0).reading = false ∧ nodeAt (collA 0).nodes 3 4 = none ∧ (∀ x ∈ collSends (withColl (collA 0)) { id := (collA 0).id, ticket := (collA 0).ticket, prog := (collA 0).prog, body := (collA 0).body, active := (collA 0).active, reading := (collA 0).reading, granted := (collA 0).granted, taken := (collA 0).taken, digests := (collA 0).digests, agreed := (collA 0).agreed, sent := (collA 0).sent, last := (collA 0).last, nodes := (collA 0).nodes ++ [(3, 4, [1, 2])] }, (collA 0).sent.contains x.1 = true) ∧ passVerdict { id := (collA 0).id, ticket := (collA 0).ticket, prog := (collA 0).prog, body := (collA 0).body, active := (collA 0).active, reading := (collA 0).reading, granted := (collA 0).granted, taken := (collA 0).taken, digests := (collA 0).digests, agreed := (collA 0).agreed, sent := (collA 0).sent, last := (withColl (collA 0)).tick, nodes := (collA 0).nodes ++ [(3, 4, [1, 2])] } (withColl (collA 0)) = ({ id := (collA 0).id, ticket := (collA 0).ticket, prog := (collA 0).prog, body := (collA 0).body, active := (collA 0).active, reading := (collA 0).reading, granted := (collA 0).granted, taken := (collA 0).taken, digests := (collA 0).digests, agreed := (collA 0).agreed, sent := (collA 0).sent, last := (withColl (collA 0)).tick, nodes := (collA 0).nodes ++ [(3, 4, [1, 2])] }, withColl (collA 0))) ∧
    ((withColl sb2).unlia.colls = [sb2] ∧ sb2.active = true ∧ sb2.agreed = false ∧ sb2.body.kind = 6 ∧ sb2.granted = false ∧ sb2.taken = false ∧ sb2.reading = true ∧ sb2.nodes = [] ∧ sb2.sent = [] ∧ passVerdict { id := sb2.id, ticket := sb2.ticket, prog := sb2.prog, body := sb2.body, active := sb2.active, reading := sb2.reading, granted := true, taken := sb2.taken, digests := sb2.digests, agreed := sb2.agreed, sent := sb2.sent, last := (withColl sb2).tick, nodes := sb2.nodes } (withColl sb2) = ({ id := sb2.id, ticket := sb2.ticket, prog := sb2.prog, body := sb2.body, active := sb2.active, reading := sb2.reading, granted := true, taken := sb2.taken, digests := sb2.digests, agreed := sb2.agreed, sent := sb2.sent, last := (withColl sb2).tick, nodes := sb2.nodes }, withColl sb2) ∧ engineReadSet (rangeSet (withColl sb2) (collSources (withColl sb2) sb2.body)) Ecc.clean (withColl sb2) = EngineRead.good (withColl sb2) ∧ holderNode (withColl sb2) (ownCopy (withColl sb2)) (BitVec.toNat sb2.body.peer) = some 11) ∧
    (collS.unlia.colls = [] ∧ BitVec.toNat (4 : W16) < (1024 : ℕ) ∧ seqOpen (6 : W32) (group collS (BitVec.toNat (4 : W16))).nextSeq = true) ∧
    ((withColl collC).unlia.colls = [collC] ∧ collC.active = true ∧ collC.agreed = false ∧ collC.reading = false ∧ collC.ticket = some (ticket0 3) ∧ collC.prog = none ∧ (queue (withColl collC) (ticket0 3).q).error = false ∧ (queue (withColl collC) (ticket0 3).q).cqSize ≠ 0 ∧ collDies collC.body = [0] ∧ (∀ x ∈ collSends (withColl collC) collC, collC.sent.contains x.1 = true) ∧ dataReady (withColl collC) collC = true) ∧
    ((withColl collC).unlia.colls = [collC] ∧ collC.active = true ∧ collC.ticket = some (ticket0 3) ∧ collC.prog = none ∧ (queue (withColl collC) (ticket0 3).q).error = false ∧ (queue (withColl collC) (ticket0 3).q).cqSize ≠ 0 ∧ partnerHash (withColl collC) collC.body + 1 ≠ partnerHash (withColl collC) collC.body ∧ collC.digests.contains 2 = false) ∧
    ((withColl collC).unlia.colls = [collC] ∧ collC.active = true ∧ collC.ticket = some (ticket0 3) ∧ collC.prog = none ∧ (queue (withColl collC) (ticket0 3).q).error = false ∧ (queue (withColl collC) (ticket0 3).q).cqSize ≠ 0 ∧ collC.agreed = false) ∧
    ((withColl collC).unlia.colls = [collC] ∧ collC.active = true ∧ collC.ticket = some (ticket0 3) ∧ collC.prog = none ∧ (queue (withColl collC) (ticket0 3).q).error = false ∧ (queue (withColl collC) (ticket0 3).q).cqSize ≠ 0) ∧
    ((withColl sb3).unlia.colls = [sb3] ∧ sb3.active = true ∧ sb3.ticket = some (ticket0 3) ∧ sb3.prog = none ∧ (queue (withColl sb3) (ticket0 3).q).error = false ∧ (queue (withColl sb3) (ticket0 3).q).cqSize ≠ 0 ∧ collQuiet (withColl sb3) sb3 = true) ∧
    ((withColl collC).unlia.colls = [collC] ∧ collC.active = true ∧ collC.ticket = some (ticket0 3) ∧ collC.prog = none ∧ (queue (withColl collC) (ticket0 3).q).error = false ∧ (queue (withColl collC) (ticket0 3).q).cqSize ≠ 0 ∧ collQuiet (withColl collC) collC = false) := by
  repeat' with_reducible refine And.intro ?_ ?_
  all_goals first | with_reducible exact engineReadSet_clear (by decide +kernel) | with_reducible exact add_one_ne _ | decide +kernel

theorem wit_TableCommands :
    (accepts (tableS routeT) 3 hdr0 true = true ∧ TableRead (taken 3 (tableS routeT)) 7 4094 2 8 4096 st12 ∧ st12.all routeOk = true) ∧
    (accepts (tableS (groupT ++ groupT)) 3 hdr0 true = true ∧ TableRead (taken 3 (tableS (groupT ++ groupT))) 7 1022 2 64 1024 st13 ∧ st13.all groupOk = true ∧ (((List.range (BitVec.toNat (2 : W16))).any fun (i : ℕ) => groupBusy (tableS (groupT ++ groupT)) (BitVec.toNat (1022 : W16) + i)) = false)) ∧
    (accepts (tableS posT) 3 hdr0 true = true ∧ TableRead (taken 3 (tableS posT)) 7 16383 1 16 16384 st14 ∧ st14.all positionOk = true ∧ nodesUnique (writePositions (BitVec.toNat (16383 : W16)) (List.map positionAt st14) (positionsAhead (tableS posT))) = true) ∧
    (st15.unlia.posSets = [(ticket0 3, 16383, [member 5])] ∧ activeColls st15 = 0 ∧ (queue st15 (ticket0 3).q).error = false ∧ (queue st15 (ticket0 3).q).cqSize ≠ 0) := by
  repeat' with_reducible refine And.intro ?_ ?_
  all_goals first | with_reducible exact tableRead_of (by decide +kernel) | decide +kernel

theorem wit_CheckpointsAndBuddies :
    (accepts ckptS 3 hdr0 true = true ∧ ckptFormatOk (ckptB 0) = true ∧ flashReady ckptS = true ∧ (ckptB 0).mode ≠ 2 ∧ ckptObjectsOk (taken 3 ckptS) (ckptB 0) = true) ∧
    (accepts ckptS 3 hdr0 true = true ∧ ckptFormatOk (ckptB 1) = true ∧ flashReady ckptS = true ∧ (ckptB 1).mode ≠ 2 ∧ ckptObjectsOk (taken 3 ckptS) (ckptB 1) = true) ∧
    (accepts ckptS 3 hdr0 true = true ∧ ckptFormatOk (ckptB 2) = true ∧ (ckptB 2).mode = 2) ∧
    (st16.conceal.jobs = [job0] ∧ ReadsGood st16 (CkptJob.spans st16 job0) ∧ flashWorn st16 = false) ∧
    (buddyS.conceal.buddyOpen.contains (BitVec.toNat (20 : W16)) = true ∧ (obj buddyS (BitVec.toNat (20 : W16))).inFlash = true ∧ flashObj buddyS (obj buddyS (BitVec.toNat (20 : W16))) = some flashO5 ∧ flashO5.data.length + [(1 : Byte), (2 : Byte), (3 : Byte)].length ≤ BitVec.toNat flashO5.size ∧ flashWorn buddyS = false ∧ flashReady buddyS = true) ∧
    ((obj buddyS (BitVec.toNat (20 : W16))).inFlash = true ∧ flashObj buddyS (obj buddyS (BitVec.toNat (20 : W16))) = some flashO5 ∧ flashO5.data.length + [(1 : Byte), (2 : Byte), (3 : Byte)].length ≤ BitVec.toNat flashO5.size ∧ flashWorn buddyS = false ∧ flashReady buddyS = true) ∧
    ((obj buddyS (BitVec.toNat (20 : W16))).inFlash = true ∧ flashReady buddyS = true) ∧
    (buddyS.conceal.buddySent = true) ∧
    (logObject logS = some 20 ∧ 1024 ≤ logS.conceal.logBuffer.length) := by
  repeat' with_reducible refine And.intro ?_ ?_
  all_goals first | with_reducible exact readsGood_of_clear (by decide +kernel) | decide +kernel

theorem wit_RestoresAndSnapshots :
    (accepts ckptS 3 hdr0 true = true ∧ ckptS.dealer.phase = Phase.idle ∧ (restoreB 0).source = 0 ∧ (restoreB 0).logObject = 65535 ∧ flashReady ckptS = true ∧ (obj ckptS (BitVec.toNat (restoreB 0).object)).inFlash = true) ∧
    (restoreS.conceal.restores = [(ticket0 3, restoreB 1)] ∧ (restoreB 1).source = 1 ∧ (restoreB 1).logObject = 65535 ∧ restoreFault restoreS (restoreB 1) ckptImg [] = none ∧ (queue restoreS (ticket0 3).q).error = false ∧ (queue restoreS (ticket0 3).q).cqSize ≠ 0) ∧
    (restoreS.conceal.restores = [(ticket0 3, restoreB 1)] ∧ (queue restoreS (ticket0 3).q).error = false ∧ (queue restoreS (ticket0 3).q).cqSize ≠ 0) ∧
    (accepts snapS 3 hdr0 true = true ∧ BitVec.toNat snapB.slot < 2 ∧ BitVec.toNat snapB.flags < 2 ∧ flashReady snapS = true ∧ flashWorn snapS = false ∧ slotUsable (slot snapS (BitVec.toNat snapB.slot)) = true ∧ flashHolds snapS snapB.image (slotImage snapS (BitVec.toNat snapB.slot)).length = true ∧ flashLen snapS snapB.image = 0 ∧ flashHolds snapS snapB.manifest 256 = true ∧ flashLen snapS snapB.manifest = 0 ∧ snapB.image ≠ snapB.manifest) ∧
    (st17.conceal.snapshots = [snapJ] ∧ snapJ.body.flags = 0 ∧ ReadsGood st17 (SnapJob.spans st17 snapJ) ∧ (queue st17 snapJ.ticket.q).error = false ∧ (queue st17 snapJ.ticket.q).cqSize ≠ 0) ∧
    (flashHolds snapS (20 : W16) [(1 : Byte), (2 : Byte), (3 : Byte)].length = true ∧ flashLen snapS 20 = 0 ∧ flashHolds snapS (21 : W16) [(4 : Byte), (5 : Byte)].length = true ∧ flashLen snapS 21 = 0 ∧ (20 : W16) ≠ (21 : W16) ∧ flashWorn snapS = false ∧ flashReady snapS = true) := by
  repeat' with_reducible refine And.intro ?_ ?_
  all_goals first | with_reducible exact ckptImg_restores | with_reducible exact readsGood_of_clear (by decide +kernel) | decide +kernel

theorem wit_RequestOperations :
    (accepts entryS 3 hdr0 false = true ∧ inBoundary entryS = false ∧ admitFault (taken 3 entryS) (queue entryS 3).owner entryB = none) ∧
    (accepts st18 3 hdr0 false = true ∧ inBoundary st18 = false ∧ entryFault st18 (queue st18 3).owner 12 85 = none) ∧
    ((opS (Op.pageMove (ticket0 3) pageB) (decoding entryS)).host.ops = [(40, Op.pageMove (ticket0 3) pageB)] ∧ holdsEnd (request (opS (Op.pageMove (ticket0 3) pageB) (decoding entryS)) (BitVec.toNat pageB.entry)) = true ∧ (request (opS (Op.pageMove (ticket0 3) pageB) (decoding entryS)) (BitVec.toNat pageB.entry)).key = pageB.key ∧ BitVec.toNat pageB.first + BitVec.toNat pageB.count ≤ (request (opS (Op.pageMove (ticket0 3) pageB) (decoding entryS)) (BitVec.toNat pageB.entry)).pages ∧ ReadsGood (opS (Op.pageMove (ticket0 3) pageB) (decoding entryS)) (moveSpans (opS (Op.pageMove (ticket0 3) pageB) (decoding entryS)) (movedPages (opS (Op.pageMove (ticket0 3) pageB) (decoding entryS)) pageB)) ∧ (queue (opS (Op.pageMove (ticket0 3) pageB) (decoding entryS)) (ticket0 3).q).error = false ∧ (queue (opS (Op.pageMove (ticket0 3) pageB) (decoding entryS)) (ticket0 3).q).cqSize ≠ 0) ∧
    (accepts entryS 3 hdr0 false = true ∧ inBoundary entryS = false ∧ admitFault (taken 3 entryS) (queue entryS 3).owner sb4 = some Status.requestFormat) ∧
    (accepts st110 3 hdr0 false = true ∧ inBoundary st110 = true) := by
  repeat' with_reducible refine And.intro ?_ ?_
  all_goals first | with_reducible exact readsGood_of_clear (by decide +kernel) | decide +kernel

theorem wit_MailboxServices :
    ((noHolder (mboxS 2)).resets.recovery = false ∧ (noHolder (mboxS 2)).host.holder ≠ some Port.A ∧ mboxWaits Port.A 2 (noHolder (mboxS 2)) = true) ∧
    ((noHolder (mboxS 3)).resets.recovery = false ∧ (noHolder (mboxS 3)).host.holder ≠ some Port.A ∧ mboxWaits Port.A 3 (noHolder (mboxS 3)) = true) ∧
    ((noHolder (mboxS 4)).resets.recovery = false ∧ (noHolder (mboxS 4)).host.holder ≠ some Port.A ∧ mboxWaits Port.A 4 (noHolder (mboxS 4)) = true) ∧
    ((noHolder (mboxS 5)).resets.recovery = false ∧ (noHolder (mboxS 5)).host.holder ≠ some Port.A ∧ mboxWaits Port.A 5 (noHolder (mboxS 5)) = true) ∧
    ((noHolder (mboxS 6)).resets.recovery = false ∧ (noHolder (mboxS 6)).host.holder ≠ some Port.A ∧ mboxWaits Port.A 6 (noHolder (mboxS 6)) = true) ∧
    ((noHolder (mboxS 8)).resets.recovery = false ∧ (noHolder (mboxS 8)).host.holder ≠ some Port.A ∧ (31 : ℕ) < (32 : ℕ) ∧ (8 : ℕ) < (9 : ℕ) ∧ mboxWaits Port.A 8 (noHolder (mboxS 8)) = true) ∧
    ((noHolder (mboxS 9)).resets.recovery = false ∧ (noHolder (mboxS 9)).host.holder ≠ some Port.A ∧ mboxWaits Port.A 9 (noHolder (mboxS 9)) = true) ∧
    ((noHolder (mboxS 10)).resets.recovery = false ∧ (noHolder (mboxS 10)).host.holder ≠ some Port.A ∧ mboxWaits Port.A 10 (noHolder (mboxS 10)) = true) ∧
    ((noHolder (mboxS 12)).resets.recovery = false ∧ (noHolder (mboxS 12)).host.holder ≠ some Port.A ∧ mboxWaits Port.A 12 (noHolder (mboxS 12)) = true) ∧
    ((mboxS 7).resets.recovery = false ∧ mboxWaits Port.A 7 (mboxS 7) = true) ∧
    (mboxServes st19 Port.A 1 false = true ∧ 32768 ≤ fieldAt (tabSlice 64 0 (portSt st19 Port.A).mboxData) 34 2 ∧ BitVec.toNat st19.glaren.sbNext % 65536 ≠ 0 ∧ ((List.filter (fun (t : W64) => decide (BitVec.toNat (st19.glaren.gcTick - t) < 1000000)) (portSt st19 Port.A).appended).length < 64)) ∧
    (mboxWaits Port.A 7 st20 = true ∧ st20.resets.recovery = true) ∧
    (mboxServes (mboxS 8) Port.A 8 true = true ∧ (mboxS 8).dealer.phase = Phase.idle ∧ (31 : ℕ) < (32 : ℕ) ∧ (8 : ℕ) < (9 : ℕ)) ∧
    (mboxServes (mboxS 12) Port.A 12 true = true) ∧
    (mboxServes (mboxS 13) Port.A 13 false = true) := by
  repeat' with_reducible refine And.intro ?_ ?_
  all_goals decide +kernel

theorem wit_FirmwareUpdates :
    (mboxServes (mboxS 2) Port.A 2 true = true ∧ updateBusy (mboxS 2).glaren.update = false ∧ (25165824 : ℕ) ≤ (24 : ℕ) * (2 : ℕ) ^ (20 : ℕ) ∧ (16384 : ℕ) ≤ (16384 : ℕ)) ∧
    (mboxServes st21 Port.A 3 true = true ∧ st21.glaren.update.state = 1 ∧ (10 : ℕ) ≤ (2 : ℕ) ^ (20 : ℕ) ∧ 490 + 10 ≤ st21.glaren.update.imageLength + 2 * st21.glaren.update.chainLength) ∧
    (mboxServes st22 Port.A 4 true = true ∧ st22.glaren.update.state = 1) ∧
    (mboxServes st23 Port.A 5 true = true ∧ (60 : ℕ) ≤ (60 : ℕ) ∧ (60 : ℕ) ≤ (86400 : ℕ) ∧ st23.glaren.update.chain ≠ [] ∧ st23.glaren.update.chainPos = 0 ∧ st23.glaren.update.tokenAt = none ∧ updateBusy st23.glaren.update = false) ∧
    (mboxServes st23 Port.A 5 true = true ∧ (60 : ℕ) ≤ (86400 : ℕ) ∧ (86400 : ℕ) ≤ (86400 : ℕ) ∧ st23.glaren.update.chain ≠ [] ∧ st23.glaren.update.chainPos = 0 ∧ st23.glaren.update.tokenAt = none ∧ updateBusy st23.glaren.update = false) ∧
    (mboxServes st24 Port.A 6 true = true ∧ st24.glaren.update.state = 5 ∧ nextComponent st24 = some 0) ∧
    (mgmtHeard st25 = true ∧ updateBusy st25.glaren.update = false) ∧
    (mgmtHeard st25 = true ∧ st25.glaren.update.chainPos = 0 ∧ (3 : ℕ) ≤ (3 : ℕ)) ∧
    (st26.glaren.update.forwardTo = some 2 ∧ st26.glaren.update.chainPos = 0 ∧ 60000000 ≤ BitVec.toNat (st26.glaren.gcTick - st26.glaren.update.forwardSince)) ∧
    (mgmtHeard st27 = true ∧ updateBusy st27.glaren.update = false ∧ st27.resets.recovery = false ∧ st27.glaren.update.manifest ≠ [] ∧ st27.glaren.update.state = 3) ∧
    (st28.glaren.update.token = some 600 ∧ st28.glaren.update.state = 5 ∧ st28.glaren.update.tokenRest = [] ∧ 1000000 * 600 ≤ BitVec.toNat (st28.glaren.gcTick - st28.glaren.update.tokenSince)) ∧
    (st29.glaren.update.tokenAt = some 2 ∧ 1000000 * (st29.glaren.update.tokenTimeout + 600) ≤ BitVec.toNat (st29.glaren.gcTick - st29.glaren.update.visitSince)) := by
  repeat' with_reducible refine And.intro ?_ ?_
  all_goals decide +kernel

theorem wit_DebugAccess :
    (mboxServes (mboxS 9) Port.A 9 true = true) ∧
    (mboxServes st30 Port.A 10 true = true ∧ st30.glaren.challenge = some ([3], 5, (mboxS 10).glaren.gcTick) ∧ BitVec.toNat (st30.glaren.gcTick - (mboxS 10).glaren.gcTick) < 600000000) ∧
    (mboxServes (mboxS 10) Port.A 10 true = true ∧ (mboxS 10).glaren.challenge = none) ∧
    (mboxServes (mboxS 11) Port.A 11 false = true) ∧
    (st31.glaren.challenge = some ([3], 5, 0) ∧ 600000000 ≤ BitVec.toNat (st31.glaren.gcTick - 0)) ∧
    (st32.glaren.challenge = some ([3], 5, 0) ∧ BitVec.toNat (st32.glaren.gcTick - 0) < 600000000) ∧
    (st33.glaren.unlocked.getLsbD 1 = false) ∧
    (st34.glaren.unlocked.getLsbD 1 = true) := by
  repeat' with_reducible refine And.intro ?_ ?_
  all_goals decide +kernel

theorem wit_TrayAndAttestation :
    ((mboxS 0).resets.powered = true) ∧
    ((mboxS 0).resets.powered = true ∧ BitVec.toNat (262143 : W32) < (262144 : ℕ)) ∧
    ((mboxS 0).resets.powered = true ∧ (73 : ℕ) < (74 : ℕ)) ∧
    (st35.resets.powered = true ∧ st35.unlia.nodeValid = true) ∧
    (st36.resets.powered = true ∧ st36.unlia.nodeValid = false) ∧
    (doeServes Port.A st37 = true ∧ ((st37.glaren.reports.any fun (r : Port × List Byte) => decide (r.1 = Port.A)) = false)) ∧
    (st38.glaren.reports = [(Port.A, [1])] ∧ st38.resets.powered = true ∧ st38.resets.glarenReady = true) ∧
    (doeServes Port.A st37 = true) := by
  repeat' with_reducible refine And.intro ?_ ?_
  all_goals decide +kernel

theorem wit_MoveRequests :
    (reaches (heldBy none regS) pfA Reg.moveRequest = true ∧ (portSt (heldBy none regS) pfA.port).result ≠ MoveResult.pending ∧ (heldBy none regS).resets.glarenReady = true ∧ 7 ≠ (heldBy none regS).host.epoch) ∧
    (reaches (heldBy none regS) pfA Reg.moveRequest = true ∧ (portSt (heldBy none regS) pfA.port).result ≠ MoveResult.pending ∧ (heldBy none regS).resets.glarenReady = true ∧ 1 = (heldBy none regS).host.epoch ∧ (heldBy none regS).host.holder = none) ∧
    (reaches regS pfA Reg.moveRequest = true ∧ (portSt regS pfA.port).result ≠ MoveResult.pending ∧ regS.resets.glarenReady = true ∧ 1 = regS.host.epoch ∧ regS.host.holder = some pfA.port) ∧
    (reaches st39 pfA Reg.moveRequest = true ∧ (portSt st39 pfA.port).result ≠ MoveResult.pending ∧ st39.resets.glarenReady = true ∧ 1 = st39.host.epoch ∧ st39.host.holder = some (Port.other pfA.port) ∧ leaseOver st39 (Port.other pfA.port) = true) ∧
    (reaches st40 pfA Reg.moveRequest = true ∧ (portSt st40 pfA.port).result ≠ MoveResult.pending ∧ st40.resets.glarenReady = true ∧ 1 = st40.host.epoch ∧ st40.host.holder = some (Port.other pfA.port) ∧ leaseOver st40 (Port.other pfA.port) = false) := by
  repeat' with_reducible refine And.intro ?_ ?_
  all_goals decide +kernel

theorem wit_HolderControls :
    (controlsNot (heldBy none regS) pfA Reg.stepNumber = true) ∧
    ((31 : ℕ) < (32 : ℕ) ∧ controlsNot (heldBy none regS) pfA (Reg.flagClear 31) = true) ∧
    (controlsNot (heldBy none regS) pfA Reg.counterClear = true) ∧
    (controlsNot (heldBy none regS) pfA Reg.faultRecord = true) ∧
    (controlsNot (heldBy none regS) pfA Reg.budgetSet = true) ∧
    (controlsNot (heldBy none regS) pfA Reg.refillConfig = true) ∧
    (controlsNot (heldBy none regS) pfA Reg.pageConfig = true) ∧
    (controlsNot (heldBy none regS) pfA Reg.resetCtrl = true) ∧
    (controlsNot (heldBy none regS) pfA Reg.blockReset = true) ∧
    ((15 : ℕ) < (16 : ℕ) ∧ controlsNot (heldBy none regS) pfA (Reg.portCtrl 15) = true) ∧
    (controlsNot (heldBy none regS) pfA Reg.twinCtrl = true) ∧
    (controlsNot (heldBy none regS) pfA Reg.replayCtrl = true) ∧
    (controlsNot (heldBy none regS) pfA Reg.debugCtrl = true) ∧
    (controls regS pfA Reg.stepNumber = true) ∧
    (controls regS pfA Reg.faultRecord = true) ∧
    (controls regS pfA Reg.counterClear = true ∧ BitVec.getLsbD (1 : W32) (0 : ℕ) = true) ∧
    ((31 : ℕ) < (32 : ℕ) ∧ controls regS pfA (Reg.flagClear 31) = true ∧ BitVec.getLsbD (1 : W32) (0 : ℕ) = true ∧ regS.dealer.run = none) ∧
    ((31 : ℕ) < (32 : ℕ) ∧ controls st41 pfA (Reg.flagClear 31) = true ∧ BitVec.getLsbD (1 : W32) (0 : ℕ) = true ∧ st41.dealer.run = some run9) ∧
    (controls regS pfA Reg.budgetSet = true ∧ BitVec.toNat (21474837503 : W64) / (1024 : ℕ) % (2 : ℕ) = (0 : ℕ)) ∧
    (controls regS pfA Reg.budgetSet = true ∧ BitVec.toNat (21474837504 : W64) / (1024 : ℕ) % (2 : ℕ) = (1 : ℕ)) ∧
    (controls regS pfA Reg.refillConfig = true) ∧
    (controls idleS pfA Reg.pageConfig = true ∧ idleS.dealer.phase = Phase.idle ∧ occupied idleS = []) ∧
    ((3 : ℕ) < (4 : ℕ) ∧ controls idleS pfA (Reg.pagePool 3) = true ∧ idleS.dealer.phase = Phase.idle ∧ occupied idleS = []) ∧
    (controls st42 pfA Reg.pageConfig = true ∧ (st42.dealer.phase ≠ Phase.idle ∨ occupied st42 ≠ [])) := by
  repeat' with_reducible refine And.intro ?_ ?_
  all_goals decide +kernel

theorem wit_PortAndResetControls :
    (controls regS pfA Reg.resetCtrl = true ∧ BitVec.getLsbD (1 : W32) (0 : ℕ) = true ∧ canWarm regS = true ∧ regS.resets.warmHeld = false ∧ regS.resets.warmAt = none) ∧
    (controls regS pfA Reg.resetCtrl = true ∧ BitVec.getLsbD (2 : W32) (0 : ℕ) = false) ∧
    ((15 : ℕ) < (16 : ℕ) ∧ controls regS pfA (Reg.portCtrl 15) = true) := by
  repeat' with_reducible refine And.intro ?_ ?_
  all_goals decide +kernel

theorem wit_TwinAndDebugControls :
    (controls regS pfA Reg.twinCtrl = true ∧ BitVec.toNat (517 : W32) / (2 : ℕ) % (256 : ℕ) ≠ (0 : ℕ) ∧ BitVec.getLsbD (517 : W32) (9 : ℕ) = true) ∧
    (controls regS pfA Reg.twinCtrl = true ∧ BitVec.toNat (5 : W32) / (2 : ℕ) % (256 : ℕ) ≠ (0 : ℕ) ∧ BitVec.getLsbD (5 : W32) (9 : ℕ) = false) ∧
    (controls regS pfA Reg.twinCtrl = true ∧ BitVec.toNat (513 : W32) / (2 : ℕ) % (256 : ℕ) = (0 : ℕ)) ∧
    (controls regS pfA Reg.replayCtrl = true) ∧
    (controls regS pfA Reg.debugCtrl = true) ∧
    ((3 : ℕ) < (4 : ℕ) ∧ reaches regS pfA (Reg.pipSelect 3) = true ∧ pipOk regS (BitVec.toNat (7967 : W32)) = false) ∧
    ((3 : ℕ) < (4 : ℕ) ∧ reaches st43 pfA (Reg.pipSelect 3) = true ∧ pipOk st43 (BitVec.toNat (133 : W32)) = true) := by
  repeat' with_reducible refine And.intro ?_ ?_
  all_goals decide +kernel

theorem wit_QueuesAndMarks :
    ((3 : ℕ) < (256 : ℕ) ∧ reaches (enabledS true) pfA (Reg.qCtrl 3) = true ∧ reaches (enabledS true) pfA (Reg.ringHost 3 0) = true ∧ (queue (enabledS true) 3).owner = pfA) ∧
    ((3 : ℕ) < (256 : ℕ) ∧ reaches (enabledS false) pfA (Reg.qCtrl 3) = true ∧ reaches (enabledS false) pfA (Reg.ringHost 3 0) = true ∧ (queue (enabledS false) 3).owner = pfA ∧ (queue (enabledS false) 3).enable = false ∧ sizeOk (queue (enabledS false) 3).sqSize.toNat = true ∧ sizeOk (queue (enabledS false) 3).cqSize.toNat = true ∧ sizeOk (queue (enabledS false) 3).orSize.toNat = true) ∧
    ((3 : ℕ) < (256 : ℕ) ∧ reaches st44 pfA (Reg.qCtrl 3) = true ∧ reaches st44 pfA (Reg.ringHost 3 0) = true ∧ (queue st44 3).owner = pfA ∧ (queue st44 3).enable = false ∧ sizeOk (queue st44 3).cqSize.toNat = false) ∧
    ((3 : ℕ) < (256 : ℕ) ∧ reaches (enabledS true) pfA (Reg.qCtrl 3) = true ∧ reaches (enabledS true) pfA (Reg.ringHost 3 0) = true ∧ (queue (enabledS true) 3).owner = pfA ∧ [hdr0].length = BitVec.toNat ((queue (enabledS true) 3).sqTail - (queue (enabledS true) 3).sqHead) ∧ (queue (enabledS true) 3).error = false ∧ (queue (enabledS true) 3).cqSize ≠ 0) ∧
    ((3 : ℕ) < (256 : ℕ) ∧ reaches (enabledS true) pfB (Reg.qCtrl 3) = true ∧ reaches (enabledS true) pfB (Reg.ringHost 3 0) = true ∧ (queue (enabledS true) 3).owner ≠ pfB) ∧
    ((3 : ℕ) < (256 : ℕ) ∧ reaches (enabledS false) pfA (Reg.qCtrl 3) = true ∧ reaches (enabledS false) pfA (Reg.ringHost 3 0) = true ∧ mayGive (enabledS false) pfA (queue (enabledS false) 3).owner pfB = true ∧ (queue (enabledS false) 3).enable = false ∧ (queue (enabledS false) 3).inFlight = 0) ∧
    ((3 : ℕ) < (256 : ℕ) ∧ reaches (enabledS true) pfA (Reg.qCtrl 3) = true ∧ reaches (enabledS true) pfA (Reg.ringHost 3 0) = true ∧ (mayGive (enabledS true) pfA (queue (enabledS true) 3).owner pfB = false ∨ (queue (enabledS true) 3).enable = true ∨ (queue (enabledS true) 3).inFlight ≠ 0)) ∧
    ((3 : ℕ) < (256 : ℕ) ∧ reaches (enabledS true) pfA (Reg.qCtrl 3) = true ∧ reaches (enabledS true) pfA (Reg.ringHost 3 0) = true ∧ (9 : ℕ) < (4096 : ℕ) ∧ reaches (enabledS true) pfA (Reg.markOwner 9) = true ∧ mayGive (enabledS true) pfA (mark (enabledS true) 9).owner pfB = true ∧ (mark (enabledS true) 9).armed = false) ∧
    ((9 : ℕ) < (4096 : ℕ) ∧ reaches (markS 5 9 true) pfA (Reg.markAdd 9) = true ∧ (mark (markS 5 9 true) 9).owner = pfA ∧ (4 : W64) ≠ (0 : W64)) ∧
    ((9 : ℕ) < (4096 : ℕ) ∧ reaches (markS (2 ^ 64 - 2) 9 false) pfA (Reg.markAdd 9) = true ∧ (mark (markS (2 ^ 64 - 2) 9 false) 9).owner = pfA ∧ (7 : W64) ≠ (0 : W64)) ∧
    ((4095 : ℕ) < (4096 : ℕ) ∧ reaches (markS 5 9 true) pfA (Reg.markAdd 4095) = true ∧ ((mark (markS (5 : ℕ) (9 : ℕ) true) (4095 : ℕ)).owner ≠ pfA ∨ (1 : W64) = (0 : W64))) ∧
    ((9 : ℕ) < (4096 : ℕ) ∧ reaches (markS 5 9 false) pfA (Reg.markNotify 9) = true ∧ BitVec.toNat (1 : W32) / (2 : ℕ) % (64 : ℕ) < vectorsOf (mark (markS (5 : ℕ) (9 : ℕ) false) (9 : ℕ)).owner ∧ BitVec.getLsbD (1 : W32) (0 : ℕ) = true) ∧
    ((9 : ℕ) < (4096 : ℕ) ∧ reaches st46 st45 (Reg.markNotify 9) = true ∧ vectorsOf (mark st46 (9 : ℕ)).owner ≤ BitVec.toNat (20 : W32) / (2 : ℕ) % (64 : ℕ)) := by
  repeat' with_reducible refine And.intro ?_ ?_
  all_goals decide +kernel

theorem wit_Bar2Accesses :
    (barOpen st47 Port.A 0 (bytesN 300).length = true ∧ sramEnd ≤ barAddr st47 Port.A 0 ∧ (∀ x ∈ lineParts ((bytesN 300).length + 1) (barAddr st47 Port.A 0) (bytesN 300), roShared st47 (x.1 / 256 * 256) 256 = false ∧ addrShut st47 x.1 = false)) ∧
    (barOpen st48 Port.A 496 (bytesN 60).length = false) ∧
    (barOpen barS Port.A 1 60 = true ∧ addrShut barS (barAddr barS Port.A 1) = false ∧ (((objectsIn barS (barAddr barS Port.A 1) 60).any fun (e : ℕ × Obj) => decide (e.2.poison = Poison.poisoned)) = false) ∧ barFaults barS (barAddr barS Port.A 1) 60 false = [] ∧ (rangeLines (barAddr barS Port.A 1) 60).any (lineInRepair barS) = false) ∧
    (barOpen st49 Port.A 0 60 = true ∧ addrShut st49 (barAddr st49 Port.A 0) = true) ∧
    (barOpen st48 Port.A 496 7 = false) ∧
    ((portSt st50 Port.A).barReads = [st51] ∧ 10000 ≤ BitVec.toNat (st50.tick - st51.since)) ∧
    (reaches barS pfA Reg.bar2Window = true ∧ windowOk (BitVec.toNat (1099511627776 : W64) / (2 : ℕ) ^ (30 : ℕ) % (2 : ℕ) ^ (18 : ℕ)) (portSt barS pfA.port).bar2Log2 = true) ∧
    (reaches barS pfA Reg.bar2Window = true ∧ windowOk (BitVec.toNat (1073741824 : W64) / (2 : ℕ) ^ (30 : ℕ) % (2 : ℕ) ^ (18 : ℕ)) (portSt barS pfA.port).bar2Log2 = false) := by
  repeat' with_reducible refine And.intro ?_ ?_
  all_goals decide +kernel

theorem wit_BlockResets :
    ((63 : ℕ) < (66 : ℕ) ∧ controls (blockS 63 BlockState.open_) pfA Reg.blockReset = true ∧ BitVec.toNat (63 : W32) % (128 : ℕ) = (63 : ℕ) ∧ (63 : ℕ) < (64 : ℕ) ∧ BitVec.getLsbD (63 : W32) (7 : ℕ) = false ∧ (block (blockS 63 BlockState.open_) 63).state = BlockState.open_) ∧
    ((31 : ℕ) < (66 : ℕ) ∧ controls (blockS 31 BlockState.open_) pfA Reg.blockReset = true ∧ BitVec.toNat (159 : W32) % (128 : ℕ) = (31 : ℕ) ∧ (31 : ℕ) < (32 : ℕ) ∧ BitVec.getLsbD (159 : W32) (7 : ℕ) = true ∧ (block (blockS 31 BlockState.open_) 31).state = BlockState.open_ ∧ (blockS 31 BlockState.open_).dealer.run = none ∧ (blockS 31 BlockState.open_).host.ops = [] ∧ (blockS 31 BlockState.open_).dealer.building = none) ∧
    ((65 : ℕ) < (66 : ℕ) ∧ overrideArmed (blockS 65 BlockState.inReset) 65 = false) ∧
    ((5 : ℕ) < (66 : ℕ) ∧ overrideArmed st52 5 = true ∧ (block st52 5).state = BlockState.inReset) ∧
    ((65 : ℕ) < (66 : ℕ)) ∧
    ((65 : ℕ) < (66 : ℕ) ∧ (block (blockS 65 BlockState.init) 65).state = BlockState.init) := by
  repeat' with_reducible refine And.intro ?_ ?_
  all_goals decide +kernel

theorem wit_RegisterAccess :
    (regAt 3 = none) ∧
    (regAt 3145736 = some Reg.stepNumber ∧ reaches regS st53 Reg.stepNumber = false) ∧
    (regAt 3145736 = some Reg.stepNumber ∧ reaches regS pfA Reg.stepNumber = true) ∧
    (reaches regS pfA Reg.eventStatus = true) ∧
    (regAt 3145736 = some Reg.stepNumber ∧ Reg.stepNumber.narrow = false ∧ regAt (3145736 + 4) = none) ∧
    (regAt 65576 = some Reg.resetCtrl ∧ Reg.resetCtrl.narrow = true ∧ (65576 < 4 ∨ regAt (65576 - 4) = none)) := by
  repeat' with_reducible refine And.intro ?_ ?_
  all_goals decide +kernel

theorem wit_BoundariesRun :
    (boundaryDue dueS = true) ∧
    (boundaryDue st54 = false ∧ boundaryOpen st54 = false) ∧
    (st55.dealer.idle = true ∧ 1000 ≤ BitVec.toNat (st55.tick - st55.dealer.idleSince)) ∧
    (BitVec.toNat (st56.tick - st56.dealer.idleSince) < 1000) := by
  repeat' with_reducible refine And.intro ?_ ?_
  all_goals decide +kernel

theorem wit_HeldLaunches :
    (heldS.dealer.held = some held0 ∧ launchStopped heldS held0 = false ∧ govAcLow heldS held0 < 250000) ∧
    (heldTS.dealer.held = some heldT ∧ launchStopped heldTS heldT = false ∧ 250000 < govAcHigh heldTS heldT) ∧
    (heldS.dealer.held = some held0 ∧ govAcHigh heldS held0 ≤ 250000) ∧
    (st57.dealer.held = some held0 ∧ st57.dealer.run = none ∧ launchStopped st57 held0 = true) ∧
    (State.reset.dealer.held = none) := by
  repeat' with_reducible refine And.intro ?_ ?_
  all_goals decide +kernel

theorem wit_StepsEnd :
    (st58.dealer.run = some run9 ∧ run9.stopped = false ∧ run9.abortAc = none ∧ List.all run9.progs (progDone run9) = true) ∧
    (st59.dealer.run = some abortR ∧ abortR.abortAc = some 100 ∧ abortR.stopped = false) ∧
    (st60.dealer.run = some stoppedR ∧ stoppedR.abortAc = some 100 ∧ stoppedR.stopped = true ∧ stepExternal st60 = false ∧ stoppedR.extDst = []) ∧
    (st61.dealer.run = some stoppedR ∧ stoppedR.stopped = true ∧ stepExternal st61 = true) := by
  repeat' with_reducible refine And.intro ?_ ?_
  all_goals decide +kernel

theorem wit_StepFaultsAndWaitPoints :
    (st62.dealer.run = some deadR ∧ deadR.abortAc = none ∧ st62.dealer.fault.valid = false ∧ deadlocked st62 deadR = true ∧ List.find? (heldProg st62 deadR) deadR.progs = some (4, awaitP)) ∧
    (st63.dealer.run = some sb5 ∧ sb5.abortAc = none ∧ st63.dealer.fault.valid = false ∧ (4 : ℕ) < (32 : ℕ) ∧ sb5.trees = [treeWaiting] ∧ treeWaiting.waiting = true ∧ treeWaiting.cluster = 4) ∧
    (st64.dealer.run = some (holdR 1) ∧ (holdR 1).abortAc = none ∧ st64.dealer.fault.valid = false ∧ (4 : ℕ) < (36 : ℕ) ∧ (prog (holdR 1) 4).hold = some { wp := some 1, since := 70 } ∧ waitKind (holdR 1) 1 = some (1, 1) ∧ ((1 : Byte) = (1 : Byte) ∨ (1 : Byte) = (2 : Byte))) ∧
    (st65.dealer.run = some (holdR 3) ∧ (holdR 3).abortAc = none ∧ st65.dealer.fault.valid = false ∧ (4 : ℕ) < (36 : ℕ) ∧ (prog (holdR 3) 4).hold = some { wp := some 3, since := 70 } ∧ waitKind (holdR 3) 3 = some (1, 4) ∧ (4 : Byte) ≠ (1 : Byte) ∧ (4 : Byte) ≠ (2 : Byte)) ∧
    (st66.dealer.run = some signalR ∧ signalR.signals[1]? = some sig0 ∧ signalR.abortAc = none ∧ waitKind signalR sig0.wp = some (0, 0)) ∧
    (st66.dealer.run = some signalR ∧ signalR.signals[0]? = some sb6 ∧ signalR.abortAc = none ∧ st66.dealer.fault.valid = false ∧ waitKind signalR sb6.wp = some (1, 1)) ∧
    (st67.dealer.run = some signalR ∧ signalR.stopped = false ∧ opAt st67 7 = some (Op.ext 2 Crossing.mc [4] 1 1 [] false none) ∧ Crossing.mc.takes signalR.freq 5 = true ∧ waitKind signalR 1 = some (1, 1) ∧ BitVec.toNat (1 : Byte) = (1 : ℕ)) := by
  repeat' with_reducible refine And.intro ?_ ?_
  all_goals decide +kernel

theorem wit_BankDrains :
    (st68.dealer.run = some (drainR 0) ∧ (drainR 0).stopped = false ∧ (drainR 0).drains = [drainE 2 0] ∧ (drainE 2 0).complete = false ∧ (drainE 2 0).cluster < 32 ∧ (drainE 2 0).action = 0) ∧
    (st69.dealer.run = some (drainR 3) ∧ (drainR 3).stopped = false ∧ (drainR 3).drains = [drainE 2 3] ∧ (drainE 2 3).complete = false ∧ (drainE 2 3).cluster < 32 ∧ (drainE 2 3).action = 3) ∧
    (st70.dealer.run = some (drainR 1) ∧ (drainR 1).stopped = false ∧ (drainR 1).drains = [drainE 2 1] ∧ (drainE 2 1).complete = false ∧ (drainE 2 1).cluster < 32 ∧ ((drainE 2 1).action = 1 ∨ (drainE 2 1).action = 2)) ∧
    (st71.dealer.run = some (drainR 2) ∧ (drainR 2).stopped = false ∧ (drainR 2).drains = [drainE 2 2] ∧ (drainE 2 2).complete = false ∧ (drainE 2 2).cluster < 32 ∧ ((drainE 2 2).action = 1 ∨ (drainE 2 2).action = 2)) := by
  repeat' with_reducible refine And.intro ?_ ?_
  all_goals first | exact runIs rfl | exact drainsIs rfl | decide +kernel

theorem wit_InstructionIssue :
    (insnRow (clean 4) sb7 (Insn.nop 5) = some (Instr.ctrlNop (clean 4) sb7 5) ∧ (clean 4).prog < 36 ∧ (stepS (runOf 4 (progAt sb7 (Insn.nop 5)))).dealer.run = some st72 ∧ AtInsn (stepS (runOf 4 (progAt sb7 (Insn.nop 5)))) st72 (clean 4) sb7 (Insn.nop 5) ∧ gatedOff st72 sb7 = true ∧ (clean 4).ecc = Ecc.clean) ∧
    (insnRow (clean 4) c0 (Insn.nop 5) = some (Instr.ctrlNop (clean 4) c0 5) ∧ (clean 4).prog < 36 ∧ (stepS run9).dealer.run = some run9 ∧ canIssue run9 (clean 4).prog = false) ∧
    (insnRow (clean 4) c0 (Insn.nop 5) = some (Instr.ctrlNop (clean 4) c0 5) ∧ (clean 4).prog < 36 ∧ (stepS (runAt 4 Insn.stop)).dealer.run = some (runAt 4 Insn.stop) ∧ AtInsn (stepS (runAt 4 Insn.stop)) (runAt 4 Insn.stop) (clean 4) c0 Insn.stop ∧ (c0, Insn.stop) ≠ (c0, Insn.nop 5) ∧ (clean 4).ecc = Ecc.clean) ∧
    (insnRow (clean 4) c0 (Insn.nop 5) = some (Instr.ctrlNop (clean 4) c0 5) ∧ (clean 4).prog < 36 ∧ (stepS (runOf 4 sb8)).dealer.run = some st73 ∧ canIssue st73 (clean 4).prog = true ∧ st73.abortAc = none ∧ (stepS (runOf 4 sb8)).dealer.fault.valid = false ∧ (prog st73 (clean 4).prog).code[(prog st73 (clean 4).prog).pc]? = none) ∧
    (insnRow st74 c0 (Insn.nop 5) = some (Instr.ctrlNop { prog := 4, ecc := Ecc.storeDouble } c0 5) ∧ st74.prog < 36 ∧ (stepS (runAt 4 Insn.stop)).dealer.run = some (runAt 4 Insn.stop) ∧ canIssue (runAt 4 Insn.stop) st74.prog = true ∧ (runAt 4 Insn.stop).abortAc = none ∧ (stepS (runAt 4 Insn.stop)).dealer.fault.valid = false ∧ (prog (runAt 4 Insn.stop) st74.prog).code[(prog (runAt 4 Insn.stop) st74.prog).pc]? = some st75 ∧ st74.ecc = Ecc.storeDouble) ∧
    (insnRow (clean 4) c0 (Insn.nop 5) = some (Instr.ctrlNop (clean 4) c0 5) ∧ (clean 4).prog < 36 ∧ (stepS (runOf 4 sb9)).dealer.run = some st76 ∧ canIssue st76 (clean 4).prog = true ∧ st76.abortAc = none ∧ (stepS (runOf 4 sb9)).dealer.fault.valid = false ∧ (prog st76 (clean 4).prog).code[(prog st76 (clean 4).prog).pc]? = some st77 ∧ decodeFor (clean 4).prog st77 = none ∧ (clean 4).ecc ≠ Ecc.storeDouble) ∧
    (insnRow (clean 4) c0 (Insn.nop 5) = some (Instr.ctrlNop (clean 4) c0 5) ∧ (clean 4).prog < 36 ∧ (stepS sb10).dealer.run = some sb10 ∧ sb10.abortAc = some 101 ∧ AtInsn (stepS sb10) sb10 (clean 4) c0 (Insn.nop 5) ∧ (clean 4).ecc = Ecc.clean) ∧
    (insnRow { prog := 4, ecc := Ecc.clean } c0 (Insn.nop 5) = some (Instr.ctrlNop (clean 4) c0 5) ∧ insnRow { prog := 4, ecc := Ecc.storeSingle } c0 (Insn.nop 5) = some (Instr.ctrlNop { prog := 4, ecc := Ecc.storeSingle } c0 5) ∧ AtInsn (stepS (runAt 4 (Insn.nop 5))) (runAt 4 (Insn.nop 5)) { prog := 4, ecc := Ecc.clean } c0 (Insn.nop 5) ∧ (runAt 4 (Insn.nop 5)).abortAc = none) := by
  repeat' with_reducible refine And.intro ?_ ?_
  all_goals try with_reducible refine atInsn_of ?_ ?_
  all_goals decide +kernel

theorem wit_SramLoads :
    (BitVec.toNat mv.wide % 65536 + BitVec.toNat mv.bytes ≤ 65536 ∧ canRead (dieOf (clean 4).prog) (wrap48 (areg (prog (runAt 4 (Insn.move 0 mv)) (clean 4).prog) mv.sreg.toNat)) (BitVec.toNat mv.bytes) = true ∧ RunsOn (stepS (runAt 4 (Insn.move 0 mv))) (runAt 4 (Insn.move 0 mv)) (clean 4) c0 (Insn.move 0 mv)) ∧
    (BitVec.toNat mv.wide % 65536 + BitVec.toNat mv.bytes ≤ 65536 ∧ canRead (dieOf (clean 4).prog) (wrap48 (areg (prog (runAt 4 (Insn.move 1 mv)) (clean 4).prog) mv.sreg.toNat)) (BitVec.toNat mv.bytes) = true ∧ RunsOn (stepS (runAt 4 (Insn.move 1 mv))) (runAt 4 (Insn.move 1 mv)) (clean 4) c0 (Insn.move 1 mv)) ∧
    (BitVec.toNat mvT.wide % 65536 + BitVec.toNat mvT.bytes ≤ 65536 ∧ canRead (dieOf (clean 4).prog) (wrap48 (areg (prog (runAt 4 (Insn.move 2 mvT)) (clean 4).prog) mvT.sreg.toNat)) (BitVec.toNat mvT.bytes) = true ∧ mvT.fmt.toNat < 3 ∧ BitVec.toNat mvT.bytes % (4096 * transposedSize mvT.fmt.toNat) = 0 ∧ wrap48 (areg (prog (runAt 4 (Insn.move 2 mvT)) (clean 4).prog) mvT.sreg.toNat) % 64 = 0 ∧ RunsOn (stepS (runAt 4 (Insn.move 2 mvT))) (runAt 4 (Insn.move 2 mvT)) (clean 4) c0 (Insn.move 2 mvT)) ∧
    (BitVec.toNat mvT.wide % 65536 + BitVec.toNat mvT.bytes ≤ 65536 ∧ canRead (dieOf (clean 4).prog) (wrap48 (areg (prog (runAt 4 (Insn.move 3 mvT)) (clean 4).prog) mvT.sreg.toNat)) (BitVec.toNat mvT.bytes) = true ∧ mvT.fmt.toNat < 3 ∧ BitVec.toNat mvT.bytes % (4096 * transposedSize mvT.fmt.toNat) = 0 ∧ wrap48 (areg (prog (runAt 4 (Insn.move 3 mvT)) (clean 4).prog) mvT.sreg.toNat) % 64 = 0 ∧ RunsOn (stepS (runAt 4 (Insn.move 3 mvT))) (runAt 4 (Insn.move 3 mvT)) (clean 4) c0 (Insn.move 3 mvT)) ∧
    ((runAt 4 (Insn.move 2 sb11)).abortAc = none ∧ (stepS (runAt 4 (Insn.move 2 sb11))).dealer.fault.valid = false ∧ 3 ≤ sb11.fmt.toNat ∧ Runs (stepS (runAt 4 (Insn.move 2 sb11))) (runAt 4 (Insn.move 2 sb11)) (clean 4) c0 (Insn.move 2 sb11)) ∧
    ((runAt 4 (Insn.move 3 sb11)).abortAc = none ∧ (stepS (runAt 4 (Insn.move 3 sb11))).dealer.fault.valid = false ∧ 3 ≤ sb11.fmt.toNat ∧ Runs (stepS (runAt 4 (Insn.move 3 sb11))) (runAt 4 (Insn.move 3 sb11)) (clean 4) c0 (Insn.move 3 sb11)) ∧
    ((runAt 4 (Insn.move 2 sb12)).abortAc = none ∧ (stepS (runAt 4 (Insn.move 2 sb12))).dealer.fault.valid = false ∧ sb12.fmt.toNat < 3 ∧ (BitVec.toNat sb12.bytes % (4096 * transposedSize sb12.fmt.toNat) ≠ 0 ∨ wrap48 (areg (prog (runAt 4 (Insn.move 2 sb12)) (clean 4).prog) sb12.sreg.toNat) % 64 ≠ 0) ∧ Runs (stepS (runAt 4 (Insn.move 2 sb12))) (runAt 4 (Insn.move 2 sb12)) (clean 4) c0 (Insn.move 2 sb12)) ∧
    ((runAt 4 (Insn.move 3 sb12)).abortAc = none ∧ (stepS (runAt 4 (Insn.move 3 sb12))).dealer.fault.valid = false ∧ sb12.fmt.toNat < 3 ∧ (BitVec.toNat sb12.bytes % (4096 * transposedSize sb12.fmt.toNat) ≠ 0 ∨ wrap48 (areg (prog (runAt 4 (Insn.move 3 sb12)) (clean 4).prog) sb12.sreg.toNat) % 64 ≠ 0) ∧ Runs (stepS (runAt 4 (Insn.move 3 sb12))) (runAt 4 (Insn.move 3 sb12)) (clean 4) c0 (Insn.move 3 sb12)) ∧
    ((runAt 4 (Insn.move 0 sb13)).abortAc = none ∧ (stepS (runAt 4 (Insn.move 0 sb13))).dealer.fault.valid = false ∧ (65536 < BitVec.toNat sb13.wide % 65536 + BitVec.toNat sb13.bytes ∨ canRead (dieOf (clean 4).prog) (wrap48 (areg (prog (runAt 4 (Insn.move 0 sb13)) (clean 4).prog) sb13.sreg.toNat)) (BitVec.toNat sb13.bytes) = false) ∧ Runs (stepS (runAt 4 (Insn.move 0 sb13))) (runAt 4 (Insn.move 0 sb13)) (clean 4) c0 (Insn.move 0 sb13)) ∧
    ((runAt 4 (Insn.move 1 sb13)).abortAc = none ∧ (stepS (runAt 4 (Insn.move 1 sb13))).dealer.fault.valid = false ∧ (65536 < BitVec.toNat sb13.wide % 65536 + BitVec.toNat sb13.bytes ∨ canRead (dieOf (clean 4).prog) (wrap48 (areg (prog (runAt 4 (Insn.move 1 sb13)) (clean 4).prog) sb13.sreg.toNat)) (BitVec.toNat sb13.bytes) = false) ∧ Runs (stepS (runAt 4 (Insn.move 1 sb13))) (runAt 4 (Insn.move 1 sb13)) (clean 4) c0 (Insn.move 1 sb13)) ∧
    (canRead (dieOf (clean 4).prog) (wrap48 (areg (prog (runAt 4 (Insn.move 4 mvB)) (clean 4).prog) mvB.sreg.toNat)) (BitVec.toNat mvB.bytes) = true ∧ RunsOn (stepS (runAt 4 (Insn.move 4 mvB))) (runAt 4 (Insn.move 4 mvB)) (clean 4) c0 (Insn.move 4 mvB) ∧ BitVec.toNat mvB.wide % 65536 + BitVec.toNat mvB.bytes ≤ 16384 ∧ (∀ je ∈ maskEngines (stepS (runAt 4 (Insn.move 4 mvB))) (clean 4).prog mvB.mask, treeHolds (stepS (runAt 4 (Insn.move 4 mvB))) (runAt 4 (Insn.move 4 mvB)) (bankIdx je.2 mvB.bank.toNat) = false)) ∧
    (canRead (dieOf (clean 4).prog) (wrap48 (areg (prog (runAt 4 (Insn.move 6 mvF)) (clean 4).prog) mvF.sreg.toNat)) (BitVec.toNat mvF.bytes) = true ∧ RunsOn (stepS (runAt 4 (Insn.move 6 mvF))) (runAt 4 (Insn.move 6 mvF)) (clean 4) c0 (Insn.move 6 mvF) ∧ BitVec.toNat mvF.wide % 65536 + BitVec.toNat mvF.bytes ≤ 262144) ∧
    (canRead (dieOf (clean 4).prog) (wrap48 (areg (prog (runAt 4 (Insn.move 7 mvC)) (clean 4).prog) mvC.sreg.toNat)) (BitVec.toNat mvC.bytes) = true ∧ RunsOn (stepS (runAt 4 (Insn.move 7 mvC))) (runAt 4 (Insn.move 7 mvC)) (clean 4) c0 (Insn.move 7 mvC) ∧ BitVec.toNat mvC.wide % 65536 + BitVec.toNat mvC.bytes ≤ 65536) := by
  repeat' with_reducible refine And.intro ?_ ?_
  all_goals try first | with_reducible refine runsOn_of ?_ ?_ ?_ ?_ | with_reducible refine runs_of ?_ ?_
  all_goals decide +kernel

theorem wit_MemoryMoves :
    (RunsOn (stepS (runAt 4 (Insn.move 5 mvD))) (runAt 4 (Insn.move 5 mvD)) (clean 4) c0 (Insn.move 5 mvD) ∧ BitVec.toNat mvD.wide % 65536 + BitVec.toNat mvD.bytes ≤ 262144 ∧ canWrite (stepS (runAt 4 (Insn.move 5 mvD))) (dieOf (clean 4).prog) (wrap48 (areg (prog (runAt 4 (Insn.move 5 mvD)) (clean 4).prog) mvD.dreg.toNat)) (BitVec.toNat mvD.bytes) = true) ∧
    (RunsOn (stepS (runAt 4 (Insn.move 8 mvD))) (runAt 4 (Insn.move 8 mvD)) (clean 4) c0 (Insn.move 8 mvD) ∧ BitVec.toNat mvD.wide % 65536 + BitVec.toNat mvD.bytes ≤ 65536 ∧ canWrite (stepS (runAt 4 (Insn.move 8 mvD))) (dieOf (clean 4).prog) (wrap48 (areg (prog (runAt 4 (Insn.move 8 mvD)) (clean 4).prog) mvD.dreg.toNat)) (BitVec.toNat mvD.bytes) = true) ∧
    (RunsOn (stepS (runAt 4 (Insn.move 9 mvE))) (runAt 4 (Insn.move 9 mvE)) (clean 4) c0 (Insn.move 9 mvE) ∧ canRead (dieOf (clean 4).prog) (wrap48 (areg (prog (runAt 4 (Insn.move 9 mvE)) (clean 4).prog) mvE.sreg.toNat)) (BitVec.toNat mvE.bytes) = true ∧ canWrite (stepS (runAt 4 (Insn.move 9 mvE))) (dieOf (clean 4).prog) (wrap48 (areg (prog (runAt 4 (Insn.move 9 mvE)) (clean 4).prog) mvE.dreg.toNat)) (BitVec.toNat mvE.bytes) = true) ∧
    (RunsOn (stepS crossR) crossR (clean 32) c0 (Insn.move 12 mvX) ∧ canRead (dieOf (clean 32).prog) (wrap48 (areg (prog crossR (clean 32).prog) mvX.sreg.toNat)) (BitVec.toNat mvX.bytes) = true ∧ canWrite (stepS crossR) (BitVec.toNat mvX.wide % 4) (wrap48 (areg (prog crossR (clean 32).prog) mvX.dreg.toNat)) (BitVec.toNat mvX.bytes) = true) := by
  repeat' with_reducible refine And.intro ?_ ?_
  all_goals try with_reducible refine runsOn_of ?_ ?_ ?_ ?_
  all_goals decide +kernel

theorem wit_Streams :
    (RunsOn (stepS (runAt 32 (Insn.move 10 mvI))) (runAt 32 (Insn.move 10 mvI)) (clean 32) c0 (Insn.move 10 mvI) ∧ inSram (dieOf (clean 32).prog) (wrap48 (areg (prog (runAt 32 (Insn.move 10 mvI)) (clean 32).prog) mvI.dreg.toNat)) (BitVec.toNat mvI.bytes) = true ∧ inDram (dieOf (clean 32).prog) (wrap48 (areg (prog (runAt 32 (Insn.move 10 mvI)) (clean 32).prog) mvI.sreg.toNat)) (BitVec.toNat mvI.bytes) = true ∧ roShared (stepS (runAt 32 (Insn.move 10 mvI))) (wrap48 (areg (prog (runAt 32 (Insn.move 10 mvI)) (clean 32).prog) mvI.dreg.toNat)) (BitVec.toNat mvI.bytes) = false ∧ ((fun (dram : ℕ) => (streamPorts (stepS (runAt 32 (Insn.move 10 mvI))) (runAt 32 (Insn.move 10 mvI)) (clean 32).prog dram (BitVec.toNat mvI.bytes)).any (streamFifoFull (stepS (runAt 32 (Insn.move 10 mvI))))) (wrap48 (areg (prog (runAt 32 (Insn.move 10 mvI)) (clean 32).prog) mvI.sreg.toNat)) = false)) ∧
    (RunsOn st78 (runAt 32 (Insn.move 10 mvI)) (clean 32) c0 (Insn.move 10 mvI) ∧ inSram (dieOf (clean 32).prog) (wrap48 (areg (prog (runAt 32 (Insn.move 10 mvI)) (clean 32).prog) mvI.dreg.toNat)) (BitVec.toNat mvI.bytes) = true ∧ inDram (dieOf (clean 32).prog) (wrap48 (areg (prog (runAt 32 (Insn.move 10 mvI)) (clean 32).prog) mvI.sreg.toNat)) (BitVec.toNat mvI.bytes) = true ∧ roShared st78 (wrap48 (areg (prog (runAt 32 (Insn.move 10 mvI)) (clean 32).prog) mvI.dreg.toNat)) (BitVec.toNat mvI.bytes) = false ∧ ((fun (dram : ℕ) => (streamPorts st78 (runAt 32 (Insn.move 10 mvI)) (clean 32).prog dram (BitVec.toNat mvI.bytes)).any (streamFifoFull st78)) (wrap48 (areg (prog (runAt 32 (Insn.move 10 mvI)) (clean 32).prog) mvI.sreg.toNat)) = true)) ∧
    (RunsOn (stepS (runAt 32 (Insn.move 11 mvU))) (runAt 32 (Insn.move 11 mvU)) (clean 32) c0 (Insn.move 11 mvU) ∧ inSram (dieOf (clean 32).prog) (wrap48 (areg (prog (runAt 32 (Insn.move 11 mvU)) (clean 32).prog) mvU.sreg.toNat)) (BitVec.toNat mvU.bytes) = true ∧ inDram (dieOf (clean 32).prog) (wrap48 (areg (prog (runAt 32 (Insn.move 11 mvU)) (clean 32).prog) mvU.dreg.toNat)) (BitVec.toNat mvU.bytes) = true ∧ roShared (stepS (runAt 32 (Insn.move 11 mvU))) (wrap48 (areg (prog (runAt 32 (Insn.move 11 mvU)) (clean 32).prog) mvU.dreg.toNat)) (BitVec.toNat mvU.bytes) = false ∧ ((fun (dram : ℕ) => (streamPorts (stepS (runAt 32 (Insn.move 11 mvU))) (runAt 32 (Insn.move 11 mvU)) (clean 32).prog dram (BitVec.toNat mvU.bytes)).any (streamFifoFull (stepS (runAt 32 (Insn.move 11 mvU))))) (wrap48 (areg (prog (runAt 32 (Insn.move 11 mvU)) (clean 32).prog) mvU.dreg.toNat)) = false)) ∧
    (RunsOn st79 (runAt 32 (Insn.move 11 mvU)) (clean 32) c0 (Insn.move 11 mvU) ∧ inSram (dieOf (clean 32).prog) (wrap48 (areg (prog (runAt 32 (Insn.move 11 mvU)) (clean 32).prog) mvU.sreg.toNat)) (BitVec.toNat mvU.bytes) = true ∧ inDram (dieOf (clean 32).prog) (wrap48 (areg (prog (runAt 32 (Insn.move 11 mvU)) (clean 32).prog) mvU.dreg.toNat)) (BitVec.toNat mvU.bytes) = true ∧ roShared st79 (wrap48 (areg (prog (runAt 32 (Insn.move 11 mvU)) (clean 32).prog) mvU.dreg.toNat)) (BitVec.toNat mvU.bytes) = false ∧ ((fun (dram : ℕ) => (streamPorts st79 (runAt 32 (Insn.move 11 mvU)) (clean 32).prog dram (BitVec.toNat mvU.bytes)).any (streamFifoFull st79)) (wrap48 (areg (prog (runAt 32 (Insn.move 11 mvU)) (clean 32).prog) mvU.dreg.toNat)) = true)) ∧
    (Runs st80 (runAt 32 (Insn.move 11 mvU)) (clean 32) c0 (Insn.move 11 mvU) ∧ roShared st80 (wrap48 (areg (prog (runAt 32 (Insn.move 11 mvU)) (clean 32).prog) mvU.dreg.toNat)) (BitVec.toNat mvU.bytes) = true ∧ (runAt 32 (Insn.move 11 mvU)).abortAc = none ∧ st80.dealer.fault.valid = false) ∧
    (st82.dealer.run = some (runOf 4 ended0) ∧ (runOf 4 ended0).stopped = false ∧ 7 ≠ st82.host.nextOp ∧ opAt st82 7 = some (Op.stream st81) ∧ st81.served = false ∧ streamBehind st82 7 st81 = true) ∧
    ((streamS false false).dealer.run = some (runOf 4 ended0) ∧ (runOf 4 ended0).stopped = false ∧ 7 ≠ (streamS false false).host.nextOp ∧ opAt (streamS false false) 7 = some (Op.stream st81) ∧ st81.served = false ∧ streamBehind (streamS false false) 7 st81 = false ∧ st81.out = false ∧ st81.failed = false ∧ st81.awaits = [] ∧ badLines (streamS false false) (opLines (streamS false false) st81) = []) ∧
    ((streamS true false).dealer.run = some (runOf 4 ended0) ∧ (runOf 4 ended0).stopped = false ∧ 7 ≠ (streamS true false).host.nextOp ∧ opAt (streamS true false) 7 = some (Op.stream st83) ∧ st83.served = false ∧ streamBehind (streamS true false) 7 st83 = false ∧ st83.out = true ∧ st83.failed = false ∧ streamPieces (streamS true false) (runOf 4 ended0) st83.prog st83.dram st83.bytes = none) ∧
    ((streamS true true).dealer.run = some (runOf 4 ended0) ∧ (runOf 4 ended0).stopped = false ∧ 7 ≠ (streamS true true).host.nextOp ∧ opAt (streamS true true) 7 = some (Op.stream st84) ∧ st84.served = false ∧ streamBehind (streamS true true) 7 st84 = false ∧ st84.failed = true) ∧
    (st85.dealer.run = some (runOf 4 ended0) ∧ (runOf 4 ended0).stopped = false ∧ 7 ≠ st85.host.nextOp ∧ opAt st85 7 = some (Op.stream st81) ∧ st81.served = false ∧ streamBehind st85 7 st81 = false ∧ st81.out = false ∧ rereadDue st85 st81 = true) := by
  repeat' with_reducible refine And.intro ?_ ?_
  all_goals try first | with_reducible refine runsOn_of ?_ ?_ ?_ ?_ | with_reducible refine runs_of ?_ ?_
  all_goals decide +kernel

theorem wit_Multiplies :
    (RunsOn (mmaS mm 1) (runAt 4 (Insn.mma mm)) (clean 4) c0 (Insn.mma mm) ∧ (mm.start = 2 ∨ ∀ je ∈ maskEngines (mmaS mm 1) (clean 4).prog mm.mask, treeHolds (mmaS mm 1) (runAt 4 (Insn.mma mm)) (bankIdx je.2 mm.bank.toNat) = false) ∧ mmaFault (mmaS mm 1) (clean 4).prog (prog (runAt 4 (Insn.mma mm)) (clean 4).prog) mm = none ∧ ((List.map (fun (je : ℕ × ℕ) => je.2) (maskEngines (mmaS mm 1) (clean 4).prog mm.mask)).Nodup)) ∧
    (Runs (mmaS mm 0) (runAt 4 (Insn.mma mm)) (clean 4) c0 (Insn.mma mm) ∧ (runAt 4 (Insn.mma mm)).abortAc = none ∧ (mmaS mm 0).dealer.fault.valid = false ∧ (mm.start = 2 ∨ ∀ je ∈ maskEngines (mmaS mm 0) (clean 4).prog mm.mask, treeHolds (mmaS mm 0) (runAt 4 (Insn.mma mm)) (bankIdx je.2 mm.bank.toNat) = false) ∧ (∃ je ∈ maskEngines (mmaS mm 0) (clean 4).prog mm.mask, natAt (mmaS mm 0).units.bufFmt (halfIdx je.2 0 mm.ahalf.toNat) ≠ mm.fmt.toNat + 1)) ∧
    (Runs (mmaS mmK 3) (runAt 4 (Insn.mma mmK)) (clean 4) c0 (Insn.mma mmK) ∧ (runAt 4 (Insn.mma mmK)).abortAc = none ∧ (mmaS mmK 3).dealer.fault.valid = false ∧ (mmK.start = 2 ∨ ∀ je ∈ maskEngines (mmaS mmK 3) (clean 4).prog mmK.mask, treeHolds (mmaS mmK 3) (runAt 4 (Insn.mma mmK)) (bankIdx je.2 mmK.bank.toNat) = false) ∧ (∀ je ∈ maskEngines (mmaS mmK 3) (clean 4).prog mmK.mask, natAt (mmaS mmK 3).units.bufFmt (halfIdx je.2 0 mmK.ahalf.toNat) = mmK.fmt.toNat + 1 ∧ natAt (mmaS mmK 3).units.bufFmt (halfIdx je.2 1 mmK.bhalf.toNat) = mmK.fmt.toNat + 1 + 2 * mmK.bcol.toNat) ∧ mmaMaxK mmK.fmt.toNat < 32 * mmK.kq.toNat) ∧
    (Runs (mmaS mmK 3) (runAt 4 (Insn.mma mmK)) (clean 4) c0 (Insn.mma mmK) ∧ (runAt 4 (Insn.mma mmK)).abortAc = none ∧ (mmaS mmK 3).dealer.fault.valid = false ∧ (mmK.start = 2 ∨ ∀ je ∈ maskEngines (mmaS mmK 3) (clean 4).prog mmK.mask, treeHolds (mmaS mmK 3) (runAt 4 (Insn.mma mmK)) (bankIdx je.2 mmK.bank.toNat) = false) ∧ mmaFault (mmaS mmK 3) (clean 4).prog (prog (runAt 4 (Insn.mma mmK)) (clean 4).prog) mmK = some FaultCode.kRange) := by
  repeat' with_reducible refine And.intro ?_ ?_
  all_goals try first | with_reducible refine runsOn_of ?_ ?_ ?_ ?_ | with_reducible refine runs_of ?_ ?_
  all_goals decide +kernel

theorem wit_RowOperations :
    (insnRow (clean 4) c0 (Insn.row 0 rowF0) = some (Instr.lnFwd (clean 4) c0 rowF0) ∧ RunsOn (stepS (runAt 4 (Insn.row 0 rowF0))) (runAt 4 (Insn.row 0 rowF0)) (clean 4) c0 (Insn.row 0 rowF0) ∧ rowFault (stepS (runAt (4 : ℕ) (Insn.row (0 : BitVec (4 : ℕ)) rowF0))) (clean (4 : ℕ)) (runAt (4 : ℕ) (Insn.row (0 : BitVec (4 : ℕ)) rowF0)) (BitVec.toNat (0 : BitVec (4 : ℕ))) rowF0 (wrap48 (areg (prog (runAt (4 : ℕ) (Insn.row (0 : BitVec (4 : ℕ)) rowF0)) (clean (4 : ℕ)).prog) rowF0.xreg.toNat)) (wrap48 (areg (prog (runAt (4 : ℕ) (Insn.row (0 : BitVec (4 : ℕ)) rowF0)) (clean (4 : ℕ)).prog) (rowF0.xreg.toNat + (1 : ℕ)))) (wrap48 (areg (prog (runAt (4 : ℕ) (Insn.row (0 : BitVec (4 : ℕ)) rowF0)) (clean (4 : ℕ)).prog) rowF0.oreg.toNat)) = none) ∧
    (insnRow (clean 4) c0 (Insn.row 8 rowF0) = some (Instr.gradClear (clean 4) c0 rowF0) ∧ RunsOn (stepS (runAt 4 (Insn.row 8 rowF0))) (runAt 4 (Insn.row 8 rowF0)) (clean 4) c0 (Insn.row 8 rowF0) ∧ rowFault (stepS (runAt (4 : ℕ) (Insn.row (8 : BitVec (4 : ℕ)) rowF0))) (clean (4 : ℕ)) (runAt (4 : ℕ) (Insn.row (8 : BitVec (4 : ℕ)) rowF0)) (BitVec.toNat (8 : BitVec (4 : ℕ))) rowF0 (wrap48 (areg (prog (runAt (4 : ℕ) (Insn.row (8 : BitVec (4 : ℕ)) rowF0)) (clean (4 : ℕ)).prog) rowF0.xreg.toNat)) (wrap48 (areg (prog (runAt (4 : ℕ) (Insn.row (8 : BitVec (4 : ℕ)) rowF0)) (clean (4 : ℕ)).prog) (rowF0.xreg.toNat + (1 : ℕ)))) (wrap48 (areg (prog (runAt (4 : ℕ) (Insn.row (8 : BitVec (4 : ℕ)) rowF0)) (clean (4 : ℕ)).prog) rowF0.oreg.toNat)) = none) := by
  repeat' with_reducible refine And.intro ?_ ?_
  all_goals try with_reducible refine runsOn_of ?_ ?_ ?_ ?_
  all_goals decide +kernel

theorem wit_VectorOperations :
    (insnRow (clean 4) c0 (Insn.vec 0 vecF0) = some (Instr.add (clean 4) c0 vecF0) ∧ RunsOn (stepS (runAt 4 (Insn.vec 0 vecF0))) (runAt 4 (Insn.vec 0 vecF0)) (clean 4) c0 (Insn.vec 0 vecF0) ∧ vecFault (stepS (runAt (4 : ℕ) (Insn.vec (0 : BitVec (4 : ℕ)) vecF0))) (dieOf (clean (4 : ℕ)).prog) (prog (runAt (4 : ℕ) (Insn.vec (0 : BitVec (4 : ℕ)) vecF0)) (clean (4 : ℕ)).prog) (BitVec.toNat (0 : BitVec (4 : ℕ))) vecF0 = none) ∧
    (insnRow (clean 4) c0 (Insn.vec 2 sb14) = some (Instr.mul (clean 4) c0 sb14) ∧ RunsOn (stepS (runAt 4 (Insn.vec 2 sb14))) (runAt 4 (Insn.vec 2 sb14)) (clean 4) c0 (Insn.vec 2 sb14) ∧ vecFault (stepS (runAt (4 : ℕ) (Insn.vec (2 : BitVec (4 : ℕ)) sb14))) (dieOf (clean (4 : ℕ)).prog) (prog (runAt (4 : ℕ) (Insn.vec (2 : BitVec (4 : ℕ)) sb14)) (clean (4 : ℕ)).prog) (BitVec.toNat (2 : BitVec (4 : ℕ))) sb14 = none) ∧
    ((f32 2147483648).isZero = true) ∧
    ((f32 1).isZero = false) ∧
    ((f32 2143289345).isNan = true) := by
  repeat' with_reducible refine And.intro ?_ ?_
  all_goals try with_reducible refine runsOn_of ?_ ?_ ?_ ?_
  all_goals decide +kernel

theorem wit_TreesAndTopk :
    (Runs (stepS (treeR treeF1)) (treeR treeF1) (clean 4) c0 (Insn.tree 0 treeF1) ∧ groupMembers treeF1 8 = some [2, 3] ∧ ([drainE 2 3, drainE 3 3] = List.filterMap (fun (j : ℕ) => List.find? (fun (d : Drain) => decide (d.cluster = (clean 4).prog) && decide (d.engine = j) && decide (d.bank = treeF1.bank.toNat) && decide (d.action = 3)) (treeR treeF1).drains) [2, 3]) ∧ [drainE 2 3, drainE 3 3].length = [2, 3].length ∧ (treeF1.onward = 0 → canWrite (stepS (treeR treeF1)) (dieOf (clean 4).prog) (treeDest (prog (treeR treeF1) (clean 4).prog) treeF1) (treeBytes treeF1) = true) ∧ (treeBusy (treeR treeF1).nodes (treeReduce (1000 * (clean 4).prog) 6 treeF1.size.toNat 1 treeF1.base.toNat (List.map (fun (d : Drain) => (max d.doneAc ((prog (treeR treeF1) (clean 4).prog).ready + 1), d.tile)) [drainE 2 3, drainE 3 3])).2 = false)) ∧
    (((1 : ℕ) = (1 : ℕ) ∧ (1 : ℕ) = (1 : ℕ) ∨ (1 : ℕ) = (2 : ℕ) ∧ (1 : ℕ) = (2 : ℕ)) ∧ Runs (stepS ctreeR) ctreeR (clean 4) c0 (Insn.tree (1#4) treeF4) ∧ groupMembers treeF4 (if 1 = 1 then 8 else 4) = some [4, 5] ∧ [4, 5].contains (if 1 = 1 then (clean 4).prog % 8 else (clean 4).prog / 8) = true ∧ 2 ≤ [4, 5].length ∧ ctreeR.trees = [treeItem 1 4 treeF4] ∧ (treeItem 1 4 treeF4).waiting = false ∧ (treeItem 1 4 treeF4).level = 1 ∧ (treeItem 1 4 treeF4).cluster = (clean 4).prog ∧ (treeF4.onward = 0 → canWrite (stepS ctreeR) (dieOf (clean 4).prog) (treeDest (prog ctreeR (clean 4).prog) treeF4) (treeBytes treeF4) = true)) ∧
    (((1 : ℕ) = (1 : ℕ) ∧ (1 : ℕ) = (1 : ℕ) ∨ (1 : ℕ) = (2 : ℕ) ∧ (1 : ℕ) = (2 : ℕ)) ∧ Runs (stepS lastR) lastR (clean 5) c0 (Insn.tree (1#4) treeL) ∧ groupMembers treeL (if 1 = 1 then 8 else 4) = some [4, 4 + 1] ∧ (if 1 = 1 then (clean 5).prog % 8 else (clean 5).prog / 8) = 4 + 1 ∧ ((fun (k : ℕ) => if 1 = 1 then k else k / 8) (partner 4 treeL).cluster + 1 = (fun (k : ℕ) => if 1 = 1 then k else k / 8) (clean 5).prog) ∧ lastR.trees = [partner 4 treeL, treeItem 1 5 treeL] ∧ (partner 4 treeL).waiting = true ∧ (treeItem 1 5 treeL).waiting = false ∧ (partner 4 treeL).level = 1 ∧ (treeItem 1 5 treeL).level = 1 ∧ (treeItem 1 5 treeL).cluster = (clean 5).prog ∧ (partner 4 treeL).field.size = treeL.size ∧ (partner 4 treeL).field.base = treeL.base ∧ (partner 4 treeL).field.onward = 0 ∧ ((partner 4 treeL).nth = natAt lastR.matched (((1 * 4 + treeL.size.toNat) * 8 + treeL.base.toNat) * 64 + (fun (k : ℕ) => if 1 = 1 then k else k / 8) (clean 5).prog)) ∧ treeBusy lastR.nodes (treeReduce (if 1 = 1 then 100000 + 1000 * ((clean 5).prog / 8) else 200000) (if 1 = 1 then 9 else 49) treeL.size.toNat 1 treeL.base.toNat [((partner 4 treeL).ac, (partner 4 treeL).rows), (max (treeItem 1 5 treeL).ac ((prog lastR (clean 5).prog).ready + 1), (treeItem 1 5 treeL).rows)]).2 = false) ∧
    (RunsOn (stepS (runAt 4 (Insn.topk topkF0))) (runAt 4 (Insn.topk topkF0)) (clean 4) c0 (Insn.topk topkF0) ∧ topkF0.km1.toNat + 1 ≤ topkF0.nm1.toNat + 1 ∧ canRead (dieOf (clean 4).prog) (wrap48 (areg (prog (runAt 4 (Insn.topk topkF0)) (clean 4).prog) topkF0.sreg.toNat)) ((topkF0.vm1.toNat + 1) * (topkF0.nm1.toNat + 1) * if topkF0.infmt = 1 then 2 else 4) = true ∧ canWrite (stepS (runAt 4 (Insn.topk topkF0))) (dieOf (clean 4).prog) (wrap48 (areg (prog (runAt 4 (Insn.topk topkF0)) (clean 4).prog) topkF0.dreg.toNat)) ((topkF0.vm1.toNat + 1) * 8 * (topkF0.km1.toNat + 1)) = true) := by
  repeat' with_reducible refine And.intro ?_ ?_
  all_goals try first | with_reducible refine runs_of ?_ ?_ | with_reducible refine runsOn_of ?_ ?_ ?_ ?_
  all_goals first | with_reducible exact stepS_run _ | with_reducible exact treeF1_drains | decide +kernel

theorem wit_SyncInstructions :
    (Runs (stepS (runAt 4 (Insn.signal 5 19 5))) (runAt 4 (Insn.signal 5 19 5)) (clean 4) c0 (Insn.signal 5 19 5)) ∧
    (RunsOn (stepS (arrived 1 false)) (arrived 1 false) (clean 4) c0 (Insn.await 1 1) ∧ (waitPt (prog (arrived (1 : ℕ) false) (clean (4 : ℕ)).prog) (BitVec.toNat (1 : BitVec (10 : ℕ)))).failed = false ∧ BitVec.toNat (1 : W16) ≤ (waitPt (prog (arrived (1 : ℕ) false) (clean (4 : ℕ)).prog) (BitVec.toNat (1 : BitVec (10 : ℕ)))).arrivals.length) ∧
    (RunsOn (stepS (arrived 2 false)) (arrived 2 false) (clean 4) c0 (Insn.await 1 2) ∧ (waitPt (prog (arrived (2 : ℕ) false) (clean (4 : ℕ)).prog) (BitVec.toNat (1 : BitVec (10 : ℕ)))).failed = false ∧ (waitPt (prog (arrived (2 : ℕ) false) (clean (4 : ℕ)).prog) (BitVec.toNat (1 : BitVec (10 : ℕ)))).arrivals.length < BitVec.toNat (2 : W16)) ∧
    (Runs (stepS (arrived 1 true)) (arrived 1 true) (clean 4) c0 (Insn.await 1 1) ∧ (waitPt (prog (arrived (1 : ℕ) true) (clean (4 : ℕ)).prog) (BitVec.toNat (1 : BitVec (10 : ℕ)))).failed = true ∧ (arrived 1 true).abortAc = none ∧ (stepS (arrived 1 true)).dealer.fault.valid = false) ∧
    (RunsOn (stepS (runAt 4 (Insn.collStart 1 5 16 0))) (runAt 4 (Insn.collStart 1 5 16 0)) (clean 4) c0 (Insn.collStart 1 5 16 0) ∧ areg (prog (runAt (4 : ℕ) (Insn.collStart (1 : BitVec (5 : ℕ)) (5 : BitVec (10 : ℕ)) (16 : W32) (0 : BitVec (4 : ℕ)))) (clean (4 : ℕ)).prog) (BitVec.toNat (1 : BitVec (5 : ℕ))) % (64 : ℕ) = (0 : ℕ) ∧ areg (prog (runAt (4 : ℕ) (Insn.collStart (1 : BitVec (5 : ℕ)) (5 : BitVec (10 : ℕ)) (16 : W32) (0 : BitVec (4 : ℕ)))) (clean (4 : ℕ)).prog) (BitVec.toNat (1 : BitVec (5 : ℕ))) < (2 : ℕ) ^ (48 : ℕ) ∧ canRead (dieOf (clean (4 : ℕ)).prog) (areg (prog (runAt (4 : ℕ) (Insn.collStart (1 : BitVec (5 : ℕ)) (5 : BitVec (10 : ℕ)) (16 : W32) (0 : BitVec (4 : ℕ)))) (clean (4 : ℕ)).prog) (BitVec.toNat (1 : BitVec (5 : ℕ)))) (64 : ℕ) = true) := by
  repeat' with_reducible refine And.intro ?_ ?_
  all_goals try first | with_reducible refine runs_of ?_ ?_ | with_reducible refine runsOn_of ?_ ?_ ?_ ?_
  all_goals decide +kernel

theorem wit_ControlInstructions :
    (Runs (stepS (ctrlR (Insn.lset 4 9))) (ctrlR (Insn.lset 4 9)) (clean 4) c0 (Insn.lset 4 9)) ∧
    (branchTarget (prog (ctrlR (Insn.jump 1)) (clean 4).prog) 1 = some 1 ∧ Runs (stepS (ctrlR (Insn.jump 1))) (ctrlR (Insn.jump 1)) (clean 4) c0 (Insn.jump 1)) ∧
    (branchTarget (prog (ctrlR (Insn.bnz 2 1)) (clean 4).prog) 1 = some 1 ∧ (1 : ℕ) < (lreg (prog (ctrlR (Insn.bnz (2 : BitVec (4 : ℕ)) (1 : W16))) (clean (4 : ℕ)).prog) (BitVec.toNat (2 : BitVec (4 : ℕ)))).toNat ∧ Runs (stepS (ctrlR (Insn.bnz 2 1))) (ctrlR (Insn.bnz 2 1)) (clean 4) c0 (Insn.bnz 2 1)) ∧
    (lreg (prog (ctrlR (Insn.bnz (3 : BitVec (4 : ℕ)) (1 : W16))) (clean (4 : ℕ)).prog) (BitVec.toNat (3 : BitVec (4 : ℕ))) = (1 : BitVec (24 : ℕ)) ∧ Runs (stepS (ctrlR (Insn.bnz 3 1))) (ctrlR (Insn.bnz 3 1)) (clean 4) c0 (Insn.bnz 3 1)) ∧
    (branchTarget (prog (ctrlR (Insn.bvar 0 true 1)) (clean 4).prog) 1 = some 1 ∧ BitVec.getLsbD (ctrlR (Insn.bvar (0 : BitVec (3 : ℕ)) true (1 : W16))).variant (BitVec.toNat (0 : BitVec (3 : ℕ))) = true ∧ Runs (stepS (ctrlR (Insn.bvar 0 true 1))) (ctrlR (Insn.bvar 0 true 1)) (clean 4) c0 (Insn.bvar 0 true 1)) ∧
    (BitVec.getLsbD (ctrlR (Insn.bvar (0 : BitVec (3 : ℕ)) false (1 : W16))).variant (BitVec.toNat (0 : BitVec (3 : ℕ))) ≠ false ∧ Runs (stepS (ctrlR (Insn.bvar 0 false 1))) (ctrlR (Insn.bvar 0 false 1)) (clean 4) c0 (Insn.bvar 0 false 1)) ∧
    (Runs (stepS (ctrlR (Insn.seta 1 99))) (ctrlR (Insn.seta 1 99)) (clean 4) c0 (Insn.seta 1 99)) ∧
    (Runs (stepS (ctrlR (Insn.adda 1 7))) (ctrlR (Insn.adda 1 7)) (clean 4) c0 (Insn.adda 1 7)) ∧
    (Runs (stepS (ctrlR (Insn.nop 6))) (ctrlR (Insn.nop 6)) (clean 4) c0 (Insn.nop 6)) ∧
    (Runs (stepS (ctrlR Insn.stop)) (ctrlR Insn.stop) (clean 4) c0 Insn.stop) ∧
    (Runs (stepS (ctrlR (Insn.inc 1 3))) (ctrlR (Insn.inc 1 3)) (clean 4) c0 (Insn.inc 1 3)) ∧
    (Runs (stepS (ctrlR (Insn.stamp 1))) (ctrlR (Insn.stamp 1)) (clean 4) c0 (Insn.stamp 1)) ∧
    (Runs (stepS (ctrlR (Insn.dump 2))) (ctrlR (Insn.dump 2)) (clean 4) c0 (Insn.dump 2) ∧ areg (prog (ctrlR (Insn.dump (2 : BitVec (5 : ℕ)))) (clean (4 : ℕ)).prog) (BitVec.toNat (2 : BitVec (5 : ℕ))) % (64 : ℕ) = (0 : ℕ) ∧ canWrite (stepS (ctrlR (Insn.dump (2 : BitVec (5 : ℕ))))) (dieOf (clean (4 : ℕ)).prog) (areg (prog (ctrlR (Insn.dump (2 : BitVec (5 : ℕ)))) (clean (4 : ℕ)).prog) (BitVec.toNat (2 : BitVec (5 : ℕ)))) (64 : ℕ) = true) ∧
    ((ctrlR (Insn.jump 5)).abortAc = none ∧ (stepS (ctrlR (Insn.jump 5))).dealer.fault.valid = false ∧ branchTarget (prog (ctrlR (Insn.jump 5)) (clean 4).prog) 5 = none ∧ Runs (stepS (ctrlR (Insn.jump 5))) (ctrlR (Insn.jump 5)) (clean 4) c0 (Insn.jump 5)) ∧
    ((ctrlR (Insn.bnz 5 1)).abortAc = none ∧ (stepS (ctrlR (Insn.bnz 5 1))).dealer.fault.valid = false ∧ lreg (prog (ctrlR (Insn.bnz (5 : BitVec (4 : ℕ)) (1 : W16))) (clean (4 : ℕ)).prog) (BitVec.toNat (5 : BitVec (4 : ℕ))) = (0 : BitVec (24 : ℕ)) ∧ Runs (stepS (ctrlR (Insn.bnz 5 1))) (ctrlR (Insn.bnz 5 1)) (clean 4) c0 (Insn.bnz 5 1)) ∧
    ((ctrlR (Insn.bnz 2 7)).abortAc = none ∧ (stepS (ctrlR (Insn.bnz 2 7))).dealer.fault.valid = false ∧ branchTarget (prog (ctrlR (Insn.bnz 2 7)) (clean 4).prog) 7 = none ∧ (1 : ℕ) < (lreg (prog (ctrlR (Insn.bnz (2 : BitVec (4 : ℕ)) (7 : W16))) (clean (4 : ℕ)).prog) (BitVec.toNat (2 : BitVec (4 : ℕ)))).toNat ∧ Runs (stepS (ctrlR (Insn.bnz 2 7))) (ctrlR (Insn.bnz 2 7)) (clean 4) c0 (Insn.bnz 2 7)) ∧
    ((ctrlR (Insn.dump 5)).abortAc = none ∧ (stepS (ctrlR (Insn.dump 5))).dealer.fault.valid = false ∧ areg (prog (ctrlR (Insn.dump (5 : BitVec (5 : ℕ)))) (clean (4 : ℕ)).prog) (BitVec.toNat (5 : BitVec (5 : ℕ))) % (64 : ℕ) ≠ (0 : ℕ) ∧ Runs (stepS (ctrlR (Insn.dump 5))) (ctrlR (Insn.dump 5)) (clean 4) c0 (Insn.dump 5)) ∧
    (st86.abortAc = none ∧ (stepS (runOf 4 sb15)).dealer.fault.valid = false ∧ areg (prog st86 (clean (4 : ℕ)).prog) (BitVec.toNat (6 : BitVec (5 : ℕ))) % (64 : ℕ) = (0 : ℕ) ∧ canWrite (stepS (runOf (4 : ℕ) sb15)) (dieOf (clean (4 : ℕ)).prog) (areg (prog st86 (clean (4 : ℕ)).prog) (BitVec.toNat (6 : BitVec (5 : ℕ)))) (64 : ℕ) = false ∧ Runs (stepS (runOf 4 sb15)) st86 (clean 4) c0 (Insn.dump 6)) := by
  repeat' with_reducible refine And.intro ?_ ?_
  all_goals try with_reducible refine runs_of ?_ ?_
  all_goals decide +kernel

theorem wit_PortActivity :
    ((0 : ℕ) < (12 : ℕ) ∧ portStreams st87 0 = true ∧ bgWaits st87 0 = true) ∧
    ((11 : ℕ) < (12 : ℕ) ∧ (portStreams (streamS false false) 11 && bgWaits (streamS false false) 11) = false) ∧
    ((0 : ℕ) < (12 : ℕ) ∧ (1 : ℕ) < (2 : ℕ) ^ (29 : ℕ) ∧ storedFault (streamS false false) (lineKey 0 1) = none ∧ blockShut (streamS false false) (32 + 0) = false ∧ opAt (streamS false false) 7 = some (Op.stream st81) ∧ st81.out = false ∧ st81.served = false ∧ st81.failed = false ∧ (opLines (streamS false false) st81).contains (lineKey 0 1) = true ∧ st81.reread.contains (lineKey 0 1) = false) ∧
    ((1 : ℕ) < (12 : ℕ) ∧ (Tab.get (fun (x : ℕ) => []) st88.tiers.corrQueue 1 = [5, 6])) ∧
    ((2 : ℕ) < (12 : ℕ) ∧ st89.dealer.run = none ∧ st89.resets.powered = true ∧ blockShut st89 (32 + 2) = false ∧ storedFault st89 (lineKey 2 (natAt st89.tiers.scrubNext 2)) = none ∧ checkLine st89 (lineKey 2 (natAt st89.tiers.scrubNext 2)) (rawOk 5) = LineRead.clean) ∧
    (storedFault State.reset 268435456 = none) := by
  repeat' with_reducible refine And.intro ?_ ?_
  all_goals decide +kernel

theorem wit_LineRepairs :
    (NobodyWaits repairS ∧ repairS.tiers.repairs = [repair0] ∧ repair0.rewriting = false ∧ sourceLine repairS repair0 (some (bytesN 256)) = some st90) ∧
    (NobodyWaits repairS ∧ repairS.tiers.repairs = [repair0] ∧ repair0.rewriting = false ∧ nextSource repairS repair0.object repair0.line (repair0.source + 1) = none) ∧
    ((0 : ℕ) < (12 : ℕ) ∧ NobodyWaits st91 ∧ st91.tiers.repairs = [sb16] ∧ sb16.rewriting = true ∧ sb16.line = lineKey 0 0 ∧ (obj st91 sb16.object).poison = Poison.repairing) ∧
    ((11 : ℕ) < (12 : ℕ)) ∧
    (repairS.resets.mgood = true) := by
  repeat' with_reducible refine And.intro ?_ ?_
  all_goals try with_reducible refine nobody_of ?_ ?_ ?_
  all_goals decide +kernel

theorem wit_FlashMaintenance :
    (st92 < 4 ∧ opAt flashS 7 = some (Op.move (ticket0 3) flashMove [] []) ∧ flashMove.mode = 1 ∧ codewordAt flashS (obj flashS (BitVec.toNat flashMove.src)) 0 st92 = true ∧ BitVec.toNat flashMove.srcOffset ≤ 0 ∧ 0 < BitVec.toNat flashMove.srcOffset + BitVec.toNat flashMove.bytes) ∧
    ((3 : ℕ) < (4 : ℕ) ∧ (layer flashS 3).ready = true) ∧
    ((1 : ℕ) < (4 : ℕ) ∧ formatS.resets.mgood = true ∧ (layer formatS 1).ready = false ∧ blockShut formatS (44 + 1) = false ∧ formatS.host.ops = []) ∧
    ((1 : ℕ) < (4 : ℕ) ∧ (layer formatS 1).ready = false) := by
  repeat' with_reducible refine And.intro ?_ ?_
  all_goals decide +kernel

theorem wit_LinkTrainingAndKeys :
    ((3 : ℕ) < (16 : ℕ) ∧ mayLink (linkS LinkState.training true) 3 = true ∧ ((uport (linkS LinkState.training true) 3).state = LinkState.down ∨ (uport (linkS LinkState.training true) 3).state = LinkState.training)) ∧
    ((3 : ℕ) < (16 : ℕ) ∧ mayLink (linkS LinkState.down true) 3 = true ∧ (uport (linkS LinkState.down true) 3).state = LinkState.down) ∧
    ((3 : ℕ) < (16 : ℕ) ∧ linkOn (uport (linkS LinkState.up true) 3) = true) ∧
    ((3 : ℕ) < (16 : ℕ) ∧ linkOn (uport (linkS LinkState.disabled true) 3) = false) ∧
    ((3 : ℕ) < (16 : ℕ) ∧ linkOn (uport (linkS LinkState.up false) 3) = true ∧ (uport (linkS LinkState.up false) 3).encrypt = false) ∧
    ((3 : ℕ) < (16 : ℕ) ∧ (uport (peerS none) 3).state = LinkState.keying ∧ (uport (peerS none) 3).encrypt = true ∧ (uport (peerS none) 3).peerNode < (peerS none).unlia.nodeId) ∧
    ((3 : ℕ) < (16 : ℕ) ∧ (uport (peerS (some 6)) 3).state = LinkState.keying ∧ (uport (peerS (some 6)) 3).kemId.isSome = true) ∧
    ((3 : ℕ) < (16 : ℕ) ∧ (uport (peerS (some 6)) 3).state = LinkState.keying ∧ (uport (peerS (some 6)) 3).pendRx ≠ []) ∧
    ((15 : ℕ) < (16 : ℕ)) := by
  repeat' with_reducible refine And.intro ?_ ?_
  all_goals decide +kernel

theorem wit_FlitsAndSlots :
    ((3 : ℕ) < (16 : ℕ) ∧ linkOn (uport (linkS LinkState.up false) 3) = true ∧ flitCrcOk badFlit = false) ∧
    ((3 : ℕ) < (16 : ℕ) ∧ linkOn (uport (linkS LinkState.up false) 3) = true ∧ flitCrcOk (flitBytes flit0) = true ∧ (flitOf (flitBytes flit0)).kind = 0 ∧ (flitOf (flitBytes flit0)).seq = (uport (linkS LinkState.up false) 3).expected ∧ (uport (linkS LinkState.up false) 3).rxKey = [] ∧ carries (linkS LinkState.up false) 3 (flitOf (flitBytes flit0)).vc.toNat = true ∧ (flitOf (flitBytes flit0)).dst = (linkS LinkState.up false).unlia.nodeId) ∧
    ((3 : ℕ) < (16 : ℕ) ∧ linkOn (uport (linkS LinkState.up false) 3) = true ∧ flitCrcOk (flitBytes sb17) = true ∧ (flitOf (flitBytes sb17)).kind = 0 ∧ (flitOf (flitBytes sb17)).seq ≠ (uport (linkS LinkState.up false) 3).expected) ∧
    ((3 : ℕ) < (16 : ℕ) ∧ linkOn (uport (linkS LinkState.up false) 3) = true ∧ flitCrcOk (flitBytes sb18) = true ∧ (flitOf (flitBytes sb18)).kind ≠ 0) ∧
    ((3 : ℕ) < (16 : ℕ) ∧ linkOn (uport (linkS LinkState.up false) 3) = true ∧ (uport (linkS LinkState.up false) 3).nakSeq ≠ 7) ∧
    ((3 : ℕ) < (16 : ℕ) ∧ (linkS LinkState.down false).framed = (linkS LinkState.down false).out.length ∧ linkOn (uport (linkS LinkState.down false) 3) = false) ∧
    ((3 : ℕ) < (16 : ℕ) ∧ (slotS LinkState.up true [flit0]).framed = (slotS LinkState.up true [flit0]).out.length ∧ linkOn (uport (slotS LinkState.up true [flit0]) 3) = true ∧ (uport (slotS LinkState.up true [flit0]) 3).sendNak = true) ∧
    ((3 : ℕ) < (16 : ℕ) ∧ st93.framed = st93.out.length ∧ linkOn (uport st93 3) = true ∧ (uport st93 3).sendNak = false ∧ (uport st93 3).sendSwitch = true ∧ (uport st93 3).rxKey = []) ∧
    ((3 : ℕ) < (16 : ℕ) ∧ (slotS LinkState.keying false [flit0]).framed = (slotS LinkState.keying false [flit0]).out.length ∧ linkOn (uport (slotS LinkState.keying false [flit0]) 3) = true ∧ (uport (slotS LinkState.keying false [flit0]) 3).sendNak = false ∧ (uport (slotS LinkState.keying false [flit0]) 3).sendSwitch = false ∧ (uport (slotS LinkState.keying false [flit0]) 3).resend = [flit0]) ∧
    ((3 : ℕ) < (16 : ℕ) ∧ queuedS.framed = queuedS.out.length ∧ linkOn (uport queuedS 3) = true ∧ (uport queuedS 3).sendNak = false ∧ (uport queuedS 3).sendSwitch = false ∧ (uport queuedS 3).resend = [] ∧ (uport queuedS 3).txQueue = [(16, flit0)] ∧ (16 : ℕ) < (17 : ℕ) ∧ (uport queuedS 3).txKey = [] ∧ nextChannel queuedS 3 5 (uport queuedS 3).roundWeights (natAt (uport queuedS 3).served 0 % 4) (natAt (uport queuedS 3).served 1) = some (flit0.vc.toNat, 0, 4934)) ∧
    ((3 : ℕ) < (16 : ℕ) ∧ (slotS LinkState.up false []).framed = (slotS LinkState.up false []).out.length ∧ linkOn (uport (slotS LinkState.up false []) 3) = true ∧ (uport (slotS LinkState.up false []) 3).sendNak = false ∧ (uport (slotS LinkState.up false []) 3).sendSwitch = false ∧ (uport (slotS LinkState.up false []) 3).resend = [] ∧ (uport (slotS LinkState.up false []) 3).txQueue = []) := by
  repeat' with_reducible refine And.intro ?_ ?_
  all_goals first | with_reducible exact badFlit_bad | with_reducible exact flitCrcOk_flitBytes _ | decide +kernel

theorem wit_HopCounts :
    (st94 ∈ cutFlits 244 1 5 6 3 true [1, 2]) ∧
    ((3 : ℕ) < (16 : ℕ) ∧ linkOn (uport (linkS LinkState.up false) 3) = true ∧ flitCrcOk (flitBytes sb19) = true ∧ (flitOf (flitBytes sb19)).kind = 0 ∧ (flitOf (flitBytes sb19)).seq = (uport (linkS LinkState.up false) 3).expected ∧ (uport (linkS LinkState.up false) 3).rxKey = [] ∧ carries (linkS LinkState.up false) 3 (flitOf (flitBytes sb19)).vc.toNat = true ∧ (linkS LinkState.up false).unlia.nodeValid = true ∧ (flitOf (flitBytes sb19)).dst ≠ (linkS LinkState.up false).unlia.nodeId ∧ (flitOf (flitBytes sb19)).hops = 0) ∧
    ((3 : ℕ) < (16 : ℕ) ∧ linkOn (uport st95 3) = true ∧ flitCrcOk (flitBytes onward0) = true ∧ (flitOf (flitBytes onward0)).kind = 0 ∧ (flitOf (flitBytes onward0)).seq = (uport st95 3).expected ∧ (uport st95 3).rxKey = [] ∧ carries st95 3 (flitOf (flitBytes onward0)).vc.toNat = true ∧ st95.unlia.nodeValid = true ∧ (flitOf (flitBytes onward0)).dst ≠ st95.unlia.nodeId ∧ (flitOf (flitBytes onward0)).hops ≠ 0 ∧ routeOf st95 (flitOf (flitBytes onward0)).dst 3 = Except.ok 4) := by
  repeat' with_reducible refine And.intro ?_ ?_
  all_goals first | with_reducible exact flitCrcOk_flitBytes _ | decide +kernel

theorem wit_PositionsLost :
    (mgmtServes lossS = true) ∧
    ((3 : ℕ) < (16 : ℕ) ∧ (uport lossS 3).peerNode = 68) ∧
    ((3 : ℕ) < (16 : ℕ) ∧ (uport lossS 3).state = LinkState.up ∧ lossS.resets.mgood = true ∧ lossS.unlia.lossSeen.contains (1, 2, 3) = true) ∧
    ((3 : ℕ) < (16 : ℕ) ∧ (uport lossS 3).state = LinkState.up ∧ lossS.resets.mgood = true ∧ lossS.unlia.lossSeen.contains (6, 68, 3) = false ∧ (position lossS (BitVec.toNat (6 : BitVec (14 : ℕ)))).state ≠ (2 : ℕ) ∧ lossS.unlia.colls = [] ∧ lossS.dealer.building = none ∧ lossS.dealer.castles = []) ∧
    ((3 : ℕ) < (16 : ℕ) ∧ probeOver lossP 3 = true ∧ lossP.resets.mgood = true ∧ positionOf lossP (uport lossP 3).peerNode = some 6 ∧ (6 : ℕ) < (16384 : ℕ) ∧ (position lossP 6).state ≠ 2 ∧ lossP.unlia.colls = [] ∧ lossP.dealer.building = none ∧ lossP.dealer.castles = []) ∧
    ((3 : ℕ) < (16 : ℕ) ∧ probeOver st96 3 = false) := by
  repeat' with_reducible refine And.intro ?_ ?_
  all_goals decide +kernel

theorem wit_DealerRoles :
    ((halvesS Half.west false [] 0).dealer.needAck = some 44 ∧ Half.east ≠ (halvesS Half.west false [] 0).dealer.lead ∧ (halvesS Half.west false [] 0).dealer.split = false ∧ (halvesS Half.west false [] 0).resets.mgood = true) ∧
    ((halvesS Half.west false [] 0).resets.mgood = true ∧ (halvesS Half.west false [] 0).dealer.split = false ∧ (halvesS Half.west false [] 0).dealer.phase ≠ Phase.fenced) ∧
    (asks (halvesS Half.west true [(0, 5)] 0) Half.west = true ∧ (halvesS Half.west true [(0, 5)] 0).resets.glarenReady = true ∧ Half.west = (halvesS Half.west true [(0, 5)] 0).dealer.grant) ∧
    (asks (halvesS Half.west true [(1, 5)] 1999) Half.east = true ∧ (halvesS Half.west true [(1, 5)] 1999).resets.glarenReady = true ∧ Half.east ≠ (halvesS Half.west true [(1, 5)] 1999).dealer.grant ∧ westSilent (halvesS Half.west true [(1, 5)] 1999) = false) ∧
    (asks (halvesS Half.west true [(0, 5), (1, 5)] 2000) Half.east = true ∧ (halvesS Half.west true [(0, 5), (1, 5)] 2000).resets.glarenReady = true ∧ westSilent (halvesS Half.west true [(0, 5), (1, 5)] 2000) = true) ∧
    (asks (halvesS Half.west true [(0, 5), (1, 5)] 2000) Half.west = true ∧ isFenced (halvesS Half.west true [(0, 5), (1, 5)] 2000) Half.west = false ∧ Half.west = (halvesS Half.west true [(0, 5), (1, 5)] 2000).dealer.grant) ∧
    (asks st97 Half.west = true ∧ (isFenced st97 Half.west = true ∨ Half.west ≠ st97.dealer.grant)) ∧
    (asks (halvesS Half.west true [(0, 5), (1, 5)] 2000) Half.west = true ∧ isFenced (halvesS Half.west true [(0, 5), (1, 5)] 2000) (Half.other Half.west) = false ∧ (halvesS Half.west true [(0, 5), (1, 5)] 2000).dealer.run = none) ∧
    (asks st98 Half.west = true ∧ isFenced st98 (Half.other Half.west) = true ∧ st98.dealer.run = none) ∧
    (asks (halvesS Half.west true [(0, 0 - 1000)] 0) Half.west = true ∧ (List.find? (fun (x : ℕ × W64) => decide (x.1 = Half.idx Half.west)) (halvesS Half.west true [(0, 0 - 1000)] 0).dealer.queries = some (0, 0 - 1000)) ∧ 1000 ≤ BitVec.toNat ((halvesS Half.west true [(0, 0 - 1000)] 0).tick - (0, 0 - 1000).2)) ∧
    (asks (halvesS Half.west true [(0, 0 - 999)] 0) Half.west = true ∧ (List.find? (fun (x : ℕ × W64) => decide (x.1 = Half.idx Half.west)) (halvesS Half.west true [(0, 0 - 999)] 0).dealer.queries = some (0, 0 - 999)) ∧ BitVec.toNat ((halvesS Half.west true [(0, 0 - 999)] 0).tick - (0, 0 - 999).2) < 1000) := by
  repeat' with_reducible refine And.intro ?_ ?_
  all_goals decide +kernel

theorem wit_WatchdogsAndTwins :
    (upS.resets.mgood = true ∧ upS.resets.glarenReady = true) ∧
    ((beatS 20000 30000).resets.glarenReady = true ∧ canWarm (beatS 20000 30000) = true ∧ (beatS 20000 30000).resets.warmHeld = false ∧ (beatS 20000 30000).resets.warmAt = none ∧ 20000 ≤ BitVec.toNat ((beatS 20000 30000).tick - Tab.get zero64 (beatS 20000 30000).dealer.heartbeat 0) ∧ 20000 ≤ BitVec.toNat ((beatS 20000 30000).tick - Tab.get zero64 (beatS 20000 30000).dealer.heartbeat 1)) ∧
    (BitVec.toNat ((beatS 19999 30000).tick - Tab.get zero64 (beatS 19999 30000).dealer.heartbeat 0) < 20000) ∧
    (upS.resets.powered = true ∧ upS.resets.glarenReady = true ∧ upS.dealer.held = none ∧ upS.resets.selfResets = []) ∧
    (st99.resets.selfResets = [upS.glaren.gcTick - 600000000, upS.glaren.gcTick - 5] ∧ BitVec.toNat (st99.glaren.gcTick - (upS.glaren.gcTick - 600000000)) ≤ 600000000 ∧ BitVec.toNat (st99.glaren.gcTick - (upS.glaren.gcTick - 5)) ≤ 600000000 ∧ canWarm st99 = true ∧ st99.resets.glarenReady = true ∧ st99.dealer.held = none ∧ st99.resets.warmHeld = false ∧ st99.resets.warmAt = none) ∧
    (st100.resets.powered = true ∧ st100.resets.glarenReady = false ∧ st100.resets.heldRecords = [] ∧ st100.resets.droppedRecords = 0 ∧ st100.glaren.update.nextAction ≠ 1 ∧ (portSt st100 Port.A).heldMove = none ∧ (portSt st100 Port.B).heldMove = none ∧ BitVec.toNat st100.glaren.sbNext % 65536 ≠ 0) ∧
    ((twinS false).conceal.armed = false) ∧
    ((twinS true).conceal.armed = true ∧ (twinS true).conceal.mismatch = false ∧ (twinS true).conceal.ownReports = [report5] ∧ (twinS true).conceal.twinReports = [] ∧ report5.step = 5 ∧ report5.digest = 99 ∧ report5.plyId = 7 ∧ report5.abandoned = false) ∧
    ((twinS true).conceal.armed = true ∧ (twinS true).conceal.mismatch = false ∧ (twinS true).conceal.ownReports = [report5] ∧ (twinS true).conceal.twinReports = [] ∧ report5.step = 5 ∧ report5.digest ≠ 98 ∧ report5.abandoned = false ∧ false = false) := by
  repeat' with_reducible refine And.intro ?_ ?_
  all_goals decide +kernel

theorem wit_StartsAndResets :
    (upS.resets.powered = true) ∧
    ((offS 2).resets.powered = false ∧ (offS 2).resets.recovery = false ∧ (offS 2).resets.failedStarts < 3) ∧
    ((offS 3).resets.powered = false ∧ (offS 3).resets.recovery = false ∧ 3 ≤ (offS 3).resets.failedStarts) ∧
    ((startS true).resets.starting = true ∧ (startS true).resets.startTest = none ∧ (startS true).glaren.update.incoming = false ∧ (startS true).resets.warmN = true) ∧
    ((startS false).resets.starting = true ∧ (startS false).resets.startTest = none ∧ (startS false).glaren.update.incoming = false ∧ (startS false).resets.warmN = false) ∧
    ((startS false).resets.starting = true ∧ (startS false).resets.startTest = none ∧ (startS false).glaren.update.incoming = false) ∧
    (st101.resets.starting = true ∧ st101.resets.startTest = none ∧ 30000000 ≤ BitVec.toNat (st101.glaren.gcTick - st101.resets.startGc)) ∧
    (upS.resets.starting = false) ∧
    (st102.resets.retry = true ∧ st102.resets.powered = true ∧ 1000000 ≤ BitVec.toNat (st102.glaren.gcTick - st102.resets.startGc) ∧ st102.resets.failedStarts < 3 ∧ st102.resets.recovery = false) ∧
    ((warmS true).resets.warmAt = some (upS.tick - 10) ∧ (warmS true).dealer.building = none ∧ (warmS true).resets.warmHeld = false ∧ 10 ≤ BitVec.toNat ((warmS true).tick - (upS.tick - 10)) ∧ (warmS true).resets.startOk = true ∧ (warmS true).resets.failedStarts < 3 ∧ (warmS true).resets.recovery = false ∧ (warmS true).glaren.update.nextAction = 0 ∧ (warmS true).resets.warmN = true) ∧
    ((warmS false).resets.warmAt = some (upS.tick - 10) ∧ (warmS false).dealer.building = none ∧ (warmS false).resets.warmHeld = false ∧ 10 ≤ BitVec.toNat ((warmS false).tick - (upS.tick - 10)) ∧ (warmS false).resets.startOk = true ∧ (warmS false).resets.failedStarts < 3 ∧ (warmS false).resets.recovery = false ∧ (warmS false).glaren.update.nextAction = 0 ∧ (warmS false).resets.warmN = false) ∧
    ((warmS false).resets.warmAt = some (upS.tick - 10) ∧ (warmS false).dealer.building = none ∧ (warmS false).resets.warmHeld = false ∧ 10 ≤ BitVec.toNat ((warmS false).tick - (upS.tick - 10)) ∧ (warmS false).resets.startOk = true ∧ (warmS false).resets.failedStarts < 3 ∧ (warmS false).resets.recovery = false ∧ (warmS false).glaren.update.nextAction = 0) ∧
    (upS.resets.warmAt = none) ∧
    (st103.resets.warmN = true ∧ canWarm st103 = true ∧ st103.resets.warmHeld = false ∧ st103.resets.warmAt = none) ∧
    (st104.resets.warmN = false ∧ st104.resets.warmHeld = true ∧ st104.glaren.update.nextAction = 0) ∧
    (st103.resets.warmN = true) := by
  repeat' with_reducible refine And.intro ?_ ?_
  all_goals decide +kernel

theorem wit_PciePorts :
    ((portS true false true).resets.mgood = true ∧ (portSt (portS true false true) Port.A).linkUp = true ∧ (portS true false true).host.queues = [] ∧ (portS true false true).dealer.requests = []) ∧
    ((portS true false true).resets.mgood = true ∧ (portSt (portS true false true) Port.A).linkUp = true ∧ (portS true false true).host.queues = [] ∧ (portS true false true).dealer.requests = [] ∧ (portSt (portS true false true) Port.A).perst = false) ∧
    ((portSt (portS false false true) Port.A).linkUp = false) ∧
    ((portSt (portS false true false) Port.A).perst = true) ∧
    (mayTrain (portS false false true) Port.A 6 8 = true) ∧
    (mayTrain (portS false false true) Port.A 6 3 = false) ∧
    ((30 : ℕ) ≤ (30 : ℕ) ∧ (30 : ℕ) ≤ (40 : ℕ) ∧ (15 : ℕ) ≤ (15 : ℕ)) ∧
    ((30 : ℕ) ≤ (40 : ℕ) ∧ (40 : ℕ) ≤ (40 : ℕ) ∧ (15 : ℕ) ≤ (15 : ℕ)) := by
  repeat' with_reducible refine And.intro ?_ ?_
  all_goals decide +kernel

theorem wit_SensorsAndClocks :
    ((73 : ℕ) < (74 : ℕ) ∧ (73 : ℕ) ≠ (48 : ℕ) ∧ upS.resets.powered = true ∧ upS.resets.glarenReady = true ∧ judged upS 73 = true ∧ overCritical upS 73 (sensorAt upS 73).value 0 = false) ∧
    ((5 : ℕ) < (74 : ℕ) ∧ (5 : ℕ) ≠ (48 : ℕ) ∧ upS.resets.powered = true ∧ upS.resets.glarenReady = true ∧ judged upS 5 = true ∧ overCritical upS 5 (sensorAt upS 5).value 100000 = true) ∧
    (upS.resets.powered = true ∧ upS.resets.glarenReady = true) ∧
    ((73 : ℕ) < (74 : ℕ) ∧ (sensorAt st105 73).level = 2 ∧ (sensorAt st105 73).warnSince ≠ 0 ∧ 1000000 ≤ BitVec.toNat (st105.glaren.gcTick + 1 - (sensorAt st105 73).warnSince)) ∧
    (st106.glaren.peakCap.isSome = true ∧ 2 ≤ st106.glaren.peakBoundaries ∧ 100000 ≤ BitVec.toNat (st106.tick - st106.glaren.peakTick)) ∧
    (st107.glaren.peakBoundaries < 2) ∧
    (upS.resets.powered = true) ∧
    ((38 : ℕ) < (39 : ℕ) ∧ st108.resets.powered = true ∧ ((Tab.get (fun (x : ℕ) => Clock.cold) st108.resets.clocks 38).locked = true)) ∧
    ((3 : ℕ) < (4 : ℕ) ∧ upS.resets.powered = true ∧ upS.resets.mgood = true ∧ canWarm upS = true ∧ upS.resets.warmHeld = false ∧ upS.resets.warmAt = none ∧ inWindow (clockExpected upS (3 : ℕ)) (BitVec.toNat (5 : BitVec (24 : ℕ))) = false) ∧
    (st109.resets.powered = true ∧ 3600000000 ≤ BitVec.toNat (st109.glaren.gcTick - st109.glaren.lastSummary)) := by
  repeat' with_reducible refine And.intro ?_ ?_
  all_goals decide +kernel

theorem wit_BlockElements :
    ((Fmt.pb4 = Fmt.pb4 ∨ Fmt.pb4 = Fmt.pb6) ∧ (63 : ℕ) < (64 : ℕ) ∧ bitsOf (8 * 2 ^ 276) (24 + Fmt.pb4.elemBits * 63) Fmt.pb4.elemBits = 2 ^ (Fmt.pb4.elemBits - 1)) ∧
    ((Fmt.pb6 = Fmt.pb4 ∨ Fmt.pb6 = Fmt.pb6) ∧ (63 : ℕ) < (64 : ℕ) ∧ bitsOf 0 (24 + Fmt.pb6.elemBits * 63) Fmt.pb6.elemBits < 2 ^ (Fmt.pb6.elemBits - 1)) ∧
    ((Fmt.pb4 = Fmt.pb4 ∨ Fmt.pb4 = Fmt.pb6) ∧ (63 : ℕ) < (64 : ℕ) ∧ 2 ^ (Fmt.pb4.elemBits - 1) < bitsOf (9 * 2 ^ 276) (24 + Fmt.pb4.elemBits * 63) Fmt.pb4.elemBits) ∧
    ((Fmt.pb4 = Fmt.pb4 ∨ Fmt.pb4 = Fmt.pb6) ∧ (63 : ℕ) < (64 : ℕ) ∧ pbElem Fmt.pb4 0 63 = Exact.fin 0 (-127) ∧ (0 : ℤ) = (0 : ℤ)) := by
  repeat' with_reducible refine And.intro ?_ ?_
  all_goals decide +kernel

theorem wit_StepRunsFrontCommand : ({ State.reset with pending := [.boundary, .stepEnd] } : State).pending = .boundary :: [.stepEnd] := rfl
theorem wit_EmptyQueuePassesTick : State.reset.pending = [] ∧ State.reset.resets.powered = true ∧
    (onResets (fun r => { r with powered := false }) State.reset).resets.powered = false := by decide
theorem wit_MeaningsKeepQueue : ∃ t, exec .boundary dueS = .next t := ⟨_, rfl⟩
theorem wit_CommandsAnswerNextState : (Instr.sensorSample 73 0 0).wf = true ∧ (Instr.testAccessPort false true true).wf = true := by decide
theorem wit_HopCounts_sourced : ∃ f, f ∈ cutFlits 5 1 2 3 4 true [1, 2, 3] := by
  refine ⟨(cutFlits 5 1 2 3 4 true [1, 2, 3]).head (by decide +kernel), List.head_mem _⟩
theorem wit_BlockElements_zero : pbElem .pb4 0 63 = .fin 0 (-127) := by decide +kernel
theorem wit_MemoryCanonical : Memory.wf State.reset.tiers.mem = true ∧ ∃ t, step { dueS with pending := [.boundary] } = .next t := ⟨by decide, ⟨_, rfl⟩⟩
theorem wit_InsnRoundTrip : (Insn.mma mm).wf = true ∧ (Insn.dump 31).wf = true ∧ (Insn.move 12 mvX).wf = true := by decide

end Sys2Proof.Tests
end

section
/-! SUPPORT. The passing of a module tick: what it advances and what it leaves (R12, Table 6.7). -/

namespace Sys2Proof.Machine

/-- With no command waiting a step is the passing of one tick. -/
theorem step_of_pending_nil {s : State} (h : s.pending = []) : step s = .next (passTick s) := by
  simp only [step, h]

/-- Without input power no time passes. -/
theorem passTick_of_unpowered {s : State} (h : s.resets.powered = false) : passTick s = s := by
  simp [passTick, h]

/-- The clocks of the module and of Glaren advance together while input power is on. -/
theorem passTick_ticks {s : State} (h : s.resets.powered = true) :
    (passTick s).tick = s.tick + 1 ∧ (passTick s).glaren.gcTick = s.glaren.gcTick + 1 := by
  simp [passTick, h]

/-- FREQ_TICKS counts the frequency in force while the dies run. -/
theorem passTick_freqTicks {s : State} (h : s.resets.powered = true) (hm : s.resets.mgood = true) :
    Tab.get zero64 (passTick s).counters.freqTicks s.glaren.freq = Tab.get zero64 s.counters.freqTicks s.glaren.freq + 1 := by
  simp [passTick, h, hm, bump]

/-- IDLE_TICKS counts after an idle boundary while the dies run. -/
theorem passTick_idleTicks {s : State} (h : s.resets.powered = true) :
    (passTick s).counters.idleTicks =
      if s.dealer.idle = true ∧ s.resets.mgood = true then s.counters.idleTicks + 1 else s.counters.idleTicks := by
  simp [passTick, h]

/-- The kinds of state that no tick touches. -/
theorem passTick_frame (s : State) :
    (passTick s).pending = s.pending ∧ (passTick s).dealer = s.dealer ∧ (passTick s).units = s.units ∧
    (passTick s).tiers = s.tiers ∧ (passTick s).unlia = s.unlia ∧ (passTick s).conceal = s.conceal ∧
    (passTick s).host = s.host ∧ (passTick s).resets = s.resets ∧ (passTick s).out = s.out := by
  unfold passTick
  split <;> simp

/-- Settles O2: the step is `passTick`, whose effect and frame the lemmas above state. -/
theorem emptyQueuePassesTick : Obligations.EmptyQueuePassesTick := by
  intro s hq
  obtain ⟨hpending, hframe⟩ := passTick_frame s
  refine ⟨passTick s, step_of_pending_nil hq, passTick_of_unpowered, fun hp => ?_, hpending.trans hq, hframe⟩
  obtain ⟨htick, hgc⟩ := passTick_ticks hp
  exact ⟨htick, hgc, passTick_freqTicks hp, passTick_idleTicks hp⟩

end Sys2Proof.Machine
end

section
/-! SUPPORT. The tables of the state after reset list nothing, so each of their readers gives the cold entry (log entries 3 to 5). -/

namespace Sys2Proof.Machine

@[simp] theorem obj_reset (o : Nat) : obj State.reset o = Obj.none := rfl
@[simp] theorem request_reset (e : Nat) : request State.reset e = Request.cold := rfl
@[simp] theorem slot_reset (i : Nat) : slot State.reset i = Slot.cold := rfl
@[simp] theorem position_reset (p : Nat) : position State.reset p = Position.cold := rfl
@[simp] theorem queue_reset (q : Nat) : queue State.reset q = Queue.cold q := rfl
@[simp] theorem mark_reset (m : Nat) : mark State.reset m = Mark.cold m := rfl

/-- Memory after reset lists nothing, which is canonical. -/
theorem memOk_reset : MemOk State.reset := Memory.wf_nil

/-- Settles O58: the registers hold their Cold values by definition, every table its cold entry at every index. -/
theorem resetState : Obligations.ResetState := by
  refine ⟨rfl, rfl, rfl, rfl, rfl, rfl, rfl, rfl, rfl, rfl, rfl, rfl, rfl, rfl, rfl, memOk_reset,
    fun o => ?_, fun e => ?_, fun i => ?_, fun p => ?_, fun q => ?_, fun m => ?_, fun k => ?_, fun c => ?_⟩
  · rw [obj_reset, Obj.none]
  · rw [request_reset, Request.cold]
  · rw [slot_reset, Slot.cold]
  · rw [position_reset, Position.cold]
  · rw [queue_reset, Queue.cold]
  · rw [mark_reset, Mark.cold]; exact ⟨rfl, rfl⟩
  · exact Tab.get_nil _ k
  · exact Tab.get_nil _ c

end Sys2Proof.Machine
end

section
/-! SUPPORT. Register accesses: what a whole write, a read and a half of each do, by whether a register answers at the offset, whether the
function reaches it and whether it has 64 bits (R14, R16, R17). -/

namespace Sys2Proof.Machine

/-! ### The four accesses as next states -/

theorem exec_registerWrite (f : Fn) (o : Nat) (v : W64) (s : State) : exec (.registerWrite f o v) s = .next (writeAt f o v s) := rfl
theorem exec_readClear (f : Fn) (o : Nat) (s : State) :
    exec (.readClear f o) s = .next (emit (.regValue f o (readAt s f o)) (clearAt f o s)) := rfl
theorem exec_halfWrite (f : Fn) (o : Nat) (v : W32) (s : State) :
    exec (.reg64HalfAccess f o (some v)) s = .next (halfWrite f o v s) := rfl
theorem exec_halfRead (f : Fn) (o : Nat) (s : State) : exec (.reg64HalfAccess f o none) s = .next (halfRead f o s) := rfl

/-! ### Whole writes -/

/-- A write where no register answers does nothing (R16). -/
theorem writeAt_of_regAt_none {o : Nat} (f : Fn) (v : W64) (s : State) (h : regAt o = none) : writeAt f o v s = s := by
  simp only [writeAt, h]

/-- A write to a register that the function does not reach is discarded (R388). -/
theorem writeAt_of_not_reaches {o : Nat} {f : Fn} {r : Reg} {s : State} (v : W64) (h : regAt o = some r) (hr : reaches s f r = false) :
    writeAt f o v s = s := by
  simp [writeAt, h, guarded, hr]

/-- A write to a register that the function reaches is the register's own, of the bits that it has. -/
theorem writeAt_of_reaches {o : Nat} {f : Fn} {r : Reg} {s : State} (v : W64) (h : regAt o = some r) (hr : reaches s f r = true) :
    writeAt f o v s = regWrite f o r (if r.narrow then v &&& 0xFFFFFFFF else v) s := by
  simp [writeAt, h, guarded, hr]

theorem regAt_eventStatus : regAt 0x10018 = some .eventStatus := by decide

/-- The cut of a value to 32 bits keeps its 12 low bits. -/
theorem ofNat12_toNat_low32 (v : W64) : BitVec.ofNat 12 (v &&& 0xFFFFFFFF).toNat = BitVec.ofNat 12 v.toNat := by
  have hcut : (v &&& 0xFFFFFFFF).toNat = v.toNat % 2 ^ 32 := Nat.and_two_pow_sub_one_eq_mod v.toNat 32
  apply BitVec.eq_of_toNat_eq
  rw [hcut, BitVec.toNat_ofNat, BitVec.toNat_ofNat]
  omega

/-- A write of EVENT_STATUS clears the events whose bits are 1, of the writing port (R409). -/
theorem writeAt_eventStatus {f : Fn} {s : State} (v : W64) (hr : reaches s f .eventStatus = true) :
    writeAt f 0x10018 v s = setPort f.port (fun x => { x with events := x.events &&& ~~~(BitVec.ofNat 12 v.toNat) }) s := by
  rw [writeAt_of_reaches v regAt_eventStatus hr]
  simp only [Reg.narrow, if_true, regWrite, writeEvents, ofNat12_toNat_low32]

/-! ### Reads -/

/-- What the module sends for a read comes after what it had sent. -/
@[simp] theorem emit_regValue (f : Fn) (o : Nat) (v : W64) (s : State) :
    (emit (.regValue f o v) s).out = s.out ++ [.regValue f o v] := rfl

/-- Emission leaves each port's copy alone. -/
@[simp] theorem portSt_emit (e : Emit) (p : Port) (s : State) : portSt (emit e s) p = portSt s p := portSt_congr p (by simp)

/-- What a read leaves unchanged, whatever the register clears. -/
theorem readClear_frame (r : Reg) (s : State) :
    (readClear r s).out = s.out ∧ (readClear r s).tiers = s.tiers ∧ (readClear r s).units = s.units ∧
    (readClear r s).host.queues = s.host.queues ∧ (readClear r s).host.marks = s.host.marks := by
  unfold readClear
  split <;> exact ⟨rfl, rfl, rfl, rfl, rfl⟩

/-- As `readClear_frame`, for the read of an offset. -/
theorem clearAt_frame (f : Fn) (o : Nat) (s : State) :
    (clearAt f o s).out = s.out ∧ (clearAt f o s).tiers = s.tiers ∧ (clearAt f o s).units = s.units ∧
    (clearAt f o s).host.queues = s.host.queues ∧ (clearAt f o s).host.marks = s.host.marks := by
  unfold clearAt guarded
  split
  · split
    · exact readClear_frame _ s
    · exact ⟨rfl, rfl, rfl, rfl, rfl⟩
  · exact ⟨rfl, rfl, rfl, rfl, rfl⟩

/-- Where the five END_COUNT registers stand (Table 9.11). -/
theorem regAt_endCount : ∀ i < 5, regAt (0x300360 + 8 * i) = some (.endCount i) := by decide

/-- A read of END_COUNT[i] leaves it 0. -/
theorem clearAt_endCount {f : Fn} {i : Nat} {s : State} (hi : i < 5) (hr : reaches s f (.endCount i) = true) :
    Tab.get zero64 (clearAt f (0x300360 + 8 * i) s).dealer.ends i = 0 := by
  simp [clearAt, regAt_endCount i hi, guarded, hr, readClear, setDealer, zero64]

/-! ### Halves -/

theorem wideAt_of_wide {o : Nat} {r : Reg} (h : regAt o = some r) (hw : r.narrow = false) : wideAt o = true := by
  simp [wideAt, h, hw]
theorem wideAt_of_narrow {o : Nat} {r : Reg} (h : regAt o = some r) (hn : r.narrow = true) : wideAt o = false := by
  simp [wideAt, h, hn]
theorem wideAt_of_regAt_none {o : Nat} (h : regAt o = none) : wideAt o = false := by
  simp [wideAt, h]

/-- What is latched for an access is what that access finds. -/
theorem latched_put_same (k : Nat) (v : W32) (t : Tab W32) : latched (Tab.put k v t) k = some v := by
  induction t with
  | nil => simp [latched, Tab.put]
  | cons e t ih =>
    simp only [Tab.put]
    split
    · simp [latched]
    · split
      · simp [latched]
      · rename_i h
        have hne : ¬ e.1 = k := fun x => h x.symm
        simpa [latched, hne] using ih

/-- The low half of a write waits in its port's latch. -/
theorem halfWrite_of_wide {o : Nat} (f : Fn) (v : W32) (s : State) (h : wideAt o = true) :
    halfWrite f o v s = setPort f.port (fun x => { x with latchLo := Tab.put (latchKey f o) v x.latchLo }) s := by
  simp [halfWrite, h]

/-- The high half of a write, once its low half waits, writes the whole register and empties the latch. -/
theorem halfWrite_high {o : Nat} {f : Fn} {lo : W32} {s : State} (hi : W32) (h : wideAt (o + 4) = false) (hw : wideAt o = true)
    (hl : latched (portSt s f.port).latchLo (latchKey f o) = some lo) :
    halfWrite f (o + 4) hi s = writeAt f o (BitVec.ofNat 64 (lo.toNat + 2 ^ 32 * hi.toNat))
      (setPort f.port (fun x => { x with latchLo := Tab.drop (latchKey f o) x.latchLo }) s) := by
  simp [halfWrite, h, hw, hl]

/-- An offset below which no 64-bit register starts is no high half. -/
theorem not_highHalf {o : Nat} (h : o < 4 ∨ wideAt (o - 4) = false) : ¬(4 ≤ o ∧ wideAt (o - 4) = true) := by
  rintro ⟨hle, hw⟩
  rcases h with hlt | hnot
  · omega
  · simp [hnot] at hw

/-- Off every 64-bit register a write of 32 bits is a whole write. -/
theorem halfWrite_of_not_wide {o : Nat} (f : Fn) (v : W32) (s : State) (h : wideAt o = false) (h4 : o < 4 ∨ wideAt (o - 4) = false) :
    halfWrite f o v s = writeAt f o (v.zeroExtend 64) s := by
  simp only [halfWrite, h, Bool.false_eq_true, if_false, not_highHalf h4]

/-- The low half of a read tells the low bits, clears what the read clears, and latches the high bits. -/
theorem halfRead_of_wide {o : Nat} (f : Fn) (s : State) (h : wideAt o = true) :
    halfRead f o s = emit (.regValue f o (BitVec.ofNat 64 ((readAt s f o).toNat % 2 ^ 32)))
      (setPort f.port (fun x => { x with latchHi := Tab.put (latchKey f o) (BitVec.ofNat 32 ((readAt s f o).toNat / 2 ^ 32)) x.latchHi })
        (clearAt f o s)) := by
  simp [halfRead, h]

/-- The high half of a read, once latched, tells what was latched and empties the latch. -/
theorem halfRead_high {o : Nat} {f : Fn} {v : W32} {s : State} (h : wideAt (o + 4) = false) (hw : wideAt o = true)
    (hl : latched (portSt s f.port).latchHi (latchKey f o) = some v) :
    halfRead f (o + 4) s = emit (.regValue f (o + 4) (v.zeroExtend 64))
      (setPort f.port (fun x => { x with latchHi := Tab.drop (latchKey f o) x.latchHi }) s) := by
  simp [halfRead, h, hw, hl]

/-- Off every 64-bit register a read of 32 bits is a whole read. -/
theorem halfRead_of_not_wide {o : Nat} (f : Fn) (s : State) (h : wideAt o = false) (h4 : o < 4 ∨ wideAt (o - 4) = false) :
    halfRead f o s = emit (.regValue f o (readAt s f o)) (clearAt f o s) := by
  simp only [halfRead, h, Bool.false_eq_true, if_false, not_highHalf h4]

/-- The upper 32 bits of a word survive their stay in a 32-bit latch. -/
theorem zeroExtend_ofNat_high (v : W64) :
    (BitVec.ofNat 32 (v.toNat / 2 ^ 32)).zeroExtend 64 = BitVec.ofNat 64 (v.toNat / 2 ^ 32) := by
  have hv : v.toNat / 2 ^ 32 < 2 ^ 32 := by omega
  apply BitVec.eq_of_toNat_eq
  simp only [BitVec.truncate_eq_setWidth, BitVec.toNat_setWidth, BitVec.toNat_ofNat, Nat.mod_eq_of_lt hv]

/-! ### The clauses of the statement -/

/-- A write of EVENT_STATUS completes, with no effect off its own port's events. -/
theorem write_eventStatus_completes {f : Fn} {s : State} (v : W64) (hr : reaches s f .eventStatus = true) :
    Completes (.registerWrite f 0x10018 v) s (fun t =>
      (portSt t f.port).events = (portSt s f.port).events &&& ~~~(BitVec.ofNat 12 v.toNat) ∧
      portSt t (Port.other f.port) = portSt s (Port.other f.port) ∧ t.dealer = s.dealer ∧ t.tiers = s.tiers ∧ t.out = s.out) := by
  refine ⟨_, exec_registerWrite f 0x10018 v s, ?_⟩
  rw [writeAt_eventStatus v hr]
  simp

/-- A read completes: it tells the value that stood before, and clears only what reads clear. -/
theorem readClear_completes (f : Fn) (o : Nat) (s : State) :
    Completes (.readClear f o) s (fun t => t.out = s.out ++ [.regValue f o (readAt s f o)] ∧ SameMemory s t ∧ t.units = s.units ∧
      t.host.queues = s.host.queues ∧ t.host.marks = s.host.marks ∧
      (∀ i, i < 5 → reaches s f (.endCount i) = true → o = 0x300360 + 8 * i → Tab.get zero64 t.dealer.ends i = 0)) := by
  obtain ⟨hout, htiers, hunits, hqueues, hmarks⟩ := clearAt_frame f o s
  refine ⟨_, exec_readClear f o s, ?_, fun a => ?_, ?_, ?_, ?_, fun i hi hr ho => ?_⟩
  · rw [emit_regValue, hout]
  · simp [htiers]
  · simp [hunits]
  · simp [hqueues]
  · simp [hmarks]
  · subst ho; simpa using clearAt_endCount hi hr

/-- A 64-bit register written in halves is written as one. -/
theorem halfWrites_complete {f : Fn} {o : Nat} {r : Reg} {s : State} (lo hi : W32) (h : regAt o = some r) (hw : r.narrow = false)
    (h4 : regAt (o + 4) = none) :
    Completes (.reg64HalfAccess f o (some lo)) s (fun t =>
      t.dealer = s.dealer ∧ t.tiers = s.tiers ∧ t.out = s.out ∧
      exec (.reg64HalfAccess f (o + 4) (some hi)) t =
        exec (.registerWrite f o (BitVec.ofNat 64 (lo.toNat + 2 ^ 32 * hi.toNat)))
          (setPort f.port (fun x => { x with latchLo := Tab.drop (latchKey f o) x.latchLo }) t)) := by
  have hwide := wideAt_of_wide h hw
  refine ⟨_, exec_halfWrite f o lo s, ?_⟩
  rw [halfWrite_of_wide f lo s hwide]
  refine ⟨rfl, rfl, rfl, ?_⟩
  rw [exec_halfWrite, exec_registerWrite, halfWrite_high hi (wideAt_of_regAt_none h4) hwide (by simpa using latched_put_same _ lo _)]

/-- A 64-bit register read in halves is read as one: the high half tells the bits of the low half's moment. -/
theorem halfReads_complete {f : Fn} {o : Nat} {r : Reg} {s : State} (h : regAt o = some r) (hw : r.narrow = false)
    (h4 : regAt (o + 4) = none) :
    Completes (.reg64HalfAccess f o none) s (fun t =>
      t.out = s.out ++ [.regValue f o (BitVec.ofNat 64 ((readAt s f o).toNat % 2 ^ 32))] ∧
      Completes (.reg64HalfAccess f (o + 4) none) t (fun u =>
        u.out = t.out ++ [.regValue f (o + 4) (BitVec.ofNat 64 ((readAt s f o).toNat / 2 ^ 32))] ∧ u.dealer = t.dealer)) := by
  have hwide := wideAt_of_wide h hw
  obtain ⟨hout, -⟩ := clearAt_frame f o s
  refine ⟨_, exec_halfRead f o s, ?_⟩
  rw [halfRead_of_wide f s hwide]
  refine ⟨by rw [emit_regValue, setPort_out, hout], _, exec_halfRead f (o + 4) _, ?_⟩
  rw [halfRead_high (v := BitVec.ofNat 32 ((readAt s f o).toNat / 2 ^ 32)) (wideAt_of_regAt_none h4) hwide]
  · rw [emit_regValue, zeroExtend_ofNat_high]
    simp
  · rw [portSt_emit, portSt_setPort, if_pos rfl]
    exact latched_put_same _ _ _

/-- A register of 32 bits is written and read whole. -/
theorem narrow_halfAccess {f : Fn} {o : Nat} {r : Reg} {s : State} (v : W32) (h : regAt o = some r) (hn : r.narrow = true)
    (h4 : o < 4 ∨ regAt (o - 4) = none) :
    exec (.reg64HalfAccess f o (some v)) s = exec (.registerWrite f o (v.zeroExtend 64)) s ∧
    exec (.reg64HalfAccess f o none) s = exec (.readClear f o) s := by
  have hnot := wideAt_of_narrow h hn
  have hbelow := h4.imp_right wideAt_of_regAt_none
  rw [exec_halfWrite, exec_registerWrite, exec_halfRead, exec_readClear, halfWrite_of_not_wide f v s hnot hbelow,
    halfRead_of_not_wide f s hnot hbelow]
  exact ⟨rfl, rfl⟩

/-- Settles O29: a clause for each kind of access, each by its lemma above. -/
theorem registerAccess : Obligations.RegisterAccess := by
  intro f s
  refine ⟨fun o v h => ?_, fun o r v h hr => ?_, fun o r v h hr => ?_, fun v => write_eventStatus_completes v,
    fun o => readClear_completes f o s, fun o r lo hi => halfWrites_complete lo hi, fun o r => halfReads_complete,
    fun o r v => narrow_halfAccess v⟩
  · rw [exec_registerWrite, writeAt_of_regAt_none f v s h]
  · rw [exec_registerWrite, writeAt_of_not_reaches v h hr]
  · rw [exec_registerWrite, writeAt_of_reaches v h hr]

end Sys2Proof.Machine
end

section
/-! SUPPORT. The turn: the part of the state that says where the dealers stand between two boundaries, and that emissions, records, events,
memory, marks and request operations leave alone (sections 1.3 and 1.4). -/

namespace Sys2Proof.Machine

/-- What a launch fixes of the running step for good. -/
structure Launched where
  step      : W64
  ply       : Ply
  changed   : Bool
  cancelled : Bool
  hold      : Nat

def Run.launched (r : Run) : Launched :=
  { step := r.step, ply := r.ply, changed := r.freqChanged, cancelled := r.freqCancelled, hold := r.govHold }

/-- Where the dealers stand, with the frequency in force, the counters, the side memory and MGOOD. -/
structure Turn where
  phase      : Phase
  pending    : Option (Phase × Nat × Ticket)
  stepNumber : W64
  launch     : Option Launched
  held       : Option Held
  midway     : Bool
  idle       : Bool
  lastPly    : W32
  lead       : Half
  roleEpoch  : W32
  halfFenced : Bool
  westFenced : Bool
  eastFenced : Bool
  queries    : Tab W64
  counters   : Counters
  side       : Tab Byte
  freq       : Nat
  mgood      : Bool

def turn (s : State) : Turn :=
  { phase := s.dealer.phase, pending := s.dealer.pending, stepNumber := s.dealer.stepNumber,
    launch := s.dealer.run.map Run.launched, held := s.dealer.held, midway := s.dealer.midway, idle := s.dealer.idle,
    lastPly := s.dealer.lastPly, lead := s.dealer.lead, roleEpoch := s.dealer.roleEpoch, halfFenced := s.dealer.halfFenced,
    westFenced := s.dealer.westFenced, eastFenced := s.dealer.eastFenced, queries := s.dealer.queries,
    counters := s.counters, side := s.units.side, freq := s.glaren.freq, mgood := s.resets.mgood }

/-- Two states of the same dealers, counters, side memory, frequency and MGOOD are at the same turn. -/
theorem turn_congr {s t : State} (hd : t.dealer = s.dealer) (hc : t.counters = s.counters) (hu : t.units.side = s.units.side)
    (hf : t.glaren.freq = s.glaren.freq) (hm : t.resets.mgood = s.resets.mgood) : turn t = turn s := by
  simp only [turn, hd, hc, hu, hf, hm]

/-- What each step of a fold leaves alone the fold leaves alone. -/
theorem foldl_keeps {α σ β : Type} (p : σ → β) {f : σ → α → σ} (h : ∀ s x, p (f s x) = p s) (l : List α) (s : σ) :
    p (l.foldl f s) = p s := by
  induction l generalizing s with
  | nil => rfl
  | cons x l ih => exact (ih (f s x)).trans (h s x)

/-! ### Emissions, records, events, completions -/

theorem turn_emit (e : Emit) (s : State) : turn (emit e s) = turn s := by apply turn_congr <;> simp
theorem turn_complete (t : Ticket) (st : Byte) (r : W64) (nf : Bool) (s : State) : turn (complete t st r nf s) = turn s := by
  apply turn_congr <;> simp
theorem turn_finish (t : Ticket) (st : Byte) (s : State) : turn (finish t st s) = turn s := turn_complete t st 0 false s
theorem turn_score (a b c : Nat) (x : W64) (d : List Byte) (s : State) : turn (score a b c x d s) = turn s := by
  apply turn_congr <;> simp

/-- An event changes its port's registers and may send an interrupt (R409). -/
theorem raiseEventAt_frame (p : Port) (n : Nat) (s : State) :
    (raiseEventAt p n s).dealer = s.dealer ∧ (raiseEventAt p n s).units = s.units ∧ (raiseEventAt p n s).tiers = s.tiers ∧
    (raiseEventAt p n s).counters = s.counters ∧ (raiseEventAt p n s).glaren = s.glaren ∧ (raiseEventAt p n s).resets = s.resets ∧
    (raiseEventAt p n s).conceal = s.conceal ∧ (raiseEventAt p n s).unlia = s.unlia ∧
    (raiseEventAt p n s).host.epoch = s.host.epoch ∧ (raiseEventAt p n s).host.holder = s.host.holder := by
  unfold raiseEventAt
  dsimp only
  split <;> simp

/-- As `raiseEventAt_frame`, for both ports. -/
@[simp] theorem raiseEvent_frame (n : Nat) (s : State) :
    (raiseEvent n s).dealer = s.dealer ∧ (raiseEvent n s).units = s.units ∧ (raiseEvent n s).tiers = s.tiers ∧
    (raiseEvent n s).counters = s.counters ∧ (raiseEvent n s).glaren = s.glaren ∧ (raiseEvent n s).resets = s.resets ∧
    (raiseEvent n s).conceal = s.conceal ∧ (raiseEvent n s).unlia = s.unlia ∧
    (raiseEvent n s).host.epoch = s.host.epoch ∧ (raiseEvent n s).host.holder = s.host.holder := by
  simp [raiseEvent, raiseEventAt_frame]

theorem turn_raiseEventAt (p : Port) (n : Nat) (s : State) : turn (raiseEventAt p n s) = turn s := by
  apply turn_congr <;> simp [raiseEventAt_frame]
theorem turn_raiseEvent (n : Nat) (s : State) : turn (raiseEvent n s) = turn s :=
  (turn_raiseEventAt .B n _).trans (turn_raiseEventAt .A n s)
theorem turn_poisonObject (o line : Nat) (s : State) : turn (poisonObject o line s) = turn s :=
  (turn_raiseEvent _ _).trans ((turn_score _ _ _ _ _ _).trans rfl)

theorem turn_finishOpt (t : Option Ticket) (st : Byte) (s : State) : turn (finishOpt t st s) = turn s := by
  cases t with
  | none => rfl
  | some t => exact turn_finish t st s

/-! ### The running step and memory -/

/-- The running step may change where its launch stays. -/
theorem turn_setRun {f : Run → Run} (h : ∀ r, (f r).launched = r.launched) (s : State) : turn (setRun f s) = turn s := by
  have hrun : (setRun f s).dealer.run.map Run.launched = s.dealer.run.map Run.launched := by
    simp only [setRun, Option.map_map]
    exact congrArg (fun g => Option.map g s.dealer.run) (funext h)
  simp only [turn, hrun]
  rfl

/-- A new value of the running step with the same launch. -/
theorem turn_run {s : State} {r r' : Run} (hr : s.dealer.run = some r) (h : r'.launched = r.launched) :
    turn { s with dealer := { s.dealer with run := some r' } } = turn s := by
  simp only [turn, hr, Option.map_some, h]

theorem turn_fillWrite (a : Nat) (bs : List Byte) (s : State) : turn (fillWrite a bs s) = turn s := by
  unfold fillWrite
  split
  · rename_i r hr
    split
    · rfl
    · exact turn_run hr rfl
  · rfl

theorem turn_undefineBytes (a n : Nat) (s : State) : turn (undefineBytes a n s) = turn s := turn_fillWrite a _ s

/-! ### Outstanding operations that fail -/

theorem turn_failOp (id : Nat) (st : Byte) (s : State) : turn (failOp id st s) = turn s := by
  unfold failOp
  split
  · rfl
  · refine (turn_finishOpt _ _ _).trans ?_
    split <;> rfl

theorem turn_endColl (c : Coll) (st : Byte) (nf : Bool) (s : State) : turn (endColl c st nf s) = turn s := by
  have hticket : turn (match c.ticket with | some t => complete t st 0 nf s | none => s) = turn s := by
    split
    · exact turn_complete _ _ _ _ s
    · rfl
  unfold endColl
  cases c.prog with
  | none => exact hticket
  | some x => exact hticket

theorem turn_failColl (c : Coll) (st : Byte) (s : State) : turn (failColl c st s) = turn s := turn_endColl c st false _

theorem turn_breakColl (st : Byte) (c : Coll) (s : State) : turn (breakColl st c s) = turn s := by
  refine (turn_failColl c st _).trans ?_
  split
  · rfl
  · refine foldl_keeps turn (fun s x => ?_) _ s
    exact turn_undefineBytes x.1 x.2 s

theorem turn_undefineObject (o : Nat) (s : State) : turn (undefineObject o s) = turn s := by
  unfold undefineObject
  dsimp only
  split
  · exact turn_undefineBytes _ _ s
  · rfl

theorem turn_dropBuilding (s : State) : turn (dropBuilding s) = turn s := by
  unfold dropBuilding
  split
  · rfl
  · split
    · exact foldl_keeps turn (fun s o => turn_undefineObject o s) _ _
    · rfl

theorem turn_failBuilding (st : Byte) (s : State) : turn (failBuilding st s) = turn s := by
  unfold failBuilding
  split
  · rfl
  · exact (turn_complete _ _ _ _ _).trans (turn_dropBuilding s)

/-! ### Requests and their pages -/

theorem turn_setRequest (e : Nat) (f : Request → Request) (s : State) : turn (setRequest e f s) = turn s := rfl
theorem turn_ends (x : Tab W64) (s : State) : turn { s with dealer := { s.dealer with ends := x } } = turn s := rfl
theorem turn_commitRecord (q : Nat) (bs : List Byte) (s : State) : turn (commitRecord q bs s) = turn s := rfl
theorem turn_setPage (p : Nat) (f : Page → Page) (s : State) : turn (setPage p f s) = turn s := rfl

theorem turn_freePage (p : Nat) (s : State) : turn (freePage p s) = turn s := by
  unfold freePage
  dsimp only
  split <;> rfl

theorem turn_freePages (e : Nat) (s : State) : turn (freePages e s) = turn s := by
  refine foldl_keeps turn (fun s p => ?_) _ s
  dsimp only
  split
  · exact turn_freePage p s
  · exact (turn_score _ _ _ _ _ _).trans rfl

theorem turn_endEntry (e : Nat) (st : ReqState) (code : Nat) (late : Bool) (s : State) : turn (endEntry e st code late s) = turn s := by
  refine (foldl_keeps turn (fun s t => turn_finish t _ s) _ _).trans ?_
  exact (turn_ends _ _).trans ((turn_commitRecord _ _ _).trans ((turn_ends _ _).trans
    ((turn_setRequest e _ _).trans (turn_freePages e s))))

theorem turn_allocPage (e : Nat) (s : State) : turn (allocPage e s) = turn s := by
  refine (turn_setRequest e _ _).trans ?_
  split
  · exact (turn_setPage _ _ _).trans rfl
  · exact (turn_setPage _ _ _).trans ((turn_setPage _ _ _).trans rfl)

theorem turn_allocPages (e n : Nat) (s : State) : turn (allocPages e n s) = turn s := by
  induction n generalizing s with
  | zero => rfl
  | succ n ih => exact (ih (allocPage e s)).trans (turn_allocPage e s)

theorem turn_freeEnded (s : State) : turn (freeEnded s) = turn s := by
  refine foldl_keeps turn (fun s e => ?_) _ s
  rfl

/-! ### What follows a boundary (R266, R290) -/

theorem turn_writeRecord (q : Nat) (bs : List Byte) (s : State) : turn (writeRecord q bs s) = turn s := by
  unfold writeRecord
  dsimp only
  split
  · rfl
  · exact (turn_emit _ _).trans rfl

theorem turn_ringInterrupts (before s : State) : turn (ringInterrupts before s) = turn s := by
  refine foldl_keeps turn (fun s e => ?_) _ s
  split
  · exact turn_emit _ s
  · rfl

theorem turn_writeRecords (s : State) : turn (writeRecords s) = turn s := by
  refine (turn_ringInterrupts s _).trans ((foldl_keeps turn (fun s e => ?_) _ _).trans rfl)
  exact turn_writeRecord e.1 e.2 s

theorem turn_startOp (o : Op) (s : State) : turn (startOp o s) = turn s := by
  unfold startOp
  split
  · rfl
  · exact (turn_finishOpt _ _ _).trans rfl

theorem turn_admitBody (b : AdmitBody) (t : Ticket) (s : State) : turn (admitBody b t s) = turn s := by
  unfold admitBody
  dsimp only
  split
  · exact turn_finish _ _ s
  · exact (turn_complete _ _ _ _ _).trans rfl

theorem turn_cancelBody (entry : W16) (key : W32) (t : Ticket) (s : State) : turn (cancelBody entry key t s) = turn s := by
  unfold cancelBody
  split
  · exact turn_finish _ _ s
  · rfl

theorem turn_pageMoveBody (b : PageMoveBody) (t : Ticket) (s : State) : turn (pageMoveBody b t s) = turn s := by
  unfold pageMoveBody
  split
  · exact turn_finish _ _ s
  · split
    · exact turn_finish _ _ s
    · split
      · exact turn_startOp _ s
      · rfl

theorem turn_applyReqOp (t : Ticket) (i : Instr) (s : State) : turn (applyReqOp t i s) = turn s := by
  unfold applyReqOp
  split
  · exact turn_admitBody _ t s
  · exact turn_cancelBody _ _ t s
  · exact turn_pageMoveBody _ t s
  · rfl

theorem turn_afterBoundary (s : State) : turn (afterBoundary s) = turn s := by
  refine (foldl_keeps turn (fun s e => ?_) _ _).trans (turn_writeRecords s)
  exact turn_applyReqOp e.1 e.2 s

end Sys2Proof.Machine
end

section
/-! SUPPORT. The end of a boundary: what a launch and an idle boundary do to the turn (R34, R178, R182). -/

namespace Sys2Proof.Machine

/-! ### The parts of a launch -/

theorem turn_applyDeal (h : Held) (version : W32) (step : W64) (x : BatchSlot) (s : State) :
    turn (applyDeal h version step x s) = turn s :=
  (turn_allocPages _ _ _).trans (turn_setRequest _ _ s)

theorem turn_writeBatch (bs : List Byte) (d : Nat) (s : State) : turn (writeBatch bs d s) = turn s := rfl

theorem turn_diverge (step : W64) (field : Nat) (s : State) : turn (diverge step field s) = turn s := by
  unfold diverge
  split
  · rfl
  · exact (turn_raiseEvent _ _).trans ((turn_score _ _ _ _ _ _).trans rfl)

theorem turn_checkLaunch (step : W64) (id : W32) (v : Byte) (input : W64) (version : W32) (s : State) :
    turn (checkLaunch step id v input version s) = turn s := by
  unfold checkLaunch
  split
  · split
    · rfl
    · simp only [apply_ite turn, turn_diverge, ite_self]
  · rfl

theorem turn_raiseFault (code p ac pc : Nat) (s : State) : turn (raiseFault code p ac pc s) = turn s := by
  unfold raiseFault
  split
  · rfl
  · rename_i r hr
    refine (apply_ite turn _ _ _).trans ((if_congr Iff.rfl rfl ?_).trans (ite_self _))
    exact turn_run hr rfl

theorem turn_addArrival (p w : Nat) (x : Arrival) (s : State) : turn (addArrival p w x s) = turn s := by
  refine turn_setRun (fun r => ?_) s
  rfl
theorem turn_failWait (p w : Nat) (s : State) : turn (failWait p w s) = turn s := by
  refine turn_setRun (fun r => ?_) s
  rfl

theorem turn_deliverCompletion (wp source : Nat) (failed : Bool) (segs : List CauseSpan) (ac q : Nat) (s : State) :
    turn (deliverCompletion wp source failed segs ac q s) = turn s := by
  unfold deliverCompletion
  split
  · rfl
  · split
    · simp only [apply_ite turn, turn_addArrival, turn_failWait, turn_raiseFault, ite_self]
    · exact turn_raiseFault _ _ _ _ s

theorem turn_launchSignals (step : W64) (s : State) : turn (launchSignals step s) = turn s := by
  refine (foldl_keeps turn (fun s x => ?_) _ _).trans rfl
  exact foldl_keeps turn (fun s q => turn_deliverCompletion _ _ _ _ _ q s) _ s

theorem turn_forecast (f : Nat) (s : State) : turn (forecast f s) = turn s := by
  unfold forecast
  split <;> rfl

/-! ### The launch (R178) -/

/-- The turn after a launch: the next step number, its step running. -/
def Turn.launched (h : Held) (changed cancelled : Bool) (hold : Nat) (x : Turn) : Turn :=
  { x with
    stepNumber := x.stepNumber + 1
    launch := some { step := x.stepNumber + 1, ply := h.ply, changed := changed, cancelled := cancelled, hold := hold }
    held := none, idle := false, lastPly := h.ply.plyId }

theorem turn_launch (h : Held) (changed cancelled : Bool) (hold : Nat) (s : State) :
    turn (launch h changed cancelled hold s) = (turn s).launched h changed cancelled hold := by
  unfold launch
  extract_lets step sl version dealer tiers s0 inputId ranked s1 s2 run dealer2 conceal s3 s4 s5
  have h1 : turn s1 = turn s0 := foldl_keeps turn (fun s x => turn_applyDeal h version step x s) ranked s0
  have h2 : turn s2 = turn s1 := by
    show turn (if h.cls = .learn then s1 else _) = turn s1
    split
    · rfl
    · exact foldl_keeps turn (fun s d => turn_writeBatch _ d s) _ s1
  have h3 : turn s3 = { turn s2 with launch := some run.launched } := rfl
  calc turn (forecast _ (freeEnded s5)) = turn s3 :=
        (turn_forecast _ _).trans ((turn_freeEnded s5).trans ((turn_launchSignals step s4).trans (turn_checkLaunch _ _ _ _ _ s3)))
    _ = { turn s0 with launch := some run.launched } := by rw [h3, h2, h1]
    _ = (turn s).launched h changed cancelled hold := rfl

theorem turn_sendBoundaryRecord (step : W64) (s : State) : turn (sendBoundaryRecord step s) = turn s := by
  unfold sendBoundaryRecord
  split
  · rfl
  · exact (turn_emit _ _).trans rfl

/-! ### The idle boundary (R34) -/

/-- The turn after an idle boundary. -/
def Turn.idled (x : Turn) : Turn :=
  { x with idle := true, held := none, counters := { x.counters with idleBoundaries := x.counters.idleBoundaries + 1 } }

theorem turn_idleBoundary (s : State) : turn (idleBoundary s) = (turn s).idled := by
  have hs1 : turn (freeEnded (sendBoundaryRecord s.dealer.stepNumber s)) = turn s :=
    (turn_freeEnded _).trans (turn_sendBoundaryRecord _ s)
  refine (turn_afterBoundary _).trans ?_
  rw [← hs1]
  rfl

/-! ### The end of a boundary that has chosen a launch -/

theorem launchBoundary_of_stopped {h : Held} {s : State} (changed cancelled : Bool) (hold : Nat) (hs : launchStopped s h = true) :
    launchBoundary h changed cancelled hold s = idleBoundary s := by
  simp only [launchBoundary, hs, if_true]

theorem turn_launchBoundary_of_stopped {h : Held} {s : State} (changed cancelled : Bool) (hold : Nat) (hs : launchStopped s h = true) :
    turn (launchBoundary h changed cancelled hold s) = (turn s).idled := by
  rw [launchBoundary_of_stopped changed cancelled hold hs, turn_idleBoundary]

theorem turn_launchBoundary_of_open {h : Held} {s : State} (changed cancelled : Bool) (hold : Nat) (hs : launchStopped s h = false) :
    turn (launchBoundary h changed cancelled hold s) = (turn s).launched h changed cancelled hold := by
  simp only [launchBoundary, hs, Bool.false_eq_true, if_false]
  rw [turn_afterBoundary, turn_launch, turn_sendBoundaryRecord]
  rfl

theorem twinNode_congr {s t : State} (hu : t.unlia = s.unlia) : twinNode t = twinNode s := by
  have hown : ownPosition t = ownPosition s := by simp only [ownPosition, hu]
  have hpos (p : Nat) : position t p = position s p := position_congr p (by rw [hu])
  simp only [twinNode, hown, hpos]

/-- Whether any step launches hangs on the dealers, concealment, Unlia and Glaren's list of failed engines. -/
theorem noLaunch_congr {s t : State} (hd : t.dealer = s.dealer) (hc : t.conceal = s.conceal) (hu : t.unlia = s.unlia)
    (hf : t.glaren.failedList = s.glaren.failedList) : noLaunch t = noLaunch s := by
  simp only [noLaunch, anyExhausted, Machine.clusterExhausted, twinHolds, twinAlone, twinNode_congr hu, hd, hc, hf]

/-- As `noLaunch_congr`, for a launch that has been chosen. -/
theorem launchStopped_congr {s t : State} (h : Held) (hd : t.dealer = s.dealer) (hc : t.conceal = s.conceal) (hu : t.unlia = s.unlia)
    (hf : t.glaren.failedList = s.glaren.failedList) : launchStopped t h = launchStopped s h := by
  simp only [launchStopped, noLaunch_congr hd hc hu hf, fencedHalf, hd]

/-! ### What a turn tells of a state -/

/-- A turn with a launch is that of a running step which the launch has fixed. -/
theorem run_of_launch {s : State} {x : Launched} (h : (turn s).launch = some x) : ∃ r, s.dealer.run = some r ∧ r.launched = x :=
  Option.map_eq_some_iff.1 h

/-- A turn without a launch is that of a state without a running step. -/
theorem run_of_no_launch {s : State} (h : (turn s).launch = none) : s.dealer.run = none := Option.map_eq_none_iff.1 h

end Sys2Proof.Machine
end

section
/-! SUPPORT. The boundary's steps 1 to 6 and the turn: only step 5 changes it, to the pending phase (R29, R38). Block resets that start at
step 1 may clear side memory. -/

namespace Sys2Proof.Machine

/-- The turn without side memory, which a block reset of a cluster clears. -/
def Turn.dealers (x : Turn) : Turn := { x with side := [] }

/-! ### Before step 1: the peak cap, exhausted clusters, spare lines -/

theorem turn_countPeak (s : State) : turn (countPeak s) = turn s := by
  unfold countPeak
  dsimp only
  split <;> rfl

theorem turn_reportExhausted (s : State) : turn (reportExhausted s) = turn s := by
  have hmap : turn (if anyExhausted s then { s with units := { s.units with engMap := s.glaren.failedList } } else s) = turn s := by
    split <;> rfl
  unfold reportExhausted
  generalize (if anyExhausted s then { s with units := { s.units with engMap := s.glaren.failedList } } else s) = u at hmap
  dsimp only
  split
  · exact (turn_raiseEvent _ _).trans hmap
  · exact hmap

theorem turn_mapSpare (line : Nat) (s : State) : turn (mapSpare line s) = turn s := by
  unfold mapSpare
  dsimp only
  split
  · split
    · rfl
    · exact (turn_raiseEvent _ _).trans ((turn_score _ _ _ _ _ _).trans rfl)
  · exact (foldl_keeps turn (fun s e => turn_poisonObject _ _ s) _ _).trans rfl

theorem turn_mapSpares (s : State) : turn (mapSpares s) = turn s :=
  (foldl_keeps turn (fun s l => turn_mapSpare l s) _ _).trans rfl

/-! ### Block resets that start at step 1 (R426, R427) -/

theorem turn_setQueue (q : Nat) (f : Queue → Queue) (s : State) : turn (setQueue q f s) = turn s := rfl
theorem turn_setBlock (b : Nat) (f : Block → Block) (s : State) : turn (setBlock b f s) = turn s := rfl

theorem turn_changeHolder (h : Option Port) (s : State) : turn (changeHolder h s) = turn s :=
  (turn_raiseEvent _ _).trans ((turn_score _ _ _ _ _ _).trans rfl)

theorem turn_stopQueues (p : Port) (s : State) : turn (stopQueues p s) = turn s :=
  foldl_keeps turn (fun s q => turn_setQueue q _ s) _ s

theorem turn_cancelPort (p : Port) (s : State) : turn (cancelPort p s) = turn s := by
  have hset (es : List Nat) : turn (es.foldl (fun s e => setRequest e (fun r => { r with cancel := true }) s) s) = turn s :=
    foldl_keeps turn (fun s e => turn_setRequest e _ s) es s
  unfold cancelPort
  dsimp only
  split
  · exact hset _
  · exact hset _

theorem turn_portDown (p : Port) (s : State) : turn (portDown p s) = turn s := by
  refine (turn_raiseEventAt _ _ _).trans ?_
  have hcancel := (turn_cancelPort p _).trans (turn_stopQueues p (setPort p (fun x => { x with linkUp := false, rate := 0, width := 0 }) s))
  split
  · exact (turn_changeHolder none _).trans hcancel
  · exact hcancel

theorem turn_portCold (p : Port) (s : State) : turn (portCold p s) = turn s :=
  foldl_keeps turn (fun s q => turn_setQueue q _ s) _ s

theorem turn_abandonRun (s : State) : turn (abandonRun s) = turn s := by
  refine turn_setRun (fun r => ?_) s
  rfl

theorem turn_abandonIfNamed (b : Nat) (s : State) : turn (abandonIfNamed b s) = turn s := by
  unfold abandonIfNamed
  split
  · split
    · exact turn_abandonRun s
    · rfl
  · rfl

theorem turn_failColls (b : Nat) (s : State) : turn (failColls b s) = turn s := by
  unfold failColls
  split
  · exact foldl_keeps turn (fun s c => turn_breakColl _ c s) _ s
  · rfl

theorem turn_failBlockOps (b : Nat) (s : State) : turn (failBlockOps b s) = turn s := by
  have hops (ids : List Nat) : turn (failColls b (ids.foldl (fun s id => failOp id Status.reset s) s)) = turn s :=
    (turn_failColls b _).trans (foldl_keeps turn (fun s id => turn_failOp id _ s) ids s)
  refine (turn_setBlock b _ _).trans ?_
  split
  · split
    · exact (turn_failBuilding _ _).trans (hops _)
    · exact hops _
  · exact hops _

theorem turn_clusterCold (k : Nat) (s : State) : (turn (clusterCold k s)).dealers = (turn s).dealers := by
  unfold clusterCold
  extract_lets u inE inK own
  refine (congrArg Turn.dealers (turn_setRun (fun r => ?_) _)).trans ?_ <;> rfl

theorem turn_blockCold (b : Nat) (s : State) : (turn (blockCold b s)).dealers = (turn s).dealers := by
  unfold blockCold
  split
  · exact turn_clusterCold b s
  · refine congrArg Turn.dealers ?_
    split
    · rfl
    · split
      · rfl
      · split
        · rfl
        · split
          · exact turn_portCold .A s
          · exact turn_portCold .B s

theorem turn_startBlock (b : Nat) (s : State) : (turn (startBlock b s)).dealers = (turn s).dealers := by
  unfold startBlock
  split
  any_goals rfl
  refine (turn_blockCold b _).trans (congrArg Turn.dealers ?_)
  refine (turn_failBlockOps b _).trans ((turn_setBlock b _ _).trans ((turn_abandonIfNamed b _).trans ?_))
  simp only [apply_ite turn, turn_portDown, ite_self]

theorem turn_startPendingBlocks (s : State) : (turn (startPendingBlocks s)).dealers = (turn s).dealers :=
  foldl_keeps (fun s => (turn s).dealers) (fun s b => turn_startBlock b s) _ s

/-! ### Steps 1 and 2: retired slots, cancellations and deadlines -/

theorem turn_retireSlot (acc : State × List Nat) (ix : BatchSlot × Nat) : turn (retireSlot acc ix).1 = turn acc.1 := by
  unfold retireSlot
  dsimp only
  split
  · rfl
  · split
    · exact turn_endEntry _ _ _ _ _
    · have hdrawn (e : Nat) (f : Request → Request) (q : Nat) (bs : List Byte) :
          turn (setRequest e f (commitRecord q bs acc.1)) = turn acc.1 := rfl
      simp only [apply_ite turn, turn_endEntry, hdrawn, ite_self]

theorem turn_stepRetire (s : State) : turn (stepRetire s).1 = turn s := by
  unfold stepRetire
  dsimp only
  split
  · rfl
  · exact foldl_keeps (fun x : State × List Nat => turn x.1) (fun acc ix => turn_retireSlot acc ix) _ _

theorem turn_stepExpire (tick : W64) (es : List Nat) (s : State) : turn (stepExpire tick es s) = turn s := by
  refine foldl_keeps turn (fun s e => ?_) es s
  simp only [apply_ite turn, turn_endEntry, ite_self]

/-! ### Steps 3 and 4: the castle, budgets -/

theorem turn_releaseHeld (i : Nat) (s : State) : turn (releaseHeld i s) = turn s := by
  unfold releaseHeld
  split <;> rfl

theorem turn_applyCastle (s : State) : turn (applyCastle s) = turn s := by
  unfold applyCastle
  split
  · rfl
  · extract_lets tgt old s1 s2 step d s3
    have hold : turn s1 = turn s := by
      show turn (if (slot s old).state = .live then _ else s) = turn s
      split <;> rfl
    have hlive : turn s3 = turn s1 := rfl
    exact (turn_complete _ _ _ _ _).trans ((turn_score _ _ _ _ _ _).trans (hlive.trans hold))

theorem turn_stepCharge (tenants : List Nat) (s : State) : turn (stepCharge tenants s) = turn s := rfl

/-! ### Step 5: the phase, and the checkpoint of this boundary -/

/-- The phase that the turn's pending change gives. -/
def Turn.next (x : Turn) : Phase := match x.pending with | some p => p.1 | none => x.phase

/-- The turn after step 5: the pending phase applies. -/
def Turn.phased (x : Turn) : Turn := { x with phase := x.next, pending := none }

theorem turn_stepPhase (s : State) : turn (stepPhase s) = (turn s).phased := by
  unfold stepPhase
  split
  · rename_i hnone
    simp only [Turn.phased, Turn.next, turn, hnone]
  · rename_i p q t hsome
    refine (turn_finish _ _ _).trans ((turn_score _ _ _ _ _ _).trans ?_)
    simp only [Turn.phased, Turn.next, turn, hsome]

theorem turn_setMedia (d : Nat) (f : FlashLayer → FlashLayer) (s : State) : turn (setMedia d f s) = turn s := by
  unfold setMedia
  dsimp only
  split <;> rfl

theorem turn_appendFlash (o : Nat) (bs : List Byte) (s : State) : turn (appendFlash o bs s) = turn s := by
  unfold appendFlash
  dsimp only
  split
  · exact foldl_keeps turn (fun s i => turn_setMedia _ _ s) _ _
  · rfl

theorem turn_truncateFlash (o : Nat) (s : State) : turn (truncateFlash o s) = turn s := by
  unfold truncateFlash
  dsimp only
  split <;> rfl

theorem turn_sendLog (fresh : Bool) (bs : List Byte) (s : State) : turn (sendLog fresh bs s) = turn s := by
  unfold sendLog
  split
  · split
    · exact turn_emit _ s
    · rfl
  · rfl

theorem turn_flushLog (s : State) : turn (flushLog s) = turn s := by
  unfold flushLog
  split
  · rfl
  · rename_i o _
    dsimp only
    have hsent (bs : List Byte) : turn (if bs = [] then s else sendLog false bs (if flashWorn s then s else appendFlash o.toNat bs s)) = turn s := by
      simp only [apply_ite turn, turn_sendLog, turn_appendFlash, ite_self]
    exact hsent _

theorem turn_switchLog (s : State) : turn (switchLog s) = turn s := by
  unfold switchLog
  split
  · split
    · exact (turn_sendLog _ _ _).trans ((turn_truncateFlash _ _).trans (turn_flushLog s))
    · rfl
  · rfl

theorem turn_bgObj (o : Obj) (off n : Nat) (s : State) : turn (bgObj o off n s) = turn s := by
  unfold bgObj
  split <;> rfl

theorem turn_takeJob (b : CkptBody) (t : Option Ticket) (s : State) : turn (takeJob b t s) = turn s := turn_bgObj _ _ _ _

theorem turn_startJob (s : State) : turn (startJob s) = turn s := by
  unfold startJob
  split
  · split
    · rfl
    · exact turn_truncateFlash _ _
  · rfl

theorem turn_takeDue (s : State) : turn (takeDue s) = turn s := by
  unfold takeDue
  split
  · split
    · exact (turn_takeJob _ _ _).trans (turn_switchLog s)
    · rfl
  · rfl

theorem turn_takeCheckpoint (s : State) : turn (takeCheckpoint s) = turn s := by
  refine (turn_startJob _).trans ((turn_takeDue _).trans ?_)
  exact foldl_keeps turn (fun s e => turn_takeJob _ _ s) _ s

/-! ### Step 6: the choice -/

theorem turn_settle (cls : StepClass) (sl : Nat) (es : List Nat) (s : State) : turn (settle cls sl es s).1 = turn s := by
  unfold settle
  split
  · rfl
  · rename_i b _
    have hended : turn ((uncovered s b es).foldl (fun s e => endEntry e .failed 5 false s) s) = turn s :=
      foldl_keeps turn (fun s e => turn_endEntry _ _ _ _ s) _ s
    dsimp only
    split
    · exact hended
    · simp only [apply_ite Prod.fst, apply_ite turn, turn_raiseEvent, hended, ite_self]

theorem turn_chooseLearn (s : State) : turn (chooseLearn s).1 = turn s := by
  unfold chooseLearn
  split
  · rfl
  · rename_i t id mask val input rest _
    have hfinish (st : Byte) : turn (finish t st { s with dealer := { s.dealer with plyRuns := rest } }) = turn s := turn_finish t st _
    dsimp only
    split
    · exact hfinish _
    · simp only [apply_ite Prod.fst, apply_ite turn, hfinish, ite_self]

theorem turn_learnChoice (s : State) : turn (learnChoice s).1 = turn s := by
  have hcount : turn (if evalDue s then { (chooseLearn s).1 with dealer := { (chooseLearn s).1.dealer with sinceEval := 0 } }
      else (chooseLearn s).1) = turn s := by
    split
    · exact turn_chooseLearn s
    · exact turn_chooseLearn s
  unfold learnChoice
  dsimp only
  split
  · exact hcount
  · exact turn_chooseLearn s

theorem turn_choose (sl : Option Nat) (old : Bool) (es : List Nat) (s : State) : turn (choose sl old es s).1 = turn s := by
  unfold choose
  split
  · rfl
  · split
    · dsimp only
      split
      · rfl
      · exact turn_settle _ _ _ _
    · dsimp only
      split
      · exact turn_settle _ _ _ _
      · exact turn_learnChoice s
    · rfl

end Sys2Proof.Machine
end

section
/-! SUPPORT. How a boundary ends, and the statement about boundaries (R29, R30, R34, R178). -/

namespace Sys2Proof.Machine

/-- From turn `x` to turn `y` a boundary has gone through steps 6 and 7: with a launch, with one held for the governor, to wait before
step 6 for a ply-run command, or idle. -/
structure Turn.Ended (x y : Turn) : Prop where
  phase      : y.phase = x.phase
  pending    : y.pending = x.pending
  boundaries : y.counters.boundaries = x.counters.boundaries
  boundaryAc : y.counters.boundaryAc = x.counters.boundaryAc
  how :
    (∃ l, y.launch = some l ∧ l.step = x.stepNumber + 1 ∧ y.stepNumber = x.stepNumber + 1 ∧ y.idle = false) ∨
    (y.held.isSome = true ∧ y.launch = x.launch ∧ y.stepNumber = x.stepNumber) ∨
    (y.midway = true ∧ y.launch = x.launch ∧ y.stepNumber = x.stepNumber) ∨
    (y.idle = true ∧ y.launch = x.launch ∧ y.stepNumber = x.stepNumber ∧
      y.counters.idleBoundaries = x.counters.idleBoundaries + 1)

/-- How a boundary ends does not hang on side memory. -/
theorem Turn.ended_dealers {x y : Turn} : x.dealers.Ended y ↔ x.Ended y :=
  ⟨fun ⟨a, b, c, d, e⟩ => ⟨a, b, c, d, e⟩, fun ⟨a, b, c, d, e⟩ => ⟨a, b, c, d, e⟩⟩

theorem Turn.idled_ended (x : Turn) (f : Nat) : x.Ended { x with freq := f }.idled :=
  ⟨rfl, rfl, rfl, rfl, .inr (.inr (.inr ⟨rfl, rfl, rfl, rfl⟩))⟩

theorem Turn.launched_ended (x : Turn) (f : Nat) (h : Held) (changed cancelled : Bool) (hold : Nat) :
    x.Ended ({ x with freq := f }.launched h changed cancelled hold) :=
  ⟨rfl, rfl, rfl, rfl, .inl ⟨_, rfl, rfl, rfl, rfl⟩⟩

/-- A chosen launch takes place, at whatever frequency, or the boundary is idle. -/
theorem launchBoundary_ended {x : Turn} {f : Nat} {s : State} (h : Held) (changed cancelled : Bool) (hold : Nat)
    (hx : turn s = { x with freq := f }) : x.Ended (turn (launchBoundary h changed cancelled hold s)) := by
  cases hs : launchStopped s h with
  | true =>
    rw [turn_launchBoundary_of_stopped changed cancelled hold hs, hx]
    exact x.idled_ended f
  | false =>
    rw [turn_launchBoundary_of_open changed cancelled hold hs, hx]
    exact x.launched_ended f h changed cancelled hold

/-- The governor slot launches at the frequency in force or at the stable standby's, or holds the launch (R37). -/
theorem governorSlot_ended (h : Held) (s : State) : (turn s).Ended (turn (governorSlot h s)) := by
  unfold governorSlot
  generalize chooseFreq s _ = c
  obtain ⟨f, ovr⟩ := c
  dsimp only
  have hover : turn (if ovr then { s with glaren := { s.glaren with overshoots := satInc s.glaren.overshoots } } else s) = turn s := by
    split <;> rfl
  generalize (if ovr then { s with glaren := { s.glaren with overshoots := satInc s.glaren.overshoots } } else s) = u at hover
  rw [← hover]
  split
  · exact launchBoundary_ended (f := u.glaren.freq) h _ _ _ rfl
  · split
    · exact launchBoundary_ended (f := u.glaren.standby) h _ _ _ rfl
    · exact ⟨rfl, rfl, rfl, rfl, .inr (.inl ⟨rfl, rfl, rfl⟩)⟩

theorem endBoundary_ended (c : Choice) : (turn c.1).Ended (turn (endBoundary c)) := by
  unfold endBoundary
  split
  · exact governorSlot_ended _ c.1
  · rw [turn_idleBoundary]
    exact (turn c.1).idled_ended (turn c.1).freq

/-! ### The whole procedure -/

/-- The turn as a boundary of `n` occupied entries begins, counted with its length (R30). -/
def Turn.begun (n : Nat) (x : Turn) : Turn :=
  { x with
    idle := false
    counters := { x.counters with
      boundaries := x.counters.boundaries + 1, boundaryAc := x.counters.boundaryAc + BitVec.ofNat 64 (2400 + 14 * n) } }

/-- A boundary applies the pending phase; then it waits before its step 6, or steps 6 and 7 end it. -/
theorem runBoundary_ended (s : State) : ((turn s).begun (occupied s).length).phased.Ended (turn (runBoundary s)) := by
  unfold runBoundary
  extract_lets es d c s0
  have hretire : (turn (stepRetire (startPendingBlocks (mapSpares (reportExhausted (countPeak s0))))).1).dealers = (turn s0).dealers := by
    rw [turn_stepRetire, turn_startPendingBlocks, turn_mapSpares, turn_reportExhausted, turn_countPeak]
  generalize stepRetire (startPendingBlocks (mapSpares (reportExhausted (countPeak s0)))) = p at hretire ⊢
  obtain ⟨s1, tenants⟩ := p
  have hphase : turn (takeCheckpoint (stepPhase (stepCharge tenants
      (releaseHeld 1 (releaseHeld 0 (applyCastle (stepExpire s.tick es s1))))))) = (turn s1).phased := by
    rw [turn_takeCheckpoint, turn_stepPhase, turn_stepCharge, turn_releaseHeld, turn_releaseHeld, turn_applyCastle, turn_stepExpire]
  dsimp only at hretire ⊢
  generalize takeCheckpoint _ = s4 at hphase ⊢
  generalize fixSlot _ _ = fixed
  have hdealers : (turn s4).dealers = ((turn s).begun es.length).phased.dealers := by
    rw [hphase]
    exact congrArg Turn.phased hretire
  rw [← Turn.ended_dealers, ← hdealers, Turn.ended_dealers]
  split
  · exact ⟨rfl, rfl, rfl, rfl, .inr (.inr (.inl ⟨rfl, rfl, rfl⟩))⟩
  · have hend := endBoundary_ended (choose fixed.1 fixed.2 es s4)
    rwa [turn_choose] at hend

/-! ### BOUNDARY and IDLE_BOUNDARY_TIMEOUT -/

theorem exec_boundary (s : State) : exec .boundary s = execBoundary s := rfl
theorem exec_idleBoundaryTimeout (s : State) : exec .idleBoundaryTimeout s = execIdleBoundaryTimeout s := rfl

/-- No step runs where a boundary is due, and none stands before its step 6. -/
theorem boundaryDue_spec {s : State} (h : boundaryDue s = true) : s.dealer.run = none ∧ boundaryOpen s = false := by
  simp only [boundaryDue, betweenSteps, Bool.and_eq_true, Bool.not_eq_true', Option.isNone_iff_eq_none] at h
  obtain ⟨⟨⟨⟨-, hrun⟩, -⟩, -⟩, hmid⟩ := h
  exact ⟨hrun, by rw [boundaryOpen, hmid, Bool.and_false]⟩

theorem exec_boundary_of_due {s : State} (h : boundaryDue s = true) : exec .boundary s = .next (runBoundary s) := by
  obtain ⟨-, hopen⟩ := boundaryDue_spec h
  simp only [exec_boundary, execBoundary, hopen, h, Bool.false_eq_true, if_false, if_true]

theorem exec_boundary_of_not_due {s : State} (h : boundaryDue s = false) (ho : boundaryOpen s = false) : exec .boundary s = .next s := by
  simp only [exec_boundary, execBoundary, ho, h, Bool.false_eq_true, if_false]

/-- The next boundary is due 1,000 ticks after an idle one. -/
theorem exec_idleBoundaryTimeout_late {s : State} (hidle : s.dealer.idle = true) (h : 1000 ≤ (s.tick - s.dealer.idleSince).toNat) :
    exec .idleBoundaryTimeout s = .next { s with dealer := { s.dealer with due := true } } := by
  simp only [exec_idleBoundaryTimeout, execIdleBoundaryTimeout, hidle, h, and_self, if_true, wake]

theorem exec_idleBoundaryTimeout_early {s : State} (h : (s.tick - s.dealer.idleSince).toNat < 1000) :
    exec .idleBoundaryTimeout s = .next s := by
  simp only [exec_idleBoundaryTimeout, execIdleBoundaryTimeout, Nat.not_le.2 h, and_false, if_false]

/-- A due boundary runs, and what its turn tells holds of the state. -/
theorem boundary_completes {s : State} (hdue : boundaryDue s = true) : Completes .boundary s (fun t =>
    t.counters.boundaries = s.counters.boundaries + 1 ∧
    t.counters.boundaryAc = s.counters.boundaryAc + BitVec.ofNat 64 (2400 + 14 * (occupied s).length) ∧
    t.dealer.phase = nextPhase s ∧ t.dealer.pending = none ∧
    ((∃ r, t.dealer.run = some r ∧ r.step = s.dealer.stepNumber + 1 ∧ t.dealer.stepNumber = s.dealer.stepNumber + 1 ∧ t.dealer.idle = false) ∨
      (t.dealer.held.isSome = true ∧ t.dealer.run = none ∧ t.dealer.stepNumber = s.dealer.stepNumber) ∨
      (t.dealer.midway = true ∧ t.dealer.run = none ∧ t.dealer.stepNumber = s.dealer.stepNumber) ∨
      (t.dealer.idle = true ∧ t.dealer.run = none ∧ t.dealer.stepNumber = s.dealer.stepNumber ∧
        t.counters.idleBoundaries = s.counters.idleBoundaries + 1))) := by
  obtain ⟨hrun, -⟩ := boundaryDue_spec hdue
  have hnone : (turn s).launch = none := by simp only [turn, hrun, Option.map_none]
  have hexec := exec_boundary_of_due hdue
  have hended := runBoundary_ended s
  generalize runBoundary s = t at hexec hended
  obtain ⟨hphase, hpending, hcount, hlength, hhow⟩ := hended
  refine ⟨t, hexec, hcount, hlength, hphase, hpending, ?_⟩
  rcases hhow with ⟨l, hl, hstep, hnumber, hbusy⟩ | ⟨hheld, hl, hnumber⟩ | ⟨hmid, hl, hnumber⟩ | ⟨hidle, hl, hnumber, hidles⟩
  · obtain ⟨r, hr, rfl⟩ := run_of_launch hl
    exact .inl ⟨r, hr, hstep, hnumber, hbusy⟩
  · exact .inr (.inl ⟨hheld, run_of_no_launch (hl.trans hnone), hnumber⟩)
  · exact .inr (.inr (.inl ⟨hmid, run_of_no_launch (hl.trans hnone), hnumber⟩))
  · exact .inr (.inr (.inr ⟨hidle, run_of_no_launch (hl.trans hnone), hnumber, hidles⟩))

/-- Settles O30: what the boundary's turn tells, and the three cases in which it does not run. -/
theorem boundariesRun : Obligations.BoundariesRun :=
  ⟨fun _ => boundary_completes, fun _ => ⟨exec_boundary_of_not_due, exec_idleBoundaryTimeout_late, exec_idleBoundaryTimeout_early⟩⟩

end Sys2Proof.Machine
end

section
/-! SUPPORT. Launches held for the governor: how long, and the two events that settle one (R37, R185, R448; log entries 47 and 68). -/

namespace Sys2Proof.Machine

theorem exec_govConfirm (s : State) : exec .govConfirm s = execGovConfirm s := rfl
theorem exec_govConfirmTimeout (s : State) : exec .govConfirmTimeout s = execGovConfirmTimeout s := rfl

/-! ### How long a launch has been held -/

/-- The slowest governor step is 1,500 MHz (Table 6.2). -/
theorem freqMHz_ge (f : Nat) : 1500 ≤ freqMHz f := by
  unfold freqMHz
  repeat' split
  all_goals omega

/-- The bounds of the held ac are a module tick or two apart. -/
theorem govAcLow_lt_high (s : State) (h : Held) : govAcLow s h < govAcHigh s h := by
  have hf := freqMHz_ge s.glaren.freq
  exact Nat.mul_lt_mul_of_pos_right (by omega) (by omega)

/-- A held launch has been held for at least one module tick at the slowest frequency, as its upper bound tells. -/
theorem govAcHigh_ge (s : State) (h : Held) : 1500 ≤ govAcHigh s h :=
  (freqMHz_ge _).trans (Nat.le_mul_of_pos_left _ (Nat.succ_pos _))

/-- With the 64 ac of its slot a held launch lies within the bounds, and never passes 250,000 ac (R185). -/
theorem govHeldAc_bounds {s : State} {h : Held} (hlow : govAcLow s h < 250000) :
    govAcLow s h ≤ govHeldAc s h + 64 ∧ govHeldAc s h + 64 ≤ govAcHigh s h ∧ govHeldAc s h ≤ 249936 := by
  have hlt := govAcLow_lt_high s h
  have hge := govAcHigh_ge s h
  have hmod := Nat.mod_lt (Config.freeNat s.free) (Nat.sub_pos_of_lt hlt)
  unfold govHeldAc
  omega

/-! ### The launch that a settled change lets go on -/

/-- A held launch that nothing stops starts its step: the next number, the held ply, the governor's marks, the frequency in force. -/
theorem launchBoundary_of_open {h : Held} {s : State} (changed cancelled : Bool) (hold : Nat) (hs : launchStopped s h = false) :
    ∃ r, (launchBoundary h changed cancelled hold s).dealer.run = some r ∧
      (r.step = s.dealer.stepNumber + 1 ∧ r.ply = h.ply ∧ r.freqChanged = changed ∧ r.freqCancelled = cancelled ∧ r.govHold = hold) ∧
      (launchBoundary h changed cancelled hold s).dealer.held = none ∧
      (launchBoundary h changed cancelled hold s).dealer.stepNumber = s.dealer.stepNumber + 1 ∧
      (launchBoundary h changed cancelled hold s).dealer.lastPly = h.ply.plyId ∧
      (launchBoundary h changed cancelled hold s).glaren.freq = s.glaren.freq ∧
      (launchBoundary h changed cancelled hold s).dealer.phase = s.dealer.phase ∧
      (launchBoundary h changed cancelled hold s).units.side = s.units.side := by
  have hturn := turn_launchBoundary_of_open changed cancelled hold hs
  generalize launchBoundary h changed cancelled hold s = t at hturn
  obtain ⟨r, hr, hl⟩ := run_of_launch (congrArg Turn.launch hturn)
  exact ⟨r, hr, ⟨congrArg Launched.step hl, congrArg Launched.ply hl, congrArg Launched.changed hl, congrArg Launched.cancelled hl,
    congrArg Launched.hold hl⟩, congrArg Turn.held hturn, congrArg Turn.stepNumber hturn, congrArg Turn.lastPly hturn,
    congrArg Turn.freq hturn, congrArg Turn.phase hturn, congrArg Turn.side hturn⟩

/-- The state in which a confirmed change launches: the standby PLL, now stable, is in force. -/
def confirmed (s : State) : State :=
  switchFreq { s with glaren := { s.glaren with standbyStable := true }, free := s.free + 1 }

theorem launchStopped_confirmed (s : State) (h : Held) : launchStopped (confirmed s) h = launchStopped s h :=
  launchStopped_congr h rfl rfl rfl rfl

theorem launchStopped_score (a b c : Nat) (x : W64) (d : List Byte) (s : State) (h : Held) :
    launchStopped (score a b c x d s) h = launchStopped s h := by
  apply launchStopped_congr <;> simp

/-- In time, GOV_CONFIRM launches at the standby's frequency with the ac held. -/
theorem exec_govConfirm_inTime {s : State} {h : Held} (hh : s.dealer.held = some h) (hlow : govAcLow s h < 250000) :
    exec .govConfirm s = .next (launchBoundary h true false (govHeldAc s h) (confirmed s)) := by
  simp only [exec_govConfirm, execGovConfirm, hh, hlow, decide_true, launchHeld]
  rfl

/-- With none held, GOV_CONFIRM notes that the standby PLL is stable. -/
theorem exec_govConfirm_of_not_held {s : State} (hh : s.dealer.held = none) :
    exec .govConfirm s = .next { s with glaren := { s.glaren with standbyStable := true } } := by
  simp only [exec_govConfirm, execGovConfirm, hh]

/-- After 250,000 ac the change is cancelled: a record, and the launch at the frequency in force. -/
theorem exec_govConfirmTimeout_late {s : State} {h : Held} (hh : s.dealer.held = some h) (hhigh : 250000 < govAcHigh s h) :
    exec .govConfirmTimeout s = .next (launchBoundary h false true 249936 (score 0 0 0x0013 (s.dealer.stepNumber + 1) [] s)) := by
  simp only [exec_govConfirmTimeout, execGovConfirmTimeout, hh, hhigh, if_true]

theorem exec_govConfirmTimeout_early {s : State} {h : Held} (hh : s.dealer.held = some h) (hhigh : govAcHigh s h ≤ 250000) :
    exec .govConfirmTimeout s = .next s := by
  simp only [exec_govConfirmTimeout, execGovConfirmTimeout, hh, Nat.not_lt.2 hhigh, if_false]

theorem exec_govConfirmTimeout_of_not_held {s : State} (hh : s.dealer.held = none) : exec .govConfirmTimeout s = .next s := by
  simp only [exec_govConfirmTimeout, execGovConfirmTimeout, hh]

/-- Where the dealers have stopped launching the boundary ends idle, in time or late. -/
theorem turn_launchHeld_of_stopped {h : Held} {s : State} (changed : Bool) (hs : launchStopped s h = true) :
    ∃ f, turn (launchHeld h changed s) = { turn s with freq := f }.idled := by
  cases changed with
  | true =>
    refine ⟨s.glaren.standby, turn_launchBoundary_of_stopped _ _ _ ?_⟩
    exact (launchStopped_congr h rfl rfl rfl rfl).trans hs
  | false =>
    have hscore : turn (score 0 0 0x0013 (s.dealer.stepNumber + 1) [] { s with free := s.free + 1 }) = turn s :=
      (turn_score _ _ _ _ _ _).trans rfl
    refine ⟨s.glaren.freq, (turn_launchBoundary_of_stopped _ _ _ ?_).trans (congrArg Turn.idled hscore)⟩
    exact (launchStopped_score _ _ _ _ _ _ h).trans ((launchStopped_congr h rfl rfl rfl rfl).trans hs)

/-! ### The clauses of the statement -/

/-- GOV_CONFIRM in time starts the held step, confirmed. -/
theorem govConfirm_completes {s : State} {h : Held} (hh : s.dealer.held = some h) (hs : launchStopped s h = false)
    (hlow : govAcLow s h < 250000) : Completes .govConfirm s (fun t =>
      (∃ r, t.dealer.run = some r ∧ r.step = s.dealer.stepNumber + 1 ∧ r.ply = h.ply ∧ r.freqChanged = true ∧ r.freqCancelled = false ∧
        govAcLow s h ≤ r.govHold + 64 ∧ r.govHold + 64 ≤ govAcHigh s h ∧ r.govHold ≤ 249936) ∧
      t.dealer.held = none ∧ t.dealer.stepNumber = s.dealer.stepNumber + 1 ∧ t.dealer.lastPly = h.ply.plyId ∧
      t.glaren.freq = s.glaren.standby ∧ t.dealer.phase = s.dealer.phase ∧ t.units.side = s.units.side) := by
  have hexec := exec_govConfirm_inTime hh hlow
  obtain ⟨r, hr, ⟨hstep, hply, hchanged, hcancelled, hhold⟩, hrest⟩ :=
    launchBoundary_of_open true false (govHeldAc s h) ((launchStopped_confirmed s h).trans hs)
  have hbounds := govHeldAc_bounds hlow
  rw [← hhold] at hbounds
  generalize launchBoundary h true false (govHeldAc s h) (confirmed s) = t at hexec hr hrest
  exact ⟨t, hexec, ⟨r, hr, hstep, hply, hchanged, hcancelled, hbounds⟩, hrest⟩

/-- GOV_CONFIRM_TIMEOUT after 250,000 ac starts the held step, cancelled. -/
theorem govConfirmTimeout_completes {s : State} {h : Held} (hh : s.dealer.held = some h) (hs : launchStopped s h = false)
    (hhigh : 250000 < govAcHigh s h) : Completes .govConfirmTimeout s (fun t =>
      (∃ r, t.dealer.run = some r ∧ r.step = s.dealer.stepNumber + 1 ∧ r.ply = h.ply ∧ r.freqChanged = false ∧ r.freqCancelled = true ∧
        r.govHold = 249936) ∧
      t.dealer.held = none ∧ t.dealer.stepNumber = s.dealer.stepNumber + 1 ∧ t.dealer.lastPly = h.ply.plyId ∧
      t.glaren.freq = s.glaren.freq ∧ t.dealer.phase = s.dealer.phase ∧ t.units.side = s.units.side) := by
  have hexec := exec_govConfirmTimeout_late hh hhigh
  have hscore := turn_score 0 0 0x0013 (s.dealer.stepNumber + 1) [] s
  have hopen := (launchStopped_score 0 0 0x0013 (s.dealer.stepNumber + 1) [] s h).trans hs
  generalize score 0 0 0x0013 (s.dealer.stepNumber + 1) [] s = u at hexec hscore hopen
  obtain ⟨r, hr, ⟨hstep, hmarks⟩, hheld, hnumber, hlast, hfreq, hphase, hside⟩ := launchBoundary_of_open false true 249936 hopen
  have hu : u.dealer.stepNumber = s.dealer.stepNumber := congrArg Turn.stepNumber hscore
  generalize launchBoundary h false true 249936 u = t at hexec hr hheld hnumber hlast hfreq hphase hside
  rw [hu] at hstep hnumber
  exact ⟨t, hexec, ⟨r, hr, hstep, hmarks⟩, hheld, hnumber, hlast, hfreq.trans (congrArg Turn.freq hscore),
    hphase.trans (congrArg Turn.phase hscore), hside.trans (congrArg Turn.side hscore)⟩

/-- GOV_CONFIRM while the dealers do not launch ends the boundary as an idle one (R34). -/
theorem govConfirm_completes_idle {s : State} {h : Held} (hh : s.dealer.held = some h) (hrun : s.dealer.run = none)
    (hs : launchStopped s h = true) : Completes .govConfirm s (fun t =>
      t.dealer.run = none ∧ t.dealer.held = none ∧ t.dealer.idle = true ∧ t.dealer.stepNumber = s.dealer.stepNumber ∧
      t.counters.idleBoundaries = s.counters.idleBoundaries + 1) := by
  have hexec : exec .govConfirm s =
      .next (launchHeld h (decide (govAcLow s h < 250000)) { s with glaren := { s.glaren with standbyStable := true } }) := by
    simp only [exec_govConfirm, execGovConfirm, hh]
  have hstopped : launchStopped { s with glaren := { s.glaren with standbyStable := true } } h = true :=
    (launchStopped_congr h rfl rfl rfl rfl).trans hs
  have hnone : (turn s).launch = none := by simp only [turn, hrun, Option.map_none]
  obtain ⟨f, hturn⟩ := turn_launchHeld_of_stopped (decide (govAcLow s h < 250000)) hstopped
  generalize launchHeld h _ _ = t at hexec hturn
  exact ⟨t, hexec, run_of_no_launch ((congrArg Turn.launch hturn).trans hnone), congrArg Turn.held hturn, congrArg Turn.idle hturn,
    congrArg Turn.stepNumber hturn, congrArg (fun x => x.counters.idleBoundaries) hturn⟩

/-- Settles O31: a clause for each way in which a held launch is settled, each by its lemma above. -/
theorem heldLaunches : Obligations.HeldLaunches :=
  ⟨fun _ _ hh hs => ⟨govConfirm_completes hh hs, govConfirmTimeout_completes hh hs⟩, fun _ _ => exec_govConfirmTimeout_early,
    fun _ _ => govConfirm_completes_idle, fun _ hh => ⟨exec_govConfirm_of_not_held hh, exec_govConfirmTimeout_of_not_held hh⟩⟩

end Sys2Proof.Machine
end

section
/-! SUPPORT. O9 does not hold: where a dealer that must not launch (here one whose spare lines are exhausted) stands at a learning boundary,
a PLY_RUN of an absent ply is taken and closes the boundary as an idle one; step 6 does not look it up, and it stays in the list of taken
ply-run commands without a completion record. -/

namespace Sys2Proof.Machine

/-- A ply-run command's header, without marks. -/
def plainHdr : Hdr := { wait := false, done := false, irq := false, waitMark := 0, doneMark := 0, tag := 0x77, waitValue := 0 }

/-- A learning boundary that waits before its step 6 for a command of queue 3, of function 0 of the holder's port A. The learning book is
present and empty. The spare lines of a bank are exhausted, so that no step launches. -/
def stalledLearning : State :=
  let s0 := setPort .A (fun p => { p with d3hot := false }) (setQueue 3 (fun k =>
    { k with enable := true, owner := { port := .A, num := 0 }, sqSize := 16, cqSize := 16, sqTail := k.sqHead + 1 }) State.reset)
  { s0 with
    resets := { s0.resets with mgood := true }
    host := { s0.host with holder := some .A }
    dealer := { s0.dealer with
      learnBook := some { kind := .learn, modelId := 1, epoch := 1, digestLo := 0, plies := [] }
      idle := false, learnQueue := some 3, phase := .learn, midway := true, sramExhausted := true } }

theorem stalledLearning_accepts : accepts stalledLearning 3 plainHdr true = true := by decide +kernel

theorem stalledLearning_learnBoundary : learningQueue stalledLearning 3 = true ∧ learnBoundary stalledLearning 3 = true := by decide +kernel

/-- The command that closed the boundary is still in the list. -/
theorem stalledLearning_keeps_plyRun :
    (match exec (.plyRun 3 plainHdr 5 0 0 0) stalledLearning with
      | .next t => t.dealer.plyRuns.isEmpty
      | _ => true) = false := by decide +kernel

/-- Refutes O9: a PLY_RUN of an absent ply, taken at a learning boundary while the dealers launch no step, is not looked up and does not
complete with BOOK_ABSENT. -/
theorem not_phaseAndPlyRun : ¬ Obligations.PhaseAndPlyRun := by
  unfold Obligations.PhaseAndPlyRun
  intro h
  obtain ⟨hlq, hlb⟩ := stalledLearning_learnBoundary
  obtain ⟨_, habsent, _⟩ := h.2 3 plainHdr 5 0 0 0 stalledLearning stalledLearning_accepts
  obtain ⟨t, hexec, _, _, hempty, _⟩ := habsent hlq hlb rfl rfl ⟨_, rfl, rfl⟩
  have hkept := stalledLearning_keeps_plyRun
  rw [hexec] at hkept
  exact absurd (List.isEmpty_iff.2 hempty) (ne_true_of_eq_false hkept)

end Sys2Proof.Machine
end

section
/-! SUPPORT. Fencing: what ends with FENCED leaves the turn alone but for the pending phase change; a half that fences is fenced, and the
phase becomes FENCED with MGOOD low once both are (R294, R342). -/

namespace Sys2Proof.Machine

/-- The turn without its pending phase change, which fencing may end. -/
def Turn.unpended (x : Turn) : Turn := { x with pending := none }

/-! ### Commands that end with FENCED -/

theorem turn_endFenced (ts : List Ticket) (s : State) : turn (endFenced ts s) = turn s :=
  foldl_keeps turn (fun s t => turn_finish t _ s) ts s

theorem endFenced_frame (ts : List Ticket) (s : State) :
    (endFenced ts s).dealer = s.dealer ∧ (endFenced ts s).tiers = s.tiers ∧ (endFenced ts s).units = s.units := by
  refine ⟨?_, ?_, ?_⟩
  · exact foldl_keeps State.dealer (fun s t => by simp) ts s
  · exact foldl_keeps State.tiers (fun s t => by simp) ts s
  · exact foldl_keeps State.units (fun s t => by simp) ts s

theorem turn_failDealer (mine : Ticket → Bool) (s : State) : (turn (failDealer mine s)).unpended = (turn s).unpended := by
  unfold failDealer
  extract_lets d s1 ready phase fields s2 s3
  have h1 : turn s1 = turn s := by
    unfold s1
    split
    · simp only [apply_ite turn, turn_failBuilding, ite_self]
    · rfl
  have h2 : (turn s2).unpended = (turn s).unpended := (congrArg Turn.unpended h1 :)
  have h3 : turn s3 = turn s2 := by
    unfold s3
    split
    · split <;> rfl
    · rfl
  rw [turn_endFenced, h3, h2]

theorem turn_failConceal (mine : Ticket → Bool) (s : State) : turn (failConceal mine s) = turn s := by
  unfold failConceal
  extract_lets
  exact (turn_endFenced _ _).trans ((turn_startJob _).trans rfl)

theorem turn_failPort (p : Port) (s : State) : (turn (failPort p s)).unpended = (turn s).unpended := by
  unfold failPort
  extract_lets mine ids s1 s2
  have h1 : turn s1 = turn s := foldl_keeps turn (fun s id => turn_failOp id _ s) ids s
  have h2 : turn s2 = turn s1 := by
    refine foldl_keeps turn (fun s c => ?_) _ s1
    split
    · exact turn_breakColl _ c s
    · exact turn_failColl c _ s
  rw [turn_failConceal, turn_failDealer, h2, h1]

/-! ### A half that fences -/

theorem turn_setUPort (u : Nat) (f : UPort → UPort) (s : State) : turn (setUPort u f s) = turn s := rfl

/-- A turn in which a half fences: its flag is up, and it asks no more. -/
def Turn.fence (h : Half) (x : Turn) : Turn :=
  { x with
    westFenced := x.westFenced || decide (h = .west), eastFenced := x.eastFenced || decide (h = .east)
    queries := x.queries.filter (fun e => decide (e.1 ≠ Half.idx h)) }

/-- The turn once both halves have fenced. -/
def Turn.silent (x : Turn) : Turn := { x with phase := .fenced, held := none, midway := false, mgood := false }

theorem turn_fenceHalf (h : Half) {s : State} (hrun : s.dealer.run = none) :
    (turn (fenceHalf h s)).unpended =
      if ((turn s).fence h).westFenced ∧ ((turn s).fence h).eastFenced then ((turn s).fence h).silent.unpended
      else ((turn s).fence h).unpended := by
  unfold fenceHalf
  extract_lets s1 fields s2 s3 fields'
  have h1 : turn s1 = turn s := by unfold s1; rw [hrun]
  clear_value s1
  have h2 : (turn s2).unpended = ((turn s).fence h).unpended := by
    unfold s2
    rw [turn_failPort, ← h1]
    rfl
  clear_value s2
  have hw : s2.dealer.westFenced = ((turn s).fence h).westFenced := congrArg Turn.westFenced h2
  have he : s2.dealer.eastFenced = ((turn s).fence h).eastFenced := congrArg Turn.eastFenced h2
  simp only [hw, he]
  split
  · refine (congrArg Turn.unpended (foldl_keeps turn (fun s u => turn_setUPort u _ s) _ _)).trans ?_
    have h3 : (turn (writeRecords s2)).unpended = ((turn s).fence h).unpended := by rw [turn_writeRecords, h2]
    exact (congrArg Turn.silent h3 :)
  · exact h2

end Sys2Proof.Machine
end

section
/-! SUPPORT. The dealer role: a split and its queries, Glaren's answers, HOLD and FENCE (R22, R293 to R295, R406). -/

namespace Sys2Proof.Machine

@[simp] theorem Half.other_ne (h : Half) : Half.other h ≠ h := by cases h <;> decide

/-- The turn after HOLD: the half leads under the epoch, the other has fenced, and a boundary under way has ended. -/
def Turn.hold (h : Half) (epoch : W32) (x : Turn) : Turn :=
  { x with
    lead := h, roleEpoch := epoch, halfFenced := true, held := none, midway := false
    westFenced := x.westFenced || decide (h = .east), eastFenced := x.eastFenced || decide (h = .west)
    queries := x.queries.filter (fun e => decide (e.1 ≠ Half.idx h)) }

/-- Whether a half has fenced, by the turn. -/
def Turn.isFenced (x : Turn) (h : Half) : Bool := match h with | .west => x.westFenced | .east => x.eastFenced

theorem isFenced_turn (s : State) (h : Half) : isFenced s h = (turn s).isFenced h := by cases h <;> rfl
@[simp] theorem Turn.isFenced_unpended (x : Turn) (h : Half) : x.unpended.isFenced h = x.isFenced h := by cases h <;> rfl
@[simp] theorem Turn.isFenced_silent (x : Turn) (h : Half) : x.silent.isFenced h = x.isFenced h := by cases h <;> rfl

/-- HOLD to a half fences the other, and it alone. -/
@[simp] theorem Turn.isFenced_hold (x : Turn) (h k : Half) (epoch : W32) :
    (x.hold h epoch).isFenced k = (x.isFenced k || decide (k = Half.other h)) := by
  cases h <;> cases k <;> simp [Turn.isFenced, Turn.hold, Half.other]
@[simp] theorem Turn.isFenced_fence (x : Turn) (h k : Half) : (x.fence h).isFenced k = (x.isFenced k || decide (k = h)) := by
  cases h <;> cases k <;> simp [Turn.isFenced, Turn.fence]

/-- Both flags of a half's turn that fences are up when the other half had fenced. -/
theorem Turn.fence_both_iff (x : Turn) (h : Half) :
    ((x.fence h).westFenced = true ∧ (x.fence h).eastFenced = true) ↔ x.isFenced (Half.other h) = true := by
  cases h <;> simp [Turn.isFenced, Turn.fence, Half.other]

theorem asks_turn (s : State) (h : Half) : asks s h = (turn s).queries.any (fun e => decide (e.1 = Half.idx h)) := rfl

/-! ### Glaren's grant (R406) -/

/-- An event's bit is set in its port's EVENT_STATUS, and no other port changes. -/
theorem portSt_raiseEventAt (q p : Port) (n : Nat) (s : State) :
    portSt (raiseEventAt q n s) p =
      if q = p then { portSt s p with events := (portSt s p).events ||| BitVec.ofNat 12 (2 ^ n) } else portSt s p := by
  unfold raiseEventAt
  dsimp only
  split <;> simp

/-- A raised event stands in both ports' EVENT_STATUS. -/
theorem raiseEvent_events {n : Nat} (hn : n < 12) (p : Port) (s : State) : (portSt (raiseEvent n s) p).events.getLsbD n = true := by
  have hbit : (BitVec.ofNat 12 (2 ^ n)).getLsbD n = true := by
    rw [BitVec.getLsbD_ofNat, Nat.testBit_two_pow_self, decide_eq_true hn]
    rfl
  cases p <;> simp only [raiseEvent, portSt_raiseEventAt, reduceCtorEq, if_true, if_false, BitVec.getLsbD_or, hbit, Bool.or_true]

/-- A new epoch is told to the hosts; the holder, the dealers and memory stay. -/
theorem newEpoch_frame (s : State) :
    (newEpoch s).host.epoch = s.host.epoch + 1 ∧ (newEpoch s).host.holder = s.host.holder ∧ (newEpoch s).dealer = s.dealer ∧
    (newEpoch s).tiers = s.tiers := by
  simp [newEpoch]

theorem grantEast_frame (s : State) :
    (grantEast s).host.epoch = s.host.epoch + 1 ∧ (grantEast s).host.holder = s.host.holder ∧
    (grantEast s).dealer = { s.dealer with grant := .east } ∧ (grantEast s).tiers = s.tiers ∧
    ∃ pre, (grantEast s).out = pre ++ [.roleAnswer .east true (s.host.epoch + 1)] := by
  obtain ⟨hepoch, hholder, hdealer, htiers⟩ := newEpoch_frame s
  refine ⟨?_, ?_, ?_, ?_, (newEpoch s).out, ?_⟩
  · simp [grantEast, hepoch]
  · simp [grantEast, hholder]
  · simp [grantEast, hdealer]
  · simp [grantEast, htiers]
  · rw [← hepoch]; rfl

/-- Once granted to the east half, the role is not granted again. -/
theorem roleSilenceGrant_of_east {s : State} (h : s.dealer.grant = .east) : exec .roleSilenceGrant s = .next s := by
  simp [exec, execRoleSilenceGrant, westSilent, h]

/-! ### A split and its queries -/

theorem boundaryRecord_acknowledged {h : Half} {n : W64} {s : State} (hack : s.dealer.needAck = some n) (hlead : h ≠ s.dealer.lead)
    (hsplit : s.dealer.split = false) (hgood : s.resets.mgood = true) :
    exec (.boundaryRecord h) s = .next { s with dealer := { s.dealer with mirrorStep := n, needAck := none } } := by
  simp [exec, execBoundaryRecord, hack, hlead, hsplit, hgood]

theorem splitDetect_completes {s : State} (hgood : s.resets.mgood = true) (hsplit : s.dealer.split = false) (hphase : s.dealer.phase ≠ .fenced) :
    Completes .splitDetect s (fun t =>
      t.dealer.split = true ∧ asks t .west = true ∧ asks t .east = true ∧ t.out = s.out ++ [.roleQuery .west, .roleQuery .east] ∧
      (s.dealer.halfFenced = false → noLaunch t = true) ∧ t.dealer.phase = s.dealer.phase ∧ t.tiers = s.tiers) := by
  refine ⟨_, rfl, ?_⟩
  rw [if_pos ⟨hgood, by simp [hsplit], hphase⟩]
  refine ⟨by simp, by simp [asks, Half.idx], by simp [asks, Half.idx], by simp [emit], fun hfenced => ?_, by simp, by simp⟩
  simp [noLaunch, hfenced]

theorem roleQuery_holds {s : State} {h : Half} (hasks : asks s h = true) (hready : s.resets.glarenReady = true) (hgrant : h = s.dealer.grant) :
    Completes (.roleQuery h) s (fun t => t.out = s.out ++ [.roleAnswer h true s.host.epoch] ∧ t.host = s.host ∧ t.tiers = s.tiers) := by
  refine ⟨_, rfl, ?_⟩
  simp only [hasks, hready, not_true_eq_false, or_self, if_false, if_pos hgrant]
  split <;> simp [emit]

theorem roleQuery_fences {s : State} {h : Half} (hasks : asks s h = true) (hready : s.resets.glarenReady = true) (hgrant : h ≠ s.dealer.grant)
    (hheard : westSilent s = false) :
    Completes (.roleQuery h) s (fun t => t.out = s.out ++ [.roleAnswer h false s.host.epoch] ∧ t.host = s.host ∧ t.tiers = s.tiers) := by
  refine ⟨_, rfl, ?_⟩
  simp only [hasks, hready, not_true_eq_false, or_self, if_false, if_neg hgrant, hheard, Bool.false_eq_true, and_false]
  split <;> simp [emit]

theorem roleSilenceGrant_completes {s : State} (hasks : asks s .east = true) (hready : s.resets.glarenReady = true)
    (hsilent : westSilent s = true) :
    Completes .roleSilenceGrant s (fun t => t.host.epoch = s.host.epoch + 1 ∧ t.host.holder = s.host.holder ∧
      (∃ pre, t.out = pre ++ [.roleAnswer .east true (s.host.epoch + 1)]) ∧ t.dealer = { s.dealer with grant := .east } ∧
      t.tiers = s.tiers ∧ exec .roleSilenceGrant t = .next t) := by
  obtain ⟨hepoch, hholder, hdealer, htiers, hout⟩ := grantEast_frame s
  refine ⟨grantEast s, ?_, hepoch, hholder, hout, hdealer, htiers, roleSilenceGrant_of_east (by rw [hdealer])⟩
  simp [exec, execRoleSilenceGrant, hasks, hready, hsilent]

theorem roleQuery_grantsEast {s : State} (hasks : asks s .east = true) (hready : s.resets.glarenReady = true) (hsilent : westSilent s = true) :
    Completes (.roleQuery .east) s (fun t => t.host.epoch = s.host.epoch + 1 ∧ t.host.holder = s.host.holder ∧ t.dealer.grant = .east ∧
      t.tiers = s.tiers) := by
  have hgrant : s.dealer.grant = .west := by
    simp only [westSilent, Bool.and_eq_true, decide_eq_true_eq] at hsilent
    exact hsilent.1
  obtain ⟨hepoch, hholder, hdealer, htiers, -⟩ := grantEast_frame s
  refine ⟨grantEast s, ?_, hepoch, hholder, by rw [hdealer], htiers⟩
  simp [exec, execRoleQuery, hasks, hready, hsilent, hgrant]

/-! ### HOLD (R294, R295) -/

/-- What a boundary leaves to be applied never takes back that the next boundary is due. -/
theorem applyReqOp_due (t : Ticket) (i : Instr) {s : State} (h : s.dealer.due = true) : (applyReqOp t i s).dealer.due = true := by
  unfold applyReqOp
  split
  · unfold admitBody
    dsimp only
    split <;> simp [h, wake]
  · unfold cancelBody
    split <;> simp [h, wake]
  · unfold pageMoveBody
    split
    · simp [h]
    · split
      · simp [h]
      · split
        · unfold startOp
          split
          · simpa [addOp] using h
          · simpa [finishOpt, opTicket] using h
        · rfl
  · exact h

theorem writeRecord_dealer (q : Nat) (bs : List Byte) (s : State) : (writeRecord q bs s).dealer = s.dealer := by
  unfold writeRecord
  dsimp only
  split <;> simp

theorem writeRecords_due (s : State) : (writeRecords s).dealer.due = s.dealer.due := by
  have hring (before u : State) : (ringInterrupts before u).dealer = u.dealer := by
    refine foldl_keeps State.dealer (fun s e => ?_) _ u
    split <;> simp
  refine (congrArg Dealer.due ((hring s _).trans (foldl_keeps State.dealer (fun s e => ?_) _ _))).trans rfl
  exact writeRecord_dealer e.1 e.2 s

theorem afterBoundary_due {s : State} (h : s.dealer.due = true) : (afterBoundary s).dealer.due = true := by
  unfold afterBoundary drainReqOps
  refine List.foldlRecOn _ _ (motive := fun u : State => u.dealer.due = true) ?_ (fun u hu e _ => applyReqOp_due e.1 e.2 hu)
  exact (writeRecords_due s).trans h

/-- Taking the mirrored tables leaves the turn, memory and the units alone. -/
theorem takeMirror_frame (s : State) :
    turn (takeMirror s) = turn s ∧ (takeMirror s).tiers = s.tiers ∧ (takeMirror s).units = s.units := by
  unfold takeMirror
  extract_lets m lost fields
  exact ⟨(turn_endFenced _ _).trans rfl, (endFenced_frame lost _).2.1, (endFenced_frame lost _).2.2⟩

/-- What HOLD leaves, once the mirror is taken: the turn, a due boundary, the event at both ports. -/
theorem holdRole_frame (h : Half) (epoch : W32) (s : State) :
    turn (holdRole h epoch s) = (turn s).hold h epoch ∧ (holdRole h epoch s).dealer.due = true ∧
    (∀ p, (portSt (holdRole h epoch s) p).events.getLsbD Event.halfFenced = true) ∧
    (inBoundary s = false → (holdRole h epoch s).tiers = s.tiers ∧ (holdRole h epoch s).units = s.units) := by
  unfold holdRole
  extract_lets s0 fields s1 s2
  obtain ⟨hturn0, htiers0, hunits0⟩ : turn s0 = turn s ∧ s0.tiers = s.tiers ∧ s0.units = s.units := by
    unfold s0
    split
    · exact ⟨rfl, rfl, rfl⟩
    · exact takeMirror_frame s
  clear_value s0
  have hturn1 : turn s1 = (turn s).hold h epoch := by
    have hwest : s.dealer.westFenced = s0.dealer.westFenced := (congrArg Turn.westFenced hturn0).symm
    have heast : s.dealer.eastFenced = s0.dealer.eastFenced := (congrArg Turn.eastFenced hturn0).symm
    have hqueries : s.dealer.queries = s0.dealer.queries := (congrArg Turn.queries hturn0).symm
    unfold s1
    rw [hwest, heast, hqueries, ← hturn0]
    rfl
  have hdue1 : s1.dealer.due = true := rfl
  have htiers1 : s1.tiers = s.tiers := htiers0
  have hunits1 : s1.units = s.units := hunits0
  clear_value s1
  have hturn2 : turn s2 = (turn s).hold h epoch := by
    unfold s2
    split
    · rw [turn_afterBoundary, hturn1]
    · exact hturn1
  have hdue2 : s2.dealer.due = true := by
    unfold s2
    split
    · exact afterBoundary_due hdue1
    · exact hdue1
  have hstill : inBoundary s = false → s2 = s1 := fun hnot => by
    unfold s2
    rw [if_neg (by simp [hnot])]
  clear_value s2
  refine ⟨?_, ?_, fun p => raiseEvent_events (by decide) p _, fun hnot => ?_⟩
  · rw [turn_raiseEvent, turn_score, hturn2]
  · simpa using hdue2
  · simp [hstill hnot, htiers1, hunits1]

theorem roleAnswer_hold {h : Half} {epoch : W32} {s : State} (hasks : asks s h = true) (hfenced : isFenced s h = false)
    (hgrant : h = s.dealer.grant) : exec (.roleAnswer h true epoch) s = .next (holdRole h epoch s) := by
  simp [exec, execRoleAnswer, hasks, hfenced, ← hgrant]

theorem roleAnswer_hold_completes {h : Half} {epoch : W32} {s : State} (hasks : asks s h = true) (hfenced : isFenced s h = false)
    (hgrant : h = s.dealer.grant) :
    Completes (.roleAnswer h true epoch) s (fun t =>
      t.dealer.lead = h ∧ t.dealer.roleEpoch = epoch ∧ t.dealer.halfFenced = true ∧ isFenced t (Half.other h) = true ∧ isFenced t h = false ∧
      t.dealer.due = true ∧ asks t h = false ∧ (∀ p, (portSt t p).events.getLsbD Event.halfFenced = true) ∧
      (inBoundary s = false → t.tiers = s.tiers ∧ t.units = s.units)) := by
  obtain ⟨hturn, hdue, hevents, hstill⟩ := holdRole_frame h epoch s
  refine ⟨_, roleAnswer_hold hasks hfenced hgrant, congrArg Turn.lead hturn, congrArg Turn.roleEpoch hturn, congrArg Turn.halfFenced hturn,
    ?_, ?_, hdue, ?_, hevents, hstill⟩
  · simp [isFenced_turn, hturn]
  · rw [isFenced_turn] at hfenced ⊢
    simpa [hturn, (Half.other_ne h).symm] using hfenced
  · rw [asks_turn, hturn]
    simp [Turn.hold]

/-- A half that has fenced, or to which Glaren has not granted the role, does not take it. -/
theorem roleAnswer_ignored {h : Half} {s : State} (epoch : W32) (hnot : isFenced s h = true ∨ h ≠ s.dealer.grant) :
    exec (.roleAnswer h true epoch) s = .next s := by
  simp [exec, execRoleAnswer, hnot]

/-! ### FENCE (R294) -/

theorem roleAnswer_fence {h : Half} {s : State} (epoch : W32) (hasks : asks s h = true) :
    exec (.roleAnswer h false epoch) s = .next (fenceHalf h s) := by
  simp [exec, execRoleAnswer, hasks]

/-- One half fences while the other runs: the phase and MGOOD stay. -/
theorem fenceHalf_one {h : Half} {s : State} (hrun : s.dealer.run = none) (hother : isFenced s (Half.other h) = false) :
    isFenced (fenceHalf h s) h = true ∧ isFenced (fenceHalf h s) (Half.other h) = false ∧
    (fenceHalf h s).dealer.phase = s.dealer.phase ∧ (fenceHalf h s).resets.mgood = s.resets.mgood := by
  have hturn := turn_fenceHalf h hrun
  rw [isFenced_turn] at hother
  rw [if_neg (by simp [Turn.fence_both_iff, hother])] at hturn
  generalize fenceHalf h s = t at hturn
  have hfenced (k : Half) : isFenced t k = ((turn s).isFenced k || decide (k = h)) := by
    rw [isFenced_turn, ← Turn.isFenced_unpended, hturn, Turn.isFenced_unpended, Turn.isFenced_fence]
  exact ⟨by simp [hfenced], by simp [hfenced, hother], congrArg Turn.phase hturn, congrArg Turn.mgood hturn⟩

/-- The second half fences. -/
theorem fenceHalf_both {h : Half} {s : State} (hrun : s.dealer.run = none) (hother : isFenced s (Half.other h) = true) :
    isFenced (fenceHalf h s) h = true ∧ (fenceHalf h s).dealer.phase = .fenced ∧ (fenceHalf h s).resets.mgood = false := by
  have hturn := turn_fenceHalf h hrun
  rw [isFenced_turn] at hother
  rw [if_pos ((Turn.fence_both_iff _ h).2 hother)] at hturn
  generalize fenceHalf h s = t at hturn
  have hfenced : isFenced t h = true := by
    rw [isFenced_turn, ← Turn.isFenced_unpended, hturn]
    simp
  exact ⟨hfenced, congrArg Turn.phase hturn, congrArg Turn.mgood hturn⟩

theorem asks_of_find {s : State} {h : Half} {e : Nat × W64}
    (he : s.dealer.queries.find? (fun x => decide (x.1 = Half.idx h)) = some e) : asks s h = true :=
  List.any_eq_true.2 ⟨e, List.mem_of_find?_eq_some he, by simpa using List.find?_some he⟩

/-- No answer for 1,000 ticks is a FENCE. -/
theorem roleQueryTimeout_of_late {s : State} {h : Half} {e : Nat × W64}
    (he : s.dealer.queries.find? (fun x => decide (x.1 = Half.idx h)) = some e) (hlate : 1000 ≤ (s.tick - e.2).toNat) :
    exec (.roleQueryTimeout h) s = exec (.roleAnswer h false 0) s := by
  rw [roleAnswer_fence 0 (asks_of_find he)]
  simp only [exec, execRoleQueryTimeout, he, if_pos hlate]

theorem roleQueryTimeout_of_early {s : State} {h : Half} {e : Nat × W64}
    (he : s.dealer.queries.find? (fun x => decide (x.1 = Half.idx h)) = some e) (hearly : (s.tick - e.2).toNat < 1000) :
    exec (.roleQueryTimeout h) s = .next s := by
  simp only [exec, execRoleQueryTimeout, he, if_neg (Nat.not_le.2 hearly)]

/-- Settles O52: a clause for each event of the exchange, each by its lemma above. -/
theorem dealerRoles : Obligations.DealerRoles := by
  unfold Obligations.DealerRoles
  refine ⟨fun s => ⟨fun h n => boundaryRecord_acknowledged, splitDetect_completes, fun h hasks hready =>
    ⟨roleQuery_holds hasks hready, roleQuery_fences hasks hready⟩, fun hasks hready hsilent =>
    ⟨roleSilenceGrant_completes hasks hready hsilent, roleQuery_grantsEast hasks hready hsilent⟩⟩,
    fun h s hasks => ⟨fun epoch => roleAnswer_hold_completes hasks, roleAnswer_ignored, fun epoch hother hrun => ?_, fun epoch hother hrun => ?_,
      fun e => roleQueryTimeout_of_late, fun e => roleQueryTimeout_of_early⟩⟩
  · exact ⟨_, roleAnswer_fence epoch hasks, fenceHalf_one hrun hother⟩
  · exact ⟨_, roleAnswer_fence epoch hasks, fenceHalf_both hrun hother⟩

end Sys2Proof.Machine
end

section
/-! SUPPORT. The module-wide controls of BAR0: the function that holds the move applies a write, the other physical function's write is
discarded and counted (R39, R408, R495), and what each control of the dealer and the counters writes. -/

namespace Sys2Proof.Machine

/-! ### Who writes -/

theorem withUnit_of_lt {i n : Nat} (h : i < n) (s : State) (k : State → State) : withUnit i n s k = .next (k s) := by
  simp only [withUnit, if_pos h]

/-- The holder's write of a module-wide control applies. -/
theorem guarded_control_of_controls {f : Fn} {r : Reg} {s : State} {o : Nat} {k : State → State} (h : controls s f r = true) :
    guarded f r (control f o k) s = k s := by
  simp only [controls, isHolder, Bool.and_eq_true, Bool.not_eq_true', decide_eq_true_eq] at h
  obtain ⟨⟨hreach, hrec⟩, hnum, hheld⟩ := h
  simp [guarded, control, isHolder, hreach, hrec, hnum, hheld]

/-- The write of the physical function without the move is discarded and counted. -/
theorem guarded_control_of_controlsNot {f : Fn} {r : Reg} {s : State} {o : Nat} {k : State → State} (h : controlsNot s f r = true) :
    guarded f r (control f o k) s = reject f o s := by
  simp only [controlsNot, Bool.and_eq_true, Bool.not_eq_true', decide_eq_true_eq] at h
  obtain ⟨⟨⟨hreach, hrec⟩, hnum⟩, hheld⟩ := h
  simp [guarded, control, hreach, hrec, hnum, hheld]

/-- A control that takes writes only in phase IDLE. -/
theorem guarded_idleControl {f : Fn} {r : Reg} {s : State} {o : Nat} {k : State → State} (h : controls s f r = true) :
    guarded f r (idleControl f o k) s = if s.dealer.phase = .idle then k s else reject f o s :=
  guarded_control_of_controls h

/-- A page control applies in phase IDLE with no occupied request, and the page map starts anew (R273). -/
theorem guarded_pageControl {f : Fn} {r : Reg} {s : State} {o : Nat} {k : State → State} (h : controls s f r = true)
    (hidle : s.dealer.phase = .idle) (hfree : occupied s = []) : guarded f r (pageControl f o k) s = initPages (k s) := by
  rw [pageControl, guarded_idleControl h, if_pos hidle, if_pos hfree]

theorem guarded_pageControl_discards {f : Fn} {r : Reg} {s : State} {o : Nat} {k : State → State} (h : controls s f r = true)
    (hbusy : s.dealer.phase ≠ .idle ∨ occupied s ≠ []) : guarded f r (pageControl f o k) s = reject f o s := by
  rw [pageControl, guarded_idleControl h]
  by_cases hidle : s.dealer.phase = .idle
  · rw [if_pos hidle, if_neg (hbusy.resolve_left (not_not_intro hidle))]
  · rw [if_neg hidle]

theorem uOffset_ctrl (u : Nat) : uOffset u 8 = 0x440008 + 0x100 * u := by
  unfold uOffset
  omega

/-- Bit `i` of a written register, as the model reads it. -/
theorem wbit_toNat {w : Nat} (v : BitVec w) (i : Nat) : wbit v.toNat i = v.getLsbD i := rfl

/-! ### Writes without the move -/

section
variable {f : Fn} {s : State}

theorem portControls_discarded {u : Nat} (b : Bool) (hu : u < 16) (h : controlsNot s f (.portCtrl u) = true) :
    exec (.portEnableWrite f u b) s = .next (reject f (0x440008 + 0x100 * u) s) ∧
    exec (.portEncryptWrite f u b) s = .next (reject f (0x440008 + 0x100 * u) s) := by
  simp only [exec, execPortEnableWrite, execPortEncryptWrite, withUnit_of_lt hu, guarded_control_of_controlsNot h, uOffset_ctrl, and_self]

theorem flagClear_discarded {k : Nat} (v : W32) (hk : k < 32) (h : controlsNot s f (.flagClear k) = true) :
    exec (.flagClear f k v) s = .next (reject f (0x410020 + 0x40 * k) s) := by
  simp only [exec, execFlagClear, withUnit_of_lt hk, writeFlagClear, guarded_control_of_controlsNot h]

end

/-! ### Writes of the holder: the dealer -/

section
variable {f : Fn} {s : State}

theorem faultRecordClear_applies (v : W64) (h : controls s f .faultRecord = true) :
    exec (.faultRecordClear f v) s = .next (if v.getLsbD 0 = true ∧ faultAfter s = false then
      { s with dealer := { s.dealer with fault := { s.dealer.fault with valid := false } } } else s) := by
  simp only [exec, execFaultRecordClear, writeFault, guarded_control_of_controls h, wbit_toNat, Bool.not_eq_true, setDealer]

theorem budgetSet_one {v : W64} (h : controls s f .budgetSet = true) (hone : v.toNat / 1024 % 2 = 0) :
    Completes (.budgetSet f v) s (fun t =>
      Tab.get (fun _ => 0) t.dealer.budgetSets (v.toNat % 1024) = BitVec.ofNat 32 (v.toNat / 2 ^ 32) ∧
      t.dealer.budgets = s.dealer.budgets ∧ t.tiers = s.tiers ∧ t.units = s.units) := by
  have hbit : wbit v.toNat 10 = false := by simp [wbit, Nat.testBit_eq_decide_div_mod_eq, hone]
  refine ⟨_, congrArg Host.Outcome.next (guarded_control_of_controls h), ?_⟩
  simp [setDealer, hbit]

theorem budgetSet_all {v : W64} (h : controls s f .budgetSet = true) (hall : v.toNat / 1024 % 2 = 1) :
    Completes (.budgetSet f v) s (fun t =>
      t.dealer.budgetAll = some (BitVec.ofNat 32 (v.toNat / 2 ^ 32)) ∧ t.dealer.budgetSets = [] ∧
      t.dealer.budgets = s.dealer.budgets ∧ t.tiers = s.tiers ∧ t.units = s.units) := by
  have hbit : wbit v.toNat 10 = true := by simp [wbit, Nat.testBit_eq_decide_div_mod_eq, hall]
  refine ⟨_, congrArg Host.Outcome.next (guarded_control_of_controls h), ?_⟩
  simp [setDealer, hbit]

/-! ### Writes of the holder: the page map (R273) -/

/-- The new page map: every frame's page is free, in ascending order. -/
theorem initPages_pages (s : State) :
    (initPages s).dealer.frames = frameCount (initPages s) ∧ (initPages s).dealer.freeCount = (initPages s).dealer.frames ∧
    (0 < (initPages s).dealer.frames → (initPages s).dealer.freeHead = 0 ∧
      (initPages s).dealer.freeTail + 1 = (initPages s).dealer.frames) := by
  refine ⟨rfl, rfl, fun hpos => ?_⟩
  have hne : frameCount s ≠ 0 := Nat.ne_of_gt hpos
  simp only [initPages, setDealer, hne, if_false, true_and]
  omega

theorem pageConfig_applies (v : W64) (h : controls s f .pageConfig = true) (hidle : s.dealer.phase = .idle) (hfree : occupied s = []) :
    Completes (.pageConfigWrite f none v) s (fun t =>
      t.dealer.frameShare = BitVec.ofNat 16 v.toNat ∧ t.dealer.frames = frameCount t ∧ t.dealer.freeCount = t.dealer.frames ∧
      (0 < t.dealer.frames → t.dealer.freeHead = 0 ∧ t.dealer.freeTail + 1 = t.dealer.frames) ∧ t.dealer.pools = s.dealer.pools ∧
      t.tiers = s.tiers ∧ t.units = s.units) := by
  refine ⟨_, congrArg Host.Outcome.next (guarded_pageControl h hidle hfree), ?_⟩
  obtain ⟨hframes, hcount, hlist⟩ := initPages_pages (setDealer (fun d => { d with frameShare := BitVec.ofNat 16 v.toNat }) s)
  exact ⟨rfl, hframes, hcount, hlist, rfl, rfl, rfl⟩

theorem pagePool_applies {d : Nat} (v : W64) (hd : d < 4) (h : controls s f (.pagePool d) = true) (hidle : s.dealer.phase = .idle)
    (hfree : occupied s = []) :
    Completes (.pageConfigWrite f (some d) v) s (fun t =>
      (pool t d).dram = BitVec.ofNat 16 v.toNat ∧ (pool t d).sram = BitVec.ofNat 16 (v.toNat / 2 ^ 16) ∧
      (pool t d).flash = BitVec.ofNat 16 (v.toNat / 2 ^ 32) ∧ (∀ e, e ≠ d → pool t e = pool s e) ∧ t.dealer.frameShare = s.dealer.frameShare ∧
      t.dealer.frames = frameCount t ∧ t.tiers = s.tiers) := by
  refine ⟨_, (withUnit_of_lt hd s _).trans (congrArg Host.Outcome.next (guarded_pageControl h hidle hfree)), ?_⟩
  refine ⟨?_, ?_, ?_, fun e he => ?_, rfl, rfl, rfl⟩
  · simp [pool, initPages, setDealer]
  · simp [pool, initPages, setDealer]
  · simp [pool, initPages, setDealer]
  · simp [pool, initPages, setDealer, Ne.symm he]

/-! ### Writes of the holder: counters and flags -/

theorem counterClear_applies {v : W32} (h : controls s f .counterClear = true) (hbit : v.getLsbD 0 = true) :
    Completes (.counterClear f v) s (fun t =>
      (∀ c, Tab.get zero64 t.counters.stallAc c = 0 ∧ Tab.get zero64 t.counters.holdAc c = 0 ∧ Tab.get zero64 t.counters.holdCount c = 0) ∧
      t.counters.boundaries = 0 ∧ t.counters.idleBoundaries = 0 ∧ t.counters.idleTicks = 0 ∧ t.counters.boundaryAc = 0 ∧
      (∀ x, Tab.get zero64 t.counters.freqTicks x = 0) ∧ t.counters.lastAc = s.counters.lastAc ∧ t.counters.onchip = s.counters.onchip ∧
      t.dealer = s.dealer ∧ t.tiers = s.tiers ∧ t.units = s.units) := by
  refine ⟨_, congrArg Host.Outcome.next (guarded_control_of_controls h), ?_⟩
  rw [wbit_toNat, if_pos hbit]
  exact ⟨fun c => ⟨rfl, rfl, rfl⟩, rfl, rfl, rfl, rfl, fun x => rfl, rfl, rfl, rfl, rfl, rfl⟩

/-- A flag clear of the holder clears its cluster's summary. -/
theorem exec_flagClear {k : Nat} {v : W32} (hk : k < 32) (h : controls s f (.flagClear k) = true) (hbit : v.getLsbD 0 = true) :
    exec (.flagClear f k v) s = .next (clearFlags k s) := by
  simp only [exec, execFlagClear, withUnit_of_lt hk, writeFlagClear, guarded_control_of_controls h, wbit_toNat, hbit, if_true]

theorem clearFlags_between {k : Nat} (hrun : s.dealer.run = none) :
    Tab.get (fun _ => FlagSum.cold) (clearFlags k s).units.flags k = FlagSum.cold ∧
    (∀ j, j ≠ k → Tab.get (fun _ => FlagSum.cold) (clearFlags k s).units.flags j = Tab.get (fun _ => FlagSum.cold) s.units.flags j) ∧
    (clearFlags k s).units.buf = s.units.buf ∧ (clearFlags k s).counters = s.counters ∧ (clearFlags k s).tiers = s.tiers := by
  refine ⟨?_, fun j hj => ?_, rfl, rfl, rfl⟩
  · simp [clearFlags, hrun, FlagSum.of]
  · simp [clearFlags, Ne.symm hj]

/-- Beside a running step the records of its current ac and later survive the clear. -/
theorem clearFlags_running {k : Nat} {r : Run} (hrun : s.dealer.run = some r) :
    let keeps (x : Nat × FlagRec) : Bool := decide (x.1 ≠ k) || decide (r.nowAc ≤ x.2.ac)
    (clearFlags k s).dealer.run = some { r with flagged := r.flagged.filter keeps } ∧
    Tab.get (fun _ => FlagSum.cold) (clearFlags k s).units.flags k = FlagSum.of (flagsOf k (r.flagged.filter keeps)) ∧
    (∀ j, j ≠ k → Tab.get (fun _ => FlagSum.cold) (clearFlags k s).units.flags j = Tab.get (fun _ => FlagSum.cold) s.units.flags j) ∧
    SameButRun s (clearFlags k s) ∧ (clearFlags k s).tiers = s.tiers ∧ (clearFlags k s).host = s.host := by
  refine ⟨?_, ?_, fun j hj => ?_, rfl, rfl, rfl⟩
  · simp [clearFlags, setRun, hrun]
  · simp [clearFlags, hrun]
  · simp [clearFlags, Ne.symm hj]

end

/-- Settles O23: a write without the move is discarded by the rule for all controls; each control of the holder by its lemma above. -/
theorem holderControls : Obligations.HolderControls := by
  unfold Obligations.HolderControls
  constructor
  · intro f s
    have discarded {r : Reg} {o : Nat} {k : State → State} (h : controlsNot s f r = true) :
        (.next (guarded f r (control f o k) s) : Out) = .next (reject f o s) :=
      congrArg _ (guarded_control_of_controlsNot h)
    exact ⟨fun _ => discarded, fun _ v hk => flagClear_discarded v hk, fun _ => discarded, fun _ => discarded, fun _ => discarded,
      fun _ => discarded, fun _ => discarded, fun _ => discarded, fun _ => discarded, fun _ b hu => portControls_discarded b hu,
      fun _ => discarded, fun _ => discarded, fun _ => discarded⟩
  · intro f s
    refine ⟨fun v h => congrArg _ (guarded_idleControl h), faultRecordClear_applies, fun v => counterClear_applies,
      fun k v hk h hbit hrun => ⟨_, exec_flagClear hk h hbit, clearFlags_between hrun⟩,
      fun k v r hk h hbit hrun => ⟨_, exec_flagClear hk h hbit, clearFlags_running hrun⟩,
      fun v => budgetSet_one, fun v => budgetSet_all, fun v h => congrArg _ (guarded_control_of_controls h), pageConfig_applies,
      fun d => pagePool_applies, fun v h hbusy => congrArg _ (guarded_pageControl_discards h hbusy)⟩

end Sys2Proof.Machine
end

section
/-! SUPPORT. Elements of the block formats: what an element of PB4 and PB6 reads as, by the sign bit and the magnitude of its code
(R52, R53). -/

namespace Sys2Proof.Machine

/-- The code of element `i` of a block: `elemBits` bits after BEXP and the eight SUB fields. -/
def blockCode (f : Fmt) (blk i : Nat) : Nat := bitsOf blk (24 + f.elemBits * i) f.elemBits

/-- The exponent BEXP − 127 + SUB_g of the elements in the group of element `i` (R52). -/
def blockExp (blk i : Nat) : Int := (bitsOf blk 0 8 : Nat) - 127 + (bitsOf blk (8 + 2 * (i / 8)) 2 : Nat)

theorem bitsOf_lt (v lo n : Nat) : bitsOf v lo n < 2 ^ n :=
  Nat.mod_lt _ (Nat.two_pow_pos n)

section
variable {f : Fmt} {blk i : Nat}

/-- A code is a sign bit above a magnitude. -/
theorem blockCode_lt : blockCode f blk i < 2 * 2 ^ (f.elemBits - 1) := by
  have hw : f.elemBits - 1 + 1 = f.elemBits := by cases f <;> rfl
  rw [← Nat.pow_succ', Nat.succ_eq_add_one, hw]
  exact bitsOf_lt ..

/-- An element by the sign bit and the magnitude of its code. -/
theorem pbElem_eq : pbElem f blk i =
    if blockCode f blk i / 2 ^ (f.elemBits - 1) = 1 ∧ blockCode f blk i % 2 ^ (f.elemBits - 1) = 0 then .nan
    else .fin (if blockCode f blk i / 2 ^ (f.elemBits - 1) = 1 then -((blockCode f blk i % 2 ^ (f.elemBits - 1) : Nat) : Int)
      else (blockCode f blk i % 2 ^ (f.elemBits - 1) : Nat)) (blockExp blk i) := by
  simp [pbElem, blockCode, blockExp]

/-- With the sign bit clear an element is its code, scaled. -/
theorem pbElem_of_code_lt (h : blockCode f blk i < 2 ^ (f.elemBits - 1)) : pbElem f blk i = .fin (blockCode f blk i) (blockExp blk i) := by
  have hsign : blockCode f blk i / 2 ^ (f.elemBits - 1) = 0 := Nat.div_eq_of_lt h
  have hmag : blockCode f blk i % 2 ^ (f.elemBits - 1) = blockCode f blk i := Nat.mod_eq_of_lt h
  simp [pbElem_eq, hsign, hmag]

/-- With the sign bit set the magnitude 0 is reserved, and every other magnitude counts down from 0. -/
theorem pbElem_of_code_eq_add {m : Nat} (hcode : blockCode f blk i = 2 ^ (f.elemBits - 1) + m) :
    pbElem f blk i = if m = 0 then .nan else .fin (-(m : Int)) (blockExp blk i) := by
  have hm : m < 2 ^ (f.elemBits - 1) := by
    have hlt : blockCode f blk i < 2 * 2 ^ (f.elemBits - 1) := blockCode_lt
    omega
  have hsign : blockCode f blk i / 2 ^ (f.elemBits - 1) = 1 := by
    rw [hcode, Nat.add_div_left _ (Nat.two_pow_pos _), Nat.div_eq_of_lt hm]
  have hmag : blockCode f blk i % 2 ^ (f.elemBits - 1) = m := by
    rw [hcode, Nat.add_mod_left, Nat.mod_eq_of_lt hm]
  simp [pbElem_eq, hsign, hmag]

/-- The reserved code is a NaN (R53). -/
theorem pbElem_of_code_eq (h : blockCode f blk i = 2 ^ (f.elemBits - 1)) : pbElem f blk i = .nan := by
  rw [pbElem_of_code_eq_add (m := 0) h, if_pos rfl]

theorem pbElem_of_lt_code (h : 2 ^ (f.elemBits - 1) < blockCode f blk i) :
    pbElem f blk i = .fin (-((blockCode f blk i : Int) - 2 ^ (f.elemBits - 1))) (blockExp blk i) := by
  obtain ⟨m, hcode⟩ := Nat.exists_eq_add_of_le h.le
  have hm : m ≠ 0 := by omega
  rw [pbElem_of_code_eq_add hcode, if_neg hm, hcode]
  simp

/-- The block formats have no negative zero: the value 0 has the code 0 alone (R53). -/
theorem blockCode_eq_zero_of_pbElem {x : Int} (h : pbElem f blk i = .fin 0 x) : blockCode f blk i = 0 := by
  rcases lt_or_ge (blockCode f blk i) (2 ^ (f.elemBits - 1)) with hclear | hset
  · rw [pbElem_of_code_lt hclear, Exact.fin.injEq] at h
    exact Int.natCast_eq_zero.mp h.1
  · obtain ⟨m, hcode⟩ := Nat.exists_eq_add_of_le hset
    rw [pbElem_of_code_eq_add hcode] at h
    split at h
    · cases h
    · next hm =>
      rw [Exact.fin.injEq, neg_eq_zero] at h
      exact absurd (Int.natCast_eq_zero.mp h.1) hm

/-- No code is an infinity (R53). -/
theorem pbElem_ne_inf (neg : Bool) : pbElem f blk i ≠ .inf neg := by
  rw [pbElem_eq]
  split <;> exact nofun

end

/-- Settles O57: the code below, at or above the reserved one decides each clause. -/
theorem blockElements : Obligations.BlockElements := by
  unfold Obligations.BlockElements
  intro f blk i _ _
  exact ⟨pbElem_of_code_eq, pbElem_of_code_lt, pbElem_of_lt_code, fun _ _ h hm => blockCode_eq_zero_of_pbElem (hm ▸ h), pbElem_ne_inf⟩

end Sys2Proof.Machine
end

section
/-! SUPPORT. How a program's instruction comes to be carried out (R144, R145, R162, R164), and what storing its results leaves alone:
everything outside the running step, the units, memory and the counters; the unit stores; and of the step all but its lists of writes, banks in
use and flags and the times of the program's work. -/

namespace Sys2Proof.Machine

/-! ### Issue -/

section
variable {i : Issue} {c : Common} {x : Insn} {r : Run} {s : State}

/-- An instruction that can run is carried out, unless the abort comes before its issue. -/
theorem issue_of_runs (h : Runs s r i c x) (body : Run → Prog → State → State) :
    issue i c x body s = .next (beforeAbort r i.prog s (body r (prog r i.prog) s)) := by
  obtain ⟨⟨hp, hrun, hcan, w, hword, hdecode⟩, hgate, hecc⟩ := h
  have hopen : ¬(c.vg = true ∧ r.variant.getLsbD c.vb.toNat ≠ c.vp) := by simpa [gatedOff] using hgate
  simp only [issue, withUnit_of_lt hp, hrun, hcan, hword, hdecode, hecc, hopen, if_true, if_false, reduceCtorEq]

theorem beforeAbort_of_none {p : Nat} (h : r.abortAc = none) (s t : State) : beforeAbort r p s t = t := by
  simp only [beforeAbort, h]

/-- A program that can issue does so before the abort. -/
theorem beforeAbort_of_canIssue {p : Nat} {t : State} {r' : Run} (hcan : canIssue r p = true) (hrun : t.dealer.run = some r')
    (hissued : (prog r' p).issued = (prog r p).ready) : beforeAbort r p s t = t := by
  cases habort : r.abortAc with
  | none => exact beforeAbort_of_none habort s t
  | some a =>
    have hlt : (prog r p).ready < a := by
      simp only [canIssue, habort, Bool.and_eq_true, decide_eq_true_eq] at hcan
      exact hcan.2
    simp only [beforeAbort, habort, hrun, hissued, Nat.not_le.2 hlt, if_false]

/-- In a step that no abort ends an instruction is carried out. -/
theorem issue_of_runsOn (h : RunsOn s r i c x) (body : Run → Prog → State → State) :
    issue i c x body s = .next (body r (prog r i.prog) s) := by
  obtain ⟨hruns, habort, _⟩ := h
  rw [issue_of_runs hruns, beforeAbort_of_none habort]

/-- Reads of SRAM meet no error where the issue brings none and no line waits for its spare (R210). -/
theorem sramEcc_of_runsOn (h : RunsOn s r i c x) (xs : List (Nat × Nat)) (t : Nat) : sramEcc i xs t s = s := by
  obtain ⟨⟨_, _, hecc⟩, _, hpend⟩ := h
  simp [sramEcc, sramTouched, hpend, hecc]

end

/-! ### What storing results leaves alone -/

/-- A state without its running step, its units, its memory tiers and its counters. -/
def State.outside (s : State) : State :=
  { s with dealer := { s.dealer with run := none }, units := Units.cold, tiers := Tiers.cold, counters := Counters.cold }

/-- A running step without its programs and without what issuing and storing add to: the ac it has come to, its writes, deliveries, banks in
use and flags. -/
def Run.bare (r : Run) : Run := { r with progs := [], nowAc := 0, writes := [], undo := [], bankUse := [], flagged := [] }

/-- A program without the times of its work: the completion of the latest, the ac in which its vector registers have been written and read. -/
def Prog.timeless (x : Prog) : Prog := { x with vready := [], vread := [], lastDone := 0 }

/-- The programs of a step, program p without the times of its work. -/
def Run.progsOf (p : Nat) (r : Run) (q : Nat) : Prog := if q = p then (prog r q).timeless else prog r q

/-- What storing results of program p leaves alone. -/
structure Kept where
  outside  : State
  stores   : Store → Tab Byte
  objects  : Tab Obj
  counters : Counters
  run      : Option (Run × (Nat → Prog))

def kept (p : Nat) (s : State) : Kept :=
  { outside := s.outside, stores := s.units.bytes, objects := s.tiers.objects, counters := s.counters,
    run := s.dealer.run.map (fun r => (r.bare, r.progsOf p)) }

/-- States alike outside the step differ only in the step, the units, memory and the counters. -/
theorem onlyStep_of_outside {s t : State} (h : t.outside = s.outside) : OnlyStep s t :=
  ⟨(congrArg State.dealer h :), (congrArg State.unlia h :), (congrArg State.host h :), (congrArg State.glaren h :),
    (congrArg State.resets h :), (congrArg State.conceal h :), (congrArg State.out h :)⟩

theorem kept_setRun {p : Nat} {f : Run → Run} (hbare : ∀ r, (f r).bare = r.bare) (hprogs : ∀ r, (f r).progsOf p = r.progsOf p) (s : State) :
    kept p (setRun f s) = kept p s := by
  cases hrun : s.dealer.run with
  | none => simp [kept, setRun, hrun, State.outside]
  | some r => simp [kept, setRun, hrun, State.outside, hbare, hprogs]

section
variable {p : Nat} {s t : State}

theorem onlyStep_of_kept (h : kept p t = kept p s) : OnlyStep s t := onlyStep_of_outside (congrArg Kept.outside h)
theorem stores_of_kept (h : kept p t = kept p s) (st : Store) : t.units.bytes st = s.units.bytes st := congrFun (congrArg Kept.stores h) st
theorem objects_of_kept (h : kept p t = kept p s) : t.tiers.objects = s.tiers.objects := congrArg Kept.objects h
theorem counters_of_kept (h : kept p t = kept p s) : t.counters = s.counters := congrArg Kept.counters h

theorem run_of_kept {r : Run} (h : kept p t = kept p s) (hr : s.dealer.run = some r) :
    ∃ r', t.dealer.run = some r' ∧ r'.bare = r.bare ∧ r'.progsOf p = r.progsOf p := by
  have hk : t.dealer.run.map (fun r => (r.bare, r.progsOf p)) = s.dealer.run.map (fun r => (r.bare, r.progsOf p)) := congrArg Kept.run h
  rw [hr, Option.map_some, Option.map_eq_some_iff] at hk
  obtain ⟨r', hr', hv⟩ := hk
  exact ⟨r', hr', congrArg Prod.fst hv, congrArg Prod.snd hv⟩

end

section
variable {r r' : Run} (h : r'.bare = r.bare)
include h

theorem drains_of_bare : r'.drains = r.drains := (congrArg Run.drains h :)
theorem trees_of_bare : r'.trees = r.trees := (congrArg Run.trees h :)
theorem nodes_of_bare : r'.nodes = r.nodes := (congrArg Run.nodes h :)
theorem abortAc_of_bare : r'.abortAc = r.abortAc := (congrArg Run.abortAc h :)
theorem signals_of_bare : r'.signals = r.signals := (congrArg Run.signals h :)

end

/-- What `progsOf` says of each program. -/
theorem prog_of_progsOf {p : Nat} {r r' : Run} (h : r'.progsOf p = r.progsOf p) :
    (∀ q, q ≠ p → prog r' q = prog r q) ∧ (prog r' p).timeless = (prog r p).timeless := by
  refine ⟨fun q hq => ?_, ?_⟩
  · simpa [Run.progsOf, hq] using congrFun h q
  · simpa [Run.progsOf] using congrFun h p

/-! ### The operations that store results -/

theorem kept_setProg {p : Nat} {f : Prog → Prog} (h : ∀ x, (f x).timeless = x.timeless) (s : State) :
    kept p (setRun (setProg p f) s) = kept p s := by
  refine kept_setRun ?_ (fun r => funext fun q => ?_) s
  · exact fun _ => rfl
  by_cases hq : q = p
  · simp [Run.progsOf, hq, h]
  · simp [Run.progsOf, hq, Ne.symm hq]

theorem kept_doneAt (p ac : Nat) (s : State) : kept p (doneAt p ac s) = kept p s := by
  unfold doneAt
  refine kept_setProg ?_ s
  exact fun _ => rfl

theorem kept_sramStore (p ac : Nat) (cluster : Option Nat) (src a : Nat) (bs : List Byte) (s : State) :
    kept p (sramStore ac cluster src a bs s) = kept p s := by
  unfold sramStore
  rw [kept_setRun]
  · rfl
  · exact fun _ => rfl
  · exact fun _ => rfl

theorem kept_claimBanks (p w a n ac : Nat) (s : State) : kept p (claimBanks w a n ac s).2 = kept p s := by
  unfold claimBanks
  split
  · rfl
  · next r hrun => simp only [kept, hrun, Option.map_some]; rfl

theorem kept_reportFlag (p k : Nat) (x : FlagRec) (s : State) : kept p (reportFlag k x s) = kept p s := by
  unfold reportFlag
  rw [kept_setRun]
  · exact congrArg (fun b => { kept p s with stores := b }) (funext fun st => by cases st <;> rfl)
  · exact fun _ => rfl
  · exact fun _ => rfl

theorem kept_flagRows (p k src pc : Nat) (tileM tileN : W16) (ac : Nat) (rows : List (List (Option Nat))) (s : State) :
    kept p (flagRows k src pc tileM tileN ac rows s) = kept p s := by
  unfold flagRows
  split
  · exact kept_reportFlag p k _ s
  · rfl

theorem kept_drainRows (p k src pc dest ac : Nat) (sat bf16 : Bool) (tileM tileN : W16) (tile : List W32) (s : State) :
    kept p (drainRows k src p pc dest ac sat bf16 tileM tileN tile s) = kept p s := by
  refine (kept_doneAt p _ _).trans ((kept_flagRows p _ _ _ _ _ _ _ _).trans ?_)
  exact (foldl_keeps (kept p) (fun s _ => kept_sramStore p _ _ _ _ _ s) _ _).trans (kept_claimBanks p _ _ _ _ s)

/-! ### Memory -/

@[simp] theorem sramStore_mem (ac : Nat) (cluster : Option Nat) (src a : Nat) (bs : List Byte) (s : State) :
    (sramStore ac cluster src a bs s).tiers.mem = writeBytes s.tiers.mem a bs := rfl
@[simp] theorem doneAt_tiers (p ac : Nat) (s : State) : (doneAt p ac s).tiers = s.tiers := rfl
@[simp] theorem reportFlag_tiers (k : Nat) (x : FlagRec) (s : State) : (reportFlag k x s).tiers = s.tiers := rfl
@[simp] theorem advance_tiers (p t n : Nat) (s : State) : (advance p t n s).tiers = s.tiers := rfl
@[simp] theorem advance_units (p t n : Nat) (s : State) : (advance p t n s).units = s.units := rfl
@[simp] theorem advance_outside (p t n : Nat) (s : State) : (advance p t n s).outside = s.outside := rfl

@[simp] theorem flagRows_tiers (k src pc : Nat) (tileM tileN : W16) (ac : Nat) (rows : List (List (Option Nat))) (s : State) :
    (flagRows k src pc tileM tileN ac rows s).tiers = s.tiers := by
  unfold flagRows
  split <;> simp

@[simp] theorem claimBanks_mem (w a n ac : Nat) (s : State) : (claimBanks w a n ac s).2.tiers.mem = s.tiers.mem := by
  unfold claimBanks
  split <;> rfl

/-- Stores one after the other write memory one after the other. -/
theorem foldl_sramStore_mem {α : Type} {cluster : Option Nat} {src : Nat} (ac addr : α → Nat) (data : α → List Byte) (l : List α) (s : State) :
    (l.foldl (fun s e => sramStore (ac e) cluster src (addr e) (data e) s) s).tiers.mem =
      l.foldl (fun m e => writeBytes m (addr e) (data e)) s.tiers.mem := by
  induction l generalizing s with
  | nil => rfl
  | cons e l ih => exact ih _

theorem claimRun_length (w n a ac : Nat) (used : List (Nat × Nat)) (f : Nat) (h : (f - 1) * w < n) :
    (claimRun w a f n ac used).1.length = f := by
  induction f generalizing a n ac used with
  | zero => rfl
  | succ f ih =>
    have hn : n ≠ 0 := by omega
    simp only [claimRun, hn, if_false, List.length_cons]
    cases f with
    | zero => rfl
    | succ f =>
      have hmul : (f + 1) * w = f * w + w := Nat.succ_mul f w
      rw [ih]
      simp only [Nat.add_sub_cancel] at h ⊢
      omega

/-- A step that runs makes every access of a tile's rows (R208). -/
theorem claimBanks_rows {w : Nat} (hw : 0 < w) (a ac : Nat) {s : State} {r : Run} (hr : s.dealer.run = some r) :
    (claimBanks w a (64 * w) ac s).1.length = 64 := by
  have hbeats : (64 * w + w - 1) / w = 64 := by
    rw [Nat.div_eq_iff hw]
    omega
  simp only [claimBanks, hr, hbeats]
  exact claimRun_length w _ _ _ _ _ (by omega)

/-- Writing the rows that are paired with accesses, where every row has its access. -/
theorem foldl_zip_zipIdx {α β σ : Type} (f : σ → α → Nat → σ) (l : List α) (xs : List β) (h : l.length ≤ xs.length) (k : Nat) (m : σ) :
    ((l.zip xs).zipIdx k).foldl (fun m e => f m e.1.1 e.2) m = (l.zipIdx k).foldl (fun m e => f m e.1 e.2) m := by
  induction l generalizing xs k m with
  | nil => rfl
  | cons y l ih =>
    cases xs with
    | nil => simp at h
    | cons z xs =>
      simp only [List.zip_cons_cons, List.zipIdx_cons, List.foldl_cons]
      exact ih xs (by simpa using h) (k + 1) _

@[simp] theorem rowsOf_length {α : Type} (n : Nat) (xs : List α) : (rowsOf n xs).length = n := by
  induction n generalizing xs with
  | zero => rfl
  | succ n ih => simp [rowsOf, ih]

theorem Fmt.rowBytes_pos (f : Fmt) : 0 < f.rowBytes := by cases f <;> decide

/-- The memory after a tile's 64 rows of a format have been written from `dest` on (R89). -/
def tileMem (f : Fmt) (sat : Bool) (dest : Nat) (tile : List W32) (m : Tab Byte) : Tab Byte :=
  ((rowsOf 64 tile).map (fun w => (encodeRow f sat (w.map f32)).1)).zipIdx.foldl (fun m e => writeBytes m (dest + f.rowBytes * e.2) e.1) m

/-- The format of a tile's rows in SRAM. -/
def tileFmt (bf16 : Bool) : Fmt := if bf16 then .bf16 else .fp32

theorem tileFmt_decide (P : Prop) [Decidable P] : tileFmt (decide P) = if P then .bf16 else .fp32 := by simp [tileFmt]

theorem drainRows_mem (k src p pc dest ac : Nat) (sat bf16 : Bool) (tileM tileN : W16) (tile : List W32) {s : State} {r : Run}
    (hr : s.dealer.run = some r) :
    (drainRows k src p pc dest ac sat bf16 tileM tileN tile s).tiers.mem = tileMem (tileFmt bf16) sat dest tile s.tiers.mem := by
  have hacs := claimBanks_rows (tileFmt bf16).rowBytes_pos dest ac hr
  simp only [drainRows, doneAt_tiers, flagRows_tiers, foldl_sramStore_mem, ← tileFmt.eq_1, claimBanks_mem]
  rw [foldl_zip_zipIdx (fun m (e : List Byte × List (Option Nat)) n => writeBytes m (dest + (tileFmt bf16).rowBytes * n) e.1) _ _
    (by simp [hacs])]
  simp only [tileMem, List.zipIdx_map, List.foldl_map]
  rfl

/-! ### The program goes on -/

/-- Once program p's results are stored and it has gone on, the step is as before but for p: its counter and its times. -/
theorem advance_run {p t n : Nat} {s u : State} {r : Run} (hk : kept p u = kept p s) (hr : s.dealer.run = some r) :
    ∃ r', (advance p t n u).dealer.run = some r' ∧ r'.bare = r.bare ∧ (∀ q, q ≠ p → prog r' q = prog r q) ∧
      (prog r' p).timeless = { (prog r p).timeless with pc := (prog r p).pc + 1, ready := t + n, issued := t, hold := none } := by
  obtain ⟨r', hrun, hbare, hprogs⟩ := run_of_kept hk hr
  obtain ⟨hother, hself⟩ := prog_of_progsOf hprogs
  refine ⟨_, congrArg (Option.map _) hrun, hbare, fun q hq => ?_, ?_⟩
  · rw [prog_setProg, if_neg (Ne.symm hq)]
    exact hother q hq
  · rw [prog_setProg, if_pos rfl]
    exact congrArg (fun x : Prog => { x with pc := x.pc + 1, ready := t + n, issued := t, hold := none }) hself

theorem advanced_of_kept {p t n : Nat} {s u : State} {r : Run} (hk : kept p u = kept p s) (hr : s.dealer.run = some r) :
    Advanced r p (advance p t n u) := by
  obtain ⟨r', hrun, hbare, hother, hself⟩ := advance_run (t := t) (n := n) hk hr
  exact ⟨r', hrun, (congrArg Prog.pc hself :), hother, abortAc_of_bare hbare, signals_of_bare hbare⟩

/-- As `advanced_of_kept`, where the instruction also sets registers of the program. -/
theorem advanced_of_kept_setProg {p t n : Nat} {f : Prog → Prog} {s u : State} {r : Run} (hk : kept p u = kept p (setRun (setProg p f) s))
    (hpc : (f (prog r p)).pc = (prog r p).pc) (hr : s.dealer.run = some r) : Advanced r p (advance p t n u) := by
  obtain ⟨r', hrun, hpc', hother, habort, hsignals⟩ := advanced_of_kept (t := t) (n := n) hk (congrArg (Option.map (setProg p f)) hr)
  refine ⟨r', hrun, ?_, fun q hq => ?_, habort, hsignals⟩
  · rw [hpc', prog_setProg, if_pos rfl, hpc]
  · rw [hother q hq, prog_setProg, if_neg (Ne.symm hq)]

/-- A program that goes on from the ac at which it was ready has issued before the abort. -/
theorem beforeAbort_advance {p n : Nat} {s b u : State} {r rb : Run} (hcan : canIssue r p = true) (hk : kept p u = kept p b)
    (hb : b.dealer.run = some rb) : beforeAbort r p s (advance p (prog r p).ready n u) = advance p (prog r p).ready n u := by
  obtain ⟨r', hrun, _, _, hself⟩ := advance_run (t := (prog r p).ready) (n := n) hk hb
  exact beforeAbort_of_canIssue hcan hrun (congrArg Prog.issued hself :)

/-- Going on changes the step alone. -/
theorem onlyStep_advance {p t n : Nat} {s u : State} (hk : kept p u = kept p s) : OnlyStep s (advance p t n u) :=
  onlyStep_of_outside (congrArg Kept.outside hk :)

end Sys2Proof.Machine
end

section
/-! SUPPORT. The drain of an accumulator bank (R88 to R90, R152): what MMA_BANK_COMPLETE does for each drain action. -/

namespace Sys2Proof.Machine

section
variable {r : Run} {d : Drain} {s : State}

/-- The running step once drain d has left its bank. -/
def Run.drained (d : Drain) (r : Run) : Run := { r with drains := r.drains.erase d, nowAc := max r.nowAc d.doneAc }

/-- A TREE drain of the step's only bank under way is marked complete, and its ETREE may take it (R156). -/
theorem exec_mmaBankComplete_tree (hrun : s.dealer.run = some r) (hstop : r.stopped = false) (hd : r.drains = [d])
    (hopen : d.complete = false) (hcluster : d.cluster < 32) (hact : d.action = 3) :
    exec (.mmaBankComplete d.cluster d.engine d.bank) s = .next (setRun (fun r =>
      { r with drains := r.drains.map (fun x => if x = d then { x with complete := true } else x), nowAc := max r.nowAc d.doneAc }) s) := by
  simp [exec, execMmaBankComplete, withUnit_of_lt hcluster, hrun, hstop, hd, hopen, hact]

/-- Any other drain leaves the list; an MMA without a drain writes nothing, else the tile's rows go to its destination. -/
theorem exec_mmaBankComplete (hrun : s.dealer.run = some r) (hstop : r.stopped = false) (hd : r.drains = [d])
    (hopen : d.complete = false) (hcluster : d.cluster < 32) (hact : d.action ≠ 3) :
    exec (.mmaBankComplete d.cluster d.engine d.bank) s = .next (if d.action = 0 then setRun (Run.drained d) s else
      drainRows d.cluster d.engine d.prog d.pc d.dest (d.doneAc + 20) d.sat (decide (d.action = 2)) d.tileM d.tileN d.tile
        (setRun (Run.drained d) s)) := by
  have hfind : r.drains.find? (fun x => decide (x.cluster = d.cluster) && decide (x.engine = d.engine) && decide (x.bank = d.bank) &&
      !x.complete) = some d := by simp [hd, hopen]
  simp only [exec, execMmaBankComplete, withUnit_of_lt hcluster, hrun, hfind, hstop, hact, if_false, Bool.false_eq_true]
  rfl

theorem run_drained (hrun : s.dealer.run = some r) : (setRun (Run.drained d) s).dealer.run = some (r.drained d) := by
  rw [setRun_run, hrun, Option.map_some]

theorem drained_drains (hd : r.drains = [d]) : (r.drained d).drains = [] := by simp [Run.drained, hd]

end

/-- Settles O34: no drain, a drain into the tree, and a drain to SRAM, whose memory `drainRows_mem` states and whose frame `kept`. -/
theorem bankDrains : Obligations.BankDrains := by
  unfold Obligations.BankDrains
  intro r d s hrun hstop hd hopen hcluster
  refine ⟨fun hact => ?_, fun hact => ?_, fun hact => ?_⟩
  · have hexec := exec_mmaBankComplete hrun hstop hd hopen hcluster (by omega)
    rw [if_pos hact] at hexec
    exact ⟨_, hexec, ⟨_, run_drained hrun, drained_drains hd⟩, fun _ => rfl, rfl⟩
  · refine ⟨_, exec_mmaBankComplete_tree hrun hstop hd hopen hcluster hact, ⟨_, congrArg (Option.map _) hrun, ?_⟩, fun _ => rfl, rfl⟩
    simp [hd]
  · have hexec := exec_mmaBankComplete hrun hstop hd hopen hcluster (by omega)
    rw [if_neg (by omega)] at hexec
    have hkept := kept_drainRows d.prog d.cluster d.engine d.pc d.dest (d.doneAc + 20) d.sat (decide (d.action = 2)) d.tileM d.tileN d.tile
      (setRun (Run.drained d) s)
    obtain ⟨_, hunlia, hhost, _⟩ := onlyStep_of_kept hkept
    obtain ⟨r', hrun', hbare, _⟩ := run_of_kept hkept (run_drained hrun)
    refine ⟨_, hexec, ⟨r', hrun', (drains_of_bare hbare).trans (drained_drains hd)⟩, ?_, (objects_of_kept hkept :),
      stores_of_kept hkept .bank, stores_of_kept hkept .buf, hhost, hunlia⟩
    rw [drainRows_mem _ _ _ _ _ _ _ _ _ _ _ (run_drained hrun), tileFmt_decide]
    rfl

end Sys2Proof.Machine
end

section
/-! SUPPORT. VEC instructions (R107, R108, R155): where the rows of results go, and the lanes' arithmetic (Table 5.8). -/

namespace Sys2Proof.Machine

/-! ### Rows of lanes in the vector registers -/

/-- Words stored one after the other from index k of a lane table. -/
def storeLanes (k : Nat) (ws : List W32) (t : Tab W32) : Tab W32 := ws.zipIdx.foldl (fun t v => Tab.set (fun _ => (0 : W32)) t (k + v.2) v.1) t

theorem get_foldl_set (k a m : Nat) (ws : List W32) (t : Tab W32) :
    Tab.get (fun _ => 0) ((ws.zipIdx m).foldl (fun t v => Tab.set (fun _ => (0 : W32)) t (k + v.2) v.1) t) a =
      if k + m ≤ a then (ws[a - (k + m)]?).getD (Tab.get (fun _ => 0) t a) else Tab.get (fun _ => 0) t a := by
  induction ws generalizing m t with
  | nil => simp
  | cons w ws ih =>
    simp only [List.zipIdx_cons, List.foldl_cons, ih, Tab.get_set]
    rcases Nat.lt_trichotomy a (k + m) with hlt | heq | hgt
    · simp [show ¬k + m ≤ a by omega, show ¬k + (m + 1) ≤ a by omega, show k + m ≠ a by omega]
    · simp [heq]
    · obtain ⟨j, hj⟩ := Nat.exists_eq_add_of_lt hgt
      simp [hj, show k + m + j + 1 - (k + (m + 1)) = j by omega, show k + m + j + 1 - (k + m) = j + 1 by omega,
        show k + (m + 1) ≤ k + m + j + 1 by omega, show k + m ≤ k + m + j + 1 by omega, show k + m ≠ k + m + j + 1 by omega]

theorem get_storeLanes (k a : Nat) (ws : List W32) (t : Tab W32) :
    Tab.get (fun _ => 0) (storeLanes k ws t) a = if k ≤ a then (ws[a - k]?).getD (Tab.get (fun _ => 0) t a) else Tab.get (fun _ => 0) t a :=
  get_foldl_set k a 0 ws t

/-- Rows of 64 lanes stored in registers n, n + 1 and so on: lane l of register x has index 64x + l. -/
def storeRows (n : Nat) (rows : List (List W32)) (t : Tab W32) : Tab W32 :=
  rows.zipIdx.foldl (fun t e => storeLanes (64 * (n + e.2)) e.1 t) t

theorem get_storeRows {rows : List (List W32)} (h : ∀ ws ∈ rows, ws.length = 64) (n a : Nat) (t : Tab W32) :
    Tab.get (fun _ => 0) (storeRows n rows t) a =
      if n ≤ a / 64 then ((rows[a / 64 - n]?).bind (fun ws => ws[a % 64]?)).getD (Tab.get (fun _ => 0) t a) else Tab.get (fun _ => 0) t a := by
  suffices hm : ∀ m, Tab.get (fun _ => 0) ((rows.zipIdx m).foldl (fun t e => storeLanes (64 * (n + e.2)) e.1 t) t) a =
      if n + m ≤ a / 64 then ((rows[a / 64 - (n + m)]?).bind (fun ws => ws[a % 64]?)).getD (Tab.get (fun _ => 0) t a)
      else Tab.get (fun _ => 0) t a from hm 0
  intro m
  induction rows generalizing m t with
  | nil => simp
  | cons ws rows ih =>
    obtain ⟨hws, hrows⟩ := List.forall_mem_cons.1 h
    simp only [List.zipIdx_cons, List.foldl_cons, ih hrows, get_storeLanes]
    rcases Nat.lt_trichotomy (a / 64) (n + m) with hlt | heq | hgt
    · simp [show ¬n + m ≤ a / 64 by omega, show ¬n + (m + 1) ≤ a / 64 by omega, show ¬64 * (n + m) ≤ a by omega]
    · simp [heq, show 64 * (n + m) ≤ a by omega, show a - 64 * (n + m) = a % 64 by omega]
    · obtain ⟨j, hj⟩ := Nat.exists_eq_add_of_lt hgt
      have hpast : ws[a - 64 * (n + m)]? = none := List.getElem?_eq_none (by omega)
      simp [hj, hpast, show n + m + j + 1 - (n + (m + 1)) = j by omega, show n + m + j + 1 - (n + m) = j + 1 by omega,
        show n + (m + 1) ≤ n + m + j + 1 by omega, show n + m ≤ n + m + j + 1 by omega]

/-! ### The rows of results -/

@[simp] theorem decodeVals_length (f : Fmt) (n : Nat) (bs : List Byte) : (decodeVals f n bs).length = n := by
  induction n generalizing bs with
  | zero => rfl
  | succ n ih => simp [decodeVals, ih]

@[simp] theorem rowVals_length (f : Fmt) (sat : Bool) (bs : List Byte) : (rowVals f sat bs).length = 64 := by
  unfold rowVals
  split <;> simp

section
variable {s : State} {pr : Prog} {c : Common} {op : Nat} {f : VecF}

@[simp] theorem vecRows_length (n r : Nat) (done : List (List W32)) : (vecRows s pr c op f n r done).length = n := by
  induction n generalizing r done with
  | zero => rfl
  | succ n ih => simp [vecRows, ih]

theorem vecRows_width (n r : Nat) (done : List (List W32)) : ∀ x ∈ vecRows s pr c op f n r done, x.2.2.length = 64 := by
  induction n generalizing r done with
  | zero => exact fun _ => nofun
  | succ n ih => exact List.forall_mem_cons.2 ⟨by simp [vecCompute], ih _ _⟩

end

/-! ### The instruction -/

/-- The command of a VEC instruction carries it out. -/
theorem exec_of_insnRow_vec {i : Issue} {c : Common} {op : BitVec 4} {f : VecF} {row : Instr} (h : insnRow i c (.vec op f) = some row)
    (s : State) : exec row s = vecOp i c op f s := by
  obtain ⟨⟨n, hn⟩⟩ := op
  interval_cases n <;> first | (cases h; rfl) | cases h

/-- The ac in which a VEC instruction issues: once its sources have been written and its destination read (R109). -/
def vecIssueAc (pr : Prog) (op : Nat) (f : VecF) : Nat :=
  let rows := f.rowsm1.toNat + 1
  ((((vecOperands op f).map (fun e => codeRegs e.1 rows)).flatten).map (natAt pr.vready) ++ (codeRegs f.d rows).map (natAt pr.vread)).foldl
    max pr.ready

/-- The ac of its first row. -/
def vecBaseAc (pr : Prog) (op : Nat) (f : VecF) : Nat :=
  vecIssueAc pr op f + (if (vecOperands op f).any (fun e => inSramCode e.1) then 24 else 0)

/-- The ac in which row k of its results is stored. -/
def vecAc (pr : Prog) (op : Nat) (f : VecF) (k : Nat) : Nat :=
  vecBaseAc pr op f + k * (vecTiming op f).2 + (vecTiming op f).1 + (if inSramCode f.d then 20 else 0)

/-- Its rows stored in a program's vector registers. -/
def vecToProg (pr : Prog) (op : Nat) (f : VecF) (out : List (List W32)) : Prog → Prog := fun x =>
  { x with
    vlane := storeRows (codeReg f.d) out x.vlane,
    vready := (List.range (f.rowsm1.toNat + 1)).foldl
      (fun t k => natSet t (codeReg f.d + k) (max (natAt t (codeReg f.d + k)) (vecAc pr op f k))) x.vready }

def vecToRegs (p : Nat) (pr : Prog) (op : Nat) (f : VecF) (out : List (List W32)) (s : State) : State :=
  setRun (setProg p (vecToProg pr op f out)) s

/-- Its rows stored in SRAM at A(D), one after the other. -/
def vecToSram (p : Nat) (pr : Prog) (op : Nat) (f : VecF) (out : List (List Byte)) (s : State) : State :=
  out.zipIdx.foldl (fun s e => sramStore (vecAc pr op f e.2) (some p) srcVector
    (wrap48 (areg pr (codeReg f.d) + e.2 * (vecDstFmt op f).rowBytes)) e.1 s) s

/-- The reads of its register operands noted, its flags reported, its completion noted. -/
def vecEnd (p : Nat) (pr : Prog) (op : Nat) (f : VecF) (kinds : List (List (Option Nat))) (s : State) : State :=
  let rows := f.rowsm1.toNat + 1
  doneAt p (vecAc pr op f (rows - 1)) (flagRows p srcVector pr.pc 0 0 (vecAc pr op f (rows - 1)) kinds
    (setRun (setProg p (fun x => { x with
      vread := (vecOperands op f).foldl (fun t e => (if inSramCode e.1 then [] else List.range rows).foldl
        (fun t k => natSet t (codeReg e.1 + k) (max (natAt t (codeReg e.1 + k)) (vecBaseAc pr op f + k * (vecTiming op f).2 + 1))) t)
        x.vread })) s))

section
variable {i : Issue} {c : Common} {op : BitVec 4} {f : VecF} {r : Run} {s : State}

theorem vecOp_of_runsOn (h : RunsOn s r i c (.vec op f)) (hfault : vecFault s (dieOf i.prog) (prog r i.prog) op.toNat f = none) :
    let p := i.prog
    let pr := prog r p
    let out := vecRows s pr c op.toNat f (f.rowsm1.toNat + 1) 0 []
    vecOp i c op f s = .next (advance p (vecIssueAc pr op.toNat f) 1 (vecEnd p pr op.toNat f (out.map (fun x => x.2.1))
      (if inSramCode f.d then vecToSram p pr op.toNat f (out.map (fun x => x.1)) s
        else vecToRegs p pr op.toNat f (out.map (fun x => x.2.2)) s))) := by
  refine (issue_of_runsOn h _).trans ?_
  unfold vecToSram vecToRegs vecToProg storeRows
  simp only [hfault, sramEcc_of_runsOn h, List.zipIdx_map, List.foldl_map]
  rfl

end

theorem run_vecToRegs {p : Nat} {pr : Prog} {op : Nat} {f : VecF} {out : List (List W32)} {s : State} {r : Run} (hr : s.dealer.run = some r) :
    (vecToRegs p pr op f out s).dealer.run = some (setProg p (vecToProg pr op f out) r) := congrArg (Option.map _) hr

theorem kept_vecEnd (p : Nat) (pr : Prog) (op : Nat) (f : VecF) (kinds : List (List (Option Nat))) (s : State) :
    kept p (vecEnd p pr op f kinds s) = kept p s := by
  unfold vecEnd
  refine (kept_doneAt p _ _).trans ((kept_flagRows p _ _ _ _ _ _ _ _).trans ?_)
  refine kept_setProg ?_ s
  exact fun _ => rfl

@[simp] theorem vecEnd_tiers (p : Nat) (pr : Prog) (op : Nat) (f : VecF) (kinds : List (List (Option Nat))) (s : State) :
    (vecEnd p pr op f kinds s).tiers = s.tiers := by simp [vecEnd]

theorem kept_vecToSram (p : Nat) (pr : Prog) (op : Nat) (f : VecF) (out : List (List Byte)) (s : State) :
    kept p (vecToSram p pr op f out s) = kept p s := foldl_keeps (kept p) (fun s _ => kept_sramStore p _ _ _ _ _ s) _ s

theorem vecToSram_mem (p : Nat) (pr : Prog) (op : Nat) (f : VecF) (out : List (List Byte)) (s : State) :
    (vecToSram p pr op f out s).tiers.mem = out.zipIdx.foldl (fun m e =>
      writeBytes m (wrap48 (areg pr (codeReg f.d) + e.2 * (vecDstFmt op f).rowBytes)) e.1) s.tiers.mem := foldl_sramStore_mem _ _ _ _ s

section
variable {i : Issue} {c : Common} {op : BitVec 4} {f : VecF} {r : Run} {s : State}

/-- Rows in SRAM: memory takes them in order, the vector registers stay. -/
theorem vecOp_toSram (h : RunsOn s r i c (.vec op f)) (hfault : vecFault s (dieOf i.prog) (prog r i.prog) op.toNat f = none)
    (hd : inSramCode f.d = true) :
    let p := i.prog
    let pr := prog r p
    let out := vecRows s pr c op.toNat f (f.rowsm1.toNat + 1) 0 []
    ∃ t u, vecOp i c op f s = .next t ∧ t = advance p (vecIssueAc pr op.toNat f) 1 u ∧ kept p u = kept p s ∧
      t.tiers.mem = out.zipIdx.foldl (fun m e =>
        writeBytes m (wrap48 (areg pr (codeReg f.d) + e.2 * (vecDstFmt op.toNat f).rowBytes)) e.1.1) s.tiers.mem := by
  intro p pr out
  have hexec := vecOp_of_runsOn h hfault
  simp only [hd, if_true] at hexec
  refine ⟨_, _, hexec, rfl, (kept_vecEnd _ _ _ _ _ _).trans (kept_vecToSram _ _ _ _ _ _), ?_⟩
  simp only [advance_tiers, vecEnd_tiers, vecToSram_mem, List.zipIdx_map, List.foldl_map]
  rfl

/-- Rows in registers: they are set in the program's lanes, memory stays. -/
theorem vecOp_toRegs (h : RunsOn s r i c (.vec op f)) (hfault : vecFault s (dieOf i.prog) (prog r i.prog) op.toNat f = none)
    (hd : inSramCode f.d = false) :
    let p := i.prog
    let pr := prog r p
    let out := vecRows s pr c op.toNat f (f.rowsm1.toNat + 1) 0 []
    ∃ t u, vecOp i c op f s = .next t ∧ t = advance p (vecIssueAc pr op.toNat f) 1 u ∧
      kept p u = kept p (vecToRegs p pr op.toNat f (out.map (fun x => x.2.2)) s) ∧ t.tiers = s.tiers := by
  intro p pr out
  have hexec := vecOp_of_runsOn h hfault
  simp only [hd, Bool.false_eq_true, if_false] at hexec
  refine ⟨_, _, hexec, rfl, kept_vecEnd _ _ _ _ _ _, ?_⟩
  simp only [advance_tiers, vecEnd_tiers]
  rfl

end

/-- Lane l of register n + j, for the rows that an instruction stores from register n on, and every lane outside them. -/
theorem storeRows_lanes {rows : List (List W32)} (h : ∀ ws ∈ rows, ws.length = 64) (n : Nat) (t : Tab W32) :
    (∀ j l, l < 64 → Tab.get (fun _ => 0) (storeRows n rows t) (64 * (n + j) + l) =
      ((rows[j]?).bind (fun ws => ws[l]?)).getD (Tab.get (fun _ => 0) t (64 * (n + j) + l))) ∧
    (∀ a, a < 64 * n ∨ 64 * (n + rows.length) ≤ a → Tab.get (fun _ => 0) (storeRows n rows t) a = Tab.get (fun _ => 0) t a) := by
  refine ⟨fun j l hl => ?_, fun a ha => ?_⟩
  · rw [get_storeRows h, if_pos (by omega), show (64 * (n + j) + l) / 64 - n = j by omega, show (64 * (n + j) + l) % 64 = l by omega]
  · rw [get_storeRows h]
    split
    · rw [List.getElem?_eq_none (by omega)]
      rfl
    · rfl

/-! ### The arithmetic of a lane -/

theorem add_of_isNan {x : Exact} (h : x.isNan = true) (y : Exact) : x.add y = .nan := by
  cases x with
  | nan => rfl
  | inf _ => cases h
  | fin _ _ => cases h

/-- The NaN that is written is the canonical one (R61). -/
theorem toF32_nan : toF32 .nan = 0x7FC00000 := by decide

/-- Settles O41: the rows by their destination; the lanes by the operation's definition. -/
theorem vectorOperations : Obligations.VectorOperations := by
  unfold Obligations.VectorOperations
  refine ⟨fun i c op f row r s hrow h => ?_, fun a b d => ⟨rfl, rfl, rfl, fun hz => ?_, fun hz => ?_, fun hn => ⟨?_, ?_, ?_⟩⟩⟩
  · intro p pr rows out hfault
    have hr : s.dealer.run = some r := h.1.1.2.1
    cases hd : inSramCode f.d with
    | true =>
      obtain ⟨t, u, hexec, rfl, hkept, hmem⟩ := vecOp_toSram h hfault hd
      obtain ⟨r', hrun, _, _, hself⟩ := advance_run (t := vecIssueAc pr op.toNat f) (n := 1) hkept hr
      refine ⟨_, (exec_of_insnRow_vec hrow s).trans hexec, advanced_of_kept hkept hr, onlyStep_advance hkept, stores_of_kept hkept .buf,
        stores_of_kept hkept .bank, stores_of_kept hkept .side, stores_of_kept hkept .param, stores_of_kept hkept .grad,
        (objects_of_kept hkept :), (counters_of_kept hkept :), fun _ => ⟨hmem, r', hrun, (congrArg Prog.vlane hself :)⟩, nofun⟩
    | false =>
      obtain ⟨t, u, hexec, rfl, hkept, htiers⟩ := vecOp_toRegs h hfault hd
      have hr' := run_vecToRegs (op := op.toNat) (f := f) (out := out.map (fun x => x.2.2)) (p := p) (pr := pr) hr
      obtain ⟨r', hrun, _, _, hself⟩ := advance_run (t := vecIssueAc pr op.toNat f) (n := 1) hkept hr'
      have hvlane : (prog r' p).vlane = storeRows (codeReg f.d) (out.map (fun x => x.2.2)) pr.vlane := by
        refine (congrArg Prog.vlane hself :).trans ?_
        rw [prog_setProg, if_pos rfl]
        rfl
      obtain ⟨hin, hout⟩ := storeRows_lanes (rows := out.map (fun x => x.2.2)) (List.forall_mem_map.2 (vecRows_width rows 0 []))
        (codeReg f.d) pr.vlane
      rw [List.length_map, vecRows_length] at hout
      refine ⟨_, (exec_of_insnRow_vec hrow s).trans hexec, advanced_of_kept_setProg hkept rfl hr, (onlyStep_advance hkept :),
        stores_of_kept hkept .buf, stores_of_kept hkept .bank, stores_of_kept hkept .side, stores_of_kept hkept .param,
        stores_of_kept hkept .grad, (objects_of_kept hkept :), (counters_of_kept hkept :), nofun,
        fun _ => ⟨fun a => by rw [htiers], r', hrun, fun j l _ hl => ?_, fun a ha => ?_⟩⟩
      · rw [hvlane, hin j l hl, List.getElem?_map]
      · rw [hvlane, hout a ha]
  · exact if_pos hz
  · exact if_neg (by simp [hz])
  · exact (congrArg toF32 (add_of_isNan hn _)).trans toF32_nan
  · exact if_pos (.inl hn)
  · exact if_pos (.inl hn)

end Sys2Proof.Machine
end

section
/-! SUPPORT. The top-k unit (R102 to R106): the records of each vector go to A(DREG), and nowhere else. -/

namespace Sys2Proof.Machine

/-- The vectors that a TOPK reads in SRAM from src (R103). -/
def topkVecs (s : State) (f : TopkF) (src : Nat) : List (List W32) :=
  let n := f.nm1.toNat + 1
  let w := if f.infmt = 1 then 2 else 4
  let fmt : Fmt := if f.infmt = 1 then .bf16 else .fp32
  (List.range (f.vm1.toNat + 1)).map (fun v => (decodeVals fmt n (readBytes s.tiers.mem (src + v * n * w) (n * w))).map toF32)

/-- The ac in which a TOPK issues, its ac for each vector, and the ac of its last records (R105, R106). -/
def topkIssueAc (s : State) (p : Nat) (pr : Prog) : Nat := max pr.ready (natAt s.units.topkFree p)
def topkPer (f : TopkF) : Nat := (f.nm1.toNat + 1 + 63) / 64 + 2 * (f.km1.toNat + 1)
def topkEndAc (f : TopkF) (t : Nat) : Nat := t + (f.vm1.toNat + 1) * topkPer f + 16

/-- The records of each vector stored from dst on. -/
def topkStored (p dst t : Nat) (c : Common) (f : TopkF) (vecs : List (List W32)) (s : State) : State :=
  vecs.zipIdx.foldl (fun s e => sramStore (t + (e.2 + 1) * topkPer f + 16) (some p) srcTopk (dst + 8 * (f.km1.toNat + 1) * e.2)
    (topRecords (f.km1.toNat + 1) c.sat e.1) s) s

/-- The first vector with a NaN reported (R104). -/
def topkFlagged (p pc t : Nat) (step : W64) (f : TopkF) (vecs : List (List W32)) (s : State) : State :=
  match vecs.findIdx? (fun xs => xs.any (fun x => (f32 x).isNan)) with
  | some v => reportFlag p { kind := kindNan, source := srcTopk, col := 0, row := v, pc := pc, tileM := 0, tileN := 0,
                             ac := topkEndAc f t, step := step } s
  | none => s

/-- The unit busy until its last vector has gone through. -/
def topkBusy (p t : Nat) (f : TopkF) (s : State) : State :=
  { s with units := { s.units with topkFree := natSet s.units.topkFree p (t + (f.vm1.toNat + 1) * topkPer f) } }

/-- What a TOPK of program p leaves before the program goes on. -/
def topkDone (p pc dst t : Nat) (step : W64) (c : Common) (f : TopkF) (vecs : List (List W32)) (s : State) : State :=
  doneAt p (topkEndAc f t) (topkBusy p t f (topkFlagged p pc t step f vecs (topkStored p dst t c f vecs s)))

section
variable {i : Issue} {c : Common} {f : TopkF} {r : Run} {s : State}

theorem exec_topk_of_runsOn (h : RunsOn s r i c (.topk f)) (hk : f.km1.toNat + 1 ≤ f.nm1.toNat + 1) :
    let p := i.prog
    let pr := prog r p
    let src := wrap48 (areg pr f.sreg.toNat)
    let dst := wrap48 (areg pr f.dreg.toNat)
    canRead (dieOf p) src ((f.vm1.toNat + 1) * (f.nm1.toNat + 1) * (if f.infmt = 1 then 2 else 4)) = true →
    canWrite s (dieOf p) dst ((f.vm1.toNat + 1) * 8 * (f.km1.toNat + 1)) = true →
    exec (.topk i c f) s = .next (advance p (topkIssueAc s p pr) 1
      (topkDone p pr.pc dst (topkIssueAc s p pr) r.step c f (topkVecs s f src) s)) := by
  intro p pr src dst hread hwrite
  change execTopk i c f s = _
  rw [execTopk, issue_of_runsOn h]
  dsimp only
  rw [if_neg (Nat.not_lt.2 hk), if_neg (not_or.2 ⟨not_not_intro hread, not_not_intro hwrite⟩), sramEcc_of_runsOn h]
  rfl

end

section
variable (p pc dst t : Nat) (step : W64) (c : Common) (f : TopkF) (vecs : List (List W32)) (s : State)

theorem kept_topkFlagged : kept p (topkFlagged p pc t step f vecs s) = kept p s := by
  unfold topkFlagged
  split
  · exact kept_reportFlag p p _ s
  · rfl

@[simp] theorem topkFlagged_tiers : (topkFlagged p pc t step f vecs s).tiers = s.tiers := by
  unfold topkFlagged
  split <;> rfl

theorem kept_topkBusy : kept p (topkBusy p t f s) = kept p s :=
  congrArg (fun b => { kept p s with stores := b }) (funext fun st => by cases st <;> rfl)

theorem kept_topkDone : kept p (topkDone p pc dst t step c f vecs s) = kept p s :=
  (kept_doneAt p _ _).trans ((kept_topkBusy p t f _).trans ((kept_topkFlagged p pc t step f vecs _).trans
    (foldl_keeps (kept p) (fun s _ => kept_sramStore p _ _ _ _ _ s) _ s)))

theorem topkDone_mem : (topkDone p pc dst t step c f vecs s).tiers.mem =
    vecs.zipIdx.foldl (fun m e => writeBytes m (dst + 8 * (f.km1.toNat + 1) * e.2) (topRecords (f.km1.toNat + 1) c.sat e.1)) s.tiers.mem := by
  have hstored := foldl_sramStore_mem (cluster := some p) (src := srcTopk) (fun e : List W32 × Nat => t + (e.2 + 1) * topkPer f + 16)
    (fun e => dst + 8 * (f.km1.toNat + 1) * e.2) (fun e => topRecords (f.km1.toNat + 1) c.sat e.1) vecs.zipIdx s
  rw [← hstored, topkDone, doneAt_tiers, topkBusy, topkFlagged_tiers]
  rfl

end

end Sys2Proof.Machine
end

section
/-! SUPPORT. The reduction trees (R93 to R97, R156): an ETREE takes the drains of its group and gives its root's tile; a CTREE or DTREE
waits for its partners, and the last of them brings the group's tile to the lowest. -/

namespace Sys2Proof.Machine

/-! ### ETREE -/

/-- The oldest TREE drain of the bank on each engine of a group. -/
def etreeDrains (r : Run) (p : Nat) (f : TreeF) (js : List Nat) : List Drain :=
  js.filterMap (fun j => r.drains.find? (fun d =>
    decide (d.cluster = p) && decide (d.engine = j) && decide (d.bank = f.bank.toNat) && decide (d.action = 3)))

/-- What an ETREE issued at t reduces: the inputs' first ac and tiles. -/
def etreeSum (p t : Nat) (f : TreeF) (ds : List Drain) : (Nat × List W32) × List NodeUse :=
  treeReduce (1000 * p) 6 f.size.toNat 1 f.base.toNat (ds.map (fun d => (max d.doneAc (t + 1), d.tile)))

/-- The step once drains have entered a tree. -/
def Run.treed (us : List NodeUse) (ds : List Drain) (r : Run) : Run :=
  takeNodes us { r with drains := r.drains.filter (fun d => !ds.contains d) }

/-- The drains' banks free once their last row has left. -/
def freeBanks (p t : Nat) (ds : List Drain) (s : State) : State :=
  ds.foldl (fun s d => { s with units := { s.units with
    bankFree := Tab.mod (fun _ => 0) s.units.bankFree (bankIdx (9 * p + physEngine s p d.engine) d.bank)
      (max (max d.doneAc (t + 1) + 64)) } }) s

/-- What the ac of free banks do not show in is left alone. -/
theorem freeBanks_keeps {β : Type} (g : State → β) (h : ∀ s x, g { s with units := { s.units with bankFree := x } } = g s) (p t : Nat)
    (ds : List Drain) (s : State) : g (freeBanks p t ds s) = g s := by
  unfold freeBanks
  exact foldl_keeps g (fun s _ => h s _) ds s

theorem kept_bankFree {p : Nat} (s : State) (x : Tab Nat) : kept p { s with units := { s.units with bankFree := x } } = kept p s :=
  congrArg (fun b => { kept p s with stores := b }) (funext fun st => by cases st <;> rfl)

/-- A tree's result on its way to the next level. -/
def onwardItem (level k pc : Nat) (sat : Bool) (f : TreeF) (ac : Nat) (rows : List W32) : TreeItem :=
  { level := level, cluster := k, waiting := false, field := f, sat := sat, nth := 0, ac := ac, issued := 0, dest := 0, pc := pc,
    rows := rows, lag := [] }

def Run.pushTree (x : TreeItem) (r : Run) : Run := { r with trees := r.trees ++ [x] }

theorem treeOutput_onward {f : TreeF} (h : f.onward = 1) (level k src p pc dest : Nat) (sat : Bool) (ac : Nat) (rows : List W32) (s : State) :
    treeOutput level k src p pc dest sat f ac rows s = doneAt p (ac + 63) (setRun (Run.pushTree (onwardItem level k pc sat f ac rows)) s) :=
  if_pos h

theorem treeOutput_sram {f : TreeF} (h : f.onward = 0) (level k src p pc dest : Nat) (sat : Bool) (ac : Nat) (rows : List W32) (s : State) :
    treeOutput level k src p pc dest sat f ac rows s =
      drainRows k src p pc dest (ac + 20) sat (decide (f.outfmt = 1)) (if src < 8 then f.tileM else 0) (if src < 8 then f.tileN else 0) rows s :=
  if_neg (by simp [h])

section
variable {i : Issue} {c : Common} {f : TreeF} {r : Run} {js : List Nat} {s : State}

/-- An ETREE with a drain on every engine of its group, a destination in reach and its nodes free. -/
theorem exec_etree_of_runs (h : Runs s r i c (.tree 0 f)) (hg : groupMembers f 8 = some js) :
    let p := i.prog
    let pr := prog r p
    let ds := etreeDrains r p f js
    let sum := etreeSum p pr.ready f ds
    ds.length = js.length → (f.onward = 0 → canWrite s (dieOf p) (treeDest pr f) (treeBytes f) = true) →
    treeBusy r.nodes sum.2 = false →
    exec (.etree i c f) s = .next (beforeAbort r p s (advance p pr.ready 1
      (treeOutput 1 p f.base.toNat p pr.pc (treeDest pr f) c.sat f sum.1.1 sum.1.2
        (freeBanks p pr.ready ds (setRun (Run.treed sum.2 ds) s))))) := by
  intro p pr ds sum hlen hdst hbusy
  have hreach : ¬(f.onward = 0 ∧ ¬canWrite s (dieOf p) (treeDest pr f) (treeBytes f) = true) := fun ⟨h0, hno⟩ => hno (hdst h0)
  have hfree : ¬treeBusy r.nodes sum.2 = true := by simp [hbusy]
  change execEtree i c f s = _
  rw [execEtree, issue_of_runs h]
  simp only [hg]
  exact congrArg (fun t => Host.Outcome.next (beforeAbort r p s t))
    ((if_neg (not_not_intro hlen)).trans ((if_neg hreach).trans (if_neg hfree)))

/-- The root's tile in SRAM at A(DREG) + 64 × DOFF. -/
theorem etree_toSram (h : Runs s r i c (.tree 0 f)) (hg : groupMembers f 8 = some js) (hf : f.onward = 0) :
    let p := i.prog
    let pr := prog r p
    let ds := etreeDrains r p f js
    let sum := etreeSum p pr.ready f ds
    ds.length = js.length → canWrite s (dieOf p) (treeDest pr f) (treeBytes f) = true → treeBusy r.nodes sum.2 = false →
    Completes (.etree i c f) s (fun t => OnlyStep s t ∧ t.units.buf = s.units.buf ∧ t.units.bank = s.units.bank ∧
      t.tiers.objects = s.tiers.objects ∧
      (∃ r', t.dealer.run = some r' ∧ (prog r' p).pc = pr.pc + 1 ∧ (∀ q, q ≠ p → prog r' q = prog r q) ∧
        r'.drains = r.drains.filter (fun d => !ds.contains d) ∧ r'.trees = r.trees) ∧
      t.tiers.mem = tileMem (tileFmt (decide (f.outfmt = 1))) c.sat (treeDest pr f) sum.1.2 s.tiers.mem) := by
  intro p pr ds sum hlen hdst hbusy
  have hexec := exec_etree_of_runs h hg hlen (fun _ => hdst) hbusy
  rw [treeOutput_sram hf] at hexec
  have hrun : (setRun (Run.treed sum.2 ds) s).dealer.run = some (r.treed sum.2 ds) := congrArg (Option.map _) h.1.2.1
  have hkept := (kept_drainRows p p f.base.toNat pr.pc (treeDest pr f) (sum.1.1 + 20) c.sat (decide (f.outfmt = 1))
    (if f.base.toNat < 8 then f.tileM else 0) (if f.base.toNat < 8 then f.tileN else 0) sum.1.2
    (freeBanks p pr.ready ds (setRun (Run.treed sum.2 ds) s))).trans
    (freeBanks_keeps (kept p) kept_bankFree p pr.ready ds (setRun (Run.treed sum.2 ds) s))
  obtain ⟨r', hrun', hbare, hother, hself⟩ := advance_run (t := pr.ready) (n := 1) hkept hrun
  refine ⟨_, hexec.trans (congrArg _ (beforeAbort_advance h.1.2.2.1 hkept hrun)), (onlyStep_advance hkept :), stores_of_kept hkept .buf,
    stores_of_kept hkept .bank, (objects_of_kept hkept :),
    ⟨r', hrun', (congrArg Prog.pc hself :), hother, drains_of_bare hbare, (trees_of_bare hbare :)⟩, ?_⟩
  rw [advance_tiers, drainRows_mem _ _ _ _ _ _ _ _ _ _ _ ((freeBanks_keeps (fun s => s.dealer.run) (fun _ _ => rfl) _ _ _ _).trans hrun),
    freeBanks_keeps (fun s => s.tiers.mem) (fun _ _ => rfl)]
  rfl

/-- The root's tile on its way to the cluster tree. -/
theorem etree_onward (h : Runs s r i c (.tree 0 f)) (hg : groupMembers f 8 = some js) (hf : f.onward = 1) :
    let p := i.prog
    let pr := prog r p
    let ds := etreeDrains r p f js
    let sum := etreeSum p pr.ready f ds
    ds.length = js.length → treeBusy r.nodes sum.2 = false →
    Completes (.etree i c f) s (fun t => OnlyStep s t ∧ t.units.buf = s.units.buf ∧ t.units.bank = s.units.bank ∧ t.tiers = s.tiers ∧
      ∃ r', t.dealer.run = some r' ∧ (prog r' p).pc = pr.pc + 1 ∧ (∀ q, q ≠ p → prog r' q = prog r q) ∧
        r'.drains = r.drains.filter (fun d => !ds.contains d) ∧
        r'.trees = r.trees ++ [onwardItem 1 p pr.pc c.sat f sum.1.1 sum.1.2]) := by
  intro p pr ds sum hlen hbusy
  have hexec := exec_etree_of_runs h hg hlen (fun h0 => absurd (h0.symm.trans hf) (by decide)) hbusy
  rw [treeOutput_onward hf] at hexec
  set x := onwardItem 1 p pr.pc c.sat f sum.1.1 sum.1.2
  set b := setRun (Run.pushTree x) (freeBanks p pr.ready ds (setRun (Run.treed sum.2 ds) s))
  have hrun : b.dealer.run = some ((r.treed sum.2 ds).pushTree x) := by
    rw [setRun_run, freeBanks_keeps (fun s => s.dealer.run) (fun _ _ => rfl), setRun_run, h.1.2.1]
    rfl
  have hkept := kept_doneAt p (sum.1.1 + 63) b
  have hbytes : b.units.bytes = s.units.bytes :=
    freeBanks_keeps (fun s => s.units.bytes) (fun s x => congrArg Kept.stores (kept_bankFree (p := p) s x)) _ _ _ _
  have houtside : b.outside = s.outside := freeBanks_keeps State.outside (fun _ _ => rfl) _ _ _ _
  have htiers : b.tiers = s.tiers := freeBanks_keeps State.tiers (fun _ _ => rfl) _ _ _ _
  obtain ⟨r', hrun', hbare, hother, hself⟩ := advance_run (t := pr.ready) (n := 1) hkept hrun
  refine ⟨_, hexec.trans (congrArg _ (beforeAbort_advance h.1.2.2.1 hkept hrun)), ?_, (congrFun hbytes .buf :), (congrFun hbytes .bank :),
    htiers, r', hrun', (congrArg Prog.pc hself :), hother, (drains_of_bare hbare :), (trees_of_bare hbare :)⟩
  exact onlyStep_of_outside ((advance_outside _ _ _ _).trans ((congrArg Kept.outside hkept).trans houtside))

end

/-! ### CTREE and DTREE -/

theorem setRun_setRun (f g : Run → Run) (s : State) : setRun f (setRun g s) = setRun (f ∘ g) s := by simp [setRun]

/-- What program p brings to its group: the rows of its own onward result x, as a partner that waits (R94, R95). -/
def joinItem (r : Run) (p unit level : Nat) (c : Common) (f : TreeF) (x : TreeItem) : TreeItem :=
  let pr := prog r p
  { level := level, cluster := p, waiting := true, field := f, sat := c.sat,
    nth := natAt r.matched (((level * 4 + f.size.toNat) * 8 + f.base.toNat) * 64 + unit), ac := max x.ac (pr.ready + 1), issued := pr.ready,
    dest := treeDest pr f, pc := pr.pc, rows := x.rows, lag := pr.lag }

/-- The step once w waits in place of x. -/
def Run.joined (unit level : Nat) (f : TreeF) (x w : TreeItem) (r : Run) : Run :=
  let k := ((level * 4 + f.size.toNat) * 8 + f.base.toNat) * 64 + unit
  { r with trees := r.trees.erase x ++ [w], matched := natSet r.matched k (natAt r.matched k + 1) }

section
variable {i : Issue} {c : Common} {op : BitVec 4} {f : TreeF} {level limit own cost key src : Nat} {unitOf : Nat → Nat}
  {members : List Nat → List Nat} {r : Run} {js : List Nat} {x : TreeItem} {s : State}

/-- A CTREE or DTREE of a group that its program is in, with its own onward result there: it waits, and the last partner reduces the group. -/
theorem treeJoin_of_runs (h : Runs s r i c (.tree op f)) (hg : groupMembers f limit = some js)
    (hx : r.trees.find? (fun x => !x.waiting && decide (x.level = level) && decide (x.cluster = i.prog)) = some x)
    (hown : js.contains own = true)
    (hdst : ¬(f.onward = 0 ∧ decide ((members js).head? = some (unitOf i.prog)) = true ∧
      ¬canWrite s (dieOf i.prog) (treeDest (prog r i.prog) f) (treeBytes f) = true)) :
    let p := i.prog
    let w := joinItem r p (unitOf p) level c f x
    let s1 := advance p (prog r p).ready 1 (setRun (Run.joined (unitOf p) level f x w) s)
    ∀ r1, s1.dealer.run = some r1 → treeJoin i c op f level limit unitOf own members cost key src s = .next (beforeAbort r p s
      (if (partners r1 w unitOf (members js)).length = (members js).length then treeMeet level cost key src (partners r1 w unitOf (members js)) s1
        else s1)) := by
  intro p w s1 r1 hr1
  rw [treeJoin, issue_of_runs h]
  simp only [hg, hx, hown, not_true_eq_false, if_false]
  rw [if_neg hdst]
  refine congrArg (fun t => Host.Outcome.next (beforeAbort r p s t)) ?_
  split
  · next r' hr' =>
    cases hr'.symm.trans hr1
    rfl
  · next hnone => cases hnone.symm.trans hr1

end

theorem groupMembers_nodup {f : TreeF} {limit : Nat} {js : List Nat} (h : groupMembers f limit = some js) : js.Nodup := by
  simp only [groupMembers] at h
  split at h
  · cases h
    exact List.nodup_range.map fun _ _ heq => Nat.add_left_cancel heq
  · cases h

/-- A group has no more partners than the step has tree items. -/
theorem partners_length_le (r : Run) (x : TreeItem) (unitOf : Nat → Nat) {ms : List Nat} (hms : ms.Nodup) :
    (partners r x unitOf ms).length ≤ r.trees.length := by
  have hnodup : (partners r x unitOf ms).Nodup := by
    refine hms.filterMap fun m m' y hm hm' => ?_
    have hunit := List.find?_some hm
    have hunit' := List.find?_some hm'
    simp only [Bool.and_eq_true, decide_eq_true_eq] at hunit hunit'
    obtain ⟨⟨⟨⟨⟨_, _⟩, hy⟩, _⟩, _⟩, _⟩ := hunit
    obtain ⟨⟨⟨⟨⟨_, _⟩, hy'⟩, _⟩, _⟩, _⟩ := hunit'
    exact hy.symm.trans hy'
  refine (hnodup.subperm fun y hy => ?_).length_le
  obtain ⟨m, _, hm⟩ := List.mem_filterMap.1 hy
  exact List.mem_of_find?_eq_some hm

section
variable {i : Issue} {c : Common} {op : BitVec 4} {f : TreeF} {level limit own cost key src : Nat} {unitOf : Nat → Nat}
  {members : List Nat → List Nat} {r : Run} {js : List Nat} {s : State}

/-- The first to come waits (R94, R95). -/
theorem treeJoin_waits {x : TreeItem} (h : Runs s r i c (.tree op f)) (hg : groupMembers f limit = some js) (hown : js.contains own = true)
    (hms : (members js).Nodup) (hlen : 2 ≤ (members js).length) (htrees : r.trees = [x]) (hwait : x.waiting = false) (hlevel : x.level = level)
    (hcluster : x.cluster = i.prog) (hdst : f.onward = 0 → canWrite s (dieOf i.prog) (treeDest (prog r i.prog) f) (treeBytes f) = true) :
    ∃ t, treeJoin i c op f level limit unitOf own members cost key src s = .next t ∧ OnlyStep s t ∧ SameMemory s t ∧ t.units = s.units ∧
      ∃ r' w, t.dealer.run = some r' ∧ (prog r' i.prog).pc = (prog r i.prog).pc + 1 ∧ r'.trees = [w] ∧ w.waiting = true ∧ w.level = level ∧
        w.rows = x.rows ∧ w.cluster = i.prog ∧ ∀ q, q ≠ i.prog → prog r' q = prog r q := by
  set p := i.prog
  set w := joinItem r p (unitOf p) level c f x
  have hfind : r.trees.find? (fun x => !x.waiting && decide (x.level = level) && decide (x.cluster = p)) = some x := by
    simp [htrees, hwait, hlevel, hcluster, p]
  have hb : (setRun (Run.joined (unitOf p) level f x w) s).dealer.run = some (r.joined (unitOf p) level f x w) :=
    congrArg (Option.map _) h.1.2.1
  obtain ⟨r', hrun, hbare, hother, hself⟩ := advance_run (p := p) (t := (prog r p).ready) (n := 1) rfl hb
  have htrees' : r'.trees = [w] := (trees_of_bare hbare).trans (show r.trees.erase x ++ [w] = [w] by simp [htrees])
  have hexec := treeJoin_of_runs (unitOf := unitOf) (members := members) (cost := cost) (key := key) (src := src) h hg hfind hown (fun ⟨h0, _, hno⟩ => hno (hdst h0)) r' hrun
  have hshort : (partners r' w unitOf (members js)).length ≠ (members js).length := by
    have hle := partners_length_le r' w unitOf hms
    rw [htrees', List.length_singleton] at hle
    omega
  rw [if_neg hshort, beforeAbort_advance h.1.2.2.1 rfl hb] at hexec
  exact ⟨_, hexec, onlyStep_of_outside (advance_outside _ _ _ _), fun _ => rfl, rfl, r', w, hrun, (congrArg Prog.pc hself :), htrees', rfl, rfl, rfl, rfl, hother⟩

end

/-! ### The last partner -/

/-- The programs with their lag after a reduction (R198). -/
def Run.lagged (lags : List (Nat × Tab Nat)) (r : Run) : Run := lags.foldl (fun r x => setProg x.1 (fun y => { y with lag := x.2 }) r) r

/-- What the lag of a program does not show in is left alone. -/
theorem lagged_keeps {β : Type} (g : Run → β) (h : ∀ r q l, g (setProg q (fun y => { y with lag := l }) r) = g r)
    (lags : List (Nat × Tab Nat)) (r : Run) : g (r.lagged lags) = g r := by
  unfold Run.lagged
  exact foldl_keeps g (fun r x => h r x.1 x.2) lags r

/-- What the partners of a group reduce. -/
def meetSum (cost key : Nat) (root : TreeItem) (ps : List TreeItem) : (Nat × List W32) × List NodeUse :=
  treeReduce key cost root.field.size.toNat 1 root.field.base.toNat (ps.map (fun x => (x.ac, x.rows)))

/-- The lag that the partners of a group have after it (R198). -/
def meetLags (cost : Nat) (root : TreeItem) (ps : List TreeItem) (r : Run) : List (Nat × Tab Nat) :=
  lagTree cost root.field.size.toNat (ps.zipIdx.map (fun x => x.1.lagRow (if x.2 % 2 = 0 then (prog r x.1.cluster).lag else x.1.lag)))

/-- The step once a group has met. -/
def Run.met (ps : List TreeItem) (us : List NodeUse) (lags : List (Nat × Tab Nat)) (r : Run) : Run :=
  (takeNodes us { r with trees := r.trees.filter (fun x => !ps.contains x) }).lagged lags

/-- With its nodes free the group's tile goes where the lowest partner sends it. -/
theorem treeMeet_of_free {level cost key src : Nat} {root : TreeItem} {ps : List TreeItem} {r : Run} {s : State} (hps : ps.head? = some root)
    (hr : s.dealer.run = some r) (hfree : treeBusy r.nodes (meetSum cost key root ps).2 = false) :
    treeMeet level cost key src ps s = treeOutput (level + 1) root.cluster src root.cluster root.pc root.dest root.sat root.field
      (meetSum cost key root ps).1.1 (meetSum cost key root ps).1.2
      (setRun (Run.met ps (meetSum cost key root ps).2 (meetLags cost root ps r)) s) := by
  obtain ⟨rest, rfl⟩ : ∃ rest, ps = root :: rest := List.head?_eq_some_iff.1 hps
  have hnot : ¬treeBusy r.nodes (meetSum cost key root (root :: rest)).2 = true := by simp [hfree]
  simp only [treeMeet, hr]
  refine (if_neg hnot).trans ?_
  rw [setRun_setRun]
  rfl

/-- Every item that met has left, whatever lag its programs now have. -/
theorem met_trees (us : List NodeUse) (lags : List (Nat × Tab Nat)) (r : Run) : (r.met r.trees us lags).trees = [] :=
  (lagged_keeps Run.trees (fun _ _ _ => rfl) lags _).trans (by simp [takeNodes])

theorem met_prog {β : Type} (g : Prog → β) (h : ∀ y l, g { y with lag := l } = g y) (ps : List TreeItem) (us : List NodeUse)
    (lags : List (Nat × Tab Nat)) (r : Run) (q : Nat) : g (prog (r.met ps us lags) q) = g (prog r q) := by
  refine (lagged_keeps (fun r => g (prog r q)) (fun r k l => ?_) lags _).trans rfl
  simp only [prog_setProg]
  split
  · exact h _ l
  · rfl

/-- The group's tile in SRAM, at the destination of its lowest partner. -/
theorem treeMeet_toSram {level cost key src : Nat} {root : TreeItem} {r : Run} {s : State} (hroot : r.trees.head? = some root)
    (hr : s.dealer.run = some r) (hfree : treeBusy r.nodes (meetSum cost key root r.trees).2 = false) (honward : root.field.onward = 0) :
    let t := treeMeet level cost key src r.trees s
    t.outside = s.outside ∧ t.units.bytes = s.units.bytes ∧ t.tiers.objects = s.tiers.objects ∧
    (∃ r', t.dealer.run = some r' ∧ r'.trees = [] ∧
      ∀ q, q ≠ root.cluster → (prog r' q).pc = (prog r q).pc ∧ (prog r' q).issued = (prog r q).issued) ∧
    t.tiers.mem = tileMem (tileFmt (decide (root.field.outfmt = 1))) root.sat root.dest (meetSum cost key root r.trees).1.2 s.tiers.mem := by
  intro t
  have ht : t = _ := treeMeet_of_free hroot hr hfree
  rw [treeOutput_sram honward] at ht
  set r2 := r.met r.trees (meetSum cost key root r.trees).2 (meetLags cost root r.trees r)
  set s2 := setRun (Run.met r.trees (meetSum cost key root r.trees).2 (meetLags cost root r.trees r)) s
  have hr2 : s2.dealer.run = some r2 := congrArg (Option.map _) hr
  have hkept : kept root.cluster t = kept root.cluster s2 := ht ▸ kept_drainRows _ _ _ _ _ _ _ _ _ _ _ _
  obtain ⟨r', hrun, hbare, hprogs⟩ := run_of_kept hkept hr2
  refine ⟨(congrArg Kept.outside hkept :), (congrArg Kept.stores hkept :), (objects_of_kept hkept :), ⟨r', hrun, ?_, fun q hq => ?_⟩, ?_⟩
  · exact (trees_of_bare hbare).trans (met_trees _ _ r)
  · rw [(prog_of_progsOf hprogs).1 q hq]
    exact ⟨met_prog Prog.pc (fun _ _ => rfl) _ _ _ r q, met_prog Prog.issued (fun _ _ => rfl) _ _ _ r q⟩
  · rw [ht, drainRows_mem _ _ _ _ _ _ _ _ _ _ _ hr2]
    rfl

section
variable {i : Issue} {c : Common} {op : BitVec 4} {f : TreeF} {level limit own cost key src m m' : Nat} {unitOf : Nat → Nat}
  {members : List Nat → List Nat} {r : Run} {js : List Nat} {w x : TreeItem} {s : State}

/-- The second of two partners finds the first. -/
theorem partners_pair {r1 : Run} (htrees : r1.trees = [w, joinItem r i.prog (unitOf i.prog) level c f x]) (hw : unitOf w.cluster = m)
    (hp : unitOf i.prog = m') (hne : m ≠ m') (hwait : w.waiting = true) (hlevel : w.level = level) (hsize : w.field.size = f.size)
    (hbase : w.field.base = f.base)
    (hnth : w.nth = natAt r.matched (((level * 4 + f.size.toNat) * 8 + f.base.toNat) * 64 + unitOf i.prog)) :
    partners r1 (joinItem r i.prog (unitOf i.prog) level c f x) unitOf [m, m'] = [w, joinItem r i.prog (unitOf i.prog) level c f x] := by
  simp only [partners, htrees, List.filterMap_cons, List.filterMap_nil, List.find?_cons, hw, hp, hwait, hlevel, hsize, hbase, hnth, hne,
    joinItem, decide_true, decide_false, Bool.and_self, Bool.and_false, Bool.false_and]

/-- The second of two partners reduces the group, and the tile goes to the first one's destination (R94, R95). -/
theorem treeJoin_meets (h : Runs s r i c (.tree op f)) (hg : groupMembers f limit = some js) (hown : js.contains own = true)
    (hms : members js = [m, m']) (hw : unitOf w.cluster = m) (hp : unitOf i.prog = m') (hne : m ≠ m') (htrees : r.trees = [w, x])
    (hwait : w.waiting = true) (hopen : x.waiting = false) (hlevel : w.level = level) (hlevel' : x.level = level) (hcluster : x.cluster = i.prog)
    (hsize : w.field.size = f.size) (hbase : w.field.base = f.base) (honward : w.field.onward = 0)
    (hnth : w.nth = natAt r.matched (((level * 4 + f.size.toNat) * 8 + f.base.toNat) * 64 + unitOf i.prog)) :
    let p := i.prog
    let pr := prog r p
    let out := treeReduce key cost f.size.toNat 1 f.base.toNat [(w.ac, w.rows), (max x.ac (pr.ready + 1), x.rows)]
    treeBusy r.nodes out.2 = false →
    ∃ t, treeJoin i c op f level limit unitOf own members cost key src s = .next t ∧ OnlyStep s t ∧ t.units.buf = s.units.buf ∧
      t.units.bank = s.units.bank ∧ t.tiers.objects = s.tiers.objects ∧
      (∃ r', t.dealer.run = some r' ∧ r'.trees = [] ∧ (prog r' p).pc = pr.pc + 1) ∧
      t.tiers.mem = tileMem (tileFmt (decide (w.field.outfmt = 1))) w.sat w.dest out.1.2 s.tiers.mem := by
  intro p pr out hfree
  set w' := joinItem r p (unitOf p) level c f x
  have hfind : r.trees.find? (fun x => !x.waiting && decide (x.level = level) && decide (x.cluster = p)) = some x := by
    simp [htrees, hwait, hopen, hlevel', hcluster, p]
  have hb : (setRun (Run.joined (unitOf p) level f x w') s).dealer.run = some (r.joined (unitOf p) level f x w') :=
    congrArg (Option.map _) h.1.2.1
  obtain ⟨r1, hrun, hbare, _, hself⟩ := advance_run (p := p) (t := pr.ready) (n := 1) rfl hb
  have hwx : w ≠ x := fun heq => by rw [heq, hopen] at hwait; cases hwait
  have htrees1 : r1.trees = [w, w'] := (trees_of_bare hbare).trans (show r.trees.erase x ++ [w'] = [w, w'] by simp [htrees, hwx])
  have hpair : partners r1 w' unitOf [m, m'] = r1.trees :=
    (partners_pair htrees1 hw hp hne hwait hlevel hsize hbase hnth).trans htrees1.symm
  have hlen : r1.trees.length = [m, m'].length := by rw [htrees1]; rfl
  have hsum : meetSum cost key w r1.trees = out := by
    rw [meetSum, htrees1, hsize, hbase]
    rfl
  have hfree1 : treeBusy r1.nodes (meetSum cost key w r1.trees).2 = false := by
    rw [hsum, nodes_of_bare hbare]
    exact hfree
  have hexec := treeJoin_of_runs (unitOf := unitOf) (members := members) (cost := cost) (key := key) (src := src) h hg hfind hown
    (fun ⟨_, hlowest, _⟩ => by simp [hms, hp, hne] at hlowest) r1 hrun
  rw [hms, hpair, if_pos hlen] at hexec
  obtain ⟨hout, hbytes, hobjects, ⟨r', hrun', htrees', hprogs⟩, hmem⟩ :=
    treeMeet_toSram (level := level) (src := src) (by rw [htrees1]; rfl) hrun hfree1 honward
  obtain ⟨hpc, hissued⟩ := hprogs p fun heq => hne (by rw [← hw, ← hp, ← heq])
  rw [beforeAbort_of_canIssue h.1.2.2.1 hrun' (hissued.trans (congrArg Prog.issued hself :))] at hexec
  refine ⟨_, hexec, onlyStep_of_outside (hout.trans (advance_outside _ _ _ _)), (congrFun hbytes .buf :), (congrFun hbytes .bank :),
    hobjects, ⟨r', hrun', htrees', hpc.trans (congrArg Prog.pc hself :)⟩, ?_⟩
  rw [hmem, hsum]
  rfl

end

theorem exec_ctree (i : Issue) (c : Common) (f : TreeF) (s : State) : exec (.ctree i c f) s = execCtree i c f s := rfl
theorem exec_dtree (i : Issue) (c : Common) (f : TreeF) (s : State) : exec (.dtree i c f) s = execDtree i c f s := rfl

/-- Settles O42: an ETREE by where its root goes, a CTREE or DTREE by whether its partner waits, TOPK by its records. -/
theorem treesAndTopk : Obligations.TreesAndTopk := by
  unfold Obligations.TreesAndTopk
  refine ⟨⟨?_, ?_, ?_⟩, ?_⟩
  · intro i c f r js ds s h p pr ins root hg hds hlen hdst hbusy
    subst hds
    by_cases hf : f.onward = 0
    · have hno : f.onward ≠ 1 := by rw [hf]; decide
      obtain ⟨t, hexec, honly, hbuf, hbank, hobjects, ⟨r', hrun, hpc, hother, hdrains, htrees⟩, hmem⟩ := etree_toSram h hg hf hlen (hdst hf) hbusy
      rw [tileFmt_decide] at hmem
      exact ⟨t, hexec, honly, hbuf, hbank, hobjects, ⟨r', hrun, hpc, hother, hdrains, fun _ => htrees, fun h1 => absurd h1 hno⟩,
        fun h1 => absurd h1 hno, fun _ => hmem⟩
    · have hf1 : f.onward = 1 := by bv_omega
      obtain ⟨t, hexec, honly, hbuf, hbank, htiers, r', hrun, hpc, hother, hdrains, htrees⟩ := etree_onward h hg hf1 hlen hbusy
      exact ⟨t, hexec, honly, hbuf, hbank, by rw [htiers], ⟨r', hrun, hpc, hother, hdrains, fun h0 => absurd h0 hf,
        fun _ => ⟨_, htrees, rfl, rfl, rfl, rfl⟩⟩, fun _ a => by rw [htiers], fun h0 => absurd h0 hf⟩
  · rintro i c f op level js x r s (⟨rfl, rfl⟩ | ⟨rfl, rfl⟩) h p hg hown hlen htrees hwait hlevel hcluster hdst
    · rw [if_pos rfl] at hg hown ⊢
      obtain ⟨t, hexec, hleaves⟩ := treeJoin_waits (level := 1) (limit := 8) (own := p % 8) (unitOf := id)
        (members := fun js => js.map (fun j => p / 8 * 8 + j)) (cost := 9) (key := 100000 + 1000 * (p / 8)) (src := srcClusterTree) h hg hown
        ((groupMembers_nodup hg).map fun _ _ heq => Nat.add_left_cancel heq) (by rwa [List.length_map]) htrees hwait hlevel hcluster hdst
      exact ⟨t, (exec_ctree i c f s).trans hexec, hleaves⟩
    · rw [if_neg (by decide)] at hg hown ⊢
      obtain ⟨t, hexec, hleaves⟩ := treeJoin_waits (level := 2) (limit := 4) (own := p / 8) (unitOf := fun k => k / 8)
        (members := fun js => js) (cost := 49) (key := 200000) (src := srcDieTree) h hg hown (groupMembers_nodup hg) hlen htrees hwait hlevel
        hcluster hdst
      exact ⟨t, (exec_dtree i c f s).trans hexec, hleaves⟩
  · rintro i c f op level b w x r s (⟨rfl, rfl⟩ | ⟨rfl, rfl⟩) h p pr unitOf own out fmt hg hown hunit htrees hwait hopen hlevel hlevel' hcluster
      hsize hbase honward hnth hfree
    · have hp : p % 8 = b + 1 := hown
      have hw : w.cluster + 1 = p := hunit
      obtain ⟨t, hexec, honly, hbuf, hbank, hobjects, hrun, hmem⟩ := treeJoin_meets (own := p % 8) (unitOf := id)
        (members := fun js => js.map (fun j => p / 8 * 8 + j)) (src := srcClusterTree) (m := p / 8 * 8 + b) (m' := p / 8 * 8 + (b + 1)) h hg
        (by simp [hp]) rfl (show w.cluster = _ by omega) (show p = _ by omega) (by omega) htrees hwait hopen hlevel hlevel' hcluster hsize
        hbase honward hnth hfree
      rw [tileFmt_decide] at hmem
      exact ⟨t, (exec_ctree i c f s).trans hexec, honly, hbuf, hbank, hobjects, hrun, hmem⟩
    · have hp : p / 8 = b + 1 := hown
      have hw : w.cluster / 8 + 1 = p / 8 := hunit
      obtain ⟨t, hexec, honly, hbuf, hbank, hobjects, hrun, hmem⟩ := treeJoin_meets (own := p / 8) (unitOf := fun k => k / 8)
        (members := fun js => js) (src := srcDieTree) (m := b) (m' := b + 1) h hg (by simp [hp]) rfl (show w.cluster / 8 = _ by omega) hp
        (by omega) htrees hwait hopen hlevel hlevel' hcluster hsize hbase honward hnth hfree
      rw [tileFmt_decide] at hmem
      exact ⟨t, (exec_dtree i c f s).trans hexec, honly, hbuf, hbank, hobjects, hrun, hmem⟩
  · intro i c f r s h p pr n k rows w fmt src dst hk hread hwrite
    have hexec := exec_topk_of_runsOn h hk hread hwrite
    have hkept := kept_topkDone p pr.pc dst (topkIssueAc s p pr) r.step c f (topkVecs s f src) s
    refine ⟨_, hexec, advanced_of_kept hkept h.1.1.2.1, onlyStep_advance hkept, (objects_of_kept hkept :), stores_of_kept hkept .bank,
      stores_of_kept hkept .buf, stores_of_kept hkept .side, (topkDone_mem _ _ _ _ _ _ _ _ _).trans ?_⟩
    simp only [topkVecs, List.zipIdx_map, List.foldl_map]
    rfl

end Sys2Proof.Machine
end

section
/-! SUPPORT. O36 does not hold: a FILL of 0 bytes whose offset lies within a record moves nothing, so that record keeps its tag, but the
statement's range of records, from the one of its first byte to the one of its last rounded up, names it. -/

namespace Sys2Proof.Machine

/-- The common fields of an instruction that nothing gates. -/
def plainCommon : Common := { sat := false, vg := false, vb := 0, vp := false }

/-- Program p at its first instruction x, ready. -/
def loneProg (x : Insn) : Prog := { Prog.cold with code := [encodeInsn plainCommon x], ended := false }

/-- A running step of program 0 alone, at x. -/
def loneRun (x : Insn) : Run :=
  { step := 0
    ply := { plyId := 0, kind := .aux, epoch := 0, totalAc := 0, energyEst := 0, energyMax := 0, batchClass := 0, contextClass := 0, variant := 0,
             resourceMap := 0, diffMode := 0, peakPower := 0, waits := [], binds := [], progs := [] }
    book := .learn, cls := .learn, variant := 0, slot := 0, version := 0, inputId := 0, ticket := none, batch := [], progs := [(0, loneProg x)]
    signals := [], drains := [], trees := [], nodes := [], matched := [], wpHolds := [], writes := [], undo := [], bankUse := [], nowAc := 0
    abortAc := none, recorded := none, stopped := false, launchTick := 0, freq := 0, freqChanged := false, freqCancelled := false, govHold := 0
    energy := 0, extDst := [], flagged := [] }

/-- The state after reset with that step running. -/
def loneState (x : Insn) : State := { State.reset with dealer := { State.reset.dealer with run := some (loneRun x) } }

/-- Program 0 issues without an error. -/
def issue0 : Issue := { prog := 0, ecc := .clean }

/-- Program 0 is about to issue any instruction that it decodes from that instruction's word. -/
theorem runsOn_loneRun {x : Insn} {s : State} (hrun : s.dealer.run = some (loneRun x)) (hpend : s.tiers.sramPend = [])
    (hdecode : decodeFor 0 (encodeInsn plainCommon x) = some (plainCommon, x)) : RunsOn s (loneRun x) issue0 plainCommon x :=
  ⟨⟨⟨by decide, hrun, rfl, _, rfl, hdecode⟩, rfl, rfl⟩, rfl, hpend⟩

/-- A FILL of 0 bytes, with tag 1, from byte 1 of the side memory. -/
def emptyFill : MoveF := { sreg := 0, dreg := 0, half := 0, bank := 0, port := 0, bytes := 0, mask := 0, fmt := 0, tagWp := 1, wide := 1 }

theorem emptyFill_decodes : decodeFor 0 (encodeInsn plainCommon (.move 6 emptyFill)) = some (plainCommon, .move 6 emptyFill) := by
  decide +kernel

/-- The FILL leaves the tag of record 0 at 0. -/
theorem emptyFill_keeps_tag :
    (match exec (.fill issue0 plainCommon emptyFill) (loneState (.move 6 emptyFill)) with
      | .next t => decide (Tab.get emptyByte t.units.sideTag 0 = 0)
      | _ => false) = true := by decide +kernel

/-- Refutes O36: after a FILL of 0 bytes with tag 1 from byte 1 the tag of record 0 is still 0. -/
theorem not_sramLoads : ¬ Obligations.SramLoads := by
  unfold Obligations.SramLoads
  intro h
  obtain ⟨_, _, hstores⟩ := h
  obtain ⟨_, hfill, _⟩ := hstores issue0 plainCommon emptyFill (loneRun (.move 6 emptyFill)) (loneState (.move 6 emptyFill)) (by decide +kernel)
  obtain ⟨t, hexec, _, _, htags, _⟩ := hfill (runsOn_loneRun rfl rfl emptyFill_decodes) (by decide)
  have htag : Tab.get emptyByte t.units.sideTag 0 = 1 := (htags 0 (by decide) (by decide)).1
  have hkept := emptyFill_keeps_tag
  rw [hexec] at hkept
  exact absurd (htag.symm.trans (of_decide_eq_true hkept)) (by decide)

end Sys2Proof.Machine
end

section
/-! SUPPORT. O39 does not hold of every state: `tabSlice` reads a bank's bytes from a table in ascending index. Where the store is not
canonical, what the first engine of a mask writes can uncover a byte of the second engine's bank, whose tile is then not that of the
state at issue. -/

namespace Sys2Proof.Machine

/-! ### Reading and storing runs of bytes -/

/-- A run above every listed index reads as zeros. -/
theorem tabSlice_of_lt {t : Tab Byte} {k : Nat} (h : ∀ e ∈ t, e.1 < k) (n : Nat) : tabSlice n k t = List.replicate n 0 := by
  induction n generalizing k t with
  | zero => rfl
  | succ n ih =>
    have hdrop : t.dropWhile (fun e => decide (e.1 < k)) = [] := List.dropWhile_eq_nil_iff.2 fun e he => decide_eq_true (h e he)
    rw [tabSlice, hdrop, List.replicate_succ]
    exact congrArg (0 :: ·) (ih nofun)

/-- A run below the first listed index reads as zeros. -/
theorem tabSlice_of_le {n k j : Nat} (h : k + n ≤ j) (v : Byte) (t : Tab Byte) : tabSlice n k ((j, v) :: t) = List.replicate n 0 := by
  induction n generalizing k with
  | zero => rfl
  | succ n ih =>
    have hdrop : ((j, v) :: t).dropWhile (fun e => decide (e.1 < k)) = (j, v) :: t :=
      List.dropWhile_cons_of_neg (by simp only [decide_eq_true_eq]; omega)
    rw [tabSlice, hdrop, List.replicate_succ]
    exact (if_neg (by omega)).trans (congrArg (0 :: ·) (ih (by omega)))

theorem get_tabStore (bs : List Byte) (k a : Nat) (t : Tab Byte) :
    Tab.get emptyByte (tabStore k bs t) a = if k ≤ a then (bs[a - k]?).getD (Tab.get emptyByte t a) else Tab.get emptyByte t a := by
  induction bs generalizing k t with
  | nil => simp [tabStore]
  | cons b bs ih =>
    rw [tabStore, ih, Tab.get_set]
    rcases Nat.lt_trichotomy a k with hlt | rfl | hgt
    · simp [show ¬k ≤ a by omega, show ¬k + 1 ≤ a by omega, show k ≠ a by omega]
    · simp
    · simp [show k ≤ a by omega, show k + 1 ≤ a by omega, show k ≠ a by omega, show a - k = a - (k + 1) + 1 by omega]

/-- Zeros stored above every listed index list nothing. -/
theorem tabStore_zeros {t : Tab Byte} {k : Nat} (h : ∀ e ∈ t, e.1 < k) (n : Nat) : tabStore k (List.replicate n 0) t = t := by
  induction n generalizing k with
  | zero => rfl
  | succ n ih =>
    have hset : Tab.set emptyByte t k 0 = t :=
      (if_pos rfl).trans (List.filter_eq_self.2 fun e he => decide_eq_true (Nat.ne_of_lt (h e he)))
    rw [List.replicate_succ, tabStore, hset]
    exact ih fun e he => Nat.lt_succ_of_lt (h e he)

theorem wordsOf_zeros (n : Nat) : wordsOf n (List.replicate (4 * n) 0) = List.replicate n 0 := by
  induction n with
  | zero => rfl
  | succ n ih =>
    rw [show 4 * (n + 1) = 4 * n + 4 by omega, wordsOf, List.take_replicate, List.drop_replicate, List.replicate_succ]
    rw [show min 4 (4 * n + 4) = 4 by omega, Nat.add_sub_cancel, ih]
    rfl

theorem bytesOfWords_zeros (n : Nat) : bytesOfWords (List.replicate n 0) = List.replicate (n * 4) 0 := by
  rw [bytesOfWords, List.map_replicate, show leBytes 4 (0 : W32).toNat = List.replicate 4 0 from rfl, List.flatten_replicate_replicate]

/-! ### One engine of an MMA -/

theorem deliver_units (st : Store) (start ac : Nat) (bs : List Byte) (s : State) :
    (deliver st start ac bs s).units = s.units.setBytes st (tabStore start bs (s.units.bytes st)) := by
  unfold deliver
  split
  · next hnil => rw [hnil]; cases st <;> rfl
  · rfl

theorem doneAt_units (p ac : Nat) (s : State) : (doneAt p ac s).units = s.units := by
  rw [doneAt, setRun_units]

section
variable (p pc t : Nat) (pr : Prog) (c : Common) (f : MmaF) (s : State) (je : Nat × Nat)

/-- The tile is stored in the engine's bank. -/
theorem mmaOn_bank : (mmaOn p pc t pr c f s je).units.bank =
    tabStore (16384 * bankIdx je.2 f.bank.toNat) (bytesOfWords (mmaResult s f.fmt.toNat f je.2)) s.units.bank := by
  unfold mmaOn
  dsimp only
  rw [setRun_units, doneAt_units, deliver_units]
  rfl

theorem mmaOn_buf : (mmaOn p pc t pr c f s je).units.buf = s.units.buf := by
  unfold mmaOn
  dsimp only
  rw [setRun_units, doneAt_units, deliver_units]
  rfl

end

/-- An MMA whose banks are free, without a fault at issue, goes through the engines of its mask in order. -/
theorem exec_mma_of_runsOn {i : Issue} {c : Common} {f : MmaF} {r : Run} {s : State} (h : RunsOn s r i c (.mma f))
    (hbanks : ((maskEngines s i.prog f.mask).map (fun e => bankIdx e.2 f.bank.toNat)).any (treeHolds s r) = false)
    (hfault : mmaFault s i.prog (prog r i.prog) f = none) :
    ∃ t, exec (.mma i c f) s =
      .next (advance i.prog t 1 ((maskEngines s i.prog f.mask).foldl (mmaOn i.prog (prog r i.prog).pc t (prog r i.prog) c f) s)) := by
  change ∃ t, execMma i c f s = _
  rw [execMma, issue_of_runsOn h]
  obtain ⟨⟨_, _, hecc⟩, _, _⟩ := h
  simp only [hbanks, hfault, hecc, arrayEcc, Bool.false_eq_true, and_false, if_false]
  exact ⟨_, rfl⟩

/-! ### The counterexample -/

/-- An MMA of engines 0 and 1 in FP32, K = 64, onto the loaded bank 0 of each, with no drain. -/
def mmaTwo : MmaF :=
  { fmt := 0, mask := 3, bank := 0, ahalf := 0, bhalf := 0, start := 1, drain := 0, kq := 2, bcol := 0, ahb := 0, bhb := 0, aoff := 0, boff := 0,
    dreg := 0, doff := 0, tileM := 0, tileN := 0 }

/-- Logical engine 0 stands at physical engine 8, so the first bank stored (16) lies above the second (2). The table of the banks' bytes
lists the 0 of byte 262144, the first of bank 16, ahead of byte 3 of bank 2, which is thus hidden from `tabSlice`. -/
def hiddenByte : State :=
  { loneState (.mma mmaTwo) with
    units := { State.reset.units with
      engMap := [(0, 1)], bankHas := [(2, 2), (16, 2)], bufFmt := [(4, 1), (6, 1), (32, 1), (34, 1)], bank := [(262144, 0), (32771, 0x3F)] } }

/-- A line of 64 zeros. -/
def zeroLine : List Exact := List.replicate 64 (.fin 0 (-9))

theorem panelLines_zeros : panelLines 0 64 0 (List.replicate 4096 0) = List.replicate 64 zeroLine := by decide +kernel

/-- The operand buffers are empty, so a tile adds products of zeros to its bank. -/
theorem mmaResult_of_empty_buf {s : State} (hbuf : s.units.buf = []) (e : Nat) :
    mmaResult s 0 mmaTwo e =
      mmaTile 0 (List.replicate 64 zeroLine) (List.replicate 64 zeroLine) (wordsOf 4096 (tabSlice 16384 (16384 * bankIdx e 0) s.units.bank)) := by
  have hpanel (k : Nat) : panelLines 0 64 0 (tabSlice 4096 k s.units.buf) = List.replicate 64 zeroLine := by
    rw [hbuf, tabSlice_of_lt fun _ he => absurd he List.not_mem_nil, panelLines_zeros]
  change mmaTile 0 (panelLines 0 64 0 (tabSlice 4096 _ s.units.buf)) (panelLines 0 64 0 (tabSlice 4096 _ s.units.buf)) _ = _
  rw [hpanel, hpanel]
  rfl

/-- Products of zeros leave a bank of zeros. -/
theorem mmaTile_zeros :
    mmaTile 0 (List.replicate 64 zeroLine) (List.replicate 64 zeroLine) (List.replicate 4096 0) = List.replicate 4096 0 := by
  have hdot : accumulate 0 zeroLine zeroLine = 0 := by decide +kernel
  have hacc (j : Nat) : ((List.replicate 4096 (0 : W32))[j]?).getD 0 = 0 := by
    rw [List.getElem?_replicate]
    split <;> rfl
  have hrow (a : List Exact × Nat) (ha : a ∈ (List.replicate 64 zeroLine).zipIdx) :
      (List.replicate 64 zeroLine).zipIdx.map (fun b => accumulate (((List.replicate 4096 0)[64 * a.2 + b.2]?).getD 0) a.1 b.1) =
        List.replicate 64 0 := by
    refine List.eq_replicate_iff.2 ⟨by rw [List.length_map, List.length_zipIdx, List.length_replicate], fun x hx => ?_⟩
    obtain ⟨b, hb, rfl⟩ := List.mem_map.1 hx
    rw [hacc, List.eq_of_mem_replicate (List.fst_mem_of_mem_zipIdx ha), List.eq_of_mem_replicate (List.fst_mem_of_mem_zipIdx hb), hdot]
  change ((List.replicate 64 zeroLine).zipIdx.map fun a => (List.replicate 64 zeroLine).zipIdx.map fun b =>
    accumulate (((List.replicate 4096 0)[64 * a.2 + b.2]?).getD 0) a.1 b.1).flatten = _
  rw [List.map_congr_left hrow, List.map_const', List.length_zipIdx, List.length_replicate, List.flatten_replicate_replicate]

/-- Products of zeros leave the first word of a bank that holds 0.5 there. -/
theorem mmaTile_half (ws : List W32) :
    ∃ tail, mmaTile 0 (List.replicate 64 zeroLine) (List.replicate 64 zeroLine) (0x3F000000 :: ws) = 0x3F000000 :: tail := by
  have hdot : accumulate 0x3F000000 zeroLine zeroLine = 0x3F000000 := by decide +kernel
  exact ⟨_, congrArg (· :: _) hdot⟩

/-- Once the 0 of byte 262144 is no longer listed, bank 2 begins with the bytes of 0.5. -/
theorem wordsOf_uncovered : ∃ ws, wordsOf 4096 (tabSlice 16384 32768 [(32771, 0x3F)]) = 0x3F000000 :: ws :=
  ⟨_, rfl⟩

theorem hiddenByte_runsOn : RunsOn hiddenByte (loneRun (.mma mmaTwo)) issue0 plainCommon (.mma mmaTwo) :=
  runsOn_loneRun rfl rfl (by decide +kernel)

theorem hiddenByte_engines : maskEngines hiddenByte 0 mmaTwo.mask = [(0, 8), (1, 1)] := by decide +kernel

/-- By the state at issue the tile of engine 1 is zero, byte 3 of its bank being hidden. -/
theorem hiddenByte_result : mmaResult hiddenByte 0 mmaTwo 1 = List.replicate 4096 0 := by
  rw [mmaResult_of_empty_buf rfl]
  change mmaTile 0 _ _ (wordsOf 4096 (tabSlice 16384 32768 [(262144, 0), (32771, 0x3F)])) = _
  rw [tabSlice_of_le (by decide), wordsOf_zeros, mmaTile_zeros]

section
variable (p pc t : Nat) (pr : Prog) (c : Common)

/-- The zero tile of engine 8 takes its bank's listed 0 away. -/
theorem hiddenByte_first : (mmaOn p pc t pr c mmaTwo hiddenByte (0, 8)).units.bank = [(32771, 0x3F)] := by
  have hresult : mmaResult hiddenByte 0 mmaTwo 8 = List.replicate 4096 0 := by
    rw [mmaResult_of_empty_buf rfl]
    change mmaTile 0 _ _ (wordsOf 4096 (tabSlice 16384 262144 [(262144, 0), (32771, 0x3F)])) = _
    have hzeros : tabSlice 16384 262144 [(262144, 0), (32771, (0x3F : Byte))] = List.replicate 16384 0 :=
      congrArg (0 :: ·) (tabSlice_of_lt (by decide) 16383)
    rw [hzeros, wordsOf_zeros, mmaTile_zeros]
  rw [mmaOn_bank]
  change tabStore 262144 (bytesOfWords (mmaResult hiddenByte 0 mmaTwo 8)) [(262144, 0), (32771, 0x3F)] = _
  have hset : Tab.set emptyByte [(262144, 0), (32771, 0x3F)] 262144 0 = [(32771, 0x3F)] := by decide
  rw [hresult, bytesOfWords_zeros, show 4096 * 4 = 16383 + 1 from rfl, List.replicate_succ, tabStore, hset]
  exact tabStore_zeros (by decide) 16383

/-- Then engine 1 reads 0.5 in the first word of its bank, and leaves it there. -/
theorem hiddenByte_second :
    Tab.get emptyByte (mmaOn p pc t pr c mmaTwo (mmaOn p pc t pr c mmaTwo hiddenByte (0, 8)) (1, 1)).units.bank 32771 = 0x3F := by
  obtain ⟨ws, hws⟩ := wordsOf_uncovered
  obtain ⟨tail, htail⟩ := mmaTile_half ws
  have hresult : mmaResult (mmaOn p pc t pr c mmaTwo hiddenByte (0, 8)) 0 mmaTwo 1 = 0x3F000000 :: tail := by
    rw [mmaResult_of_empty_buf (mmaOn_buf p pc t pr c mmaTwo hiddenByte (0, 8)), hiddenByte_first]
    exact (congrArg _ hws).trans htail
  rw [mmaOn_bank, get_tabStore]
  change (if 32768 ≤ 32771 then ((bytesOfWords (mmaResult _ 0 mmaTwo 1))[3]?).getD _ else _) = _
  rw [hresult]
  rfl

end

/-- Refutes O39: in `hiddenByte` the tile of engine 1 is that of the bank as engine 0 left it, not as it stood at issue. -/
theorem not_multiplies : ¬ Obligations.Multiplies := by
  unfold Obligations.Multiplies
  intro h
  have hholds : ((maskEngines hiddenByte 0 mmaTwo.mask).map (fun e => bankIdx e.2 mmaTwo.bank.toNat)).any
      (treeHolds hiddenByte (loneRun (.mma mmaTwo))) = false := by decide +kernel
  have hfault : mmaFault hiddenByte 0 (prog (loneRun (.mma mmaTwo)) 0) mmaTwo = none := by decide +kernel
  obtain ⟨hmma, _⟩ := h
  obtain ⟨t, hexec, htiles, _⟩ :=
    hmma issue0 plainCommon mmaTwo _ hiddenByte hiddenByte_runsOn (Or.inr (by decide +kernel)) hfault (by decide +kernel)
  obtain ⟨_, hbyte⟩ := htiles (1, 1) (by decide +kernel)
  have hzero : Tab.get emptyByte t.units.bank 32771 = 0 := by
    refine (hbyte 3 (by decide)).trans ?_
    change ((bytesOfWords (mmaResult hiddenByte 0 mmaTwo 1))[3]?).getD _ = 0
    rw [hiddenByte_result]
    rfl
  obtain ⟨ac, hnext⟩ := exec_mma_of_runsOn hiddenByte_runsOn hholds hfault
  rw [show issue0.prog = 0 from rfl, hiddenByte_engines] at hnext
  have hhalf : Tab.get emptyByte t.units.bank 32771 = 0x3F := by
    rw [Host.Outcome.next.inj (hexec.symm.trans hnext), advance_units]
    exact hiddenByte_second 0 _ ac _ plainCommon
  exact absurd (hzero.symm.trans hhalf) (by decide)

end Sys2Proof.Machine
end

section
/-! SUPPORT. ROW instructions (R124 to R132): the rows of their vectors go to A(OREG), what they save to the side memory, what they sum to
the gradient buffer, and nothing elsewhere; GRADCLR stores zeros in the gradient buffer alone. -/

namespace Sys2Proof.Machine

/-! ### What storing results leaves alone but for some unit stores -/

/-- As `kept`, without the unit stores named. -/
def keptBut (p : Nat) (sts : List Store) (s : State) : Kept :=
  { kept p s with stores := fun st => if st ∈ sts then [] else s.units.bytes st }

section
variable {p : Nat} {sts : List Store} {s t : State}

theorem keptBut_of_kept (h : kept p t = kept p s) : keptBut p sts t = keptBut p sts s :=
  congrArg (fun k : Kept => { k with stores := fun st => if st ∈ sts then [] else k.stores st }) h

/-- But for what the unit stores hold, everything is as before. -/
theorem kept_of_keptBut (h : keptBut p sts t = keptBut p sts s) : kept p t = kept p { s with units := t.units } :=
  (congrArg (fun k : Kept => { k with stores := t.units.bytes }) h :)

/-- The stores not named hold what they held. -/
theorem store_of_keptBut (h : keptBut p sts t = keptBut p sts s) {st : Store} (hst : st ∉ sts) : t.units.bytes st = s.units.bytes st := by
  simpa [keptBut, hst] using congrFun (congrArg Kept.stores h) st

end

@[simp] theorem deliver_tiers (st : Store) (start ac : Nat) (bs : List Byte) (s : State) : (deliver st start ac bs s).tiers = s.tiers := by
  unfold deliver
  split <;> rfl

theorem bytes_setBytes (u : Units) (st st' : Store) (t : Tab Byte) : (u.setBytes st t).bytes st' = if st' = st then t else u.bytes st' := by
  cases st <;> cases st' <;> rfl

/-- A delivery into a store named, or of nothing, leaves the rest alone. -/
theorem keptBut_deliver (p : Nat) {sts : List Store} {st : Store} {bs : List Byte} (h : st ∈ sts ∨ bs = []) (start ac : Nat) (s : State) :
    keptBut p sts (deliver st start ac bs s) = keptBut p sts s := by
  unfold deliver
  split
  · rfl
  · next hbs =>
    have hst : st ∈ sts := h.resolve_right hbs
    refine (keptBut_of_kept (kept_setRun ?_ ?_ _)).trans ?_
    · exact fun _ => rfl
    · exact fun _ => rfl
    refine congrArg (fun b => { kept p s with stores := b }) (funext fun st' => ?_)
    simp only [bytes_setBytes]
    by_cases heq : st' = st
    · simp [heq, hst]
    · simp [heq]

theorem deliver_grad (start ac : Nat) (bs : List Byte) (s : State) :
    (deliver .grad start ac bs s).units.grad = tabStore start bs s.units.grad := by
  rw [deliver_units]
  rfl

/-! ### One vector -/

/-- The format of the rows that an operation writes, and their bytes (Table 4.5). -/
def rowFmt (op : Nat) (f : RowF) : Fmt := if f.outfmt = 1 ∧ !rowScalar op then .bf16 else .fp32
def rowWidth (op : Nat) (f : RowF) : Nat := if rowScalar op then 4 else (f.nm1.toNat + 1) * ((rowFmt op f).params.bits / 8)

/-- What vector v of a ROW instruction gives in a state, and the row that it stores. -/
def rowOut (p op : Nat) (f : RowF) (xa ga : Nat) (s : State) (v : Nat) : RowOut :=
  let n := f.nm1.toNat + 1
  let params := wordsOf 16384 (tabSlice 65536 (65536 * p) s.units.param)
  let rec_ := sideRecord s p (8 * f.sbase.toNat + v)
  rowVector op f.eps (params.take n) ((params.drop 8192).take n) (rowInput s xa n v (decide (f.infmt = 1)))
    (if rowReads op then rowInput s ga n v (decide (f.infmt = 1)) else []) rec_.1 rec_.2.1

def rowBytes (p op : Nat) (c : Common) (f : RowF) (xa ga : Nat) (s : State) (v : Nat) : List Byte :=
  (encodeRow (rowFmt op f) c.sat ((rowOut p op f xa ga s v).y.map f32)).1

/-- The unit stores that a ROW instruction writes: the gradient buffer where it goes backward or clears it, the side memory where it
saves records. -/
def rowStores (op : Nat) (f : RowF) : List Store :=
  (if rowReads op = true ∨ op = 8 then [.grad] else []) ++ (if rowSaves op f then [.side, .tag] else [])

theorem mem_rowStores {op : Nat} {f : RowF} (st : Store) : st ∈ rowStores op f ↔
    (rowReads op = true ∨ op = 8) ∧ st = .grad ∨ rowSaves op f = true ∧ (st = .side ∨ st = .tag) := by
  simp [rowStores, List.mem_ite_nil_right]

/-- A forward operation adds nothing to dγ and dβ. -/
theorem rowVector_sums_nil {op : Nat} (h : rowReads op = false) (eps : W32) (gam bet x g : List W32) (a b : W32) :
    (rowVector op eps gam bet x g a b).dgam = [] ∧ (rowVector op eps gam bet x g a b).dbet = [] := by
  unfold rowVector
  split
  case h_6 | h_7 => cases h
  all_goals exact ⟨rfl, rfl⟩

/-- A vector gives one value, or as many as it has. -/
theorem rowVector_y_length (op : Nat) (eps : W32) (gam bet x g : List W32) (a b : W32) :
    (rowVector op eps gam bet x g a b).y.length ≤ if rowScalar op then 1 else x.length := by
  unfold rowVector
  split
  case h_9 => exact Nat.zero_le _
  all_goals simp [rowScalar]

@[simp] theorem rowInput_length (s : State) (a n v : Nat) (bf16 : Bool) : (rowInput s a n v bf16).length = n := by simp [rowInput]

theorem encodeRow_length {f : Fmt} (h : f.isPb = false) (sat : Bool) (xs : List Exact) :
    (encodeRow f sat xs).1.length = xs.length * (f.params.bits / 8) := by
  simp [encodeRow, h, List.length_flatten, Function.comp_def]

theorem rowFmt_isPb (op : Nat) (f : RowF) : (rowFmt op f).isPb = false := by
  unfold rowFmt
  split <;> rfl

theorem rowBytes_length_le (p op : Nat) (c : Common) (f : RowF) (xa ga : Nat) (s : State) (v : Nat) :
    (rowBytes p op c f xa ga s v).length ≤ rowWidth op f := by
  have hy : (rowOut p op f xa ga s v).y.length ≤ if rowScalar op then 1 else f.nm1.toNat + 1 := by
    rw [← rowInput_length s xa (f.nm1.toNat + 1) v (decide (f.infmt = 1))]
    exact rowVector_y_length op f.eps _ _ _ _ _ _
  rw [rowBytes, encodeRow_length (rowFmt_isPb op f), List.length_map, rowWidth]
  cases hs : rowScalar op with
  | true => simpa [rowFmt, hs, Fmt.params] using hy
  | false => exact Nat.mul_le_mul_right _ (by simpa [hs] using hy)

section
variable (p op : Nat) (c : Common) (f : RowF) (xa ga oa t : Nat) (st : State × List (List (Option Nat))) (v : Nat)

/-- A vector's row is stored at its place from A(OREG) on. -/
theorem rowStep_mem : (rowStep p op c f xa ga oa t st v).1.tiers.mem =
    writeBytes st.1.tiers.mem (wrap48 (oa + v * rowWidth op f)) (rowBytes p op c f xa ga st.1 v) := by
  unfold rowStep
  dsimp only
  rw [deliver_tiers, deliver_tiers]
  split
  · rw [deliver_tiers, deliver_tiers]
    rfl
  · rfl

theorem keptBut_rowStep : keptBut p (rowStores op f) (rowStep p op c f xa ga oa t st v).1 = keptBut p (rowStores op f) st.1 := by
  have hsums (o : Nat) {vs : List W32} (hvs : rowReads op = false → vs = []) :
      Store.grad ∈ rowStores op f ∨ bytesOfWords (writeWords c.sat (gradSums st.1 p o vs)).1 = [] := by
    cases hr : rowReads op with
    | true => exact .inl (by simp [mem_rowStores, hr])
    | false => exact .inr (by rw [hvs hr]; rfl)
  unfold rowStep
  dsimp only
  rw [keptBut_deliver p (hsums 32768 fun hr => (rowVector_sums_nil hr _ _ _ _ _ _ _).2),
    keptBut_deliver p (hsums 0 fun hr => (rowVector_sums_nil hr _ _ _ _ _ _ _).1)]
  split
  · next hs =>
    rw [keptBut_deliver p (.inl (by simp [mem_rowStores, hs])), keptBut_deliver p (.inl (by simp [mem_rowStores, hs]))]
    exact keptBut_of_kept (kept_sramStore p _ _ _ _ _ st.1)
  · exact keptBut_of_kept (kept_sramStore p _ _ _ _ _ st.1)

end

/-! ### The instruction -/

/-- The command of a ROW instruction carries it out. -/
theorem exec_of_insnRow_row {i : Issue} {c : Common} {op : BitVec 4} {f : RowF} {row : Instr} (h : insnRow i c (.row op f) = some row)
    (s : State) : exec row s = rowOp i c op f s := by
  obtain ⟨⟨n, hn⟩⟩ := op
  interval_cases n <;> cases h <;> rfl

/-- The ac in which a ROW instruction issues: once the engine is free and its records are filled (R129, R135); and the ac in which its last
row leaves. -/
def rowIssueAc (s : State) (p : Nat) (pr : Prog) (op : Nat) (f : RowF) : Nat :=
  let base := 8 * f.sbase.toNat
  max (max pr.ready (natAt s.units.rowFree p)) (if rowReads op then recordsFree s.units.fillUse p base (base + (f.vm1.toNat + 1)) else 0)
def rowLeaveAc (op : Nat) (f : RowF) (t : Nat) : Nat :=
  t + 32 + rowPasses op * (f.vm1.toNat + 1) * ((f.nm1.toNat + 1 + 63) / 64)

/-- The engine and the records it uses busy until then. -/
def rowBusy (p op : Nat) (f : RowF) (t : Nat) (s : State) : State :=
  let base := 8 * f.sbase.toNat
  let per := rowPasses op * ((f.nm1.toNat + 1 + 63) / 64)
  { s with units := { s.units with
    rowFree := natSet s.units.rowFree p (rowLeaveAc op f t),
    rowUse := if rowReads op || rowSaves op f then s.units.rowUse ++
        [{ cluster := p, lo := base, hi := base + (f.vm1.toNat + 1), ac := t + 32 + per, step := per }] else s.units.rowUse } }

/-- The rows of all its vectors stored, their flags reported. -/
def rowRows (p pc op : Nat) (c : Common) (f : RowF) (xa ga oa t : Nat) (s : State) : State :=
  let x := (List.range (f.vm1.toNat + 1)).foldl (rowStep p op c f xa ga oa t) (s, [])
  flagRows p srcRow pc 0 0 (rowLeaveAc op f t + 20) x.2 x.1

/-- GRADCLR's zeros in the cluster's gradient buffer (R128). -/
def gradCleared (p ac : Nat) (s : State) : State := deliver .grad (65536 * p) ac (List.replicate 65536 0) s

/-- What a ROW instruction of program p leaves before the program goes on. -/
def rowDone (p pc op : Nat) (c : Common) (f : RowF) (xa ga oa t : Nat) (s : State) : State :=
  doneAt p (if op = 8 then rowLeaveAc op f t else rowLeaveAc op f t + 20) (rowBusy p op f t
    (if op = 8 then gradCleared p (rowLeaveAc op f t) s else rowRows p pc op c f xa ga oa t s))

section
variable {i : Issue} {c : Common} {op : BitVec 4} {f : RowF} {r : Run} {s : State}

theorem arrayEcc_of_runsOn {x : Insn} (h : RunsOn s r i c x) : arrayEcc i s = s := by
  obtain ⟨⟨_, _, hecc⟩, _⟩ := h
  simp only [arrayEcc, hecc]

theorem rowOp_of_runsOn (h : RunsOn s r i c (.row op f)) :
    let p := i.prog
    let pr := prog r p
    let xa := wrap48 (areg pr f.xreg.toNat)
    let ga := wrap48 (areg pr (f.xreg.toNat + 1))
    let oa := wrap48 (areg pr f.oreg.toNat)
    rowFault s i r op.toNat f xa ga oa = none →
    rowOp i c op f s = .next (advance p (rowIssueAc s p pr op.toNat f) 1
      (rowDone p pr.pc op.toNat c f xa ga oa (rowIssueAc s p pr op.toNat f) s)) := by
  intro p pr xa ga oa hfault
  refine (issue_of_runsOn h _).trans ?_
  simp only [hfault, sramEcc_of_runsOn h, arrayEcc_of_runsOn h, ite_self, p, pr, xa, ga, oa]
  rfl

end

section
variable (p pc op : Nat) (c : Common) (f : RowF) (xa ga oa t : Nat) (s : State)

@[simp] theorem rowBusy_tiers : (rowBusy p op f t s).tiers = s.tiers := rfl
@[simp] theorem rowBusy_grad : (rowBusy p op f t s).units.grad = s.units.grad := rfl

theorem kept_rowBusy : kept p (rowBusy p op f t s) = kept p s :=
  congrArg (fun b => { kept p s with stores := b }) (funext fun st => by cases st <;> rfl)

theorem keptBut_rowRows : keptBut p (rowStores op f) (rowRows p pc op c f xa ga oa t s) = keptBut p (rowStores op f) s :=
  (keptBut_of_kept (kept_flagRows p _ _ _ _ _ _ _ _)).trans
    (foldl_keeps (fun x => keptBut p (rowStores op f) x.1) (fun st v => keptBut_rowStep p op c f xa ga oa t st v) _ (s, []))

theorem keptBut_rowDone : keptBut p (rowStores op f) (rowDone p pc op c f xa ga oa t s) = keptBut p (rowStores op f) s := by
  refine (keptBut_of_kept ((kept_doneAt p _ _).trans (kept_rowBusy p op f t _))).trans ?_
  split
  · next hop => exact keptBut_deliver p (.inl (by simp [mem_rowStores, hop])) _ _ s
  · exact keptBut_rowRows p pc op c f xa ga oa t s

end

section
variable {p pc op : Nat} {c : Common} {f : RowF} {xa ga oa t : Nat} {s : State}

/-- The memory after a ROW instruction that is not GRADCLR: its vectors' rows stored in order. -/
theorem rowDone_mem (hop : op ≠ 8) : (rowDone p pc op c f xa ga oa t s).tiers.mem =
    ((List.range (f.vm1.toNat + 1)).foldl (rowStep p op c f xa ga oa t) (s, [])).1.tiers.mem := by
  rw [rowDone, doneAt_tiers, rowBusy_tiers, if_neg hop, rowRows, flagRows_tiers]

/-- With one vector memory takes its row at A(OREG). -/
theorem rowDone_mem_one (hop : op ≠ 8) (hone : f.vm1 = 0) (hoa : wrap48 oa = oa) :
    (rowDone p pc op c f xa ga oa t s).tiers.mem = writeBytes s.tiers.mem oa (rowBytes p op c f xa ga s 0) := by
  rw [rowDone_mem hop, hone]
  change (rowStep p op c f xa ga oa t (s, []) 0).1.tiers.mem = _
  rw [rowStep_mem, Nat.zero_mul, Nat.add_zero, hoa]

/-- The rows of all vectors lie within those of A(OREG), where none of them wraps; nothing else is stored. -/
theorem rowDone_memory_but (hop : op ≠ 8) (hwrap : oa + (f.vm1.toNat + 1) * rowWidth op f ≤ 2 ^ 48) :
    SameMemoryBut oa ((f.vm1.toNat + 1) * rowWidth op f) s (rowDone p pc op c f xa ga oa t s) := by
  intro x hx
  rw [rowDone_mem hop]
  refine List.foldlRecOn (motive := fun st : State × List (List (Option Nat)) => readByte st.1.tiers.mem x = readByte s.tiers.mem x)
    _ _ rfl fun st hst v hv => ?_
  rw [rowStep_mem, readByte_writeBytes_other, hst]
  intro j hj
  have hlast : (v + 1) * rowWidth op f ≤ (f.vm1.toNat + 1) * rowWidth op f := Nat.mul_le_mul_right _ (List.mem_range.1 hv)
  have hlen : j < rowWidth op f := hj.trans_le (rowBytes_length_le p op c f xa ga st.1 v)
  rw [Nat.succ_mul] at hlast
  rw [wrap48, Nat.mod_eq_of_lt (by omega), Nat.add_assoc]
  exact (hx _ (by omega)).symm

/-- GRADCLR stores nothing in memory. -/
theorem rowDone_tiers_clear (hop : op = 8) : (rowDone p pc op c f xa ga oa t s).tiers = s.tiers := by
  rw [rowDone, doneAt_tiers, rowBusy_tiers, if_pos hop, gradCleared, deliver_tiers]

/-- After GRADCLR the gradient buffer of its cluster holds zeros, every other what it held. -/
theorem rowDone_grad_clear (hop : op = 8) (a : Nat) : Tab.get emptyByte (rowDone p pc op c f xa ga oa t s).units.grad a =
    if a / 65536 = p then 0 else Tab.get emptyByte s.units.grad a := by
  have hgrad : (rowDone p pc op c f xa ga oa t s).units.grad = tabStore (65536 * p) (List.replicate 65536 0) s.units.grad := by
    rw [rowDone, doneAt_units, rowBusy_grad, if_pos hop, gradCleared, deliver_grad]
  rw [hgrad, get_tabStore, List.getElem?_replicate]
  by_cases ha : a / 65536 = p
  · rw [if_pos ha, if_pos (by omega), if_pos (by omega)]
    rfl
  · rw [if_neg ha]
    split
    · rw [if_neg (by omega)]
      rfl
    · rfl

end

/-- A ROW instruction without a fault writes rows that lie in bonded SRAM (R140). -/
theorem canWrite_of_rowFault_none {s : State} {i : Issue} {r : Run} {op : Nat} {f : RowF} {xa ga oa : Nat}
    (h : rowFault s i r op f xa ga oa = none) (hop : op ≠ 8) :
    canWrite s (dieOf i.prog) oa ((f.vm1.toNat + 1) * rowWidth op f) = true := by
  have hwidth : rowWidth op f = if rowScalar op then 4 else (f.nm1.toNat + 1) * (if f.outfmt = 1 then 2 else 4) := by
    unfold rowWidth rowFmt
    cases rowScalar op with
    | true => rfl
    | false => by_cases hf : f.outfmt = 1 <;> simp only [hf, Bool.not_false, and_true, if_true, if_false] <;> rfl
  by_contra hno
  rw [hwidth] at hno
  unfold rowFault at h
  dsimp only at h
  rw [if_neg hop] at h
  split at h
  · cases h
  split at h
  · cases h
  rw [if_pos (.inr (.inr hno))] at h
  cases h

theorem add_le_of_canWrite {s : State} {die a n : Nat} (hdie : die < 4) (h : canWrite s die a n = true) : a + n ≤ 2 ^ 48 := by
  simp only [canWrite, inSram, Bool.and_eq_true, decide_eq_true_eq] at h
  omega

theorem dieOf_lt {p : Nat} (h : p < 36) : dieOf p < 4 := by
  unfold dieOf
  split <;> omega

/-- Settles O40: what any ROW instruction leaves alone by `keptBut_rowDone`, its rows in memory and GRADCLR's zeros by `rowDone`'s lemmas. -/
theorem rowOperations : Obligations.RowOperations := by
  unfold Obligations.RowOperations
  intro i c op f row r s hrow h p pr n xa ga oa fo width params rec_ x g v hfault
  have hexec := (exec_of_insnRow_row hrow s).trans (rowOp_of_runsOn h hfault)
  obtain ⟨⟨⟨hp, hr, _⟩, _⟩, _⟩ := h
  have hbut := keptBut_rowDone p pr.pc op.toNat c f xa ga oa (rowIssueAc s p pr op.toNat f) s
  have hkept := kept_of_keptBut hbut
  have hstore (st : Store) (hst : st ∉ rowStores op.toNat f) := store_of_keptBut hbut hst
  have hop : op.toNat = 8 ↔ op = 8 := (BitVec.toNat_inj (y := 8) :)
  refine ⟨_, hexec, advanced_of_kept hkept hr, (onlyStep_advance hkept :), hstore .buf ?_, hstore .bank ?_, hstore .param ?_,
    (objects_of_kept hkept :), (counters_of_kept hkept :), fun hne hone => ?_, fun hne => ?_, fun heq => ⟨?_, hstore .side ?_, fun j hj => ?_,
    fun a ha => ?_⟩, fun hreads hne => hstore .grad ?_, fun hsaves => ⟨hstore .side ?_, hstore .tag ?_⟩⟩
  · simp [mem_rowStores]
  · simp [mem_rowStores]
  · simp [mem_rowStores]
  · exact rowDone_mem_one (mt hop.1 hne) hone (Nat.mod_mod _ _)
  · have hwrite := canWrite_of_rowFault_none hfault (mt hop.1 hne)
    exact rowDone_memory_but (mt hop.1 hne) (add_le_of_canWrite (dieOf_lt hp) hwrite)
  · exact rowDone_tiers_clear (hop.2 heq)
  · simp [mem_rowStores, hop.2 heq, rowSaves]
  · exact (rowDone_grad_clear (hop.2 heq) _).trans (if_pos (by omega))
  · exact (rowDone_grad_clear (hop.2 heq) _).trans (if_neg ha)
  · simp [mem_rowStores, hreads, mt hop.1 hne]
  · simp [mem_rowStores, hsaves]
  · simp [mem_rowStores, hsaves]

end Sys2Proof.Machine
end

section
/-! SUPPORT. O45 does not hold of every state: LINE_TAG has 7 bits (R215, Table 7.6) and PLACE refuses an entry with a wider one
(`placeFormatOk`), but `Obj.lineTag` is a byte. In a state that holds an entry with bit 7 of its LINE_TAG set, the spare byte of a line
written with that tag has bit 7 set, which a read takes for POISON. -/

namespace Sys2Proof.Machine

/-- A valid object of one line, the first of port 0, with bit 7 of its LINE_TAG set. -/
def wideTagObj : Obj := { Obj.none with address := 0x10000000000, size := 256, tier := 1, valid := true, lineTag := 0x80 }

/-- The state after reset with that object placed, its line written with the object's tag and without POISON. -/
def wideTag : State :=
  setTiers (fun t => { t with objects := [(0, wideTagObj)], lineTag := [(lineKey 0 0, wideTagObj.lineTag)] }) State.reset

theorem wideTag_storedFault : storedFault wideTag (lineKey 0 0) = none := by decide +kernel

/-- The line as its port stores it reads as POISONED. -/
theorem wideTag_checkLine : checkLine wideTag (lineKey 0 0) (storedLine wideTag (lineKey 0 0)) = .bad 3 := by decide +kernel

/-- Refutes O45: in `wideTag` neither POISON nor a foreign tag stands in line 0 of port 0, and it reads back uncorrectable. -/
theorem not_portActivity : ¬ Obligations.PortActivity := by
  unfold Obligations.PortActivity
  rintro ⟨_, hclean⟩
  have hread := hclean (lineKey 0 0) wideTag wideTag_storedFault
  exact absurd (hread.symm.trans wideTag_checkLine) (by decide)

end Sys2Proof.Machine
end

section
/-! SUPPORT. PLACE and FLASH_OBJ: one entry of the placement table, one flash object more or less (R220, R221, R226); and when the record of a
command follows what its body has done (R397). -/

namespace Sys2Proof.Machine

/-! ### Records -/

/-- An accepted command's queue is not in error and has a ring. -/
theorem ring_of_accepts {s : State} {q : Nat} {h : Hdr} {wide : Bool} (ha : accepts s q h wide = true) :
    (queue s q).error = false ∧ (queue s q).cqSize ≠ 0 := by
  obtain ⟨-, htake, -⟩ := accepts_spec ha
  have hopen := canTake_open htake
  simp only [queueOpen, Bool.and_eq_true, Bool.not_eq_true'] at hopen
  exact ⟨by tauto, canTake_cqSize htake⟩

/-- A completion is reported from any state that has sent as much. -/
theorem complete_reported_of_out {k : Ticket} {st : Byte} {r : W64} {nf : Bool} {s u : State} (hout : u.out = s.out)
    (herr : (queue u k.q).error = false) (hring : (queue u k.q).cqSize ≠ 0) : Reported k st r s (complete k st r nf u) := by
  simpa only [Reported, hout] using complete_reported k st r nf u herr hring

/-- As `complete_reported_of_out`, where the body of an accepted command has left the queues as the taking did. -/
theorem accepted_reported {s u : State} {q : Nat} {h : Hdr} {wide nf : Bool} {st : Byte} {r : W64} (ha : accepts s q h wide = true)
    (hout : u.out = s.out) (hqueues : u.host.queues = (taken q s).host.queues) :
    Reported (nextTicket s q h) st r s (complete (nextTicket s q h) st r nf u) := by
  obtain ⟨herr, hring⟩ := ring_of_accepts ha
  apply complete_reported_of_out hout
  · rw [queue_congr _ hqueues, taken_error]; exact herr
  · rw [queue_congr _ hqueues, taken_cqSize]; exact hring

/-- As `accepted_reported`, for a plain result. -/
theorem accepted_finished {s u : State} {q : Nat} {h : Hdr} {wide : Bool} {st : Byte} (ha : accepts s q h wide = true)
    (hout : u.out = s.out) (hqueues : u.host.queues = (taken q s).host.queues) :
    Reported (nextTicket s q h) st 0 s (finish (nextTicket s q h) st u) := accepted_reported ha hout hqueues

@[simp] theorem obj_finish (k : Ticket) (st : Byte) (s : State) (o : Nat) : obj (finish k st s) o = obj s o := obj_congr o (by simp)
@[simp] theorem obj_taken (q : Nat) (s : State) (o : Nat) : obj (taken q s) o = obj s o := obj_congr o (by simp)

theorem sameMemory_of_mem {s t : State} (h : t.tiers.mem = s.tiers.mem) : SameMemory s t := fun a => by rw [h]

/-! ### PLACE -/

/-- A placed entry: written, and the dealers woken where its POISON changed. -/
def placed (b : PlaceBody) (s : State) : State :=
  let s1 := setObj b.objectId.toNat (fun o => placeEntry o b) s
  if (obj s b.objectId.toNat).poison.code ≠ placePoison b then wake s1 else s1

theorem placeBodyRun_of_ok {b : PlaceBody} {s : State} (hok : placeFault s b = none) (k : Ticket) :
    placeBodyRun b k s = finish k Status.ok (placed b s) := by
  simp only [placeBodyRun, hok, placed]

/-- A PLACE changes the placement table, and beside it at most wakes the dealers. -/
@[simp] theorem placed_frame (b : PlaceBody) (s : State) :
    (placed b s).tiers = (setObj b.objectId.toNat (fun o => placeEntry o b) s).tiers ∧ (placed b s).out = s.out ∧
    (placed b s).host = s.host ∧ (placed b s).units = s.units ∧ (placed b s).unlia = s.unlia ∧ (placed b s).conceal = s.conceal ∧
    (placed b s).counters = s.counters := by
  simp only [placed, wake]
  split <;> simp

@[simp] theorem obj_placed (b : PlaceBody) (s : State) (o : Nat) :
    obj (placed b s) o = if b.objectId.toNat = o then placeEntry (obj s o) b else obj s o := by
  rw [obj_congr o (congrArg Tiers.objects (placed_frame b s).1), obj_setObj]

/-- PLACE writes the whole entry and no other (R221). -/
theorem place_completes {q : Nat} {h : Hdr} {b : PlaceBody} {s : State} (ha : accepts s q h true = true)
    (hok : placeFault (taken q s) b = none) : Completes (.place q h b) s (fun t =>
      Reported (nextTicket s q h) Status.ok 0 s t ∧ obj t b.objectId.toNat = placeEntry (obj s b.objectId.toNat) b ∧
      (∀ o, o ≠ b.objectId.toNat → obj t o = obj s o) ∧ SameMemory s t ∧ t.tiers.flash = s.tiers.flash ∧ t.units = s.units ∧
      t.unlia = s.unlia ∧ t.conceal = s.conceal ∧ t.counters = s.counters) := by
  refine ⟨_, by rw [exec_place_accepts q h b s ha, placeBodyRun_of_ok hok], accepted_finished ha (by simp) (by simp), ?_, ?_, ?_, ?_⟩
  · simp
  · intro o ho
    simp [Ne.symm ho]
  · exact sameMemory_of_mem (by simp)
  · simp

/-! ### FLASH_OBJ -/

theorem flashReady_congr {s t : State} (h : t.tiers.layers = s.tiers.layers) : flashReady t = flashReady s := by
  simp only [flashReady, layer_congr _ h]
theorem flashWorn_congr {s t : State} (h : t.tiers.layers = s.tiers.layers) : flashWorn t = flashWorn s := by
  simp only [flashWorn, layer_congr _ h]

theorem whenFlash_of_ready {s : State} (h : flashReady s = true) (t : Ticket) (i : Instr) (k : State → State) : whenFlash t i k s = k s := by
  simp only [whenFlash, h, if_true]

/-- A state with one flash object more, under the handle that the next free value chooses (log entry 49). -/
def withFlash (n : W32) (size : W64) (s : State) : State :=
  { s with tiers := { s.tiers with flash := s.tiers.flash ++ [{ handle := n, size := size, data := [] }] }, free := s.free + 1 }

/-- A state without the flash object of a handle. -/
def withoutFlash (x : W32) (s : State) : State :=
  { s with tiers := { s.tiers with flash := s.tiers.flash.filter (fun f => decide (f.handle ≠ x)) } }

/-- A size that R226 allows is given to a new object while no layer is WORN (R231). -/
theorem flashCreate_of_ok {size : W64} {s : State} (hworn : flashWorn s = false) (hpos : size ≠ 0) (hunit : size.toNat % 65536 = 0)
    (hmax : size.toNat ≤ 2 ^ 44) (k : Ticket) :
    ∃ n, flashCreate size k s = complete k Status.ok (n.zeroExtend 64) false (withFlash n size s) := by
  have hsize : ¬(size = 0 ∨ size.toNat % 65536 ≠ 0 ∨ 2 ^ 44 < size.toNat) := by
    rintro (h | h | h)
    · exact hpos h
    · exact h hunit
    · omega
  refine ⟨freshHandle s.tiers.flash s.tiers.flash.length (Config.freeNat s.free), ?_⟩
  simp only [flashCreate, hsize, if_false, hworn, Bool.false_eq_true]
  rfl

theorem flashDelete_of_ok {x : W32} {s : State} (hfound : (flashOf s x).isSome = true) (hfree : handleInUse s x = false) (k : Ticket) :
    flashDelete x k s = finish k Status.ok (withoutFlash x s) := by
  have hsome : (flashOf s x).isNone = false := by rw [← Option.not_isSome, hfound]; rfl
  simp only [flashDelete, hsome, hfree, Bool.false_eq_true, if_false]
  rfl

/-- FLASH_OBJ CREATE (R226, R403). -/
theorem flashObjCreate_completes {q : Nat} {h : Hdr} {size : W64} {s : State} (ha : accepts s q h true = true) (hready : flashReady s = true)
    (hworn : flashWorn s = false) (hpos : size ≠ 0) (hunit : size.toNat % 65536 = 0) (hmax : size.toNat ≤ 2 ^ 44) :
    Completes (.flashObjCreate q h size) s (fun t => ∃ n : W32,
      t.tiers.flash = s.tiers.flash ++ [{ handle := n, size := size, data := [] }] ∧
      Reported (nextTicket s q h) Status.ok (n.zeroExtend 64) s t ∧ SameMemory s t ∧ t.tiers.objects = s.tiers.objects ∧
      t.dealer = s.dealer ∧ t.units = s.units ∧ t.unlia = s.unlia ∧ t.conceal = s.conceal) := by
  have hlayers : (taken q s).tiers.layers = s.tiers.layers := by simp
  obtain ⟨n, hn⟩ := flashCreate_of_ok (s := taken q s) ((flashWorn_congr hlayers).trans hworn) hpos hunit hmax (nextTicket s q h)
  refine ⟨_, ?_, n, ?_, accepted_reported (u := withFlash n size (taken q s)) (nf := false) ha ?_ rfl, ?_, ?_⟩
  · rw [exec_flashObjCreate_accepts q h size s ha, flashObjCreateBody, whenFlash_of_ready ((flashReady_congr hlayers).trans hready), hn]
  · simp [withFlash]
  · simp [withFlash]
  · exact sameMemory_of_mem (by simp [withFlash])
  · simp [withFlash]

/-- FLASH_OBJ DELETE (R226, R403). -/
theorem flashObjDelete_completes {q : Nat} {h : Hdr} {x : W32} {s : State} (ha : accepts s q h true = true) (hready : flashReady s = true)
    (hfound : (flashOf s x).isSome = true) (hfree : handleInUse (taken q s) x = false) :
    Completes (.flashObjDelete q h x) s (fun t =>
      t.tiers.flash = s.tiers.flash.filter (fun f => decide (f.handle ≠ x)) ∧ Reported (nextTicket s q h) Status.ok 0 s t ∧
      SameMemory s t ∧ t.tiers.objects = s.tiers.objects ∧ t.dealer = s.dealer ∧ t.units = s.units ∧ t.unlia = s.unlia ∧
      t.conceal = s.conceal) := by
  have htaken : (taken q s).tiers = s.tiers := by simp
  have hready' : flashReady (taken q s) = true := (flashReady_congr (congrArg Tiers.layers htaken)).trans hready
  have hfound' : (flashOf (taken q s) x).isSome = true := by rw [flashOf, htaken]; exact hfound
  refine ⟨_, ?_, ?_, accepted_finished (u := withoutFlash x (taken q s)) ha ?_ rfl, ?_, ?_⟩
  · rw [exec_flashObjDelete_accepts q h x s ha, flashObjDeleteBody, whenFlash_of_ready hready', flashDelete_of_ok hfound' hfree]
  · simp [withoutFlash]
  · simp [withoutFlash]
  · exact sameMemory_of_mem (by simp [withoutFlash])
  · simp [withoutFlash]

/-- Settles O7: an accepted PLACE without a fault, and FLASH_OBJ on ready layers, go straight to their effect. -/
theorem placementAndFlashObjects : Obligations.PlacementAndFlashObjects :=
  ⟨fun _ _ _ _ ha hok => place_completes ha hok,
    fun _ _ _ _ ha hready hworn hpos hunit hmax => flashObjCreate_completes ha hready hworn hpos hunit hmax,
    fun _ _ _ _ ha hready hfound hfree => flashObjDelete_completes ha hready hfound hfree⟩

end Sys2Proof.Machine
end

section
/-! SUPPORT. OBJECT_MOVE, HOST_COPY and PAGE_MOVE: what stands between their taking and their completion, and that the completion stores
the whole range or sends it to the host (R209, R217, R222, R226, R403, R404). -/

namespace Sys2Proof.Machine

/-! ### Outstanding operations -/

/-- An operation whose blocks are open is started. -/
theorem startOp_of_open {o : Op} {s : State} (h : shutFor s o = none) : startOp o s = addOp o s := by simp only [startOp, h]

/-- An accepted command that has started its operation is outstanding under the next id, and nothing else has come of it. -/
theorem addOp_taken (o : Op) (q : Nat) (s : State) :
    opAt (addOp o (taken q s)) s.host.nextOp = some o ∧ Outstanding q s (addOp o (taken q s)) ∧ SameMemory s (addOp o (taken q s)) ∧
    (addOp o (taken q s)).tiers = s.tiers ∧ (addOp o (taken q s)).dealer = s.dealer ∧ (addOp o (taken q s)).units = s.units ∧
    (addOp o (taken q s)).unlia = s.unlia := by
  refine ⟨by simp, ⟨by simp, by simp [taken_queue]⟩, sameMemory_of_mem (by simp), ?_⟩
  simp

theorem moveStart_of_ok {b : MoveBody} {k : Ticket} {s : State} (hok : moveFault s b = none) (hopen : shutFor s (.move k b [] []) = none) :
    moveStart b k s = addOp (.move k b [] []) s := by
  simp only [moveStart, hok, startOp_of_open hopen]

/-- A move runs at once between memories, and from or to flash while every layer is READY (R421). -/
theorem objectMoveBody_of_ready {h : Hdr} {b : MoveBody} {k : Ticket} {s : State} (hready : b.mode = 0 ∨ flashReady s = true) :
    objectMoveBody h b k s = moveStart b k s := by
  by_cases hmode : b.mode = 0
  · simp only [objectMoveBody, hmode, if_true]
  · simp only [objectMoveBody, hmode, if_false, whenFlash_of_ready (hready.resolve_left hmode)]

theorem objectMove_completes {q : Nat} {h : Hdr} {b : MoveBody} {s : State} (ha : accepts s q h true = true)
    (hready : b.mode = 0 ∨ flashReady s = true) (hok : moveFault (taken q s) b = none)
    (hopen : shutFor (taken q s) (.move (nextTicket s q h) b [] []) = none) : Completes (.objectMove q h b) s (fun t =>
      opAt t s.host.nextOp = some (.move (nextTicket s q h) b [] []) ∧ Outstanding q s t ∧ SameMemory s t ∧ t.tiers = s.tiers ∧
      t.dealer = s.dealer ∧ t.units = s.units ∧ t.unlia = s.unlia) := by
  have hready' : b.mode = 0 ∨ flashReady (taken q s) = true := by rwa [flashReady_congr (show _ = s.tiers.layers by simp)]
  exact ⟨_, by rw [exec_objectMove_accepts q h b s ha, objectMoveBody_of_ready hready', moveStart_of_ok hok hopen], addOp_taken _ q s⟩

theorem hostCopy_completes {q : Nat} {h : Hdr} {b : HostCopyBody} {s : State} (ha : accepts s q h (decide (b.dir = 1)) = true)
    (hok : hostCopyFault (taken q s) b = none) (hopen : shutFor (taken q s) (.hostCopy (nextTicket s q h) b) = none) :
    Completes (.hostCopy q h b) s (fun t =>
      opAt t s.host.nextOp = some (.hostCopy (nextTicket s q h) b) ∧ Outstanding q s t ∧ SameMemory s t ∧ t.tiers = s.tiers ∧
      t.dealer = s.dealer ∧ t.units = s.units ∧ t.unlia = s.unlia) :=
  ⟨_, by simp only [exec_hostCopy_accepts q h b s ha, hostCopyBodyRun, hok, startOp_of_open hopen], addOp_taken _ q s⟩

/-- A PAGE_MOVE under way: its entry is moving, and the dealers look at it. -/
def pageMoving (b : PageMoveBody) (k : Ticket) (s : State) : State :=
  wake (addOp (.pageMove k b) (setRequest b.entry.toNat (fun r => { r with moving := true }) s))

theorem request_pageMoving (b : PageMoveBody) (k : Ticket) (s : State) (e : Nat) :
    request (pageMoving b k s) e = if b.entry.toNat = e then { request s e with moving := true } else request s e :=
  request_setRequest b.entry.toNat e (fun r => { r with moving := true }) s

/-- A PAGE_MOVE that is in order marks its entry as moving and is outstanding (R278). -/
theorem pageMoveBody_of_ok {b : PageMoveBody} {k : Ticket} {s : State} (hentry : entryFault s (queue s k.q).owner b.entry b.key = none)
    (hok : pageMoveFault s b = none) (hopen : shutFor s (.pageMove k b) = none) : pageMoveBody b k s = pageMoving b k s := by
  simp only [pageMoveBody, hentry, hok, hopen, Option.isSome_none, Bool.false_eq_true, if_false, pageMoving]

theorem pageMove_completes {q : Nat} {h : Hdr} {b : PageMoveBody} {s : State} (ha : accepts s q h false = true) (hout : inBoundary s = false)
    (hentry : entryFault (taken q s) (queue s q).owner b.entry b.key = none) (hok : pageMoveFault (taken q s) b = none)
    (hopen : shutFor (taken q s) (.pageMove (nextTicket s q h) b) = none) : Completes (.pageMove q h b) s (fun t =>
      opAt t s.host.nextOp = some (.pageMove (nextTicket s q h) b) ∧ Outstanding q s t ∧ SameMemory s t ∧
      request t b.entry.toNat = { request s b.entry.toNat with moving := true } ∧
      (∀ e, e ≠ b.entry.toNat → request t e = request s e) ∧ t.tiers = s.tiers ∧ t.units = s.units ∧ t.unlia = s.unlia) := by
  have hout' : inBoundary (taken q s) = false := by rw [← hout]; simp [inBoundary]
  have hentry' : entryFault (taken q s) (queue (taken q s) (nextTicket s q h).q).owner b.entry b.key = none := by
    rw [taken_owner]; exact hentry
  have hrequest (e : Nat) : request (taken q s) e = request s e := request_congr e (by simp)
  obtain ⟨hop, hstands, hmem, htiers, -, hunits, hunlia⟩ := addOp_taken (.pageMove (nextTicket s q h) b) q s
  refine ⟨pageMoving b (nextTicket s q h) (taken q s), ?_, hop, hstands, hmem, ?_, ?_, htiers, hunits, hunlia⟩
  · simp only [exec_pageMove_accepts q h b s ha, reqOp, hout', Bool.false_eq_true, if_false, applyReqOp, pageMoveBody_of_ok hentry' hok hopen]
  · rw [request_pageMoving, if_pos rfl, hrequest]
  · intro e he
    rw [request_pageMoving, if_neg (Ne.symm he), hrequest]

/-! ### Stores in the background -/

/-- A background access counts its slots (R217). -/
@[simp] theorem bgTouch_frame (a n : Nat) (s : State) :
    (bgTouch a n s).out = s.out ∧ (bgTouch a n s).host = s.host ∧ (bgTouch a n s).dealer = s.dealer ∧ (bgTouch a n s).units = s.units ∧
    (bgTouch a n s).unlia = s.unlia ∧ (bgTouch a n s).conceal = s.conceal ∧ (bgTouch a n s).tiers.mem = s.tiers.mem ∧
    (bgTouch a n s).tiers.objects = s.tiers.objects ∧ (bgTouch a n s).tiers.flash = s.tiers.flash :=
  ⟨rfl, rfl, rfl, rfl, rfl, rfl, rfl, rfl, rfl⟩

/-- As `bgTouch_frame`, for a part of an object. -/
@[simp] theorem bgObj_frame (o : Obj) (off n : Nat) (s : State) :
    (bgObj o off n s).out = s.out ∧ (bgObj o off n s).host = s.host ∧ (bgObj o off n s).dealer = s.dealer ∧
    (bgObj o off n s).units = s.units ∧ (bgObj o off n s).unlia = s.unlia ∧ (bgObj o off n s).conceal = s.conceal ∧
    (bgObj o off n s).tiers.mem = s.tiers.mem ∧ (bgObj o off n s).tiers.objects = s.tiers.objects ∧
    (bgObj o off n s).tiers.flash = s.tiers.flash := by
  unfold bgObj
  split <;> simp

/-- What comes through the fill ports reaches memory and, where a step runs, its list of writes (R209). -/
@[simp] theorem fillWrite_frame (a : Nat) (bs : List Byte) (s : State) :
    (fillWrite a bs s).out = s.out ∧ (fillWrite a bs s).host = s.host ∧ (fillWrite a bs s).units = s.units ∧
    (fillWrite a bs s).unlia = s.unlia ∧ (fillWrite a bs s).conceal = s.conceal ∧
    (fillWrite a bs s).tiers.objects = s.tiers.objects ∧ (fillWrite a bs s).tiers.flash = s.tiers.flash := by
  unfold fillWrite
  split
  · split <;> simp
  · simp

/-- What is stored depends on memory and the running step alone. -/
theorem fillWrite_mem_congr {s t : State} (hdealer : t.dealer = s.dealer) (htiers : t.tiers = s.tiers) (a : Nat) (bs : List Byte) :
    (fillWrite a bs t).tiers.mem = (fillWrite a bs s).tiers.mem := by
  simp only [fillWrite, hdealer, htiers]
  split
  · split <;> rfl
  · rfl

/-- A store writes its bytes as the fill ports do; beside them it marks tags and POISON of its lines, and counts its slots. -/
@[simp] theorem storeBg_frame (a : Nat) (bs : List Byte) (s : State) :
    (storeBg a bs s).out = s.out ∧ (storeBg a bs s).host = s.host ∧ (storeBg a bs s).units = s.units ∧
    (storeBg a bs s).unlia = s.unlia ∧ (storeBg a bs s).conceal = s.conceal ∧
    (storeBg a bs s).tiers.mem = (fillWrite a bs s).tiers.mem ∧ (storeBg a bs s).tiers.objects = s.tiers.objects ∧
    (storeBg a bs s).tiers.flash = s.tiers.flash := by
  have hlines {β : Type} (p : Tiers → β) (hp : ∀ t x y, p { t with lineTag := x, linePoison := y } = p t) :
      p (storeLines a bs s).tiers = p (fillWrite a bs s).tiers := foldl_keeps p (fun t _ => hp t _ _) _ _
  have hmem := hlines Tiers.mem (fun _ _ _ => rfl)
  have hobjects := hlines Tiers.objects (fun _ _ _ => rfl)
  have hflash := hlines Tiers.flash (fun _ _ _ => rfl)
  simp only [storeBg, bgTouch_frame, hmem, hobjects, hflash]
  simp [storeLines]

/-- A store has filled its range, whatever is done to the rest of the state before it and after it. -/
theorem filled_of_storeBg {a : Nat} {bs : List Byte} {s u t : State} (hdealer : u.dealer = s.dealer) (htiers : u.tiers = s.tiers)
    (hmem : t.tiers.mem = (storeBg a bs u).tiers.mem) : Filled a bs s t := by
  have hfill : t.tiers.mem = (fillWrite a bs s).tiers.mem := by
    rw [hmem, (storeBg_frame a bs u).2.2.2.2.2.1, fillWrite_mem_congr hdealer htiers]
  exact ⟨hfill, fun hidle => by rw [hfill, fillWrite_idle a bs s hidle]⟩

/-! ### Appends to flash -/

/-- A state without the registers and the metadata of its translation layers. -/
def State.sansLayers (s : State) : State := { s with tiers := { s.tiers with layers := [], media := [] } }

theorem sansLayers_setMedia (d : Nat) (f : FlashLayer → FlashLayer) (s : State) : (setMedia d f s).sansLayers = s.sansLayers := by
  unfold setMedia
  dsimp only
  split <;> rfl

/-- An append changes the data of the object that the entry names, and beside it the layers' counts. -/
theorem sansLayers_appendFlash (o : Nat) (bs : List Byte) (s : State) :
    (appendFlash o bs s).sansLayers =
      (if (obj s o).inFlash then setFlash (BitVec.ofNat 32 (obj s o).address.toNat) (fun d => d ++ bs) s else s).sansLayers := by
  unfold appendFlash
  dsimp only
  split
  · exact foldl_keeps State.sansLayers (fun s i => sansLayers_setMedia _ _ s) _ _
  · rfl

@[simp] theorem appendFlash_frame (o : Nat) (bs : List Byte) (s : State) :
    (appendFlash o bs s).out = s.out ∧ (appendFlash o bs s).host = s.host ∧ (appendFlash o bs s).units = s.units ∧
    (appendFlash o bs s).unlia = s.unlia ∧ (appendFlash o bs s).conceal = s.conceal ∧
    (appendFlash o bs s).tiers.mem = s.tiers.mem ∧ (appendFlash o bs s).tiers.objects = s.tiers.objects := by
  have hkeep {β : Type} (p : State → β) (hp : ∀ t x, p { t with tiers := { t.tiers with flash := x } } = p t)
      (hl : ∀ t, p t.sansLayers = p t) : p (appendFlash o bs s) = p s := by
    rw [← hl, sansLayers_appendFlash, hl]
    split
    · exact hp s _
    · rfl
  exact ⟨hkeep State.out (fun _ _ => rfl) (fun _ => rfl), hkeep State.host (fun _ _ => rfl) (fun _ => rfl),
    hkeep State.units (fun _ _ => rfl) (fun _ => rfl), hkeep State.unlia (fun _ _ => rfl) (fun _ => rfl),
    hkeep State.conceal (fun _ _ => rfl) (fun _ => rfl), hkeep (fun s => s.tiers.mem) (fun _ _ => rfl) (fun _ => rfl),
    hkeep (fun s => s.tiers.objects) (fun _ _ => rfl) (fun _ => rfl)⟩

/-- What an append stores depends on the tiers alone. -/
theorem appendFlash_flash_congr {s t : State} (h : t.tiers = s.tiers) (o : Nat) (bs : List Byte) :
    (appendFlash o bs t).tiers.flash = (appendFlash o bs s).tiers.flash := by
  have hflash (u : State) : (appendFlash o bs u).tiers.flash = _ := (congrArg (fun s => s.tiers.flash) (sansLayers_appendFlash o bs u) :)
  rw [hflash, hflash, obj_congr o (congrArg Tiers.objects h)]
  split <;> simp only [State.sansLayers, setFlash, h]

/-! ### The completions -/

theorem exec_objectMoveDone (op : Nat) (ecc : Ecc) (s : State) : exec (.objectMoveDone op ecc) s = execObjectMoveDone op ecc s := rfl
theorem exec_hostCopyDone (op : Nat) (data : List Byte) (aborted : Bool) (ecc : Ecc) (s : State) :
    exec (.hostCopyDone op data aborted ecc) s = execHostCopyDone op data aborted ecc s := rfl

/-- The signal of a move stands in the dealers' list, or is an operation of its own (R404). -/
@[simp] theorem moveSignal_frame (b : MoveBody) (segs : List CauseSpan) (s : State) :
    (moveSignal b segs s).out = s.out ∧ (moveSignal b segs s).host.queues = s.host.queues ∧ (moveSignal b segs s).units = s.units ∧
    (moveSignal b segs s).unlia = s.unlia ∧ (moveSignal b segs s).conceal = s.conceal ∧ (moveSignal b segs s).tiers = s.tiers := by
  unfold moveSignal
  dsimp only
  split
  · simp
  · split
    · split
      · split <;> simp
      · split <;> simp
    · split <;> simp

/-- The bytes that a move carries. -/
def moveBytes (b : MoveBody) (s : State) : List Byte := objBytes s (obj s b.src.toNat) b.srcOffset.toNat b.bytes.toNat

/-- A move's bytes at their destination. -/
def moveStored (op : Nat) (b : MoveBody) (s : State) : State :=
  if b.mode = 2 then appendFlash b.dst.toNat (moveBytes b s) (dropOp op s)
  else storeBg ((obj s b.dst.toNat).base + b.dstOffset.toNat) (moveBytes b s) (dropOp op s)

theorem moveStored_append {b : MoveBody} (h : b.mode = 2) (op : Nat) (s : State) :
    moveStored op b s = appendFlash b.dst.toNat (moveBytes b s) (dropOp op s) := if_pos h
theorem moveStored_memory {b : MoveBody} (h : b.mode ≠ 2) (op : Nat) (s : State) :
    moveStored op b s = storeBg ((obj s b.dst.toNat).base + b.dstOffset.toNat) (moveBytes b s) (dropOp op s) := if_neg h

/-- A move that has come to its end with no codeword lost: stored, its read counted, its signal on the way. -/
def moveEnded (op : Nat) (b : MoveBody) (segs : List CauseSpan) (s : State) : State :=
  moveSignal b segs (bgObj (obj s b.src.toNat) b.srcOffset.toNat b.bytes.toNat (moveStored op b s))

/-- The part of its source that a move reads, and the part of its object that a host copy reads. -/
def moveSpan (b : MoveBody) : ReadSpan := { object := b.src.toNat, off := b.srcOffset.toNat, bytes := b.bytes.toNat }
def copySpan (b : HostCopyBody) : ReadSpan := { object := b.object.toNat, off := b.offset.toNat, bytes := b.bytes.toNat }

/-- What a host copy out of an object sends to the host. -/
def copyWrite (k : Ticket) (b : HostCopyBody) (s : State) : Emit :=
  .hostWrite (queue s k.q).owner b.hostAddr (objBytes s (obj s b.object.toNat) b.offset.toNat b.bytes.toNat)

/-- A host copy out of an object at its end: its bytes are sent and its read is counted. -/
def copySent (op : Nat) (k : Ticket) (b : HostCopyBody) (s : State) : State :=
  emit (copyWrite k b s) (bgObj (obj s b.object.toNat) b.offset.toNat b.bytes.toNat (dropOp op s))

section
variable {op : Nat} {k : Ticket} {s : State}

theorem exec_objectMoveDone_good {b : MoveBody} {segs : List CauseSpan} (hop : opAt s op = some (.move k b [] segs))
    (hread : ReadsGood s [moveSpan b]) :
    exec (.objectMoveDone op .clean) s = .next (finish k Status.ok (moveEnded op b segs s)) := by
  have hread' : engineRead [{ object := b.src.toNat, off := b.srcOffset.toNat, bytes := b.bytes.toNat }] .clean s = .good s := hread
  simp only [exec_objectMoveDone, execObjectMoveDone, hop, hread', List.foldl_nil, if_true]
  rfl

theorem exec_objectMoveDone_fails {b : MoveBody} {segs : List CauseSpan} {ecc : Ecc} {st : Byte} {t : State}
    (hop : opAt s op = some (.move k b [] segs)) (hread : engineRead [moveSpan b] ecc s = .fails st t) :
    exec (.objectMoveDone op ecc) s = .next (finish k st (dropOp op t)) := by
  have hread' : engineRead [{ object := b.src.toNat, off := b.srcOffset.toNat, bytes := b.bytes.toNat }] ecc s = .fails st t := hread
  simp only [exec_objectMoveDone, execObjectMoveDone, hop, hread']

@[simp] theorem moveStored_frame (b : MoveBody) :
    (moveStored op b s).out = s.out ∧ (moveStored op b s).host.queues = s.host.queues ∧ (moveStored op b s).units = s.units ∧
    (moveStored op b s).unlia = s.unlia ∧ (moveStored op b s).conceal = s.conceal ∧
    (moveStored op b s).tiers.objects = s.tiers.objects := by
  unfold moveStored
  split <;> simp

@[simp] theorem moveEnded_frame (b : MoveBody) (segs : List CauseSpan) :
    (moveEnded op b segs s).out = s.out ∧ (moveEnded op b segs s).host.queues = s.host.queues ∧ (moveEnded op b segs s).units = s.units ∧
    (moveEnded op b segs s).unlia = s.unlia ∧ (moveEnded op b segs s).conceal = s.conceal ∧
    (moveEnded op b segs s).tiers.objects = s.tiers.objects ∧ (moveEnded op b segs s).tiers.mem = (moveStored op b s).tiers.mem ∧
    (moveEnded op b segs s).tiers.flash = (moveStored op b s).tiers.flash := by
  simp [moveEnded]

/-- As `complete_reported_of_out`, where the queues are as they were. -/
theorem finish_reported_of_queues {st : Byte} {u : State} (hout : u.out = s.out) (hqueues : u.host.queues = s.host.queues)
    (herr : (queue s k.q).error = false) (hring : (queue s k.q).cqSize ≠ 0) : Reported k st 0 s (finish k st u) :=
  complete_reported_of_out hout (by rwa [queue_congr _ hqueues]) (by rwa [queue_congr _ hqueues])

/-- OBJECT_MOVE_DONE: the range is stored, in memory or at the end of a flash object (R226, R404). -/
theorem objectMoveDone_completes {b : MoveBody} {segs : List CauseSpan} (hop : opAt s op = some (.move k b [] segs))
    (hread : ReadsGood s [moveSpan b]) (herr : (queue s k.q).error = false) (hring : (queue s k.q).cqSize ≠ 0) :
    Completes (.objectMoveDone op .clean) s (fun t =>
      Reported k Status.ok 0 s t ∧
      (b.mode ≠ 2 → t.tiers.flash = s.tiers.flash ∧ Filled ((obj s b.dst.toNat).base + b.dstOffset.toNat) (moveBytes b s) s t) ∧
      (b.mode = 2 → t.tiers.mem = s.tiers.mem ∧ t.tiers.flash = (appendFlash b.dst.toNat (moveBytes b s) s).tiers.flash) ∧
      t.tiers.objects = s.tiers.objects ∧ t.units = s.units ∧ t.unlia = s.unlia ∧ t.conceal = s.conceal) := by
  refine ⟨_, exec_objectMoveDone_good hop hread, finish_reported_of_queues (by simp) (by simp) herr hring, ?_, ?_, ?_⟩
  · intro hmode
    have hstored := moveStored_memory hmode op s
    exact ⟨by simp [hstored], filled_of_storeBg (u := dropOp op s) rfl rfl (by simp [hstored])⟩
  · intro hmode
    have hstored := moveStored_append hmode op s
    exact ⟨by simp [hstored], by simpa [hstored] using appendFlash_flash_congr (s := s) (t := dropOp op s) rfl _ _⟩
  · simp

/-- A move whose source cannot be read completes with the read's status and stores nothing (R238). -/
theorem objectMoveDone_fails {b : MoveBody} {segs : List CauseSpan} {ecc : Ecc} {st : Byte} {t : State}
    (hop : opAt s op = some (.move k b [] segs)) (herr : (queue s k.q).error = false) (hring : (queue s k.q).cqSize ≠ 0)
    (hread : engineRead [moveSpan b] ecc s = .fails st t) (hout : t.out = s.out) (hhost : t.host = s.host) :
    Completes (.objectMoveDone op ecc) s (fun u => Reported k st 0 s u ∧ u.tiers.mem = t.tiers.mem ∧ u.tiers.flash = t.tiers.flash) :=
  ⟨_, exec_objectMoveDone_fails hop hread, finish_reported_of_queues (by simpa using hout) (by simp [hhost]) herr hring, by simp⟩

/-- HOST_COPY_DONE into an object: the range is stored (R387). -/
theorem hostCopyDone_stores {b : HostCopyBody} (data : List Byte) (hop : opAt s op = some (.hostCopy k b))
    (herr : (queue s k.q).error = false) (hring : (queue s k.q).cqSize ≠ 0) (hdir : b.dir = 1) :
    Completes (.hostCopyDone op data false .clean) s (fun t =>
      Reported k Status.ok 0 s t ∧ Filled ((obj s b.object.toNat).base + b.offset.toNat) (data.take b.bytes.toNat) s t ∧
      t.tiers.objects = s.tiers.objects ∧ t.units = s.units ∧ t.unlia = s.unlia) := by
  refine ⟨finish k Status.ok (storeBg ((obj s b.object.toNat).base + b.offset.toNat) (data.take b.bytes.toNat) (dropOp op s)), ?_,
    finish_reported_of_queues (by simp) (by simp) herr hring, filled_of_storeBg (u := dropOp op s) rfl rfl (by simp), ?_⟩
  · simp only [exec_hostCopyDone, execHostCopyDone, hop, Bool.false_eq_true, if_false, hdir, if_true]
  · simp

theorem copySent_out (b : HostCopyBody) : (copySent op k b s).out = s.out ++ [copyWrite k b s] := by
  show (bgObj _ _ _ (dropOp op s)).out ++ [copyWrite k b s] = _
  simp

/-- HOST_COPY_DONE out of an object: the range is sent to the host, and the record follows it (R387). -/
theorem hostCopyDone_sends {b : HostCopyBody} (data : List Byte) (hop : opAt s op = some (.hostCopy k b))
    (herr : (queue s k.q).error = false) (hring : (queue s k.q).cqSize ≠ 0) (hdir : b.dir ≠ 1) (hread : ReadsGood s [copySpan b]) :
    Completes (.hostCopyDone op data false .clean) s (fun t =>
      (∃ rest, t.out = s.out ++ .hostWrite (queue s k.q).owner b.hostAddr
        (objBytes s (obj s b.object.toNat) b.offset.toNat b.bytes.toNat) :: rest) ∧
      SameMemory s t ∧ t.tiers.objects = s.tiers.objects ∧ t.dealer = s.dealer ∧ t.units = s.units ∧ t.unlia = s.unlia) := by
  have hread' : engineRead [{ object := b.object.toNat, off := b.offset.toNat, bytes := b.bytes.toNat }] .clean s = .good s := hread
  have hqueues : (copySent op k b s).host.queues = s.host.queues := by simp [copySent]
  obtain ⟨fl, addr, rest, hreport⟩ := finish_reported_of_queues (k := k) (st := Status.ok) (s := copySent op k b s) rfl rfl
    (by rwa [queue_congr _ hqueues]) (by rwa [queue_congr _ hqueues])
  refine ⟨finish k Status.ok (copySent op k b s), ?_,
    ⟨.completion k.q k.hdr.tag (BitVec.ofNat 16 k.index.toNat) Status.ok fl 0 addr :: rest, ?_⟩, ?_, ?_⟩
  · simp only [exec_hostCopyDone, execHostCopyDone, hop, Bool.false_eq_true, if_false, hdir, hread']
    rfl
  · rw [hreport, copySent_out, List.append_assoc]
    rfl
  · exact sameMemory_of_mem (by simp [copySent])
  · simp [copySent]

/-- A failed host access ends the command with HOST_ABORT. -/
theorem hostCopyDone_aborted {b : HostCopyBody} (data : List Byte) (hop : opAt s op = some (.hostCopy k b))
    (herr : (queue s k.q).error = false) (hring : (queue s k.q).cqSize ≠ 0) :
    Completes (.hostCopyDone op data true .clean) s (fun t => Reported k Status.hostAbort 0 s t ∧ t.tiers = s.tiers ∧ t.dealer = s.dealer) := by
  refine ⟨finish k Status.hostAbort (dropOp op s), ?_, finish_reported_of_queues (by simp) (by simp) herr hring, by simp⟩
  simp only [exec_hostCopyDone, execHostCopyDone, hop, if_true]

end

/-- Settles O8: a copy that passes its checks is one outstanding operation, and its completion event stores or sends the whole range. -/
theorem copiesRunAndComplete : Obligations.CopiesRunAndComplete := by
  refine ⟨⟨fun _ _ _ _ ha hready hok hopen => objectMove_completes ha hready hok hopen,
    fun _ _ _ _ ha hok hopen => hostCopy_completes ha hok hopen,
    fun _ _ _ _ ha hout hentry hok hopen => pageMove_completes ha hout hentry hok hopen⟩,
    fun _ _ _ _ _ hop hread herr hring => objectMoveDone_completes hop hread herr hring,
    fun op k b data s hop herr hring => ⟨fun hdir => hostCopyDone_stores data hop herr hring hdir,
      fun hdir hread => hostCopyDone_sends data hop herr hring hdir hread, hostCopyDone_aborted data hop herr hring⟩,
    fun _ _ _ _ _ _ _ _ hop herr hring hread hout hhost => objectMoveDone_fails hop herr hring hread hout hhost⟩

end Sys2Proof.Machine
end

section
/-! SUPPORT. O46 does not hold of every state: REPAIR_REWRITE_DONE lets the reads go on that wait for a repair (`resumeReads`) also where the
rewrite did not read back clean. A command may then be waiting for an object that is already POISONED: a stream's or the scrub's read of
another line of the object, for which no source is left, gives the object up (R233) without letting its waiting commands go on. -/

namespace Sys2Proof.Machine

/-- The object of the counterexample: valid in tier 0, and POISONED. -/
def lostObj : Obj := { Obj.none with size := 64, valid := true, poison := .poisoned }

/-- A BOOK_LOAD of that object. -/
def waitingLoad : Instr := .bookLoad 3 plainHdr 7

/-- Its ticket. -/
def waitingTicket : Ticket := { q := 3, index := 0, hdr := plainHdr }

/-- The state after reset with that object placed and the BOOK_LOAD still waiting for its repair. -/
def waitingRead : State :=
  addOp (.repairWait waitingTicket waitingLoad) (setObj 7 (fun _ => lostObj) State.reset)

/-- The unclean rewrite of any line ends the waiting BOOK_LOAD. -/
theorem rewriteDone_ends_waitingRead :
    exec (.repairRewriteDone 0 0 false) waitingRead = .next (finish waitingTicket Status.objectPoisoned (dropOp 0 waitingRead)) := rfl

/-- Refutes O46: in `waitingRead` the command that waits ends with OBJECT_POISONED, so the state has changed. -/
theorem not_lineRepairs : ¬ Obligations.LineRepairs := by
  unfold Obligations.LineRepairs
  rintro ⟨-, -, -, hagain, -⟩
  have hsame := rewriteDone_ends_waitingRead.symm.trans (hagain 0 0 waitingRead (by decide))
  have hops : (dropOp 0 waitingRead).host.ops = waitingRead.host.ops := by
    simpa using congrArg (fun s : State => s.host.ops) (Host.Outcome.next.inj hsame)
  exact absurd hops (by decide)

end Sys2Proof.Machine
end

section
/-! SUPPORT. The translation layers (R228 to R232): what an update of a layer's counts and an alert leave alone, and the counts that decoding,
relocation, patrol and readiness leave behind. -/

namespace Sys2Proof.Machine

/-! ### The counts of a layer -/

@[simp] theorem mediaOf_setMedia (d : Nat) (f : FlashLayer → FlashLayer) (s : State) : mediaOf (setMedia d f s) d = f (mediaOf s d) := by
  have hmod : Tab.get (fun _ => FlashLayer.blank) (Tab.mod (fun _ => FlashLayer.blank) s.tiers.media d f) d = f (mediaOf s d) := by
    simp [mediaOf]
  unfold setMedia
  dsimp only
  split <;> exact hmod

/-- Counting leaves every other kind of state alone, and the data of flash objects. -/
@[simp] theorem setMedia_frame (d : Nat) (f : FlashLayer → FlashLayer) (s : State) :
    (setMedia d f s).dealer = s.dealer ∧ (setMedia d f s).host = s.host ∧ (setMedia d f s).tiers.flash = s.tiers.flash ∧
    (setMedia d f s).tiers.mem = s.tiers.mem := by
  have h := sansLayers_setMedia d f s
  exact ⟨(congrArg State.dealer h :), (congrArg State.host h :), (congrArg (fun s => s.tiers.flash) h :),
    (congrArg (fun s => s.tiers.mem) h :)⟩

/-- A layer that is not READY shows no count in its registers. -/
theorem setMedia_layers {d : Nat} {s : State} (h : (layer s d).ready = false) (f : FlashLayer → FlashLayer) :
    (setMedia d f s).tiers.layers = s.tiers.layers := by
  simp [setMedia, h]

theorem mediaOf_congr (d : Nat) {s t : State} (h : t.tiers = s.tiers) : mediaOf t d = mediaOf s d := by simp only [mediaOf, h]

@[simp] theorem raiseEvent_ops (n : Nat) (s : State) : (raiseEvent n s).host.ops = s.host.ops := by
  have hat (p : Port) (s : State) : (raiseEventAt p n s).host.ops = s.host.ops := by
    unfold raiseEventAt
    dsimp only
    split <;> simp
  rw [raiseEvent, hat, hat]

/-- An alert is Glaren's and the hosts' affair (R231). -/
@[simp] theorem wearAlert_frame (a b : FlashLayer) (d : Nat) (s : State) :
    (wearAlert a b d s).tiers = s.tiers ∧ (wearAlert a b d s).dealer = s.dealer ∧ (wearAlert a b d s).host.ops = s.host.ops := by
  unfold wearAlert
  split
  · exact ⟨rfl, rfl, rfl⟩
  · simp

/-! ### Decoding a codeword (R229) -/

theorem exec_flashCodewordDecode {d : Nat} (hd : d < 4) (errors retries : Nat) (softOk : Bool) (op o a b : Nat) (s : State) :
    exec (.flashCodewordDecode d errors retries softOk op o a b) s = .next (codewordDecode d errors retries softOk op o a b s) :=
  withUnit_of_lt hd s (codewordDecode d errors retries softOk op o a b)

section
variable {d : Nat} {s : State}

theorem setMoveRead_of_move {op : Nat} {k : Ticket} {mb : MoveBody} {bad : List Nat} {segs : List CauseSpan}
    (hop : opAt s op = some (.move k mb bad segs)) (lost : List Nat) (more : List CauseSpan) :
    setMoveRead op lost more s = setOp op (.move k mb (bad ++ lost) (segs ++ more)) s := by
  simp only [setMoveRead, hop, setOp]

/-- A decode is hard up to 100 bit errors within seven retries; a soft decision follows seven. -/
def decodesHard (errors retries : Nat) : Bool := decide (errors ≤ 100) && decide (retries ≤ 7)
def decodeRetries (errors retries : Nat) : Nat := if decodesHard errors retries then retries else 7

/-- A codeword in the range of a staging move is counted, and one that is lost is noted with the move (R229). -/
theorem codewordDecode_of_move {op o : Nat} {k : Ticket} {mb : MoveBody} {bad : List Nat} {segs : List CauseSpan}
    (hop : opAt s op = some (.move k mb bad segs)) (hmode : mb.mode = 1) (hat : codewordAt s (obj s mb.src.toNat) o d = true)
    (hfrom : mb.srcOffset.toNat ≤ o) (hto : o < mb.srcOffset.toNat + mb.bytes.toNat) (errors retries : Nat) (softOk : Bool) (a b : Nat) :
    ∃ first more, codewordDecode d errors retries softOk op o a b s =
      setOp op (.move k mb (bad ++ if (!decodesHard errors retries && !softOk) = true then [o] else []) (segs ++ more))
        (countDecode d errors (decodeRetries errors retries) first (!decodesHard errors retries) (!decodesHard errors retries && !softOk) s) := by
  have hmove (first soft lost : Bool) (n : Nat) : opAt (countDecode d errors n first soft lost s) op = some (.move k mb bad segs) := by
    rw [← hop]
    exact opAt_congr op (by simp [countDecode])
  refine ⟨decide (o % 16384 = 0) || decide (o = mb.srcOffset.toNat),
    if decodeRetries errors retries = 0 then [] else [{ cause := 3, first := a, past := some b }], ?_⟩
  simp only [codewordDecode, hop, hmode, hat, hfrom, hto, and_self, if_true]
  exact setMoveRead_of_move (hmove _ _ _ _) _ _

/-- The counts and the move after a decode. -/
theorem decoded_spec (d errors n : Nat) (first soft lost : Bool) (op o : Nat) (k : Ticket) (mb : MoveBody) (bad : List Nat)
    (segs : List CauseSpan) (s : State) :
    let t := setOp op (.move k mb (bad ++ if lost = true then [o] else []) segs) (countDecode d errors n first soft lost s)
    (mediaOf t d).retries = (mediaOf s d).retries + BitVec.ofNat 64 n ∧
    (lost = true → (mediaOf t d).uncorrectable = (mediaOf s d).uncorrectable + 1 ∧ opAt t op = some (.move k mb (bad ++ [o]) segs)) ∧
    (lost = false → (mediaOf t d).corrected = (mediaOf s d).corrected + BitVec.ofNat 64 errors ∧ opAt t op = some (.move k mb bad segs)) ∧
    t.tiers.flash = s.tiers.flash ∧ SameMemory s t ∧ t.dealer = s.dealer := by
  intro t
  have hmedia : mediaOf t d = _ := mediaOf_setMedia d _ s
  rw [hmedia]
  refine ⟨rfl, ?_, ?_, by simp [t, countDecode], sameMemory_of_mem (by simp [t, countDecode]), by simp [t, countDecode]⟩
  · rintro rfl
    exact ⟨rfl, by simp [t]⟩
  · rintro rfl
    exact ⟨rfl, by simp [t]⟩

theorem codewordDecode_completes (hd : d < 4) (errors retries : Nat) (softOk : Bool) {op o : Nat} (a b : Nat) {k : Ticket} {mb : MoveBody}
    {bad : List Nat} {segs : List CauseSpan} (hop : opAt s op = some (.move k mb bad segs)) (hmode : mb.mode = 1)
    (hat : codewordAt s (obj s mb.src.toNat) o d = true) (hfrom : mb.srcOffset.toNat ≤ o) (hto : o < mb.srcOffset.toNat + mb.bytes.toNat) :
    Completes (.flashCodewordDecode d errors retries softOk op o a b) s (fun t =>
      let hard := decodesHard errors retries
      (mediaOf t d).retries = (mediaOf s d).retries + BitVec.ofNat 64 (if hard then retries else 7) ∧
      ((!hard && !softOk) = true → (mediaOf t d).uncorrectable = (mediaOf s d).uncorrectable + 1 ∧
        ∃ segs', opAt t op = some (.move k mb (bad ++ [o]) segs')) ∧
      ((!hard && !softOk) = false → (mediaOf t d).corrected = (mediaOf s d).corrected + BitVec.ofNat 64 errors ∧
        ∃ segs', opAt t op = some (.move k mb bad segs')) ∧
      t.tiers.flash = s.tiers.flash ∧ SameMemory s t ∧ t.dealer = s.dealer) := by
  obtain ⟨first, more, hrun⟩ := codewordDecode_of_move hop hmode hat hfrom hto errors retries softOk a b
  obtain ⟨hretries, hlost, hgood, hkept⟩ := decoded_spec d errors (decodeRetries errors retries) first (!decodesHard errors retries)
    (!decodesHard errors retries && !softOk) op o k mb bad (segs ++ more) s
  exact ⟨_, (exec_flashCodewordDecode hd ..).trans (congrArg _ hrun), hretries, fun h => ⟨(hlost h).1, _, (hlost h).2⟩,
    fun h => ⟨(hgood h).1, _, (hgood h).2⟩, hkept⟩

/-! ### Maintenance (Table 7.9) -/

theorem exec_flashRelocate {d : Nat} (hd : d < 4) (disturb patrol badBlock : Bool) (s : State) :
    exec (.flashRelocate d disturb patrol badBlock) s = .next (if (layer s d).ready then relocate d disturb patrol badBlock s else s) :=
  withUnit_of_lt hd s (fun s => if (layer s d).ready then relocate d disturb patrol badBlock s else s)

theorem exec_flashPatrol {d : Nat} (hd : d < 4) (corrections retries : Nat) (s : State) :
    exec (.flashPatrol d corrections retries) s = .next (flashPatrol d corrections retries s) :=
  withUnit_of_lt hd s (flashPatrol d corrections retries)

/-- The counts of a layer after a relocation: the block is erased or retired, and the status bits follow its wear. -/
def FlashLayer.relocated (n : Nat) (disturb patrol badBlock : Bool) (x : FlashLayer) : FlashLayer :=
  wearOf (n + 1) { x with
    programmed := x.programmed + BitVec.ofNat 64 (Config.freeNat n % 1025),
    erased := if badBlock then x.erased else x.erased + 1,
    disturb := x.disturb + BitVec.ofNat 32 (flag disturb), patrol := x.patrol + BitVec.ofNat 32 (flag patrol),
    grownBad := x.grownBad + BitVec.ofNat 32 (flag badBlock), spare := x.spare - BitVec.ofNat 32 (flag (badBlock && decide (x.spare ≠ 0))) }

/-- A relocation counts, and leaves data where the host finds it. -/
theorem relocate_spec (d : Nat) (disturb patrol badBlock : Bool) (s : State) :
    mediaOf (relocate d disturb patrol badBlock s) d = (mediaOf s d).relocated s.free disturb patrol badBlock ∧
    (relocate d disturb patrol badBlock s).tiers.flash = s.tiers.flash ∧ (relocate d disturb patrol badBlock s).tiers.mem = s.tiers.mem ∧
    (relocate d disturb patrol badBlock s).dealer = s.dealer := by
  refine ⟨?_, by simp [relocate], by simp [relocate], by simp [relocate]⟩
  rw [relocate, mediaOf_congr d (wearAlert_frame ..).1, mediaOf_setMedia]
  rfl

theorem flashRelocate_completes (hd : d < 4) (hready : (layer s d).ready = true) (disturb patrol badBlock : Bool) :
    Completes (.flashRelocate d disturb patrol badBlock) s (fun t =>
      (mediaOf t d).erased = (if badBlock then (mediaOf s d).erased else (mediaOf s d).erased + 1) ∧
      (mediaOf t d).disturb = (mediaOf s d).disturb + BitVec.ofNat 32 (flag disturb) ∧
      (mediaOf t d).patrol = (mediaOf s d).patrol + BitVec.ofNat 32 (flag patrol) ∧
      (mediaOf t d).grownBad = (mediaOf s d).grownBad + BitVec.ofNat 32 (flag badBlock) ∧
      t.tiers.flash = s.tiers.flash ∧ SameMemory s t ∧ t.dealer = s.dealer) := by
  obtain ⟨hmedia, hflash, hmem, hdealer⟩ := relocate_spec d disturb patrol badBlock s
  refine ⟨relocate d disturb patrol badBlock s, by rw [exec_flashRelocate hd, if_pos hready], ?_⟩
  beta_reduce
  rw [hmedia]
  exact ⟨rfl, rfl, rfl, rfl, hflash, sameMemory_of_mem hmem, hdealer⟩

/-- The counts of a layer after the patrol has read one block. -/
def FlashLayer.patrolled (n corrections retries : Nat) (x : FlashLayer) : FlashLayer :=
  { x with
    pagesRead := x.pagesRead + BitVec.ofNat 64 (1 + Config.freeNat n % 1024 + retries),
    retries := x.retries + BitVec.ofNat 64 retries, corrected := x.corrected + BitVec.ofNat 64 corrections }

/-- A block that the patrol has read. -/
def patrolled (d corrections retries : Nat) (s : State) : State :=
  setMedia d (FlashLayer.patrolled s.free corrections retries) { s with free := s.free + 1 }

theorem patrolled_spec (d corrections retries : Nat) (s : State) :
    mediaOf (patrolled d corrections retries s) d = (mediaOf s d).patrolled s.free corrections retries ∧
    (patrolled d corrections retries s).tiers.flash = s.tiers.flash ∧ (patrolled d corrections retries s).tiers.mem = s.tiers.mem ∧
    (patrolled d corrections retries s).dealer = s.dealer :=
  ⟨mediaOf_setMedia .., by simp [patrolled], by simp [patrolled], by simp [patrolled]⟩

/-- A block that took more than 60 corrections, or a retry, is relocated (R230). -/
theorem flashPatrol_of_ready (hready : (layer s d).ready = true) (corrections retries : Nat) :
    flashPatrol d corrections retries s =
      if 60 < corrections ∨ 0 < retries then relocate d false true false (patrolled d corrections retries s)
      else patrolled d corrections retries s := by
  simp only [flashPatrol, hready, not_true, if_false]
  rfl

theorem flashPatrol_completes (hd : d < 4) (hready : (layer s d).ready = true) (corrections retries : Nat) :
    Completes (.flashPatrol d corrections retries) s (fun t =>
      (mediaOf t d).corrected = (mediaOf s d).corrected + BitVec.ofNat 64 corrections ∧
      (mediaOf t d).retries = (mediaOf s d).retries + BitVec.ofNat 64 retries ∧
      (60 < corrections → (mediaOf t d).erased = (mediaOf s d).erased + 1 ∧ (mediaOf t d).patrol = (mediaOf s d).patrol + 1) ∧
      (corrections ≤ 60 → retries = 0 → (mediaOf t d).erased = (mediaOf s d).erased) ∧
      t.tiers.flash = s.tiers.flash ∧ SameMemory s t ∧ t.dealer = s.dealer) := by
  obtain ⟨hread, hflash, hmem, hdealer⟩ := patrolled_spec d corrections retries s
  refine ⟨flashPatrol d corrections retries s, exec_flashPatrol hd corrections retries s, ?_⟩
  beta_reduce
  rw [flashPatrol_of_ready hready]
  by_cases hmoves : 60 < corrections ∨ 0 < retries
  · obtain ⟨hmedia, hflash', hmem', hdealer'⟩ := relocate_spec d false true false (patrolled d corrections retries s)
    rw [if_pos hmoves, hmedia, hread]
    exact ⟨rfl, rfl, fun _ => ⟨rfl, rfl⟩, fun _ _ => absurd hmoves (by omega), hflash'.trans hflash,
      sameMemory_of_mem (hmem'.trans hmem), hdealer'.trans hdealer⟩
  · rw [if_neg hmoves, hread]
    exact ⟨rfl, rfl, fun h => absurd (.inl h) hmoves, fun _ _ => rfl, hflash, sameMemory_of_mem hmem, hdealer⟩

/-! ### Readiness (R232, R421) -/

theorem exec_flashLayerReady {d : Nat} (hd : d < 4) (s : State) : exec (.flashLayerReady d) s = .next (layerReady d s) :=
  withUnit_of_lt hd s (layerReady d)

/-- With no command outstanding none waits for READY. -/
theorem resumeAll_of_ops_nil {s : State} (h : s.host.ops = []) : resumeAll s = s := by
  simp only [resumeAll, h, List.filterMap_nil, List.foldl_nil, ite_self]

/-- The end of a first-start format changes the metadata of its layer, and no register of a layer that is not READY. -/
theorem formatLayer_frame (hnot : (layer s d).ready = false) :
    (formatLayer d s).dealer = s.dealer ∧ (formatLayer d s).host.ops = s.host.ops ∧ (formatLayer d s).tiers.layers = s.tiers.layers ∧
    (formatLayer d s).tiers.flash = s.tiers.flash ∧ (formatLayer d s).tiers.mem = s.tiers.mem := by
  simp [formatLayer, setMedia_layers hnot]

/-- The layer's map is loaded: after the format of its first start, if one was due. -/
def mapLoaded (d : Nat) (s : State) : State := if (layer s d).formatting then formatLayer d s else s

theorem mapLoaded_frame (hnot : (layer s d).ready = false) :
    (mapLoaded d s).dealer = s.dealer ∧ (mapLoaded d s).host.ops = s.host.ops ∧ (mapLoaded d s).tiers.layers = s.tiers.layers ∧
    (mapLoaded d s).tiers.flash = s.tiers.flash ∧ (mapLoaded d s).tiers.mem = s.tiers.mem := by
  unfold mapLoaded
  split
  · exact formatLayer_frame hnot
  · exact ⟨rfl, rfl, rfl, rfl, rfl⟩

theorem layerReady_of_not_ready (hgood : s.resets.mgood = true) (hnot : (layer s d).ready = false) (hopen : blockShut s (44 + d) = false)
    (hops : s.host.ops = []) :
    layerReady d s = setLayer d (fun _ => { mediaOf (mapLoaded d s) d with ready := true, formatting := false }) (mapLoaded d s) := by
  obtain ⟨-, hops', -⟩ := mapLoaded_frame hnot
  have hgo : ¬((¬s.resets.mgood = true) ∨ (layer s d).ready = true ∨ blockShut s (44 + d) = true) := by simp [hgood, hnot, hopen]
  simp only [layerReady, hgo, if_false]
  exact resumeAll_of_ops_nil (hops'.trans hops)

theorem flashLayerReady_completes (hd : d < 4) (hgood : s.resets.mgood = true) (hnot : (layer s d).ready = false)
    (hopen : blockShut s (44 + d) = false) (hops : s.host.ops = []) : Completes (.flashLayerReady d) s (fun t =>
      (layer t d).ready = true ∧ (layer t d).formatting = false ∧ (∀ e, e ≠ d → layer t e = layer s e) ∧
      t.tiers.flash = s.tiers.flash ∧ SameMemory s t ∧ t.dealer = s.dealer) := by
  obtain ⟨hdealer, -, hlayers, hflash, hmem⟩ := mapLoaded_frame hnot
  refine ⟨layerReady d s, exec_flashLayerReady hd s, ?_⟩
  rw [layerReady_of_not_ready hgood hnot hopen hops]
  refine ⟨?_, ?_, ?_, hflash, sameMemory_of_mem hmem, hdealer⟩
  · simp
  · simp
  · intro e he
    rw [layer_setLayer, if_neg (Ne.symm he), layer_congr e hlayers]

end

/-- Settles O47: each event's counts are those that its update of the layer's metadata writes; the data of flash objects is in none of them. -/
theorem flashMaintenance : Obligations.FlashMaintenance := by
  intro d s hd
  refine ⟨fun errors retries softOk op o a b k mb bad segs hop hmode hat hfrom hto =>
      codewordDecode_completes hd errors retries softOk a b hop hmode hat hfrom hto,
    fun hready => flashRelocate_completes hd hready, fun hready => flashPatrol_completes hd hready,
    fun hgood hnot hopen hops => flashLayerReady_completes hd hgood hnot hopen hops, fun hnot => ⟨fun a b c => ?_, fun a b => ?_⟩⟩
  · simp only [exec_flashRelocate hd, hnot, Bool.false_eq_true, if_false]
  · simp only [exec_flashPatrol hd, flashPatrol, hnot, Bool.false_eq_true, not_false_eq_true, if_true]

end Sys2Proof.Machine
end

section
/-! SUPPORT. Castling: how a castle is taken, its checks and its start, and what each kind of chunk does to the running castle (R248 to R256). -/

namespace Sys2Proof.Machine

theorem exec_castleStart (s : State) : exec .castleStart s = .next (castleStep s) := rfl
theorem exec_castleChunk (castleId : W64) (i : Nat) (crc : W64) (flagged : Nat) (data : Option (List Byte)) (s : State) :
    exec (.castleChunk castleId i crc flagged data) s = execCastleChunk castleId i crc flagged data s := rfl
theorem exec_castleChunkRerequest (castleId : W64) (i : Nat) (node : BitVec 15) (s : State) :
    exec (.castleChunkRerequest castleId i node) s = execCastleChunkRerequest castleId i node s := rfl

/-! ### Stores beside the dealers (R209) -/

/-- What comes through the fill ports reaches no part of the dealers but the running step's list of writes. -/
theorem fillWrite_dealer (a : Nat) (bs : List Byte) (s : State) :
    (fillWrite a bs s).dealer = { s.dealer with run := (fillWrite a bs s).dealer.run } := by
  unfold fillWrite
  split
  · split <;> rfl
  · rfl

@[simp] theorem fillWrite_castles (a : Nat) (bs : List Byte) (s : State) :
    (fillWrite a bs s).dealer.building = s.dealer.building ∧ (fillWrite a bs s).dealer.slots = s.dealer.slots := by
  rw [fillWrite_dealer]
  exact ⟨rfl, rfl⟩

theorem storeBg_building (a : Nat) (bs : List Byte) (s : State) : (storeBg a bs s).dealer.building = s.dealer.building :=
  (fillWrite_castles a bs s).1

/-- As `fillWrite_mem_congr`, for dealers that agree on the running step. -/
theorem fillWrite_mem_congr_run {s t : State} (hrun : t.dealer.run = s.dealer.run) (hmem : t.tiers.mem = s.tiers.mem) (a : Nat)
    (bs : List Byte) : (fillWrite a bs t).tiers.mem = (fillWrite a bs s).tiers.mem := by
  simp only [fillWrite, hrun, hmem]
  split
  · split <;> rfl
  · rfl

/-- As `filled_of_storeBg`, for dealers that agree on the running step. -/
theorem filled_of_storeBg_run {a : Nat} {bs : List Byte} {s u t : State} (hrun : u.dealer.run = s.dealer.run)
    (hu : u.tiers.mem = s.tiers.mem) (ht : t.tiers.mem = (storeBg a bs u).tiers.mem) : Filled a bs s t := by
  have hfill : t.tiers.mem = (fillWrite a bs s).tiers.mem := by
    rw [ht, (storeBg_frame a bs u).2.2.2.2.2.1, fillWrite_mem_congr_run hrun hu]
  exact ⟨hfill, fun hidle => by rw [hfill, fillWrite_idle a bs s hidle]⟩

/-- An object left undefined changes memory and the count of free values. -/
@[simp] theorem undefineObject_frame (o : Nat) (s : State) :
    (undefineObject o s).out = s.out ∧ (undefineObject o s).host = s.host ∧
    (undefineObject o s).dealer.building = s.dealer.building ∧ (undefineObject o s).dealer.slots = s.dealer.slots := by
  unfold undefineObject
  dsimp only
  split
  · simp [undefineBytes]
  · simp

/-! ### The command (R247, R248) -/

/-- A castle as its command is taken: no check made, no chunk come. -/
def castleTaken (k : Ticket) (b : CastleBody) : Castle :=
  { ticket := k, body := castleNormal b, base := b.base, map := [], checked := false, done := [], retries := [], flagged := 0, sent := false,
    toSend := [] }

/-- The dealers with these castles waiting. -/
def withCastles (cs : List Castle) (s : State) : State := { s with dealer := { s.dealer with castles := cs } }

@[simp] theorem queue_withCastles (cs : List Castle) (s : State) (q : Nat) : queue (withCastles cs s) q = queue s q := rfl

theorem castleRun_of_ok {b : CastleBody} (hok : castleCodesOk b = true) (k : Ticket) (s : State) :
    castleRun b k s = withCastles (s.dealer.castles ++ [castleTaken k b]) s := by
  simp only [castleRun, hok, not_true, if_false]
  rfl

theorem castle_completes {q : Nat} {h : Hdr} {b : CastleBody} {s : State} (ha : accepts s q h true = true) (hok : castleCodesOk b = true) :
    Completes (.castle q h b) s (fun t =>
      t.dealer.castles = s.dealer.castles ++ [castleTaken (nextTicket s q h) b] ∧ Outstanding q s t ∧ t.dealer.slots = s.dealer.slots ∧
      t.dealer.building = s.dealer.building ∧ t.tiers = s.tiers ∧ t.units = s.units) := by
  refine ⟨_, by rw [exec_castle_accepts q h b s ha, castleRun_of_ok hok], ?_, ⟨?_, ?_⟩, ?_⟩
  · simp [withCastles]
  · simp [withCastles]
  · rw [queue_withCastles, taken_queue, if_pos rfl]
  · simp [withCastles]

/-! ### The start (R248, Table 8.3) -/

section
variable {c : Castle} {rest : List Castle} {s : State}

/-- With no castle running or pending the oldest one that waits has its turn. -/
theorem castleStep_of_idle (hb : s.dealer.building = none) (hp : s.dealer.castlePending = none) (hcs : s.dealer.castles = c :: rest) :
    castleStep s = castleHead c rest s := by
  simp only [castleStep, hb, hp, hcs, Option.isSome_none, Bool.false_eq_true, if_false]

/-- LOAD and ADOPT have no map to read. -/
theorem readMap_of_no_build {b : CastleBody} (hmode : b.mode ≠ 0) (s : State) : readMap b s = .good s := by
  simp only [readMap, hmode, false_and, if_false]

theorem castleFault_eq_none {b : CastleBody} : castleFault s b = none ↔ castleFault1 s b = none ∧ castleFault2 s b = none :=
  Option.or_eq_none_iff

/-- A castle that fails a check completes with it and waits no longer. -/
theorem castleHead_of_fault {st : Byte} (hnew : c.checked = false) (hfault : castleFault1 s c.body = some st ∨
      castleFault1 s c.body = none ∧ readMap c.body s = .good s ∧ castleFault2 s c.body = some st) :
    castleHead c rest s = finish c.ticket st (withCastles rest s) := by
  rcases hfault with hfirst | ⟨hfirst, hread, hsecond⟩
  · simp only [castleHead, hnew, hfirst, Bool.false_eq_true, if_false]
    rfl
  · simp only [castleHead, hnew, hfirst, hread, hsecond, Bool.false_eq_true, if_false]
    rfl

/-- A castle that passes its checks, now or before, begins once its target is free. -/
theorem castleHead_of_ok (hread : readMap c.body s = .good s) (hok : castleFault s c.body = none)
    (hfree : castleWaits s c.body = false) : castleHead c rest s = castleBegin { c with checked := true } (withCastles rest s) := by
  obtain ⟨hfirst, hsecond⟩ := castleFault_eq_none.1 hok
  cases hnew : c.checked with
  | true =>
    simp only [castleHead, hnew, hfree, Bool.false_eq_true, if_true, if_false]
    rfl
  | false =>
    simp only [castleHead, hnew, hfirst, hread, hsecond, hfree, Bool.false_eq_true, if_false]
    rfl

theorem castleStart_fails {st : Byte} (hb : s.dealer.building = none) (hp : s.dealer.castlePending = none)
    (hcs : s.dealer.castles = c :: rest) (hnew : c.checked = false) (hfault : castleFault1 s c.body = some st ∨
      castleFault1 s c.body = none ∧ readMap c.body s = .good s ∧ castleFault2 s c.body = some st)
    (herr : (queue s c.ticket.q).error = false) (hring : (queue s c.ticket.q).cqSize ≠ 0) :
    Completes .castleStart s (fun t =>
      Reported c.ticket st 0 s t ∧ t.dealer.castles = rest ∧ t.dealer.slots = s.dealer.slots ∧ t.tiers = s.tiers) := by
  refine ⟨finish c.ticket st (withCastles rest s), ?_, finish_reported_of_queues rfl rfl herr hring, ?_⟩
  · rw [exec_castleStart, castleStep_of_idle hb hp hcs, castleHead_of_fault hnew hfault]
  · simp [withCastles]

/-! ### A LOAD and an ADOPT begin (R248) -/

/-- A castle as it begins without a map, its base its own. -/
def castleBegun (c : Castle) : Castle := { c with checked := true, base := c.body.base, map := [] }

/-- The slot of a castle while it is built. -/
def buildingSlot (c : Castle) (s : State) : Slot :=
  { state := .building, format := castleFormat s c, base := c.body.base, adapter := c.body.adapter, version := c.body.version }

/-- The dealers with this castle running. -/
def withRunning (c : Castle) (s : State) : State := { s with dealer := { s.dealer with building := some c } }

/-- A castle without a map runs, its target BUILDING. -/
def withBuilding (c : Castle) (s : State) : State :=
  setSlot (c.body.target.toNat % 2) (fun _ => buildingSlot (castleBegun c) s) (withRunning (castleBegun c) s)

theorem castleTarget_of_receives {b : CastleBody} (hrole : b.role ≠ 2) : castleTarget b = some (b.target.toNat % 2) := if_neg hrole

/-- A LOAD leaves its target BUILDING; an ADOPT touches no data, and is built at once. -/
theorem castleBegin_of_no_build (hmode : c.body.mode ≠ 0) (hrole : c.body.role ≠ 2) (hown : c.body.flags.getLsbD 0 = false) :
    castleBegin { c with checked := true } s =
      if c.body.mode = 2 then castleBuilt (castleBegun c) (withBuilding c s)
      else if castleShut (withRunning (castleBegun c) s) (castleBegun c) = true then
        failBuilding Status.reset (withBuilding c s)
      else if c.body.mode = 1 then withBuilding c s
      else buildBegin (withBuilding c s) := by
  simp only [castleBegin, hmode, hown, castleTarget_of_receives hrole, Bool.false_eq_true, if_false]
  rfl

/-- The blocks that a castle without a map needs, and those that are closed, are those from before its start. -/
theorem castleShut_begun (rest : List Castle) : castleShut (withRunning (castleBegun c) (withCastles rest s)) (castleBegun c) =
    castleShut s { c with base := c.body.base, map := [] } := rfl

theorem castleStart_of_no_build (hb : s.dealer.building = none) (hp : s.dealer.castlePending = none) (hcs : s.dealer.castles = c :: rest)
    (hok : castleFault s c.body = none) (hfree : castleWaits s c.body = false) (hmode : c.body.mode ≠ 0) :
    exec .castleStart s = .next (castleBegin { c with checked := true } (withCastles rest s)) := by
  rw [exec_castleStart, castleStep_of_idle hb hp hcs, castleHead_of_ok (readMap_of_no_build hmode s) hok hfree]

theorem castleStart_load (hb : s.dealer.building = none) (hp : s.dealer.castlePending = none) (hcs : s.dealer.castles = c :: rest)
    (hok : castleFault s c.body = none) (hfree : castleWaits s c.body = false)
    (hopen : castleShut s { c with base := c.body.base, map := [] } = false) (hrole : c.body.role ≠ 2) (hmode : c.body.mode = 1)
    (hown : c.body.flags.getLsbD 0 = false) : Completes .castleStart s (fun t =>
      t.dealer.castles = rest ∧ (slot t (c.body.target.toNat % 2)).state = .building ∧
      (slot t (c.body.target.toNat % 2)).version = c.body.version ∧ (slot t (c.body.target.toNat % 2)).base = c.body.base ∧
      (∀ i, i ≠ c.body.target.toNat % 2 → slot t i = slot s i) ∧
      t.dealer.building = some (castleBegun c) ∧ t.out = s.out ∧ t.tiers = s.tiers) := by
  have hload : c.body.mode ≠ 0 ∧ c.body.mode ≠ 2 := by rw [hmode]; decide
  refine ⟨withBuilding c (withCastles rest s), ?_, rfl, ?_, ?_, ?_, fun i hi => ?_, rfl, rfl, rfl⟩
  · rw [castleStart_of_no_build hb hp hcs hok hfree hload.1, castleBegin_of_no_build hload.1 hrole hown,
      castleShut_begun, hopen]
    rw [if_neg hload.2, if_neg Bool.false_ne_true, if_pos hmode]
  · simp [withBuilding, buildingSlot]
  · simp [withBuilding, buildingSlot, castleBegun]
  · simp [withBuilding, buildingSlot, castleBegun]
  · rw [withBuilding, slot_setSlot, if_neg (Ne.symm hi)]
    rfl

/-! ### A castle that is built (R254, R256) -/

@[simp] theorem slot_wake (s : State) (i : Nat) : slot (wake s) i = slot s i := rfl

/-- A castle that is no MIRROR becomes pending, its target READY. -/
theorem castleBuilt_pends (hpends : c.body.flags.getLsbD 1 = false) (s : State) : castleBuilt c s =
    wake (setSlot (c.body.target.toNat % 2) (fun x => { x with state := .ready })
      { s with dealer := { s.dealer with building := none, castlePending := some c } }) := by
  simp only [castleBuilt, hpends, Bool.false_eq_true, if_false]

theorem castleBuilt_frame (c : Castle) (s : State) :
    (castleBuilt c s).tiers = s.tiers ∧ (castleBuilt c s).units = s.units ∧ (castleBuilt c s).unlia = s.unlia := by
  unfold castleBuilt
  dsimp only
  split
  · simp
  · simp [wake]

theorem castleStart_adopt (hb : s.dealer.building = none) (hp : s.dealer.castlePending = none) (hcs : s.dealer.castles = c :: rest)
    (hok : castleFault s c.body = none) (hfree : castleWaits s c.body = false) (hrole : c.body.role ≠ 2) (hmode : c.body.mode = 2)
    (hown : c.body.flags.getLsbD 0 = false) (hpends : c.body.flags.getLsbD 1 = false) : Completes .castleStart s (fun t =>
      t.dealer.castles = rest ∧ t.dealer.building = none ∧ (slot t (c.body.target.toNat % 2)).state = .ready ∧
      t.dealer.castlePending = some (castleBegun c) ∧ t.dealer.due = true ∧ t.out = s.out ∧ t.tiers = s.tiers) := by
  have hadopt : c.body.mode ≠ 0 := by rw [hmode]; decide
  refine ⟨castleBuilt (castleBegun c) (withBuilding c (withCastles rest s)), ?_, ?_⟩
  · rw [castleStart_of_no_build hb hp hcs hok hfree hadopt, castleBegin_of_no_build hadopt hrole hown, if_pos hmode]
  · rw [castleBuilt_pends (c := castleBegun c) hpends]
    refine ⟨rfl, rfl, ?_, rfl, rfl, ?_⟩
    · simp [castleBegun]
    · simp [wake, withBuilding, withRunning, withCastles]

/-- The check for the last chunk builds the castle or leaves the state as it is. -/
theorem castleCheck_cases (hb : s.dealer.building = some c) :
    castleCheck s = s ∨ c.map.length ≤ c.done.length ∧ castleCheck s = castleBuilt c s := by
  simp only [castleCheck, hb]
  split
  · next h => exact .inr ⟨h.2.2.2, rfl⟩
  · exact .inl rfl

theorem castleCheck_frame (s : State) :
    (castleCheck s).tiers = s.tiers ∧ (castleCheck s).units = s.units ∧ (castleCheck s).unlia = s.unlia := by
  unfold castleCheck
  split
  · split
    · exact castleBuilt_frame _ s
    · exact ⟨rfl, rfl, rfl⟩
  · exact ⟨rfl, rfl, rfl⟩

/-! ### A castle that fails (R255) -/

/-- A receiving castle that ends short has left its slot empty, and has sent nothing. -/
theorem dropBuilding_spec (hb : s.dealer.building = some c) (hrole : c.body.role ≠ 2) :
    (dropBuilding s).out = s.out ∧ (dropBuilding s).host = s.host ∧ (dropBuilding s).dealer.building = none ∧
    (slot (dropBuilding s) (c.body.target.toNat % 2)).state = .empty := by
  have hkeep {β : Type} (p : State → β) (hp : ∀ s o, p (undefineObject o s) = p s) : p (dropBuilding s) =
      p (setSlot (c.body.target.toNat % 2) (fun _ => Slot.cold) { s with dealer := { s.dealer with building := none } }) := by
    simp only [dropBuilding, hb, castleTarget_of_receives hrole]
    exact foldl_keeps p hp _ _
  refine ⟨hkeep State.out ?_, hkeep State.host ?_, hkeep (fun s => s.dealer.building) ?_, ?_⟩
  · simp
  · simp
  · simp
  · rw [slot_congr _ (hkeep (fun s => s.dealer.slots) (by simp)), slot_setSlot, if_pos rfl]
    rfl

/-- The failure of a receiving castle: its record, with the values flagged so far. -/
theorem failBuilding_spec (st : Byte) (hb : s.dealer.building = some c) (hrole : c.body.role ≠ 2)
    (herr : (queue s c.ticket.q).error = false) (hring : (queue s c.ticket.q).cqSize ≠ 0) :
    Reported c.ticket st (BitVec.ofNat 64 c.flagged) s (failBuilding st s) ∧ (failBuilding st s).dealer.building = none ∧
    (slot (failBuilding st s) (c.body.target.toNat % 2)).state = .empty := by
  obtain ⟨hout, hhost, hended, hslot⟩ := dropBuilding_spec hb hrole
  have hqueues := congrArg HostIf.queues hhost
  have hfail : failBuilding st s = complete c.ticket st (BitVec.ofNat 64 c.flagged) false (dropBuilding s) := by
    simp only [failBuilding, hb]
  rw [hfail]
  refine ⟨complete_reported_of_out hout (by rwa [queue_congr _ hqueues]) (by rwa [queue_congr _ hqueues]), ?_, ?_⟩
  · simpa using hended
  · rwa [slot_congr (s := dropBuilding s) _ (by simp)]

end

/-! ### Chunks (R251, R252) -/

section
variable {c : Castle} {i : Nat} {e : MapEntry} {s : State}

/-- A chunk of the running castle is taken. -/
theorem exec_castleChunk_running (hb : s.dealer.building = some c) (crc : W64) (flagged : Nat) (data : Option (List Byte)) :
    exec (.castleChunk c.body.castleId i crc flagged data) s = .next (takeChunk
      { castleId := c.body.castleId, index := i, crc := crc, flagged := flagged, lost := data.isNone, data := data.getD [] } s) := by
  simp only [exec_castleChunk, execCastleChunk, hb, if_true]

/-- The castle after chunk i has been written. -/
def Castle.wrote (c : Castle) (i flagged : Nat) : Castle := { c with done := c.done ++ [i], flagged := c.flagged + flagged }

/-- Chunk i is written into its member and counted. -/
def chunkStored (c : Castle) (e : MapEntry) (i flagged : Nat) (data : List Byte) (s : State) : State :=
  storeBg ((obj s (memberObject c e.member)).base + e.destOffset) data (setBuilding (fun c => c.wrote i flagged) s)

/-- A chunk whose CRC and length fit, and whose flags do not abort the castle, is written; it may have been the last. -/
theorem takeChunk_good (hb : s.dealer.building = some c) (hrole : c.body.role ≠ 2) (hnew : c.done.contains i = false)
    (he : c.map[i]? = some e) {flagged : Nat} {data : List Byte} (hlen : data.length = e.destBytes)
    (hflag : c.body.flags.getLsbD 3 = false ∨ flagged = 0) :
    takeChunk { castleId := c.body.castleId, index := i, crc := crc64 data, flagged := flagged, lost := false, data := data } s =
      castleCheck (chunkStored c e i flagged data s) := by
  have hgo : ¬(c.body.flags.getLsbD 3 = true ∧ 0 < flagged) := by
    rintro ⟨habort, hpos⟩
    rcases hflag with h | h
    · rw [h] at habort; cases habort
    · omega
  simp only [takeChunk, writeChunk, hb, hrole, hnew, he, hlen, hgo, ne_eq, not_true, Bool.false_eq_true, or_self, and_self, if_true, if_false]
  rfl

theorem chunkStored_building (hb : s.dealer.building = some c) (flagged : Nat) (data : List Byte) :
    (chunkStored c e i flagged data s).dealer.building = some (c.wrote i flagged) := by
  rw [chunkStored, storeBg_building, setBuilding, hb]
  rfl

theorem castleChunk_written (hb : s.dealer.building = some c) (hrole : c.body.role ≠ 2) (hnew : c.done.contains i = false)
    (he : c.map[i]? = some e) {flagged : Nat} {data : List Byte} (hlen : data.length = e.destBytes)
    (hflag : c.body.flags.getLsbD 3 = false ∨ flagged = 0) :
    Completes (.castleChunk c.body.castleId i (crc64 data) flagged (some data)) s (fun t =>
      Filled ((obj s (memberObject c e.member)).base + e.destOffset) data s t ∧
      t.tiers.objects = s.tiers.objects ∧ t.units = s.units ∧ t.unlia = s.unlia ∧
      ((t.dealer.building = some (c.wrote i flagged) ∧ t.out = s.out) ∨ c.map.length ≤ c.done.length + 1)) := by
  obtain ⟨htiers, hunits, hunlia⟩ := castleCheck_frame (chunkStored c e i flagged data s)
  have hbuilding := chunkStored_building (e := e) (i := i) hb flagged data
  refine ⟨castleCheck (chunkStored c e i flagged data s), ?_, ?_, ?_, ?_, ?_, ?_⟩
  · exact (exec_castleChunk_running hb _ _ _).trans (congrArg Host.Outcome.next (takeChunk_good hb hrole hnew he hlen hflag))
  · exact filled_of_storeBg_run (u := setBuilding (fun c => c.wrote i flagged) s) rfl rfl (congrArg Tiers.mem htiers)
  · rw [htiers]
    simp [chunkStored, setBuilding]
  · rw [hunits]
    simp [chunkStored, setBuilding]
  · rw [hunlia]
    simp [chunkStored, setBuilding]
  · rcases castleCheck_cases hbuilding with hstands | ⟨hlast, -⟩
    · rw [hstands]
      exact .inl ⟨hbuilding, by simp [chunkStored, setBuilding]⟩
    · exact .inr (by simpa [Castle.wrote] using hlast)

/-- A chunk whose CRC does not fit is asked for again, the fourth time not. -/
theorem takeChunk_bad (hb : s.dealer.building = some c) (hrole : c.body.role ≠ 2) (hnew : c.done.contains i = false)
    (he : c.map[i]? = some e) {crc : W64} {data : List Byte} (hcrc : crc64 data ≠ crc) (flagged : Nat) :
    takeChunk { castleId := c.body.castleId, index := i, crc := crc, flagged := flagged, lost := false, data := data } s =
      if 3 ≤ natAt c.retries i then failBuilding Status.castleChunk s
      else emit (.chunkRequest c.body.castleId i e.sourcePos)
        (setBuilding (fun c => { c with retries := natSet c.retries i (natAt c.retries i + 1) }) s) := by
  simp only [takeChunk, hb, hrole, hnew, he, hcrc, ne_eq, not_true, Bool.false_eq_true, or_self, false_and, if_false]

theorem castleChunk_rerequested (hb : s.dealer.building = some c) (hrole : c.body.role ≠ 2) (hnew : c.done.contains i = false)
    (he : c.map[i]? = some e) {crc : W64} {data : List Byte} (hcrc : crc64 data ≠ crc) (flagged : Nat) (hfew : natAt c.retries i < 3) :
    Completes (.castleChunk c.body.castleId i crc flagged (some data)) s (fun t =>
      t.out = s.out ++ [.chunkRequest c.body.castleId i e.sourcePos] ∧ t.tiers = s.tiers ∧ t.dealer.slots = s.dealer.slots) :=
  ⟨_, (exec_castleChunk_running hb _ _ _).trans
      (congrArg Host.Outcome.next ((takeChunk_bad hb hrole hnew he hcrc flagged).trans (if_neg (Nat.not_le.2 hfew)))),
    rfl, rfl, rfl⟩

theorem castleChunk_exhausted (hb : s.dealer.building = some c) (hrole : c.body.role ≠ 2) (hnew : c.done.contains i = false)
    (he : c.map[i]? = some e) {crc : W64} {data : List Byte} (hcrc : crc64 data ≠ crc) (flagged : Nat) (hmany : 3 ≤ natAt c.retries i)
    (herr : (queue s c.ticket.q).error = false) (hring : (queue s c.ticket.q).cqSize ≠ 0) :
    Completes (.castleChunk c.body.castleId i crc flagged (some data)) s (fun t =>
      Reported c.ticket Status.castleChunk (BitVec.ofNat 64 c.flagged) s t ∧ t.dealer.building = none ∧
      (slot t (c.body.target.toNat % 2)).state = .empty) :=
  ⟨_, (exec_castleChunk_running hb _ _ _).trans
      (congrArg Host.Outcome.next ((takeChunk_bad hb hrole hnew he hcrc flagged).trans (if_pos hmany))),
    failBuilding_spec Status.castleChunk hb hrole herr hring⟩

/-- Word that a chunk's source is lost fails a receiving castle (R255). -/
theorem takeChunk_lost (hb : s.dealer.building = some c) (hrole : c.body.role ≠ 2) (hnew : c.done.contains i = false) (crc : W64)
    (flagged : Nat) (data : List Byte) :
    takeChunk { castleId := c.body.castleId, index := i, crc := crc, flagged := flagged, lost := true, data := data } s =
      failBuilding Status.objectPoisoned s := by
  simp only [takeChunk, hb, hrole, hnew, ne_eq, not_true, Bool.false_eq_true, or_self, if_true, if_false]

theorem castleChunk_lost (hb : s.dealer.building = some c) (hrole : c.body.role ≠ 2) (hnew : c.done.contains i = false) (crc : W64)
    (flagged : Nat) (herr : (queue s c.ticket.q).error = false) (hring : (queue s c.ticket.q).cqSize ≠ 0) :
    Completes (.castleChunk c.body.castleId i crc flagged none) s (fun t =>
      Reported c.ticket Status.objectPoisoned (BitVec.ofNat 64 c.flagged) s t ∧ t.dealer.building = none ∧
      (slot t (c.body.target.toNat % 2)).state = .empty) :=
  ⟨_, (exec_castleChunk_running hb _ _ _).trans (congrArg Host.Outcome.next (takeChunk_lost hb hrole hnew crc flagged [])),
    failBuilding_spec Status.objectPoisoned hb hrole herr hring⟩

/-- The dealers with this chunk kept for a castle that has not started. -/
def withEarly (x : Chunk) (s : State) : State := { s with dealer := { s.dealer with earlyChunks := s.dealer.earlyChunks ++ [x] } }

/-- A chunk of a castle that does not run is kept for its start. -/
theorem exec_castleChunk_early {castleId : W64} (hother : ∀ c, s.dealer.building = some c → c.body.castleId ≠ castleId) (crc : W64)
    (flagged : Nat) (data : Option (List Byte)) : exec (.castleChunk castleId i crc flagged data) s = .next (withEarly
      { castleId := castleId, index := i, crc := crc, flagged := flagged, lost := data.isNone, data := data.getD [] } s) := by
  rw [exec_castleChunk, execCastleChunk]
  split
  · next c hb => rw [if_neg (hother c hb)]; rfl
  · rfl

theorem sentEntry_of_own (hsent : s.dealer.lastSent = some c) (he : c.map[i]? = some e) (hown : some e.sourcePos = ownPos s) :
    sentEntry c.body.castleId i s = some (c, e) := by
  simp only [sentEntry, hsent, he, hown, Option.bind_some, and_self, if_true]

/-- CASTLE_CHUNK_REREQUEST sends the chunk anew from its source. -/
theorem exec_castleChunkRerequest_own (hsent : s.dealer.lastSent = some c) (he : c.map[i]? = some e) (hown : some e.sourcePos = ownPos s)
    (hread : readShard e s = .good s) (node : BitVec 15) :
    exec (.castleChunkRerequest c.body.castleId i node) s = .next (emit (.chunk (makeChunk s c i e) node) s) := by
  simp only [exec_castleChunkRerequest, execCastleChunkRerequest, sentEntry_of_own hsent he hown, hread]

end

/-- Settles O11: a castle waits for its turn, its start is decided by its checks and its mode, and a chunk by whether its castle runs, whether
its source was lost, and whether its CRC fits. -/
theorem castlesRun : Obligations.CastlesRun :=
  ⟨⟨fun _ _ _ _ ha hok => castle_completes ha hok, fun _ _ _ hb hp hcs =>
    ⟨fun _ hnew hfault herr hring => castleStart_fails hb hp hcs hnew hfault herr hring,
      fun hok hfree hopen hrole hmode hown => castleStart_load hb hp hcs hok hfree hopen hrole hmode hown,
      fun hok hfree hrole hmode hown hpends => castleStart_adopt hb hp hcs hok hfree hrole hmode hown hpends⟩⟩,
    fun _ _ _ _ _ _ hb hrole hnew he hlen hflag => castleChunk_written hb hrole hnew he hlen hflag,
    fun _ _ _ _ flagged _ _ hb hrole hnew he hcrc => ⟨castleChunk_rerequested hb hrole hnew he hcrc flagged,
      castleChunk_exhausted hb hrole hnew he hcrc flagged⟩,
    fun _ _ crc flagged _ hb hrole hnew herr hring => castleChunk_lost hb hrole hnew crc flagged herr hring,
    fun _ _ crc flagged data _ hother => ⟨_, exec_castleChunk_early hother crc flagged data, rfl, rfl, rfl⟩,
    fun _ _ _ node _ hsent he hown hread => ⟨_, exec_castleChunkRerequest_own hsent he hown hread node, rfl, rfl, rfl⟩⟩

end Sys2Proof.Machine
end

section
/-! SUPPORT. ADMIT, CANCEL and PAGE_MOVE as request operations: applied at once outside boundary work and kept for the launch within it
(R266, R267), and what the end of a page move copies and rewrites (R278). -/

namespace Sys2Proof.Machine

/-! ### Within boundary work and outside it (R266) -/

@[simp] theorem request_taken (q : Nat) (s : State) (e : Nat) : request (taken q s) e = request s e := request_congr e (by simp)
@[simp] theorem inBoundary_taken (q : Nat) (s : State) : inBoundary (taken q s) = inBoundary s := by simp [inBoundary]

@[simp] theorem request_complete (k : Ticket) (st : Byte) (r : W64) (nf : Bool) (s : State) (e : Nat) :
    request (complete k st r nf s) e = request s e := request_congr e (by simp)
@[simp] theorem request_finish (k : Ticket) (st : Byte) (s : State) (e : Nat) : request (finish k st s) e = request s e :=
  request_complete k st 0 false s e

/-- A command is outstanding wherever its body has sent nothing and left the queues as the taking did. -/
theorem outstanding_of_queues {q : Nat} {s t : State} (hout : t.out = s.out) (hqueues : t.host.queues = (taken q s).host.queues) :
    Outstanding q s t := ⟨hout, by rw [queue_congr q hqueues, taken_queue, if_pos rfl]⟩

/-- A request operation kept until the launch. -/
def deferred (i : Instr) (k : Ticket) (s : State) : State :=
  { s with dealer := { s.dealer with reqOps := s.dealer.reqOps ++ [(k, i)] } }

theorem reqOp_of_boundary {s : State} (hin : inBoundary s = true) (i : Instr) (k : Ticket) : reqOp i k s = deferred i k s := if_pos hin
theorem reqOp_of_outside {s : State} (hout : inBoundary s = false) (i : Instr) (k : Ticket) : reqOp i k s = applyReqOp k i s :=
  if_neg (ne_true_of_eq_false hout)

/-- A taken request operation that is kept stands last in the list, outstanding; no entry has changed, and no tier. -/
theorem deferred_taken (i : Instr) (k : Ticket) (q : Nat) (s : State) :
    (deferred i k (taken q s)).dealer.reqOps = s.dealer.reqOps ++ [(k, i)] ∧ Outstanding q s (deferred i k (taken q s)) ∧
    (deferred i k (taken q s)).dealer.requests = s.dealer.requests ∧ (deferred i k (taken q s)).tiers = s.tiers := by
  refine ⟨?_, outstanding_of_queues ?_ rfl, ?_, ?_⟩ <;> simp [deferred]

/-- A request operation that is taken while a boundary runs is kept. -/
theorem requestOp_waits {q : Nat} {h : Hdr} {i : Instr} {s : State} (hin : inBoundary s = true)
    (hexec : exec i s = .next (reqOp i (nextTicket s q h) (taken q s))) : Completes i s (fun t =>
      t.dealer.reqOps = s.dealer.reqOps ++ [(nextTicket s q h, i)] ∧ Outstanding q s t ∧ t.dealer.requests = s.dealer.requests ∧
      t.tiers = s.tiers) :=
  ⟨_, by rw [hexec, reqOp_of_boundary ((inBoundary_taken q s).trans hin)], deferred_taken i _ q s⟩

/-! ### ADMIT (Tables 9.2 and 9.3) -/

/-- A state in which an entry has been admitted: written, the sequence number used, the dealers woken. -/
def admitted (owner : Fn) (b : AdmitBody) (s : State) : State :=
  wake (setRequest b.entry.toNat (admitEntry owner s.dealer.admitSeq b)
    { s with dealer := { s.dealer with admitSeq := s.dealer.admitSeq + 1 } })

@[simp] theorem request_admitted (owner : Fn) (b : AdmitBody) (s : State) (e : Nat) : request (admitted owner b s) e =
    if b.entry.toNat = e then admitEntry owner s.dealer.admitSeq b (request s e) else request s e :=
  request_setRequest b.entry.toNat e (admitEntry owner s.dealer.admitSeq b) _

theorem exec_admitEntry_outside {q : Nat} {h : Hdr} {s : State} (ha : accepts s q h false = true) (hout : inBoundary s = false) (b : AdmitBody) :
    exec (.admitEntry q h b) s = .next (admitBody b (nextTicket s q h) (taken q s)) := by
  rw [exec_admitEntry_accepts q h b s ha, reqOp_of_outside ((inBoundary_taken q s).trans hout), applyReqOp]

theorem admitBody_of_ok {b : AdmitBody} {k : Ticket} {s : State} (hok : admitFault s (queue s k.q).owner b = none) :
    admitBody b k s = complete k Status.ok s.dealer.admitSeq false (admitted (queue s k.q).owner b s) := by
  simp only [admitBody, hok, admitted]
theorem admitBody_of_fault {b : AdmitBody} {k : Ticket} {s : State} {st : Byte} (hfault : admitFault s (queue s k.q).owner b = some st) :
    admitBody b k s = finish k st s := by
  simp only [admitBody, hfault]

/-- ADMIT writes its entry, QUEUED under the next sequence number, and no other (R267). -/
theorem admitEntry_completes {q : Nat} {h : Hdr} {b : AdmitBody} {s : State} (ha : accepts s q h false = true)
    (hout : inBoundary s = false) (hok : admitFault (taken q s) (queue s q).owner b = none) : Completes (.admitEntry q h b) s (fun t =>
      Reported (nextTicket s q h) Status.ok s.dealer.admitSeq s t ∧ t.dealer.admitSeq = s.dealer.admitSeq + 1 ∧
      request t b.entry.toNat = admitEntry (queue s q).owner s.dealer.admitSeq b (request s b.entry.toNat) ∧
      (request t b.entry.toNat).state = .queued ∧ (∀ e, e ≠ b.entry.toNat → request t e = request s e) ∧ t.dealer.due = true ∧
      t.tiers = s.tiers ∧ t.units = s.units ∧ t.dealer.pageTab = s.dealer.pageTab) := by
  have howner : (queue (taken q s) (nextTicket s q h).q).owner = (queue s q).owner := taken_owner q q s
  have hok' : admitFault (taken q s) (queue (taken q s) (nextTicket s q h).q).owner b = none := by rw [howner]; exact hok
  have hseq : (taken q s).dealer.admitSeq = s.dealer.admitSeq := by simp
  refine ⟨complete (nextTicket s q h) Status.ok s.dealer.admitSeq false (admitted (queue s q).owner b (taken q s)), ?_,
    accepted_reported ha ?_ rfl, ?_, ?_, ?_, fun e he => ?_, ?_⟩
  · rw [exec_admitEntry_outside ha hout, admitBody_of_ok hok', howner, hseq]
  · simp [admitted, wake]
  · simp [admitted, wake]
  · simp
  · simp [admitEntry]
  · simp [Ne.symm he]
  · simp [admitted, wake]

/-- An ADMIT that a check stops is answered with that check's status and changes no entry (Table 9.3). -/
theorem admitEntry_fails {q : Nat} {h : Hdr} {b : AdmitBody} {st : Byte} {s : State} (ha : accepts s q h false = true)
    (hout : inBoundary s = false) (hfault : admitFault (taken q s) (queue s q).owner b = some st) : Completes (.admitEntry q h b) s (fun t =>
      Reported (nextTicket s q h) st 0 s t ∧ t.dealer.requests = s.dealer.requests ∧ t.dealer.admitSeq = s.dealer.admitSeq) := by
  have hfault' : admitFault (taken q s) (queue (taken q s) (nextTicket s q h).q).owner b = some st := by rw [taken_owner]; exact hfault
  exact ⟨_, by rw [exec_admitEntry_outside ha hout, admitBody_of_fault hfault'], accepted_finished ha (by simp) rfl, by simp⟩

/-! ### CANCEL -/

/-- A state in which a command asks for the end of an entry: marked, the command kept with it, the dealers woken. -/
def cancelling (entry : W16) (k : Ticket) (s : State) : State :=
  wake (setRequest entry.toNat (fun r => { r with cancel := true, cancels := r.cancels ++ [k] }) s)

@[simp] theorem request_cancelling (entry : W16) (k : Ticket) (s : State) (e : Nat) : request (cancelling entry k s) e =
    if entry.toNat = e then { request s e with cancel := true, cancels := (request s e).cancels ++ [k] } else request s e :=
  request_setRequest entry.toNat e (fun r => { r with cancel := true, cancels := r.cancels ++ [k] }) s

theorem cancelBody_of_ok {entry : W16} {key : W32} {k : Ticket} {s : State} (hok : entryFault s (queue s k.q).owner entry key = none) :
    cancelBody entry key k s = cancelling entry k s := by
  simp only [cancelBody, hok, cancelling]

/-- The checks of R267 look at the named entry alone. -/
theorem entryFault_congr {s t : State} {entry : W16} (h : request t entry.toNat = request s entry.toNat) (owner : Fn) (key : W32) :
    entryFault t owner entry key = entryFault s owner entry key := by simp only [entryFault, h]

/-- CANCEL marks its entry, and stays outstanding until a boundary ends the entry (R267, R286). -/
theorem cancel_completes {q : Nat} {h : Hdr} {entry : W16} {key : W32} {s : State} (ha : accepts s q h false = true)
    (hout : inBoundary s = false) (hok : entryFault s (queue s q).owner entry key = none) : Completes (.cancel q h entry key) s (fun t =>
      (request t entry.toNat).cancel = true ∧ (request t entry.toNat).state = (request s entry.toNat).state ∧
      (request t entry.toNat).cancels = (request s entry.toNat).cancels ++ [nextTicket s q h] ∧
      (∀ e, e ≠ entry.toNat → request t e = request s e) ∧ t.dealer.due = true ∧ Outstanding q s t ∧ t.tiers = s.tiers ∧
      t.units = s.units) := by
  have hok' : entryFault (taken q s) (queue (taken q s) (nextTicket s q h).q).owner entry key = none := by
    rw [taken_owner, entryFault_congr (request_taken q s _)]; exact hok
  refine ⟨cancelling entry (nextTicket s q h) (taken q s), ?_, ?_, ?_, ?_, fun e he => ?_, rfl, outstanding_of_queues ?_ rfl, ?_⟩
  · rw [exec_cancel_accepts q h entry key s ha, reqOp_of_outside ((inBoundary_taken q s).trans hout), applyReqOp, cancelBody_of_ok hok']
  · simp
  · simp
  · simp
  · simp [Ne.symm he]
  · simp [cancelling, wake]
  · simp [cancelling, wake]

/-! ### The copies of a page move (R278) -/

/-- What a page move leaves alone; of the page map it rewrites the entries of its pages. -/
def unmoved (s : State) := (s.out, s.host, s.units, s.unlia, s.dealer.requests, s.dealer.frames)

theorem unmoved_eq {s t : State} (h : unmoved t = unmoved s) : t.out = s.out ∧ t.host = s.host ∧ t.units = s.units ∧
    t.unlia = s.unlia ∧ t.dealer.requests = s.dealer.requests ∧ t.dealer.frames = s.dealer.frames := by
  simpa only [unmoved, Prod.mk.injEq] using h

/-- What the copies of a page move leave alone: the page map as well. -/
def unstored (s : State) := (unmoved s, s.dealer.pageTab)

theorem unstored_bgObj (o : Obj) (off n : Nat) (s : State) : unstored (bgObj o off n s) = unstored s := by
  unfold bgObj
  split <;> rfl

theorem unstored_fillWrite (a : Nat) (bs : List Byte) (s : State) : unstored (fillWrite a bs s) = unstored s := by
  unfold fillWrite
  split
  · split <;> rfl
  · rfl

theorem unstored_writeObj (o off : Nat) (bs : List Byte) (s : State) : unstored (writeObj o off bs s) = unstored s := by
  have hlines (a : Nat) : unstored (storeLines a bs s) = unstored (fillWrite a bs s) := rfl
  unfold writeObj
  dsimp only
  split
  · rfl
  · split
    · rw [hlines, unstored_fillWrite]
    · rfl

/-- One die's copy of a page's share, from its place by the page's entry to its new place. -/
def copyShare (p tier frame : Nat) (x : Page) (s : State) (d : Nat) : State :=
  let to_ := pagePlace s d p tier frame
  let from_ := pagePlace s d p x.tier x.frame
  let n := frameShareBytes s
  writeObj to_.1 to_.2 (readPiece s (some from_, n)) (bgObj (obj s from_.1) from_.2 n (bgObj (obj s to_.1) to_.2 n s))

theorem unstored_copyShare (p tier frame : Nat) (x : Page) (s : State) (d : Nat) : unstored (copyShare p tier frame x s d) = unstored s := by
  rw [copyShare, unstored_writeObj, unstored_bgObj, unstored_bgObj]

/-- A page's entry as a move rewrites it. -/
def Page.placed (tier frame : Nat) (x : Page) : Page := { x with tier := tier, frame := if tier = 1 then 0 else frame }

theorem movePage_eq (p tier frame : Nat) (s : State) : movePage p tier frame s =
    setPage p (Page.placed tier frame) ((List.range 4).foldl (copyShare p tier frame (page s p)) s) := rfl

theorem unmoved_setPage (p : Nat) (f : Page → Page) (s : State) : unmoved (setPage p f s) = unmoved s := rfl

theorem page_setPage (p : Nat) (f : Page → Page) (s : State) (k : Nat) :
    page (setPage p f s) k = if p = k then f (page s k) else page s k := by
  simp only [page, setPage, Tab.get_mod]

theorem unstored_copies (p tier frame : Nat) (x : Page) (s : State) :
    unstored ((List.range 4).foldl (copyShare p tier frame x) s) = unstored s :=
  foldl_keeps unstored (unstored_copyShare p tier frame x) (List.range 4) s

theorem unmoved_of_unstored {s t : State} (h : unstored t = unstored s) : unmoved t = unmoved s := congrArg Prod.fst h

/-- What the copies leave alone holds the page map. -/
theorem page_of_unstored {s t : State} (h : unstored t = unstored s) (k : Nat) : page t k = page s k := by
  obtain ⟨-, -, -, -, -, hframes⟩ := unmoved_eq (unmoved_of_unstored h)
  have htab : t.dealer.pageTab = s.dealer.pageTab := congrArg Prod.snd h
  rw [page, page, hframes, htab]

theorem unmoved_movePage (p tier frame : Nat) (s : State) : unmoved (movePage p tier frame s) = unmoved s := by
  rw [movePage_eq, unmoved_setPage, unmoved_of_unstored (unstored_copies p tier frame (page s p) s)]

theorem page_movePage (p tier frame : Nat) (s : State) (k : Nat) :
    page (movePage p tier frame s) k = if p = k then (page s k).placed tier frame else page s k := by
  rw [movePage_eq, page_setPage, page_of_unstored (unstored_copies p tier frame (page s p) s)]

/-- Pages moved one after another, each to a frame of its own. -/
def movedTo (tier frame : Nat) (ps : List (Nat × Nat)) (s : State) : State :=
  ps.foldl (fun s e => movePage e.1 tier (frame + e.2) s) s

theorem unmoved_movedTo (tier frame : Nat) (ps : List (Nat × Nat)) (s : State) : unmoved (movedTo tier frame ps s) = unmoved s := by
  unfold movedTo
  exact foldl_keeps unmoved (fun (s : State) (e : Nat × Nat) => unmoved_movePage e.1 tier (frame + e.2) s) ps s

/-- A moved page is in the target tier, and every other page is where it was. -/
theorem page_tier_movedTo (tier frame : Nat) (ps : List (Nat × Nat)) (s : State) (k : Nat) :
    (page (movedTo tier frame ps s) k).tier = if k ∈ ps.map Prod.fst then tier else (page s k).tier := by
  induction ps generalizing s with
  | nil => rfl
  | cons e ps ih =>
    have hhead : movedTo tier frame (e :: ps) s = movedTo tier frame ps (movePage e.1 tier (frame + e.2) s) := by
      rw [movedTo, List.foldl_cons, movedTo]
    rw [hhead, ih, page_movePage]
    by_cases hrest : k ∈ ps.map Prod.fst
    · simp [hrest]
    · by_cases hk : e.1 = k
      · simp [hk, Page.placed]
      · simp [hrest, hk, Ne.symm hk]

/-! ### PAGE_MOVE_DONE -/

/-- The end of a page move: its pages moved, its entry marked as still moving or not, the dealers woken. -/
theorem movePages_eq (b : PageMoveBody) (more : Bool) (s : State) : movePages b more s =
    wake (setRequest b.entry.toNat (fun r => { r with moving := more })
      (movedTo b.tier.toNat b.frame.toNat (movedPages s b).zipIdx s)) := by
  simp only [movePages, movedTo]

/-- A page move sends nothing and leaves the host's state, the units and Unlia alone. -/
theorem movePages_frame (b : PageMoveBody) (more : Bool) (s : State) :
    (movePages b more s).out = s.out ∧ (movePages b more s).host = s.host ∧ (movePages b more s).units = s.units ∧
    (movePages b more s).unlia = s.unlia := by
  obtain ⟨hout, hhost, hunits, hunlia, -⟩ := unmoved_eq (unmoved_movedTo b.tier.toNat b.frame.toNat (movedPages s b).zipIdx s)
  rw [movePages_eq]
  simp [wake, hout, hhost, hunits, hunlia]

theorem request_movePages (b : PageMoveBody) (more : Bool) (s : State) (e : Nat) :
    request (movePages b more s) e = if b.entry.toNat = e then { request s e with moving := more } else request s e := by
  obtain ⟨-, -, -, -, hrequests, -⟩ := unmoved_eq (unmoved_movedTo b.tier.toNat b.frame.toNat (movedPages s b).zipIdx s)
  rw [← request_congr e hrequests]
  exact request_setRequest b.entry.toNat e (fun r => { r with moving := more }) _

theorem page_movePages (b : PageMoveBody) (more : Bool) (s : State) {p : Nat} (hp : p ∈ movedPages s b) :
    (page (movePages b more s) p).tier = b.tier.toNat := by
  have htier := page_tier_movedTo b.tier.toNat b.frame.toNat (movedPages s b).zipIdx s p
  rw [List.zipIdx_map_fst, if_pos hp] at htier
  exact htier

theorem listPages_congr {s t : State} (h : ∀ p, page t p = page s p) (n p : Nat) : listPages t p n = listPages s p n := by
  induction n generalizing p with
  | zero => rfl
  | succ n ih => simp only [listPages, h, ih]

/-- Ending an operation changes no entry's pages. -/
theorem movedPages_dropOp (id : Nat) (s : State) (b : PageMoveBody) : movedPages (dropOp id s) b = movedPages s b := by
  simp only [movedPages, entryPages, request_dropOp, listPages_congr (s := s) (t := dropOp id s) (fun _ => rfl)]

/-- A single page move whose entry still stands and whose shares can be read moves its pages and ends. -/
theorem pageMoveEnd_good {id : Nat} {k : Ticket} {b : PageMoveBody} {s : State} (hops : s.host.ops = [(id, .pageMove k b)])
    (hstands : holdsEnd (request s b.entry.toNat) = true) (hkey : (request s b.entry.toNat).key = b.key)
    (hpages : b.first.toNat + b.count.toNat ≤ (request s b.entry.toNat).pages) (hread : ReadsGood s (moveSpans s (movedPages s b))) :
    pageMoveEnd b.entry.toNat .clean s = finish k Status.ok (movePages b false (dropOp id s)) := by
  have hgood : ¬(¬holdsEnd (request s b.entry.toNat) ∨ (request s b.entry.toNat).key ≠ b.key ∨
      (request s b.entry.toNat).pages < b.first.toNat + b.count.toNat) := by
    rintro (h | h | h)
    · exact h hstands
    · exact h hkey
    · omega
  have hread' : engineRead (moveSpans s (movedPages s b)) .clean s = .good s := hread
  simp only [pageMoveEnd, hops, List.filterMap_cons, List.filterMap_nil, if_true, hgood, if_false, hread', List.isEmpty_nil, Bool.not_true]

theorem page_finish (k : Ticket) (st : Byte) (s : State) (p : Nat) : page (finish k st s) p = page s p := by
  simp only [page, finish_frame]

theorem exec_pageMoveDone (x : PageMoveRead) (s : State) : exec (.pageMoveDone x) s = .next (pageMoveEnd x.entry x.ecc s) := rfl

/-- PAGE_MOVE_DONE completes the move: its pages are in the target tier, and the entry may be dealt again (R278). -/
theorem pageMoveDone_completes {id : Nat} {k : Ticket} {b : PageMoveBody} {s : State} (hops : s.host.ops = [(id, .pageMove k b)])
    (hstands : holdsEnd (request s b.entry.toNat) = true) (hkey : (request s b.entry.toNat).key = b.key)
    (hpages : b.first.toNat + b.count.toNat ≤ (request s b.entry.toNat).pages) (hread : ReadsGood s (moveSpans s (movedPages s b)))
    (herr : (queue s k.q).error = false) (hring : (queue s k.q).cqSize ≠ 0) :
    Completes (.pageMoveDone { entry := b.entry.toNat, ecc := .clean }) s (fun t =>
      Reported k Status.ok 0 s t ∧ t.host.ops = [] ∧ (request t b.entry.toNat).moving = false ∧
      (∀ p ∈ movedPages s b, (page t p).tier = b.tier.toNat) ∧
      (∀ e, e ≠ b.entry.toNat → request t e = request s e) ∧ t.units = s.units ∧ t.unlia = s.unlia) := by
  obtain ⟨hout, hhost, hunits, hunlia⟩ := movePages_frame b false (dropOp id s)
  have hnone : (dropOp id s).host.ops = [] := by simp [dropOp, hops, Tab.drop]
  refine ⟨finish k Status.ok (movePages b false (dropOp id s)), ?_, finish_reported_of_queues hout (by rw [hhost]; rfl) herr hring,
    ?_, ?_, fun p hp => ?_, fun e he => ?_, ?_⟩
  · rw [exec_pageMoveDone, pageMoveEnd_good hops hstands hkey hpages hread]
  · simp only [finish_frame, hhost, hnone]
  · simp [request_movePages]
  · rw [page_finish]
    exact page_movePages b false _ (by rwa [movedPages_dropOp])
  · simp [request_movePages, Ne.symm he]
  · simp [hunits, hunlia]

/-- Settles O17: outside boundary work ADMIT and CANCEL go straight to their effect or their failing check, the end of a page move to its
copies; within it each of the three is kept. -/
theorem requestOperations : Obligations.RequestOperations :=
  ⟨fun _ _ _ _ ha hout hok => admitEntry_completes ha hout hok,
    fun _ _ _ _ _ ha hout hok => cancel_completes ha hout hok,
    fun _ _ _ _ hops hstands hkey hpages hread herr hring => pageMoveDone_completes hops hstands hkey hpages hread herr hring,
    fun _ _ _ _ _ ha hout hfault => admitEntry_fails ha hout hfault,
    fun q h _ ha hin => ⟨fun b => requestOp_waits hin (exec_admitEntry_accepts q h b _ ha),
      fun e key => requestOp_waits hin (exec_cancel_accepts q h e key _ ha),
      fun b => requestOp_waits hin (exec_pageMove_accepts q h b _ ha)⟩⟩

end Sys2Proof.Machine
end

section
/-! SUPPORT. RESTORE and SNAPSHOT: what stands between their taking and their end, what a restore writes, and what a snapshot and a peer's
snapshot append to flash (R318, R378, R403). -/

namespace Sys2Proof.Machine

theorem exec_restoreDone (data log : List Byte) (refused : Bool) (s : State) :
    exec (.restoreDone data log refused) s = .next (restoreFinish data log refused s) := rfl
theorem exec_snapshotDurable (refused : Bool) (s : State) : exec (.snapshotDurable refused) s = .next (snapshotEnd refused s) := rfl

/-! ### Flash objects and slots -/

theorem flashHolds_congr {s t : State} (h : t.tiers = s.tiers) (o : W16) (n : Nat) : flashHolds t o n = flashHolds s o n := by
  simp only [flashHolds, flashObj, flashOf, obj_congr o.toNat (congrArg Tiers.objects h), h]
theorem flashLen_congr {s t : State} (h : t.tiers = s.tiers) (o : W16) : flashLen t o = flashLen s o := by
  simp only [flashLen, flashObj, flashOf, obj_congr o.toNat (congrArg Tiers.objects h), h]
theorem membersImage_congr {s t : State} (h : t.tiers = s.tiers) (x : Slot) : membersImage t x = membersImage s x := by
  simp only [membersImage, objBytes, flashObj, flashOf, obj_congr _ (congrArg Tiers.objects h), h]

@[simp] theorem flashHolds_taken (q : Nat) (s : State) (o : W16) (n : Nat) : flashHolds (taken q s) o n = flashHolds s o n :=
  flashHolds_congr (by simp) o n
@[simp] theorem flashLen_taken (q : Nat) (s : State) (o : W16) : flashLen (taken q s) o = flashLen s o := flashLen_congr (by simp) o
@[simp] theorem flashReady_taken (q : Nat) (s : State) : flashReady (taken q s) = flashReady s := flashReady_congr (by simp)
@[simp] theorem flashWorn_taken (q : Nat) (s : State) : flashWorn (taken q s) = flashWorn s := flashWorn_congr (by simp)
@[simp] theorem slot_taken (q : Nat) (s : State) (i : Nat) : slot (taken q s) i = slot s i := slot_congr i (by simp)
@[simp] theorem slotImage_taken (q : Nat) (s : State) (i : Nat) : slotImage (taken q s) i = slotImage s i := by
  rw [slotImage, slot_taken, membersImage_congr (s := s) (by simp), slotImage]

/-- An append reaches no part of the dealers. -/
@[simp] theorem appendFlash_dealer (o : Nat) (bs : List Byte) (s : State) : (appendFlash o bs s).dealer = s.dealer := by
  refine (congrArg State.dealer (sansLayers_appendFlash o bs s)).trans ?_
  split <;> rfl

/-- As `appendFlash_flash_congr`, for tiers that agree on the placement table and the flash objects. -/
theorem appendFlash_flash_congr_tables {s t : State} (hobjects : t.tiers.objects = s.tiers.objects) (hflash : t.tiers.flash = s.tiers.flash)
    (o : Nat) (bs : List Byte) : (appendFlash o bs t).tiers.flash = (appendFlash o bs s).tiers.flash := by
  have hstored (u : State) : (appendFlash o bs u).tiers.flash = _ := (congrArg (fun s => s.tiers.flash) (sansLayers_appendFlash o bs u) :)
  rw [hstored, hstored, obj_congr o hobjects]
  split <;> simp only [State.sansLayers, setFlash, hflash]

/-! ### RESTORE begins (R378) -/

/-- A state with one more restore outstanding. -/
def restoring (k : Ticket) (b : RestoreBody) (s : State) : State :=
  { s with conceal := { s.conceal with restores := s.conceal.restores ++ [(k, b)] } }

/-- A restore from a flash object here, without a log, asks no peer. -/
theorem restoreStart_local {b : RestoreBody} {s : State} (hsource : b.source = 0) (hlog : b.logObject = 0xFFFF)
    (hflash : (obj s b.object.toNat).inFlash = true) (k : Ticket) : restoreStart b k s = restoring k b s := by
  simp [restoreStart, localLogOk, restoring, hsource, hlog, hflash]

theorem restoreBodyRun_local {b : RestoreBody} {s : State} (hidle : s.dealer.phase = .idle) (hsource : b.source = 0)
    (hlog : b.logObject = 0xFFFF) (hready : flashReady s = true) (hflash : (obj s b.object.toNat).inFlash = true) (h : Hdr) (k : Ticket) :
    restoreBodyRun h b k s = restoring k b s := by
  simp [restoreBodyRun, hidle, hsource, whenFlash_of_ready hready, restoreStart_local hsource hlog hflash]

/-- A local RESTORE in IDLE is outstanding; the dealers and the tiers are as they were. -/
theorem restore_completes {q : Nat} {h : Hdr} {b : RestoreBody} {s : State} (ha : accepts s q h true = true)
    (hidle : s.dealer.phase = .idle) (hsource : b.source = 0) (hlog : b.logObject = 0xFFFF) (hready : flashReady s = true)
    (hflash : (obj s b.object.toNat).inFlash = true) : Completes (.restore q h b) s (fun t =>
      t.conceal.restores = s.conceal.restores ++ [(nextTicket s q h, b)] ∧ Outstanding q s t ∧ t.tiers = s.tiers ∧
      t.dealer = s.dealer) := by
  have hbody := restoreBodyRun_local (s := taken q s) (by simpa using hidle) hsource hlog (by simpa using hready) (by simpa using hflash)
    h (nextTicket s q h)
  refine ⟨restoring (nextTicket s q h) b (taken q s), by rw [exec_restore_accepts q h b s ha, hbody], ?_,
    outstanding_of_queues ?_ rfl, ?_⟩
  all_goals simp [restoring]

/-! ### RESTORE_DONE (R378) -/

/-- The oldest restore has left the list. -/
def withRestores (rest : List (Ticket × RestoreBody)) (s : State) : State := { s with conceal := { s.conceal with restores := rest } }

/-- The listed objects, stored from a checkpoint's bytes. -/
def ckptStored (bs : List Byte) (s : State) : State :=
  (ckptEntries bs).foldl (fun s e => storeBg (obj s e.1).base (part bs e.2.2.1 e.2.1) s) s

/-- A checkpoint restored without a log: stored, and its STEP in force. -/
def restored (bs : List Byte) (s : State) : State :=
  let s1 := ckptStored bs s
  { s1 with
    dealer := { s1.dealer with stepNumber := BitVec.ofNat 64 (fieldAt bs 8 8) }
    conceal := { s1.conceal with localLog := 0xFFFF } }

/-- Objects left undefined one after another. -/
def undefineAll (os : List Nat) (s : State) : State := os.foldl (fun s o => undefineObject o s) s

@[simp] theorem ckptStored_frame (bs : List Byte) (s : State) :
    (ckptStored bs s).out = s.out ∧ (ckptStored bs s).host = s.host ∧ (ckptStored bs s).units = s.units ∧
    (ckptStored bs s).conceal = s.conceal ∧ (ckptStored bs s).tiers.objects = s.tiers.objects := by
  have hkeep {β : Type} (p : State → β) (hp : ∀ a xs t, p (storeBg a xs t) = p t) : p (ckptStored bs s) = p s :=
    foldl_keeps p (fun t _ => hp _ _ t) _ s
  exact ⟨hkeep State.out (by simp), hkeep State.host (by simp), hkeep State.units (by simp), hkeep State.conceal (by simp),
    hkeep (fun t => t.tiers.objects) (by simp)⟩

theorem undefineObject_conceal (o : Nat) (s : State) : (undefineObject o s).conceal = s.conceal := by
  unfold undefineObject
  dsimp only
  split
  · simp [undefineBytes]
  · rfl

@[simp] theorem undefineAll_frame (os : List Nat) (s : State) :
    (undefineAll os s).out = s.out ∧ (undefineAll os s).host = s.host ∧ (undefineAll os s).conceal = s.conceal ∧
    (undefineAll os s).dealer.stepNumber = s.dealer.stepNumber := by
  have hkeep {β : Type} (p : State → β) (hp : ∀ o t, p (undefineObject o t) = p t) : p (undefineAll os s) = p s :=
    foldl_keeps p (fun t o => hp o t) os s
  exact ⟨hkeep State.out (by simp), hkeep State.host (by simp), hkeep State.conceal undefineObject_conceal,
    hkeep (fun t => t.dealer.stepNumber) (fun o t => congrArg Turn.stepNumber (turn_undefineObject o t))⟩

section
variable {k : Ticket} {b : RestoreBody} {data log : List Byte} {rest : List (Ticket × RestoreBody)} {s : State}

theorem restoreFinish_of_good (hrestores : s.conceal.restores = (k, b) :: rest) (hsource : b.source = 1) (hlog : b.logObject = 0xFFFF)
    (hgood : restoreFault s b data log = none) :
    restoreFinish data log false s = finish k Status.ok (restored data (withRestores rest s)) := by
  have hpeer : ¬ b.source = 0 := by rw [hsource]; decide
  simp only [restoreFinish, hrestores, hpeer, if_false, Bool.false_eq_true, hgood, hlog, if_true]
  rfl

/-- A peer that refuses ends the restore, whatever the checkpoint's bytes. -/
theorem restoreFinish_of_refused (hrestores : s.conceal.restores = (k, b) :: rest) :
    ∃ os, restoreFinish data log true s = finish k Status.ckptDigest (undefineAll os (withRestores rest s)) := by
  simp only [restoreFinish, hrestores, if_true]
  exact ⟨_, rfl⟩

/-- RESTORE_DONE of a good checkpoint from a peer: the dealers go on from its STEP. -/
theorem restoreDone_completes (hrestores : s.conceal.restores = (k, b) :: rest) (hsource : b.source = 1) (hlog : b.logObject = 0xFFFF)
    (hgood : restoreFault s b data log = none) (herr : (queue s k.q).error = false) (hring : (queue s k.q).cqSize ≠ 0) :
    Completes (.restoreDone data log false) s (fun t =>
      Reported k Status.ok 0 s t ∧ t.dealer.stepNumber = BitVec.ofNat 64 (fieldAt data 8 8) ∧ t.conceal.restores = rest ∧
      t.tiers.objects = s.tiers.objects ∧ t.units = s.units) := by
  refine ⟨_, by rw [exec_restoreDone, restoreFinish_of_good hrestores hsource hlog hgood],
    finish_reported_of_queues ?_ ?_ herr hring, ?_⟩ <;> simp [restored, withRestores]

/-- A refused restore ends with CKPT_DIGEST and leaves STEP_NUMBER alone. -/
theorem restoreDone_refused (hrestores : s.conceal.restores = (k, b) :: rest) (herr : (queue s k.q).error = false)
    (hring : (queue s k.q).cqSize ≠ 0) : Completes (.restoreDone data log true) s (fun t =>
      Reported k Status.ckptDigest 0 s t ∧ t.dealer.stepNumber = s.dealer.stepNumber ∧ t.conceal.restores = rest) := by
  obtain ⟨os, hend⟩ := restoreFinish_of_refused (data := data) (log := log) hrestores
  refine ⟨_, by rw [exec_restoreDone, hend], finish_reported_of_queues ?_ ?_ herr hring, ?_⟩ <;> simp [withRestores]

end

/-! ### SNAPSHOT begins (R318, R403) -/

/-- A state with one more snapshot outstanding, of the slot and the STEP_NUMBER that it finds. -/
def snapshotting (k : Ticket) (b : SnapshotBody) (s : State) : State :=
  { s with conceal := { s.conceal with
    snapshots := s.conceal.snapshots ++ [{ ticket := k, body := b, step := s.dealer.stepNumber, slot := slot s b.slot.toNat }] } }

/-- What a SNAPSHOT's slot and the objects that it names must be (R318). -/
structure SnapshotFits (s : State) (b : SnapshotBody) : Prop where
  usable        : slotUsable (slot s b.slot.toNat) = true
  imageHolds    : flashHolds s b.image (slotImage s b.slot.toNat).length = true
  imageEmpty    : flashLen s b.image = 0
  manifestHolds : flashHolds s b.manifest 256 = true
  manifestEmpty : flashLen s b.manifest = 0
  distinct      : b.image ≠ b.manifest

theorem SnapshotFits.taken {s : State} {b : SnapshotBody} (hfits : SnapshotFits s b) (q : Nat) : SnapshotFits (taken q s) b := by
  obtain ⟨husable, hholds, hempty, hmholds, hmempty, hne⟩ := hfits
  constructor <;> simpa

theorem snapshotStart_of_fits {b : SnapshotBody} {s : State} (hfits : SnapshotFits s b) (hworn : flashWorn s = false) (k : Ticket) :
    snapshotStart b k s = snapshotting k b s := by
  obtain ⟨husable, hholds, hempty, hmholds, hmempty, hne⟩ := hfits
  simp [snapshotStart, snapshotting, husable, hholds, hempty, hmholds, hmempty, hne, hworn]

theorem snapshotBodyRun_of_fits {b : SnapshotBody} {s : State} (hslot : b.slot.toNat < 2) (hflags : b.flags.toNat < 2)
    (hready : flashReady s = true) (hfits : SnapshotFits s b) (hworn : flashWorn s = false) (h : Hdr) (k : Ticket) :
    snapshotBodyRun h b k s = snapshotting k b s := by
  have hformat : ¬(2 ≤ b.slot.toNat ∨ 2 ≤ b.flags.toNat) := by omega
  simp only [snapshotBodyRun, hformat, if_false, whenFlash_of_ready hready, snapshotStart_of_fits hfits hworn]

/-- A SNAPSHOT in order is outstanding; the dealers and the tiers are as they were. -/
theorem snapshot_completes {q : Nat} {h : Hdr} {b : SnapshotBody} {s : State} (ha : accepts s q h true = true)
    (hslot : b.slot.toNat < 2) (hflags : b.flags.toNat < 2) (hready : flashReady s = true) (hworn : flashWorn s = false)
    (hfits : SnapshotFits s b) : Completes (.snapshot q h b) s (fun t =>
      t.conceal.snapshots = s.conceal.snapshots ++
        [{ ticket := nextTicket s q h, body := b, step := s.dealer.stepNumber, slot := slot s b.slot.toNat }] ∧
      Outstanding q s t ∧ t.tiers = s.tiers ∧ t.dealer = s.dealer) := by
  have hbody := snapshotBodyRun_of_fits hslot hflags (by simpa using hready) (hfits.taken q) (by simpa using hworn) h (nextTicket s q h)
  refine ⟨snapshotting (nextTicket s q h) b (taken q s), by rw [exec_snapshot_accepts q h b s ha, hbody], ?_,
    outstanding_of_queues ?_ rfl, ?_⟩
  all_goals simp [snapshotting]

/-! ### SNAPSHOT_DURABLE and SNAPSHOT_EXPORT (R318) -/

/-- An image and its manifest, appended to their objects. -/
def appendSnapshot (image manifest : W16) (img man : List Byte) (s : State) : State :=
  appendFlash manifest.toNat man (appendFlash image.toNat img s)

@[simp] theorem appendSnapshot_frame (image manifest : W16) (img man : List Byte) (s : State) :
    (appendSnapshot image manifest img man s).out = s.out ∧ (appendSnapshot image manifest img man s).host = s.host ∧
    (appendSnapshot image manifest img man s).dealer = s.dealer ∧ (appendSnapshot image manifest img man s).conceal = s.conceal ∧
    (appendSnapshot image manifest img man s).tiers.mem = s.tiers.mem ∧
    (appendSnapshot image manifest img man s).tiers.objects = s.tiers.objects := by
  simp [appendSnapshot]

theorem appendSnapshot_flash_congr {s t : State} (hobjects : t.tiers.objects = s.tiers.objects) (hflash : t.tiers.flash = s.tiers.flash)
    (image manifest : W16) (img man : List Byte) :
    (appendSnapshot image manifest img man t).tiers.flash = (appendSnapshot image manifest img man s).tiers.flash :=
  appendFlash_flash_congr_tables (by simpa using hobjects) (appendFlash_flash_congr_tables hobjects hflash _ _) _ _

/-- The oldest snapshot has left the list, and the reads of its members are counted. -/
def membersRead (j : SnapJob) (rest : List SnapJob) (s : State) : State :=
  j.slot.members.foldl (fun s o => bgObj (obj s o) 0 (obj s o).len s) { s with conceal := { s.conceal with snapshots := rest } }

@[simp] theorem membersRead_frame (j : SnapJob) (rest : List SnapJob) (s : State) :
    (membersRead j rest s).out = s.out ∧ (membersRead j rest s).host = s.host ∧ (membersRead j rest s).dealer = s.dealer ∧
    (membersRead j rest s).conceal = { s.conceal with snapshots := rest } ∧ (membersRead j rest s).tiers.mem = s.tiers.mem ∧
    (membersRead j rest s).tiers.objects = s.tiers.objects ∧ (membersRead j rest s).tiers.flash = s.tiers.flash := by
  have hkeep {β : Type} (p : State → β) (hp : ∀ x off n t, p (bgObj x off n t) = p t) :
      p (membersRead j rest s) = p { s with conceal := { s.conceal with snapshots := rest } } :=
    foldl_keeps p (fun t _ => hp _ _ _ t) _ _
  exact ⟨hkeep State.out (by simp), hkeep State.host (by simp), hkeep State.dealer (by simp), hkeep State.conceal (by simp),
    hkeep (fun t => t.tiers.mem) (by simp), hkeep (fun t => t.tiers.objects) (by simp), hkeep (fun t => t.tiers.flash) (by simp)⟩

/-- The manifest of an outstanding snapshot (Table 10.4). -/
def SnapJob.manifest (s : State) (j : SnapJob) : List Byte :=
  snapshotManifest s (j.body.slot.toNat % 2) j.slot j.step (membersImage s j.slot)

theorem snapshotEnd_local {j : SnapJob} {rest : List SnapJob} {s : State} (hsnapshots : s.conceal.snapshots = j :: rest)
    (hflags : j.body.flags = 0) (hread : ReadsGood s (j.spans s)) (refused : Bool) :
    snapshotEnd refused s = finish j.ticket Status.ok
      (appendSnapshot j.body.image j.body.manifest (membersImage s j.slot) (j.manifest s) (membersRead j rest s)) := by
  have hread' : engineRead (j.spans s) .clean s = .good s := hread
  have hlocal : ¬ j.body.flags.getLsbD 0 = true := by simp [hflags]
  simp only [snapshotEnd, hsnapshots, hread', hlocal]
  rfl

/-- SNAPSHOT_DURABLE of a snapshot that is not exported: image and manifest are appended, and the record follows them. -/
theorem snapshotDurable_completes {j : SnapJob} {rest : List SnapJob} {s : State} (hsnapshots : s.conceal.snapshots = j :: rest)
    (hflags : j.body.flags = 0) (hread : ReadsGood s (j.spans s)) (herr : (queue s j.ticket.q).error = false)
    (hring : (queue s j.ticket.q).cqSize ≠ 0) : Completes (.snapshotDurable false) s (fun t =>
      Reported j.ticket Status.ok 0 s t ∧ t.conceal.snapshots = rest ∧ SameMemory s t ∧ t.dealer = s.dealer ∧
      t.tiers.objects = s.tiers.objects ∧
      t.tiers.flash = (appendSnapshot j.body.image j.body.manifest (membersImage s j.slot) (j.manifest s) s).tiers.flash) := by
  have hflash := appendSnapshot_flash_congr (s := s) (t := membersRead j rest s) (by simp) (by simp) j.body.image j.body.manifest
    (membersImage s j.slot) (j.manifest s)
  refine ⟨_, by rw [exec_snapshotDurable, snapshotEnd_local hsnapshots hflags hread], finish_reported_of_queues ?_ ?_ herr hring,
    ?_, sameMemory_of_mem ?_, ?_⟩
  all_goals simp [hflash]

/-- A peer's image and manifest, for objects here that are empty and hold them, are appended and acknowledged. -/
theorem snapshotExport_completes {image manifest : W16} {data mdata : List Byte} {s : State} (hholds : flashHolds s image data.length = true)
    (hempty : flashLen s image = 0) (hmholds : flashHolds s manifest mdata.length = true) (hmempty : flashLen s manifest = 0)
    (hne : image ≠ manifest) (hworn : flashWorn s = false) (hready : flashReady s = true) (node : BitVec 15) :
    Completes (.snapshotExport node image manifest data mdata) s (fun t =>
      t.out = s.out ++ [.bulkNode node Msg.snapshotAck (leBytes 2 image.toNat)] ∧ SameMemory s t ∧ t.dealer = s.dealer ∧
      t.tiers.flash = (appendSnapshot image manifest data mdata s).tiers.flash) := by
  refine ⟨emit (.bulkNode node Msg.snapshotAck (leBytes 2 image.toNat)) (appendSnapshot image manifest data mdata s), ?_, ?_,
    sameMemory_of_mem ?_, ?_⟩
  · simp [exec, execSnapshotExport, hholds, hempty, hmholds, hmempty, hne, hworn, hready, appendSnapshot]
  · exact congrArg (· ++ [_]) (appendSnapshot_frame image manifest data mdata s).1
  · simp
  · simp

/-- Settles O16: a taken RESTORE or SNAPSHOT is kept in its list, and its end event takes it off the list with its whole effect. -/
theorem restoresAndSnapshots : Obligations.RestoresAndSnapshots := by
  refine ⟨⟨fun _ _ _ _ ha hidle hsource hlog hready hflash => restore_completes ha hidle hsource hlog hready hflash,
    fun _ _ _ _ _ _ hrestores hsource hlog hgood herr hring => restoreDone_completes hrestores hsource hlog hgood herr hring,
    fun _ _ _ _ _ _ hrestores herr hring => restoreDone_refused hrestores herr hring⟩,
    fun _ _ _ _ ha hslot hflags hready hworn husable hholds hempty hmholds hmempty hne =>
      snapshot_completes ha hslot hflags hready hworn ⟨husable, hholds, hempty, hmholds, hmempty, hne⟩,
    fun _ _ _ hsnapshots hflags hread herr hring => snapshotDurable_completes hsnapshots hflags hread herr hring,
    fun node _ _ _ _ _ hholds hempty hmholds hmempty hne hworn hready =>
      snapshotExport_completes hholds hempty hmholds hmempty hne hworn hready node⟩

end Sys2Proof.Machine
end

section
/-! SUPPORT. Steady operations: the operations that all meanings share. Each leaves the queue of waiting commands alone
and memory canonical. -/

namespace Sys2Proof.Machine

/-- From `s₀` to `s` no waiting command or event has come or gone, and memory has stayed canonical. -/
structure Steady (s₀ s : State) : Prop where
  pending : s.pending = s₀.pending
  memOk : MemOk s₀ → MemOk s

/-- A meaning answers a next state, steadily. -/
def Goes (s₀ : State) (o : Out) : Prop := ∃ t, o = .next t ∧ Steady s₀ t

variable {s₀ s t : State}

theorem steady_refl (s : State) : Steady s s := ⟨rfl, id⟩

section
variable {tick : W64} {dealer : Dealer} {units : Units} {counters : Counters} {tiers : Tiers} {unlia : Unlia} {conceal : Conceal}
  {host : HostIf} {resets : Resets} {glaren : Glaren} {out : List Emit} {framed free : Nat}

/-- Any field but the queue may change, memory from one canonical form to another. -/
theorem steady_withMem (h : Steady s₀ s) (hm : Memory.wf s.tiers.mem = true → Memory.wf tiers.mem = true) :
    Steady s₀ ⟨s.pending, tick, dealer, units, counters, tiers, unlia, conceal, host, resets, glaren, out, framed, free⟩ :=
  ⟨h.pending, fun h₀ => hm (h.memOk h₀)⟩

theorem steady_with (h : Steady s₀ s) (hm : tiers.mem = s.tiers.mem) :
    Steady s₀ ⟨s.pending, tick, dealer, units, counters, tiers, unlia, conceal, host, resets, glaren, out, framed, free⟩ :=
  steady_withMem h (fun h₀ => hm ▸ h₀)
end

theorem steady_foldl {α : Type} {f : State → α → State} {l : List α} (hf : ∀ s x, Steady s₀ s → Steady s₀ (f s x))
    (h : Steady s₀ s) : Steady s₀ (l.foldl f s) :=
  List.foldlRecOn l f h (fun s hs x _ => hf s x hs)

theorem steady_foldl_fst {α β : Type} {x : State × β} {f : State × β → α → State × β} {l : List α}
    (hf : ∀ x a, Steady s₀ x.1 → Steady s₀ (f x a).1) (h : Steady s₀ x.1) : Steady s₀ (l.foldl f x).1 :=
  List.foldlRecOn (motive := fun x : State × β => Steady s₀ x.1) l f h (fun x hx a _ => hf x a hx)

theorem goes_next (h : Steady s₀ t) : Goes s₀ (.next t) := ⟨t, rfl, h⟩

/-! ### Emissions, records, marks, objects, the running step -/

theorem steady_fillWrite {a : Nat} {bs : List Byte} (h : Steady s₀ s) : Steady s₀ (fillWrite a bs s) := by
  have hw := writeBytes_wf bs s.tiers.mem a
  unfold fillWrite
  split
  · split
    · exact steady_withMem h hw
    · exact steady_withMem h (fun h₀ => writeBytes_foldl_wf _ _ _ _ (hw h₀))
  · exact steady_withMem h hw

theorem steady_undefineBytes {a n : Nat} (h : Steady s₀ s) : Steady s₀ (undefineBytes a n s) := steady_with (steady_fillWrite h) rfl

theorem steady_emit {e : Emit} (h : Steady s₀ s) : Steady s₀ (emit e s) := by
  unfold emit
  split
  · split
    · exact steady_with h rfl
    · exact h
  · exact steady_with h rfl

theorem steady_setPort {p : Port} {f : PortSt → PortSt} (h : Steady s₀ s) : Steady s₀ (setPort p f s) := steady_with h rfl

theorem steady_raiseEventAt {p : Port} {n : Nat} (h : Steady s₀ s) : Steady s₀ (raiseEventAt p n s) := by
  unfold raiseEventAt
  dsimp only
  split
  · exact steady_emit (steady_setPort h)
  · exact steady_setPort h

theorem steady_raiseEvent {n : Nat} (h : Steady s₀ s) : Steady s₀ (raiseEvent n s) := steady_raiseEventAt (steady_raiseEventAt h)
theorem steady_commitScore {r : Score} (h : Steady s₀ s) : Steady s₀ (commitScore r s) := steady_with h rfl

theorem steady_score {source outcome code : Nat} {step : W64} {data : List Byte}
    (h : Steady s₀ s) : Steady s₀ (score source outcome code step data s) := by
  unfold score
  dsimp only
  split
  · refine steady_commitScore ?_
    split
    · exact steady_commitScore h
    · exact h
  · split <;> exact steady_with h rfl

theorem steady_setQueue {q : Nat} {f : Queue → Queue} (h : Steady s₀ s) : Steady s₀ (setQueue q f s) := steady_with h rfl
theorem steady_setMark {m : Nat} {f : Mark → Mark} (h : Steady s₀ s) : Steady s₀ (setMark m f s) := steady_with h rfl

theorem steady_markNotify {m : Nat} (h : Steady s₀ s) : Steady s₀ (markNotify m s) := by
  unfold markNotify
  dsimp only
  split
  · exact steady_emit (steady_setMark h)
  · exact h

theorem steady_addMark {m n : Nat} (h : Steady s₀ s) : Steady s₀ (addMark m n s) := steady_markNotify (steady_setMark h)

theorem steady_complete {t : Ticket} {status : Byte} {result : W64} {nonfinite : Bool}
    (h : Steady s₀ s) : Steady s₀ (complete t status result nonfinite s) := by
  unfold complete
  dsimp only
  split
  · refine steady_addMark ?_
    split
    · exact steady_setQueue h
    · split
      · exact steady_emit (steady_emit (steady_setQueue (steady_setQueue h)))
      · exact steady_emit (steady_setQueue (steady_setQueue h))
  · split
    · exact steady_setQueue h
    · split
      · exact steady_emit (steady_emit (steady_setQueue (steady_setQueue h)))
      · exact steady_emit (steady_setQueue (steady_setQueue h))

theorem steady_finish {t : Ticket} {status : Byte} (h : Steady s₀ s) : Steady s₀ (finish t status s) := steady_complete h

theorem steady_finishOpt {t : Option Ticket} {status : Byte} (h : Steady s₀ s) : Steady s₀ (finishOpt t status s) := by
  unfold finishOpt
  split
  · exact steady_finish h
  · exact h

theorem steady_reject {f : Fn} {offset : Nat} (h : Steady s₀ s) : Steady s₀ (reject f offset s) := steady_with h rfl

theorem steady_control {f : Fn} {offset : Nat} {apply : State → State} (happly : ∀ s, Steady s₀ s → Steady s₀ (apply s))
    (h : Steady s₀ s) : Steady s₀ (control f offset apply s) := by
  unfold control
  split
  · exact h
  · split
    · exact h
    · split
      · exact happly _ h
      · exact steady_reject h

theorem goes_withUnit {i n : Nat} {k : State → State} (hk : ∀ s, Steady s₀ s → Steady s₀ (k s))
    (h : Steady s₀ s) : Goes s₀ (withUnit i n s k) := by
  unfold withUnit
  refine goes_next ?_
  split
  · exact hk _ h
  · exact h

theorem steady_setObj {o : Nat} {f : Obj → Obj} (h : Steady s₀ s) : Steady s₀ (setObj o f s) := steady_with h rfl
theorem steady_setFlash {hdr : W32} {f : List Byte → List Byte} (h : Steady s₀ s) : Steady s₀ (setFlash hdr f s) := steady_with h rfl

theorem steady_storeLines {a : Nat} {bs : List Byte} (h : Steady s₀ s) : Steady s₀ (storeLines a bs s) :=
  ⟨(steady_fillWrite h).pending, fun h₀ => storeLines_wf a bs s (h.memOk h₀)⟩

theorem steady_bgTouch {a n : Nat} (h : Steady s₀ s) : Steady s₀ (bgTouch a n s) := steady_with h rfl

theorem steady_bgObj {o : Obj} {off n : Nat} (h : Steady s₀ s) : Steady s₀ (bgObj o off n s) := by
  unfold bgObj
  split
  · exact steady_bgTouch h
  · exact h

theorem steady_storeBg {a : Nat} {bs : List Byte} (h : Steady s₀ s) : Steady s₀ (storeBg a bs s) := steady_bgTouch (steady_storeLines h)
theorem steady_setRequest {e : Nat} {f : Request → Request} (h : Steady s₀ s) : Steady s₀ (setRequest e f s) := steady_with h rfl
theorem steady_setSlot {i : Nat} {f : Slot → Slot} (h : Steady s₀ s) : Steady s₀ (setSlot i f s) := steady_with h rfl
theorem steady_setRun {f : Run → Run} (h : Steady s₀ s) : Steady s₀ (setRun f s) := steady_with h rfl

theorem steady_raiseFault {code p ac pc : Nat} (h : Steady s₀ s) : Steady s₀ (raiseFault code p ac pc s) := by
  unfold raiseFault
  split
  · exact h
  · split
    · split
      · exact h
      · dsimp only
        exact steady_with h rfl
    · split
      · exact h
      · dsimp only
        exact steady_with h rfl

theorem steady_abandonRun (h : Steady s₀ s) : Steady s₀ (abandonRun s) := steady_setRun h

theorem steady_failEngine {k e : Nat} (h : Steady s₀ s) : Steady s₀ (failEngine k e s) := by
  unfold failEngine
  dsimp only
  split
  · exact h
  · exact steady_score (steady_with h rfl)

theorem steady_onchipCorrected {die k : Nat} (h : Steady s₀ s) : Steady s₀ (onchipCorrected die k s) := steady_with h rfl
theorem steady_sramDouble {line : Nat} (h : Steady s₀ s) : Steady s₀ (sramDouble line s) := steady_score (steady_with h rfl)

theorem steady_poisonObject {o line : Nat} (h : Steady s₀ s) : Steady s₀ (poisonObject o line s) :=
  steady_raiseEvent (steady_score (steady_with (steady_setObj h) rfl))

theorem steady_setGroup {g : Nat} {f : Group → Group} (h : Steady s₀ s) : Steady s₀ (setGroup g f s) := steady_with h rfl
theorem steady_setUPort {u : Nat} {f : UPort → UPort} (h : Steady s₀ s) : Steady s₀ (setUPort u f s) := steady_with h rfl
theorem steady_setLayer {d : Nat} {f : FlashLayer → FlashLayer} (h : Steady s₀ s) : Steady s₀ (setLayer d f s) := steady_with h rfl
theorem steady_setBlock {b : Nat} {f : Block → Block} (h : Steady s₀ s) : Steady s₀ (setBlock b f s) := steady_with h rfl
theorem steady_addOp {o : Op} (h : Steady s₀ s) : Steady s₀ (addOp o s) := steady_with h rfl
theorem steady_setOp {id : Nat} {o : Op} (h : Steady s₀ s) : Steady s₀ (setOp id o s) := steady_with h rfl

theorem steady_setStream {id : Nat} {f : StreamOp → StreamOp} (h : Steady s₀ s) : Steady s₀ (setStream id f s) := by
  unfold setStream
  split
  · exact steady_setOp h
  · exact h

theorem steady_dropOp {id : Nat} (h : Steady s₀ s) : Steady s₀ (dropOp id s) := steady_with h rfl

/-! ### Pages of requests -/

theorem steady_setPage {p : Nat} {f : Page → Page} (h : Steady s₀ s) : Steady s₀ (setPage p f s) := steady_with h rfl

theorem steady_writeObj {o off : Nat} {bs : List Byte} (h : Steady s₀ s) : Steady s₀ (writeObj o off bs s) := by
  unfold writeObj
  dsimp only
  split
  · exact steady_setFlash h
  · split
    · exact steady_storeLines h
    · exact h

theorem steady_writePieces {xs : List Piece} {bs : List Byte} (h : Steady s₀ s) : Steady s₀ (writePieces xs bs s) := by
  induction xs generalizing bs s with
  | nil => exact h
  | cons x xs ih =>
    refine ih ?_
    split
    · exact h
    · exact steady_writeObj h

theorem steady_streamStore {r : Run} {p a : Nat} {bs : List Byte} (h : Steady s₀ s) : Steady s₀ (streamStore r p a bs s) := by
  unfold streamStore
  split
  · exact steady_writePieces h
  · exact steady_storeLines h

theorem steady_streamUndefine {r : Run} {p a n : Nat} (h : Steady s₀ s) : Steady s₀ (streamUndefine r p a n s) :=
  steady_streamStore (steady_with h rfl)

/-! ### The module tick -/

theorem steady_passTick (h : Steady s₀ s) : Steady s₀ (passTick s) := by
  unfold passTick
  split
  · dsimp only
    exact steady_with h rfl
  · exact h

theorem steady_wake (h : Steady s₀ s) : Steady s₀ (wake s) := steady_with h rfl

/-! ### Requests and their records -/

theorem steady_freePage {p : Nat} (h : Steady s₀ s) : Steady s₀ (freePage p s) := by
  unfold freePage
  dsimp only
  refine steady_with ?_ rfl
  split
  · exact steady_with (steady_setPage h) rfl
  · exact steady_setPage (steady_setPage h)

theorem steady_freePages {e : Nat} (h : Steady s₀ s) : Steady s₀ (freePages e s) := by
  unfold freePages
  dsimp only
  refine steady_foldl (fun _ _ h1 => ?_) h
  split
  · exact steady_freePage h1
  · exact steady_score (steady_with h1 rfl)

theorem steady_allocPage {e : Nat} (h : Steady s₀ s) : Steady s₀ (allocPage e s) := by
  unfold allocPage
  dsimp only
  refine steady_setRequest ?_
  split
  · exact steady_setPage (steady_with h rfl)
  · exact steady_setPage (steady_setPage (steady_with h rfl))

theorem steady_allocPages {e n : Nat} (h : Steady s₀ s) : Steady s₀ (allocPages e n s) := by
  induction n generalizing s with
  | zero => exact h
  | succ n ih => exact ih (steady_allocPage h)

theorem steady_commitRecord {q : Nat} {bs : List Byte} (h : Steady s₀ s) : Steady s₀ (commitRecord q bs s) := steady_with h rfl

theorem steady_writeRecord {q : Nat} {bs : List Byte} (h : Steady s₀ s) : Steady s₀ (writeRecord q bs s) := by
  unfold writeRecord
  dsimp only
  split
  · exact h
  · exact steady_emit (steady_setQueue h)

theorem steady_ringInterrupts {before : State} (h : Steady s₀ s) : Steady s₀ (ringInterrupts before s) := by
  unfold ringInterrupts
  refine steady_foldl (fun _ _ h1 => ?_) h
  split
  · exact steady_emit h1
  · exact h1

theorem steady_writeRecords (h : Steady s₀ s) : Steady s₀ (writeRecords s) :=
  steady_ringInterrupts (steady_foldl (fun _ _ h1 => steady_writeRecord h1) (steady_with h rfl))

theorem steady_endEntry {e : Nat} {st : ReqState} {code : Nat} {late : Bool}
    (h : Steady s₀ s) : Steady s₀ (endEntry e st code late s) :=
  steady_foldl (fun _ _ h1 => steady_finish h1) (steady_with (steady_commitRecord (steady_with (steady_setRequest
    (steady_freePages h)) rfl)) rfl)

/-! ### What fails and what a lost link takes down -/

theorem steady_undefineObject {o : Nat} (h : Steady s₀ s) : Steady s₀ (undefineObject o s) := by
  unfold undefineObject
  dsimp only
  split
  · exact steady_undefineBytes h
  · exact h

theorem steady_dropBuilding (h : Steady s₀ s) : Steady s₀ (dropBuilding s) := by
  unfold dropBuilding
  split
  · exact h
  · dsimp only
    split
    · exact steady_foldl (fun _ _ h1 => steady_undefineObject h1) (steady_setSlot (steady_with h rfl))
    · exact steady_with h rfl

theorem steady_failBuilding {status : Byte} (h : Steady s₀ s) : Steady s₀ (failBuilding status s) := by
  unfold failBuilding
  split
  · exact h
  · exact steady_complete (steady_dropBuilding h)

theorem steady_failFlagged (h : Steady s₀ s) : Steady s₀ (failFlagged s) := steady_failBuilding (steady_with h rfl)

theorem steady_endColl {c : Coll} {status : Byte} {nonfinite : Bool} (h : Steady s₀ s) : Steady s₀ (endColl c status nonfinite s) := by
  unfold endColl
  dsimp only
  split
  · refine steady_addOp ?_
    split
    · exact steady_complete h
    · exact h
  · split
    · exact steady_complete h
    · exact h

theorem steady_failColl {c : Coll} {status : Byte} (h : Steady s₀ s) : Steady s₀ (failColl c status s) := steady_endColl
    (steady_with h rfl)

theorem steady_failOp {id : Nat} {status : Byte} (h : Steady s₀ s) : Steady s₀ (failOp id status s) := by
  unfold failOp
  split
  · exact h
  · dsimp only
    refine steady_finishOpt (steady_dropOp ?_)
    split
    · exact steady_setRequest h
    · exact h

theorem steady_changeHolder {hdr : Option Port} (h : Steady s₀ s) : Steady s₀ (changeHolder hdr s) :=
  steady_raiseEvent (steady_score (steady_with h rfl))

theorem steady_stopQueues {p : Port} (h : Steady s₀ s) : Steady s₀ (stopQueues p s) := steady_foldl (fun _ _ h1 => steady_setQueue h1) h

theorem steady_cancelPort {p : Port} (h : Steady s₀ s) : Steady s₀ (cancelPort p s) := by
  unfold cancelPort
  dsimp only
  split
  · exact steady_foldl (fun _ _ h1 => steady_setRequest h1) h
  · exact steady_wake (steady_foldl (fun _ _ h1 => steady_setRequest h1) h)

theorem steady_portDown {p : Port} (h : Steady s₀ s) : Steady s₀ (portDown p s) := by
  unfold portDown
  dsimp only
  refine steady_raiseEventAt ?_
  split
  · exact steady_changeHolder (steady_cancelPort (steady_stopQueues (steady_setPort h)))
  · exact steady_cancelPort (steady_stopQueues (steady_setPort h))

theorem steady_portCold {p : Port} (h : Steady s₀ s) : Steady s₀ (portCold p s) :=
  steady_setPort (steady_foldl (fun _ _ h1 => steady_setQueue h1) h)

/-! ### Collectives that break -/

theorem steady_breakColl {status : Byte} {c : Coll} (h : Steady s₀ s) : Steady s₀ (breakColl status c s) := by
  unfold breakColl
  dsimp only
  refine steady_failColl ?_
  split
  · exact h
  · exact steady_foldl (fun _ _ h1 => steady_undefineBytes h1) h

/-! ### Blocks and their resets -/

theorem steady_startOp {o : Op} (h : Steady s₀ s) : Steady s₀ (startOp o s) := by
  unfold startOp
  split
  · exact steady_addOp h
  · exact steady_finishOpt (steady_setBlock h)

theorem steady_failColls {b : Nat} (h : Steady s₀ s) : Steady s₀ (failColls b s) := by
  unfold failColls
  split
  · exact steady_foldl (fun _ _ h1 => steady_breakColl h1) h
  · exact h

theorem steady_failBlockOps {b : Nat} (h : Steady s₀ s) : Steady s₀ (failBlockOps b s) := by
  unfold failBlockOps
  dsimp only
  refine steady_setBlock ?_
  split
  · split
    · exact steady_failBuilding (steady_failColls (steady_foldl (fun _ _ h1 => steady_failOp h1) h))
    · exact steady_failColls (steady_foldl (fun _ _ h1 => steady_failOp h1) h)
  · exact steady_failColls (steady_foldl (fun _ _ h1 => steady_failOp h1) h)

theorem steady_clusterCold {k : Nat} (h : Steady s₀ s) : Steady s₀ (clusterCold k s) := steady_setRun (steady_with h rfl)
theorem steady_memPortCold {m : Nat} (h : Steady s₀ s) : Steady s₀ (memPortCold m s) := steady_with h rfl

theorem steady_blockCold {b : Nat} (h : Steady s₀ s) : Steady s₀ (blockCold b s) := by
  unfold blockCold
  split
  · exact steady_clusterCold h
  · split
    · exact steady_memPortCold h
    · split
      · exact steady_setLayer h
      · split
        · exact steady_setUPort h
        · split <;> exact steady_portCold h

theorem steady_abandonIfNamed {b : Nat} (h : Steady s₀ s) : Steady s₀ (abandonIfNamed b s) := by
  unfold abandonIfNamed
  split
  · split
    · exact steady_abandonRun h
    · exact h
  · exact h

theorem steady_startBlock {b : Nat} (h : Steady s₀ s) : Steady s₀ (startBlock b s) := by
  unfold startBlock
  split
  · exact h
  · exact h
  · exact h
  · exact h
  · dsimp only
    refine steady_blockCold (steady_failBlockOps (steady_setBlock (steady_abandonIfNamed ?_)))
    split
    · exact steady_portDown h
    · split
      · exact steady_portDown h
      · exact h

theorem steady_startPendingBlocks (h : Steady s₀ s) : Steady s₀ (startPendingBlocks s) :=
  steady_foldl (fun _ _ h1 => steady_startBlock h1) h

/-! ### Twins, the replay log, the checkpoint schedule -/

theorem steady_compareReports {n : Nat} (h : Steady s₀ s) : Steady s₀ (compareReports n s) := by
  induction n generalizing s with
  | zero => exact h
  | succ n ih =>
    unfold compareReports
    split
    · exact h
    · split
      · exact h
      · dsimp only
        split
        · exact ih (steady_with h rfl)
        · split
          · exact ih (steady_wake (steady_with h rfl))
          · exact ih (steady_raiseEvent (steady_score (steady_with h rfl)))

theorem steady_compareAll (h : Steady s₀ s) : Steady s₀ (compareAll s) := steady_compareReports h

theorem steady_sendReport {r : Report} (h : Steady s₀ s) : Steady s₀ (sendReport r s) := by
  unfold sendReport
  split
  · split
    · exact steady_compareAll (steady_emit (steady_with h rfl))
    · exact h
  · exact h

theorem steady_setMedia {d : Nat} {f : FlashLayer → FlashLayer} (h : Steady s₀ s) : Steady s₀ (setMedia d f s) := by
  unfold setMedia
  dsimp only
  split
  · exact steady_setLayer (steady_with h rfl)
  · exact steady_with h rfl

theorem steady_countPages {hdr : W32} {len n : Nat} (h : Steady s₀ s) : Steady s₀ (countPages hdr len n s) :=
  steady_foldl (fun _ _ h1 => steady_setMedia h1) h

theorem steady_appendFlash {o : Nat} {bs : List Byte} (h : Steady s₀ s) : Steady s₀ (appendFlash o bs s) := by
  unfold appendFlash
  dsimp only
  split
  · exact steady_countPages (steady_setFlash h)
  · exact h

theorem steady_truncateFlash {o : Nat} (h : Steady s₀ s) : Steady s₀ (truncateFlash o s) := by
  unfold truncateFlash
  dsimp only
  split
  · exact steady_setFlash h
  · exact h

theorem steady_sendLog {fresh : Bool} {bs : List Byte} (h : Steady s₀ s) : Steady s₀ (sendLog fresh bs s) := by
  unfold sendLog
  split
  · split
    · exact steady_emit h
    · exact h
  · exact h

theorem steady_flushLog (h : Steady s₀ s) : Steady s₀ (flushLog s) := by
  unfold flushLog
  split
  · exact h
  · dsimp only
    refine steady_with ?_ rfl
    split
    · exact h
    · refine steady_sendLog ?_
      split
      · exact h
      · exact steady_appendFlash h

theorem steady_addLog {r : LogRec} (h : Steady s₀ s) : Steady s₀ (addLog r s) := by
  unfold addLog
  split
  · exact h
  · exact steady_with h rfl

theorem steady_diverge {step : W64} {field : Nat} (h : Steady s₀ s) : Steady s₀ (diverge step field s) := by
  unfold diverge
  split
  · exact h
  · exact steady_raiseEvent (steady_score (steady_with h rfl))

theorem steady_checkLaunch {step : W64} {plyId : W32} {variant : Byte} {inputId : W64} {version : W32}
    (h : Steady s₀ s) : Steady s₀ (checkLaunch step plyId variant inputId version s) := by
  unfold checkLaunch
  split
  · split
    · exact h
    · split
      · exact steady_diverge h
      · split
        · exact steady_diverge h
        · split
          · exact steady_diverge h
          · split
            · exact steady_diverge h
            · exact h
  · exact h

theorem steady_checkDigest {step digest : W64} (h : Steady s₀ s) : Steady s₀ (checkDigest step digest s) := by
  unfold checkDigest
  split
  · split
    · exact h
    · split
      · exact steady_diverge h
      · exact h
  · exact h

theorem steady_switchLog (h : Steady s₀ s) : Steady s₀ (switchLog s) := by
  unfold switchLog
  split
  · split
    · dsimp only
      exact steady_sendLog (steady_truncateFlash (steady_with (steady_flushLog h) rfl))
    · exact h
  · exact h

theorem steady_takeJob {b : CkptBody} {t : Option Ticket} (h : Steady s₀ s) : Steady s₀ (takeJob b t s) := steady_bgObj
    (steady_with h rfl)

theorem steady_startJob (h : Steady s₀ s) : Steady s₀ (startJob s) := by
  unfold startJob
  split
  · split
    · exact h
    · dsimp only
      exact steady_truncateFlash (steady_with h rfl)
  · exact h

theorem steady_takeDue (h : Steady s₀ s) : Steady s₀ (takeDue s) := by
  unfold takeDue
  split
  · split
    · dsimp only
      exact steady_with (steady_takeJob (steady_switchLog h)) rfl
    · exact h
  · exact h

theorem steady_takeCheckpoint (h : Steady s₀ s) : Steady s₀ (takeCheckpoint s) :=
  steady_startJob (steady_takeDue (steady_with (steady_foldl (fun _ _ h1 => steady_takeJob h1) h) rfl))

end Sys2Proof.Machine
end

section
/-! SUPPORT. Steady operations: what instructions of programs share. Each leaves the queue of waiting commands alone
and memory canonical. -/

namespace Sys2Proof.Machine

variable {s₀ s t : State}

/-! ### Flag summaries -/

theorem steady_reportFlag {k : Nat} {r : FlagRec} (h : Steady s₀ s) : Steady s₀ (reportFlag k r s) := steady_setRun (steady_with h rfl)

theorem steady_dropFlags {a k : Nat} (h : Steady s₀ s) : Steady s₀ (dropFlags a k s) := by
  unfold dropFlags
  split
  · exact h
  · dsimp only
    exact steady_with h rfl

theorem steady_clearFlags {k : Nat} (h : Steady s₀ s) : Steady s₀ (clearFlags k s) := steady_setRun (steady_with h rfl)

theorem steady_flagRows {k src pc : Nat} {tileM tileN : W16} {ac : Nat} {rows : List (List (Option Nat))}
    (h : Steady s₀ s) : Steady s₀ (flagRows k src pc tileM tileN ac rows s) := by
  unfold flagRows
  split
  · exact steady_reportFlag h
  · exact h

/-! ### Stores of results -/

theorem steady_deliver {st : Store} {start ac : Nat} {bs : List Byte} (h : Steady s₀ s) : Steady s₀ (deliver st start ac bs s) := by
  unfold deliver
  split
  · exact h
  · dsimp only
    exact steady_setRun (steady_with h rfl)

theorem steady_sramStore {ac : Nat} {cluster : Option Nat} {src a : Nat} {bs : List Byte} (h : Steady s₀ s) :
    Steady s₀ (sramStore ac cluster src a bs s) :=
  steady_setRun (steady_withMem h (writeBytes_wf bs s.tiers.mem a))

/-! ### Issue -/

theorem steady_advanceTo {p t cost pc : Nat} (h : Steady s₀ s) : Steady s₀ (advanceTo p t cost pc s) := steady_setRun h
theorem steady_advance {p t cost : Nat} (h : Steady s₀ s) : Steady s₀ (advance p t cost s) := steady_setRun h
theorem steady_doneAt {p ac : Nat} (h : Steady s₀ s) : Steady s₀ (doneAt p ac s) := steady_setRun h

theorem steady_beforeAbort {r : Run} {p : Nat} (hs : Steady s₀ s) (ht : Steady s₀ t) : Steady s₀ (beforeAbort r p s t) := by
  unfold beforeAbort
  split
  · split
    · exact hs
    · exact ht
  · exact ht

theorem goes_issue {i : Issue} {c : Common} {x : Insn} {body : Run → Prog → State → State}
    (hbody : ∀ r pr s, Steady s₀ s → Steady s₀ (body r pr s)) (h : Steady s₀ s) : Goes s₀ (issue i c x body s) := by
  refine goes_withUnit (fun _ h1 => ?_) h
  split
  · exact h1
  · dsimp only
    split
    · split
      · exact steady_raiseFault h1
      · split
        · exact steady_raiseFault h1
        · split
          · exact steady_raiseFault h1
          · split
            · refine steady_beforeAbort h1 ?_
              split
              · refine steady_advance ?_
                split
                · exact steady_onchipCorrected h1
                · exact h1
              · refine hbody _ _ _ ?_
                split
                · exact steady_onchipCorrected h1
                · exact h1
            · exact h1
    · exact h1

theorem steady_sramEcc {i : Issue} {xs : List (Nat × Nat)} {t : Nat} (h : Steady s₀ s) : Steady s₀ (sramEcc i xs t s) := by
  unfold sramEcc
  split
  · exact steady_sramDouble (steady_setRun h)
  · split
    · exact steady_with h rfl
    · exact h

theorem steady_arrayEcc {i : Issue} (h : Steady s₀ s) : Steady s₀ (arrayEcc i s) := by
  unfold arrayEcc
  split
  · exact steady_onchipCorrected h
  · exact steady_onchipCorrected h
  · exact h

theorem steady_claimBanks {w a n ac : Nat} (h : Steady s₀ s) : Steady s₀ (claimBanks w a n ac s).2 := by
  unfold claimBanks
  split
  · exact h
  · dsimp only
    exact steady_with h rfl

theorem steady_usePort {q start past : Nat} (h : Steady s₀ s) : Steady s₀ (usePort q start past s) := steady_with h rfl

theorem steady_countHold {p w : Nat} {await : Bool} {base : Nat} {segs : List CauseSpan} {a r : Nat}
    (h : Steady s₀ s) : Steady s₀ (countHold p w await base segs a r s) := by
  unfold countHold
  split
  · exact h
  · dsimp only
    exact steady_setRun (steady_with h rfl)

/-! ### SYNC, CTRL and STAT instructions -/

theorem steady_addArrival {p w : Nat} {x : Arrival} (h : Steady s₀ s) : Steady s₀ (addArrival p w x s) := steady_setRun h
theorem steady_failWait {p w : Nat} (h : Steady s₀ s) : Steady s₀ (failWait p w s) := steady_setRun h

theorem goes_execSyncSignal {i : Issue} {c : Common} {wp : BitVec 10} {cmask : W32} {dmask : BitVec 4}
    (h : Steady s₀ s) : Goes s₀ (execSyncSignal i c wp cmask dmask s) :=
  goes_issue (fun _ _ _ h1 => steady_advance (steady_setRun h1)) h

theorem goes_execSignalArrival {n : Nat} (h : Steady s₀ s) : Goes s₀ (execSignalArrival n s) := by
  unfold execSignalArrival
  refine goes_next ?_
  split
  · exact h
  · split
    · exact h
    · dsimp only
      split
      · split
        · exact steady_setRun h
        · split
          · exact steady_addArrival (steady_setRun h)
          · exact steady_raiseFault (steady_setRun h)
      · split
        · exact steady_setRun h
        · split
          · exact steady_addArrival (steady_setRun h)
          · exact steady_raiseFault (steady_setRun h)

theorem steady_deliverCompletion {wp source : Nat} {failed : Bool} {segs : List CauseSpan} {ac q : Nat}
    (h : Steady s₀ s) : Steady s₀ (deliverCompletion wp source failed segs ac q s) := by
  unfold deliverCompletion
  split
  · exact h
  · split
    · split
      · split
        · exact steady_failWait h
        · exact steady_addArrival h
      · exact steady_raiseFault h
    · exact steady_raiseFault h

theorem goes_execExternalCompletion {op ac crossing : Nat} (h : Steady s₀ s) : Goes s₀ (execExternalCompletion op ac crossing s) := by
  unfold execExternalCompletion
  refine goes_next ?_
  split
  · dsimp only
    split
    · exact steady_dropOp h
    · split
      · exact steady_dropOp h
      · split
        · exact h
        · split
          · exact steady_setRun (steady_setRun (steady_foldl (fun _ _ h1 => steady_deliverCompletion h1) (steady_dropOp h)))
          · exact steady_setRun (steady_foldl (fun _ _ h1 => steady_deliverCompletion h1) (steady_dropOp h))
  · exact h

theorem goes_execSyncAwait {i : Issue} {c : Common} {wp : BitVec 10} {target : W16}
    (h : Steady s₀ s) : Goes s₀ (execSyncAwait i c wp target s) := by
  unfold execSyncAwait
  refine goes_issue (fun _ _ _ h1 => ?_) h
  dsimp only
  split
  · exact steady_raiseFault h1
  · split
    · exact steady_advance h1
    · split
      · exact steady_setRun h1
      · split
        · exact steady_advance (steady_countHold h1)
        · exact steady_advance (steady_setRun h1)

theorem goes_execWaitTimeout {p : Nat} (h : Steady s₀ s) : Goes s₀ (execWaitTimeout p s) := by
  unfold execWaitTimeout
  refine goes_withUnit (fun _ h1 => ?_) h
  split
  · exact h1
  · split
    · split
      · split
        · exact steady_raiseFault h1
        · exact h1
      · exact h1
    · exact h1

theorem steady_setLreg {p n : Nat} {v : BitVec 24} (h : Steady s₀ s) : Steady s₀ (setLreg p n v s) := steady_setRun h
theorem steady_setAreg {p n : Nat} {v : Addr} (h : Steady s₀ s) : Steady s₀ (setAreg p n v s) := steady_setRun h

theorem steady_takeBranch {p : Nat} {pr : Prog} {off : W16} (h : Steady s₀ s) : Steady s₀ (takeBranch p pr off s) := by
  unfold takeBranch
  split
  · exact steady_advanceTo h
  · exact steady_raiseFault h

theorem goes_execLset {i : Issue} {c : Common} {ln : BitVec 4} {imm : BitVec 24} (h : Steady s₀ s) : Goes s₀ (execLset i c ln imm s) :=
  goes_issue (fun _ _ _ h1 => steady_advance (steady_setLreg h1)) h

theorem goes_execBnz {i : Issue} {c : Common} {ln : BitVec 4} {off : W16} (h : Steady s₀ s) : Goes s₀ (execBnz i c ln off s) := by
  unfold execBnz
  refine goes_issue (fun _ _ _ h1 => ?_) h
  dsimp only
  split
  · exact steady_raiseFault h1
  · split
    · exact steady_advance (steady_setLreg h1)
    · exact steady_takeBranch (steady_setLreg h1)

theorem goes_execJump {i : Issue} {c : Common} {off : W16} (h : Steady s₀ s) : Goes s₀ (execJump i c off s) :=
  goes_issue (fun _ _ _ h1 => steady_takeBranch h1) h

theorem goes_execBvar {i : Issue} {c : Common} {vb : BitVec 3} {p : Bool} {off : W16}
    (h : Steady s₀ s) : Goes s₀ (execBvar i c vb p off s) := by
  unfold execBvar
  refine goes_issue (fun _ _ _ h1 => ?_) h
  split
  · exact steady_takeBranch h1
  · exact steady_advance h1

theorem goes_execSeta {i : Issue} {c : Common} {an : BitVec 5} {imm : BitVec 48} (h : Steady s₀ s) : Goes s₀ (execSeta i c an imm s) :=
  goes_issue (fun _ _ _ h1 => steady_advance (steady_setAreg h1)) h

theorem goes_execAdda {i : Issue} {c : Common} {an : BitVec 5} {imm : W32} (h : Steady s₀ s) : Goes s₀ (execAdda i c an imm s) :=
  goes_issue (fun _ _ _ h1 => steady_advance (steady_setAreg h1)) h

theorem goes_execCtrlNop {i : Issue} {c : Common} {imm : BitVec 24} (h : Steady s₀ s) : Goes s₀ (execCtrlNop i c imm s) :=
  goes_issue (fun _ _ _ h1 => steady_advance h1) h

theorem goes_execCtrlEnd {i : Issue} {c : Common} (h : Steady s₀ s) : Goes s₀ (execCtrlEnd i c s) :=
  goes_issue (fun _ _ _ h1 => steady_setRun (steady_advance h1)) h

theorem steady_setStat {p n : Nat} {v : W64} (h : Steady s₀ s) : Steady s₀ (setStat p n v s) := steady_setRun h

theorem goes_execInc {i : Issue} {c : Common} {sn : BitVec 3} {imm : W32} (h : Steady s₀ s) : Goes s₀ (execInc i c sn imm s) :=
  goes_issue (fun _ _ _ h1 => steady_advance (steady_setStat h1)) h

theorem goes_execStamp {i : Issue} {c : Common} {sn : BitVec 3} (h : Steady s₀ s) : Goes s₀ (execStamp i c sn s) :=
  goes_issue (fun _ _ _ h1 => steady_advance (steady_setStat h1)) h

theorem goes_execDump {i : Issue} {c : Common} {dreg : BitVec 5} (h : Steady s₀ s) : Goes s₀ (execDump i c dreg s) := by
  unfold execDump
  refine goes_issue (fun _ _ _ h1 => ?_) h
  dsimp only
  split
  · exact steady_raiseFault h1
  · split
    · exact steady_raiseFault h1
    · exact steady_advance (steady_doneAt (steady_sramStore h1))

end Sys2Proof.Machine
end

section
/-! SUPPORT. Steady operations: the boundary and the taking of commands. Each leaves the queue of waiting commands alone
and memory canonical. -/

namespace Sys2Proof.Machine

variable {s₀ s t : State}

/-! ### The launch -/

theorem steady_switchFreq (h : Steady s₀ s) : Steady s₀ (switchFreq s) := steady_with h rfl

theorem steady_forecast {f : Nat} (h : Steady s₀ s) : Steady s₀ (forecast f s) := by
  unfold forecast
  split
  · exact h
  · exact steady_with h rfl

theorem steady_writeBatch {bs : List Byte} {d : Nat} (h : Steady s₀ s) : Steady s₀ (writeBatch bs d s) :=
  steady_withMem h (fun h₀ => writeBytes_wf bs _ _ (Memory.wf_filter _ _ h₀))

theorem steady_applyDeal {hdr : Held} {version : W32} {step : W64} {x : BatchSlot}
    (h : Steady s₀ s) : Steady s₀ (applyDeal hdr version step x s) :=
  steady_allocPages (steady_setRequest h)

theorem steady_launchSignals {step : W64} (h : Steady s₀ s) : Steady s₀ (launchSignals step s) :=
  steady_foldl (fun _ _ h1 => steady_foldl (fun _ _ h2 => steady_deliverCompletion h2) h1) (steady_with h rfl)

theorem steady_freeEnded (h : Steady s₀ s) : Steady s₀ (freeEnded s) := steady_foldl (fun _ _ h1 => steady_setRequest h1) h

theorem steady_launch {hdr : Held} {changed cancelled : Bool} {hold : Nat}
    (h : Steady s₀ s) : Steady s₀ (launch hdr changed cancelled hold s) := by
  unfold launch
  dsimp only
  refine steady_forecast (steady_freeEnded (steady_launchSignals (steady_checkLaunch (steady_with ?_ rfl))))
  split
  · exact steady_foldl (fun _ _ h1 => steady_applyDeal h1) (steady_with h rfl)
  · exact steady_foldl (fun _ _ h1 => steady_writeBatch h1) (steady_foldl (fun _ _ h1 => steady_applyDeal h1) (steady_with h rfl))

/-! ### Request operations -/

theorem steady_admitBody {b : AdmitBody} {t : Ticket} (h : Steady s₀ s) : Steady s₀ (admitBody b t s) := by
  unfold admitBody
  dsimp only
  split
  · exact steady_finish h
  · exact steady_complete (steady_wake (steady_setRequest (steady_with h rfl)))

theorem steady_cancelBody {entry : W16} {key : W32} {t : Ticket} (h : Steady s₀ s) : Steady s₀ (cancelBody entry key t s) := by
  unfold cancelBody
  split
  · exact steady_finish h
  · exact steady_wake (steady_setRequest h)

theorem steady_pageMoveBody {b : PageMoveBody} {t : Ticket} (h : Steady s₀ s) : Steady s₀ (pageMoveBody b t s) := by
  unfold pageMoveBody
  split
  · exact steady_finish h
  · split
    · exact steady_finish h
    · split
      · exact steady_startOp h
      · exact steady_wake (steady_addOp (steady_setRequest h))

theorem steady_applyReqOp {t : Ticket} {i : Instr} (h : Steady s₀ s) : Steady s₀ (applyReqOp t i s) := by
  unfold applyReqOp
  split
  · exact steady_admitBody h
  · exact steady_cancelBody h
  · exact steady_pageMoveBody h
  · exact h

theorem steady_reqOp {i : Instr} {t : Ticket} (h : Steady s₀ s) : Steady s₀ (reqOp i t s) := by
  unfold reqOp
  split
  · exact steady_with h rfl
  · exact steady_applyReqOp h

theorem steady_drainReqOps (h : Steady s₀ s) : Steady s₀ (drainReqOps s) :=
  steady_foldl (fun _ _ h1 => steady_applyReqOp h1) (steady_with h rfl)

/-! ### The boundary -/

theorem steady_mapSpare {line : Nat} (h : Steady s₀ s) : Steady s₀ (mapSpare line s) := by
  unfold mapSpare
  dsimp only
  split
  · split
    · exact h
    · exact steady_raiseEvent (steady_score (steady_with h rfl))
  · exact steady_foldl (fun _ _ h1 => steady_poisonObject h1) (steady_withMem h (Memory.wf_filter _ _))

theorem steady_mapSpares (h : Steady s₀ s) : Steady s₀ (mapSpares s) := steady_foldl (fun _ _ h1 => steady_mapSpare h1)
    (steady_with h rfl)

theorem steady_retireSlot {acc : State × List Nat} {ix : BatchSlot × Nat} (h : Steady s₀ acc.1) : Steady s₀ (retireSlot acc ix).1 := by
  unfold retireSlot
  dsimp only
  split
  · exact steady_setRequest h
  · split
    · exact steady_endEntry h
    · dsimp only
      split
      · exact steady_endEntry (steady_setRequest (steady_commitRecord h))
      · split
        · exact steady_endEntry (steady_setRequest (steady_commitRecord h))
        · exact steady_setRequest (steady_commitRecord h)

theorem steady_stepRetire (h : Steady s₀ s) : Steady s₀ (stepRetire s).1 := by
  unfold stepRetire
  split
  · exact steady_with h rfl
  · exact steady_foldl_fst (fun _ _ h1 => steady_retireSlot h1) (steady_with h rfl)

theorem steady_stepExpire {tick : W64} {es : List Nat} (h : Steady s₀ s) : Steady s₀ (stepExpire tick es s) := by
  unfold stepExpire
  refine steady_foldl (fun _ _ h1 => ?_) h
  dsimp only
  split
  · exact h1
  · split
    · exact steady_endEntry h1
    · split
      · exact steady_endEntry h1
      · exact h1

theorem steady_releaseHeld {i : Nat} (h : Steady s₀ s) : Steady s₀ (releaseHeld i s) := by
  unfold releaseHeld
  split
  · exact steady_setSlot h
  · exact h

theorem steady_applyCastle (h : Steady s₀ s) : Steady s₀ (applyCastle s) := by
  unfold applyCastle
  split
  · exact h
  · dsimp only
    refine steady_complete (steady_score (steady_with (steady_setSlot ?_) rfl))
    split
    · exact steady_setSlot h
    · exact h

theorem steady_stepCharge {tenants : List Nat} (h : Steady s₀ s) : Steady s₀ (stepCharge tenants s) := steady_with h rfl

theorem steady_stepPhase (h : Steady s₀ s) : Steady s₀ (stepPhase s) := by
  unfold stepPhase
  split
  · exact h
  · dsimp only
    exact steady_finish (steady_score (steady_with h rfl))

theorem steady_settle {cls : StepClass} {sl : Nat} {es : List Nat} (h : Steady s₀ s) : Steady s₀ (settle cls sl es s).1 := by
  unfold settle
  split
  · exact h
  · dsimp only
    split
    · exact steady_foldl (fun _ _ h1 => steady_endEntry h1) h
    · split
      · exact steady_raiseEvent (steady_foldl (fun _ _ h1 => steady_endEntry h1) h)
      · split <;> exact steady_foldl (fun _ _ h1 => steady_endEntry h1) h

theorem steady_chooseLearn (h : Steady s₀ s) : Steady s₀ (chooseLearn s).1 := by
  unfold chooseLearn
  split
  · exact h
  · split
    · exact steady_finish (steady_with h rfl)
    · split
      · exact steady_finish (steady_with h rfl)
      · split
        · exact steady_finish (steady_with h rfl)
        · split <;> exact h

theorem steady_learnChoice (h : Steady s₀ s) : Steady s₀ (learnChoice s).1 := by
  unfold learnChoice
  split
  · dsimp only
    split
    · exact steady_with (steady_chooseLearn h) rfl
    · exact steady_chooseLearn h
  · dsimp only
    split <;> exact steady_chooseLearn h

theorem steady_choose {sl : Option Nat} {old : Bool} {es : List Nat} (h : Steady s₀ s) : Steady s₀ (choose sl old es s).1 := by
  unfold choose
  split
  · exact h
  · split
    · split
      · dsimp only
        split
        · exact steady_with h rfl
        · exact steady_settle (steady_with h rfl)
      · dsimp only
        split
        · exact steady_with h rfl
        · exact steady_settle (steady_with h rfl)
    · dsimp only
      split
      · exact steady_settle (steady_with h rfl)
      · exact steady_learnChoice h
    · exact h

theorem steady_sendBoundaryRecord {step : W64} (h : Steady s₀ s) : Steady s₀ (sendBoundaryRecord step s) := by
  unfold sendBoundaryRecord
  split
  · exact h
  · exact steady_emit (steady_with h rfl)

theorem steady_afterBoundary (h : Steady s₀ s) : Steady s₀ (afterBoundary s) := steady_drainReqOps (steady_writeRecords h)

theorem steady_idleBoundary (h : Steady s₀ s) : Steady s₀ (idleBoundary s) :=
  steady_afterBoundary (steady_with (steady_freeEnded (steady_sendBoundaryRecord h)) rfl)

theorem steady_launchBoundary {hdr : Held} {changed cancelled : Bool} {hold : Nat}
    (h : Steady s₀ s) : Steady s₀ (launchBoundary hdr changed cancelled hold s) := by
  unfold launchBoundary
  split
  · exact steady_idleBoundary h
  · exact steady_afterBoundary (steady_launch (steady_sendBoundaryRecord (steady_with h rfl)))

theorem steady_governorSlot {hdr : Held} (h : Steady s₀ s) : Steady s₀ (governorSlot hdr s) := by
  unfold governorSlot
  split
  · dsimp only
    split
    · refine steady_launchBoundary ?_
      split
      · exact steady_with h rfl
      · exact h
    · split
      · refine steady_launchBoundary (steady_switchFreq ?_)
        split
        · exact steady_with h rfl
        · exact h
      · refine steady_with ?_ rfl
        split
        · exact steady_with h rfl
        · exact h

theorem steady_reportExhausted (h : Steady s₀ s) : Steady s₀ (reportExhausted s) := by
  unfold reportExhausted
  dsimp only
  split
  · split
    · exact steady_raiseEvent (steady_with (steady_with h rfl) rfl)
    · exact steady_with h rfl
  · split
    · exact steady_raiseEvent (steady_with h rfl)
    · exact h

theorem steady_countPeak (h : Steady s₀ s) : Steady s₀ (countPeak s) := by
  unfold countPeak
  dsimp only
  split
  · exact steady_with h rfl
  · exact h

theorem steady_endBoundary {c : Choice} (h : Steady s₀ c.1) : Steady s₀ (endBoundary c) := by
  unfold endBoundary
  split
  · exact steady_governorSlot h
  · exact steady_idleBoundary h

theorem steady_runBoundary (h : Steady s₀ s) : Steady s₀ (runBoundary s) := by
  unfold runBoundary
  dsimp only
  split
  · split
    · exact steady_with (steady_takeCheckpoint (steady_stepPhase (steady_stepCharge (steady_releaseHeld (steady_releaseHeld
          (steady_applyCastle (steady_stepExpire (steady_stepRetire (steady_startPendingBlocks (steady_mapSpares
          (steady_reportExhausted (steady_countPeak (steady_with h rfl))))))))))))) rfl
    · exact steady_endBoundary (steady_choose (steady_takeCheckpoint (steady_stepPhase (steady_stepCharge
          (steady_releaseHeld (steady_releaseHeld (steady_applyCastle (steady_stepExpire (steady_stepRetire
          (steady_startPendingBlocks (steady_mapSpares (steady_reportExhausted (steady_countPeak (steady_with h rfl))))))))))))))
  · split
    · exact steady_with (steady_takeCheckpoint (steady_stepPhase (steady_stepCharge (steady_releaseHeld (steady_releaseHeld
          (steady_applyCastle (steady_stepExpire (steady_stepRetire (steady_startPendingBlocks (steady_mapSpares
          (steady_reportExhausted (steady_countPeak (steady_with h rfl))))))))))))) rfl
    · exact steady_endBoundary (steady_choose (steady_takeCheckpoint (steady_stepPhase (steady_stepCharge
          (steady_releaseHeld (steady_releaseHeld (steady_applyCastle (steady_stepExpire (steady_stepRetire
          (steady_startPendingBlocks (steady_mapSpares (steady_reportExhausted (steady_countPeak (steady_with h rfl))))))))))))))

theorem steady_closeBoundary (h : Steady s₀ s) : Steady s₀ (closeBoundary s) := by
  unfold closeBoundary
  dsimp only
  refine steady_endBoundary ?_
  split
  · exact steady_with h rfl
  · exact steady_learnChoice (steady_with h rfl)

theorem goes_execBoundary (h : Steady s₀ s) : Goes s₀ (execBoundary s) := by
  unfold execBoundary
  refine goes_next ?_
  split
  · exact steady_closeBoundary h
  · split
    · exact steady_runBoundary h
    · exact h

theorem goes_execIdleBoundaryTimeout (h : Steady s₀ s) : Goes s₀ (execIdleBoundaryTimeout s) := by
  unfold execIdleBoundaryTimeout
  refine goes_next ?_
  split
  · exact steady_wake h
  · exact h

theorem steady_launchHeld {hdr : Held} {changed : Bool} (h : Steady s₀ s) : Steady s₀ (launchHeld hdr changed s) := by
  unfold launchHeld
  refine steady_launchBoundary ?_
  split
  · exact steady_switchFreq (steady_with h rfl)
  · exact steady_score (steady_with h rfl)

theorem goes_execGovConfirm (h : Steady s₀ s) : Goes s₀ (execGovConfirm s) := by
  unfold execGovConfirm
  refine goes_next ?_
  dsimp only
  split
  · exact steady_launchHeld (steady_with h rfl)
  · exact steady_with h rfl

theorem goes_execGovConfirmTimeout (h : Steady s₀ s) : Goes s₀ (execGovConfirmTimeout s) := by
  unfold execGovConfirmTimeout
  refine goes_next ?_
  split
  · split
    · exact steady_launchBoundary (steady_score h)
    · exact h
  · exact h

/-! ### Taking a command -/

theorem steady_startOk (h : Steady s₀ s) : Steady s₀ (startOk s) := by
  unfold startOk
  split
  · exact h
  · exact steady_score (steady_with h rfl)

theorem steady_takeCmd {q : Nat} {hdr : Hdr} {wide : Bool} {ready : State → Bool} {k : Ticket → State → State}
    (hk : ∀ y0 s1, Steady s₀ s1 → Steady s₀ (k y0 s1))
    (h : Steady s₀ s) : Steady s₀ (takeCmd q hdr wide ready k s) := by
  unfold takeCmd
  split
  · dsimp only
    split
    · exact steady_finish (steady_startOk (steady_setQueue h))
    · split
      · exact steady_finish (steady_startOk (steady_setQueue h))
      · split
        · exact steady_finish (steady_startOk (steady_setQueue h))
        · exact hk _ _ (steady_startOk (steady_setQueue h))
  · exact steady_setQueue h

theorem steady_takeNop {q : Nat} {hdr : Hdr} (h : Steady s₀ s) : Steady s₀ (takeNop q hdr s) :=
  steady_takeCmd (fun _ _ h1 => steady_finish h1) h

theorem goes_execNop {q : Nat} {hdr : Hdr} (h : Steady s₀ s) : Goes s₀ (execNop q hdr s) := goes_withUnit (fun _ h1 => steady_takeNop h1) h

theorem steady_pendPhase {p : Phase} {q : Nat} {t : Ticket} (h : Steady s₀ s) : Steady s₀ (pendPhase p q t s) :=
  steady_wake (steady_with h rfl)

theorem steady_phaseBody {target : Byte} {lq : W16} {t : Ticket} (h : Steady s₀ s) : Steady s₀ (phaseBody target lq t s) := by
  unfold phaseBody
  split
  · exact steady_finish h
  · split
    · exact steady_finish h
    · split
      · exact steady_finish h
      · exact steady_pendPhase h
  · split
    · exact steady_finish h
    · split
      · exact steady_finish h
      · exact steady_pendPhase h
  · exact steady_pendPhase h

theorem steady_takePhase {q : Nat} {hdr : Hdr} {target : Byte} {lq : W16} (h : Steady s₀ s) : Steady s₀ (takePhase q hdr target lq s) :=
  steady_takeCmd (fun _ _ h1 => steady_phaseBody h1) h

theorem goes_execPhase {q : Nat} {hdr : Hdr} {target : Byte} {lq : W16} (h : Steady s₀ s) : Goes s₀ (execPhase q hdr target lq s) :=
  goes_withUnit (fun _ h1 => steady_takePhase h1) h

theorem steady_plyRunBody {plyId : W32} {mask value : Byte} {inputId : W64} {t : Ticket}
    (h : Steady s₀ s) : Steady s₀ (plyRunBody plyId mask value inputId t s) := by
  unfold plyRunBody
  split
  · exact steady_finish h
  · exact steady_closeBoundary (steady_with h rfl)

theorem steady_plyRunWakes {q : Nat} {hdr : Hdr} (h : Steady s₀ s) : Steady s₀ (plyRunWakes q hdr s) := by
  unfold plyRunWakes
  split
  · exact steady_wake h
  · exact h

theorem steady_takePlyRun {q : Nat} {hdr : Hdr} {plyId : W32} {mask value : Byte} {inputId : W64}
    (h : Steady s₀ s) : Steady s₀ (takePlyRun q hdr plyId mask value inputId s) :=
  steady_takeCmd (fun _ _ h1 => steady_plyRunBody h1) (steady_plyRunWakes h)

theorem goes_execPlyRun {q : Nat} {hdr : Hdr} {plyId : W32} {mask value : Byte} {inputId : W64}
    (h : Steady s₀ s) : Goes s₀ (execPlyRun q hdr plyId mask value inputId s) :=
  goes_withUnit (fun _ h1 => steady_takePlyRun h1) h

end Sys2Proof.Machine
end

section
/-! SUPPORT. Steady operations: line reads, books and objects. Each leaves the queue of waiting commands alone
and memory canonical. -/

namespace Sys2Proof.Machine

variable {s₀ s t : State}

/-! ### Lines of LPDDR5X and engine reads -/

theorem steady_setTiers {f : Tiers → Tiers} (hf : ∀ x, (f x).mem = x.mem) (h : Steady s₀ s) : Steady s₀ (setTiers f s) :=
  steady_with h (hf s.tiers)

theorem steady_lineCorrected {k : Nat} (h : Steady s₀ s) : Steady s₀ (lineCorrected k s) := by
  unfold lineCorrected
  dsimp only
  exact steady_setTiers (fun _ => rfl) h

theorem steady_lineFailed {k kind : Nat} (h : Steady s₀ s) : Steady s₀ (lineFailed k kind s) := by
  unfold lineFailed
  dsimp only
  exact steady_setTiers (fun _ => rfl) h

theorem steady_markHard {k : Nat} (h : Steady s₀ s) : Steady s₀ (markHard k s) := by
  unfold markHard
  split
  · dsimp only
    exact steady_score (steady_with (steady_setTiers (fun _ => rfl) h) rfl)
  · exact h

theorem steady_askPeer {o : Obj} {k : Nat} (h : Steady s₀ s) : Steady s₀ (askPeer o k s) := steady_emit h

theorem steady_failReader {op : Option Nat} (h : Steady s₀ s) : Steady s₀ (failReader op s) := by
  unfold failReader
  split
  · exact h
  · exact steady_setStream h

theorem steady_answerBar {k : Nat} {poisoned : Bool} (h : Steady s₀ s) : Steady s₀ (answerBar k poisoned s) :=
  steady_foldl (fun _ _ h1 => steady_foldl (fun _ _ h2 => steady_emit h2) (steady_setPort h1)) h

theorem steady_giveUp {o k : Nat} {op : Option Nat} (h : Steady s₀ s) : Steady s₀ (giveUp o k op s) := by
  unfold giveUp
  dsimp only
  refine steady_wake (steady_answerBar (steady_failReader ?_))
  split
  · exact steady_setTiers (fun _ => rfl) h
  · exact steady_poisonObject (steady_setTiers (fun _ => rfl) h)

theorem steady_poisonedLine {k : Nat} {op : Option Nat} (h : Steady s₀ s) : Steady s₀ (poisonedLine k op s) := by
  unfold poisonedLine
  dsimp only
  split
  · exact steady_answerBar (steady_failReader (steady_markHard h))
  · split
    · exact steady_answerBar (steady_failReader (steady_markHard h))
    · split
      · exact steady_giveUp (steady_markHard h)
      · split
        · refine steady_askPeer (steady_with ?_ rfl)
          split
          · exact steady_markHard h
          · exact steady_setObj (steady_markHard h)
        · refine steady_with ?_ rfl
          split
          · exact steady_markHard h
          · exact steady_setObj (steady_markHard h)

theorem steady_badRead {op : Option Nat} {k kind : Nat} (h : Steady s₀ s) : Steady s₀ (badRead op k kind s) := by
  unfold badRead
  dsimp only
  refine steady_poisonedLine ?_
  split
  · exact steady_lineFailed h
  · exact steady_lineFailed (steady_setTiers (fun _ => rfl) (steady_lineFailed h))

theorem steady_setRepair {id : Nat} {f : Repair → Repair} (h : Steady s₀ s) : Steady s₀ (setRepair id f s) :=
  steady_setTiers (fun _ => rfl) h

theorem steady_dropRepair {id : Nat} (h : Steady s₀ s) : Steady s₀ (dropRepair id s) := steady_setTiers (fun _ => rfl) h

theorem steady_endRefetch {op : Option Nat} {ac : Nat} (h : Steady s₀ s) : Steady s₀ (endRefetch op ac s) := by
  unfold endRefetch
  dsimp only
  split
  · exact h
  · exact steady_setStream h

theorem steady_lineRepaired {r : Repair} {bs : List Byte} {ac : Nat} (h : Steady s₀ s) : Steady s₀ (lineRepaired r bs ac s) := by
  have hstored : Steady s₀ (setTiers (fun t => { t with
      mem := writeBytes t.mem (256 * r.line) bs,
      repaired := bump t.repaired (linePort r.line) 1,
      repairFrom := bump t.repairFrom r.source 1,
      lastErr := Tab.mod (fun _ => LastErr.cold) t.lastErr (linePort r.line)
        (fun x => if x.address.toNat = 256 * r.line then { x with repaired := true } else x) }) s) :=
    steady_withMem h (writeBytes_wf bs _ _)
  refine steady_answerBar (steady_endRefetch ?_)
  split
  · exact steady_with (steady_setRepair (steady_setObj hstored)) rfl
  · exact steady_setRepair (steady_setObj hstored)

theorem steady_noteCodeword {r : Repair} (h : Steady s₀ s) : Steady s₀ (noteCodeword r s) := by
  unfold noteCodeword
  split
  · exact steady_setTiers (fun _ => rfl) h
  · exact h

theorem steady_forgetCodewords {o : Nat} (h : Steady s₀ s) : Steady s₀ (forgetCodewords o s) := by
  unfold forgetCodewords
  split
  · exact h
  · exact steady_setTiers (fun _ => rfl) h

theorem steady_repairSourceDone {id : Nat} {clean : Option (List Byte)} {ac : Nat}
    (h : Steady s₀ s) : Steady s₀ (repairSourceDone id clean ac s) := by
  unfold repairSourceDone
  split
  · exact h
  · split
    · refine steady_lineRepaired ?_
      split
      · exact steady_bgObj h
      · exact h
    · dsimp only
      split
      · split
        · exact steady_askPeer (steady_setRepair (steady_noteCodeword h))
        · exact steady_setRepair (steady_noteCodeword h)
      · exact steady_forgetCodewords (steady_giveUp (steady_endRefetch (steady_dropRepair (steady_noteCodeword h))))

theorem goes_execRepairRequest {node : BitVec 15} {object : W16} {offset : Nat} {version : W32}
    (h : Steady s₀ s) : Goes s₀ (execRepairRequest node object offset version s) := by
  unfold execRepairRequest
  refine goes_next ?_
  dsimp only
  split
  · exact h
  · split
    · exact steady_emit (steady_bgTouch h)
    · exact steady_emit h

theorem steady_endRepairing {o : Nat} (h : Steady s₀ s) : Steady s₀ (endRepairing o s) := by
  unfold endRepairing
  split
  · exact steady_wake (steady_setObj (steady_forgetCodewords h))
  · exact steady_forgetCodewords h

theorem steady_rewriteDone {k : Nat} {clean : Bool} (h : Steady s₀ s) : Steady s₀ (rewriteDone k clean s) := by
  unfold rewriteDone
  dsimp only
  split
  · exact h
  · exact steady_foldl (fun _ _ h1 => steady_endRepairing h1) (steady_bgTouch (steady_setTiers (fun _ => rfl) h))

theorem goes_execCorrectionRewrite {port : Nat} (h : Steady s₀ s) : Goes s₀ (execCorrectionRewrite port s) := by
  unfold execCorrectionRewrite
  refine goes_withUnit (fun _ h1 => ?_) h
  split
  · exact h1
  · exact steady_bgTouch (steady_setTiers (fun _ => rfl) h1)

theorem steady_patrolScrub {m : Nat} {raw : RawLine} (h : Steady s₀ s) : Steady s₀ (patrolScrub m raw s) := by
  unfold patrolScrub
  split
  · exact h
  · dsimp only
    split
    · exact steady_bgTouch (steady_setTiers (fun _ => rfl) h)
    · exact steady_bgTouch (steady_setTiers (fun _ => rfl) (steady_bgTouch (steady_setTiers (fun _ => rfl) h)))
    · exact steady_poisonedLine (steady_lineFailed (steady_bgTouch (steady_setTiers (fun _ => rfl) h)))

theorem goes_execPatrolScrub {port : Nat} {raw : RawLine} (h : Steady s₀ s) : Goes s₀ (execPatrolScrub port raw s) :=
  goes_withUnit (fun _ h1 => steady_patrolScrub h1) h

theorem steady_countSingle {r : ReadSet} {ecc : Ecc} (h : Steady s₀ s) : Steady s₀ (countSingle r ecc s) := by
  unfold countSingle
  split
  · exact steady_setTiers (fun _ => rfl) h
  · exact h

/-! ### Books -/

/-- What an engine read leaves, whether its data is good or the command waits or fails. -/
def EngineRead.after : EngineRead → State
  | .good s | .waits s | .fails _ s => s

theorem steady_good {r : EngineRead} (hr : r = .good t) (h : Steady s₀ r.after) : Steady s₀ t := by subst hr; exact h

theorem steady_waits {r : EngineRead} (hr : r = .waits t) (h : Steady s₀ r.after) : Steady s₀ t := by subst hr; exact h

theorem steady_fails {r : EngineRead} {st : Byte} (hr : r = .fails st t) (h : Steady s₀ r.after) : Steady s₀ t := by subst hr; exact h

theorem steady_engineReadSet {r : ReadSet} {ecc : Ecc} (h : Steady s₀ s) : Steady s₀ (engineReadSet r ecc s).after := by
  unfold engineReadSet
  dsimp only
  split
  · exact h
  · split
    · exact steady_wake (steady_sramDouble h)
    · split
      · exact h
      · split
        · exact steady_countSingle h
        · split <;> exact steady_foldl (fun _ _ h1 => steady_badRead h1) h

theorem steady_engineRead {xs : List ReadSpan} {ecc : Ecc} (h : Steady s₀ s) : Steady s₀ (engineRead xs ecc s).after := steady_engineReadSet h

theorem steady_readWhole {o off n : Nat} {ecc : Ecc} {t : Ticket} {i : Instr} {k : State → State}
    (hk : ∀ s, Steady s₀ s → Steady s₀ (k s))
    (h : Steady s₀ s) : Steady s₀ (readWhole o off n ecc t i k s) := by
  unfold readWhole
  split
  · exact steady_addOp (steady_waits (by assumption) (steady_engineRead h))
  · exact steady_finish (steady_fails (by assumption) (steady_engineRead h))
  · exact hk _ (steady_good (by assumption) (steady_engineRead h))

theorem steady_bookLoadStart {o : W16} {t : Ticket} (h : Steady s₀ s) : Steady s₀ (bookLoadStart o t s) := by
  unfold bookLoadStart
  dsimp only
  split
  · exact steady_finish h
  · exact steady_bgObj (steady_with h rfl)

theorem steady_bookLoadBody {hdr : Hdr} {o : W16} {t : Ticket} (h : Steady s₀ s) : Steady s₀ (bookLoadBody hdr o t s) := by
  unfold bookLoadBody
  split
  · exact steady_finish h
  · exact steady_readWhole (fun _ h1 => steady_bookLoadStart h1) h

theorem steady_takeBookLoad {q : Nat} {hdr : Hdr} {o : W16} (h : Steady s₀ s) : Steady s₀ (takeBookLoad q hdr o s) :=
  steady_takeCmd (fun _ _ h1 => steady_bookLoadBody h1) h

theorem goes_execBookLoad {q : Nat} {hdr : Hdr} {o : W16} (h : Steady s₀ s) : Goes s₀ (execBookLoad q hdr o s) :=
  goes_withUnit (fun _ h1 => steady_takeBookLoad h1) h

theorem steady_loadHistory {b : Book} (h : Steady s₀ s) : Steady s₀ (loadHistory b s) := by
  unfold loadHistory
  dsimp only
  split
  · split
    · exact h
    · exact steady_with h rfl
  · split
    · exact h
    · exact steady_with h rfl

theorem goes_execBookLoadDone {x : BookRead} (h : Steady s₀ s) : Goes s₀ (execBookLoadDone x s) := by
  unfold execBookLoadDone
  refine goes_next ?_
  split
  · exact h
  · dsimp only
    split
    · exact steady_finish (steady_wake (steady_sramDouble (steady_with h rfl)))
    · exact steady_finish (steady_loadHistory (steady_with (steady_countSingle (steady_with h rfl)) rfl))

/-! ### Objects -/

theorem steady_placeBodyRun {b : PlaceBody} {t : Ticket} (h : Steady s₀ s) : Steady s₀ (placeBodyRun b t s) := by
  unfold placeBodyRun
  split
  · exact steady_finish h
  · dsimp only
    refine steady_finish ?_
    split
    · exact steady_wake (steady_setObj h)
    · exact steady_setObj h

theorem steady_takePlace {q : Nat} {hdr : Hdr} {b : PlaceBody} (h : Steady s₀ s) : Steady s₀ (takePlace q hdr b s) :=
  steady_takeCmd (fun _ _ h1 => steady_placeBodyRun h1) h

theorem goes_execPlace {q : Nat} {hdr : Hdr} {b : PlaceBody} (h : Steady s₀ s) : Goes s₀ (execPlace q hdr b s) :=
  goes_withUnit (fun _ h1 => steady_takePlace h1) h

theorem steady_whenFlash {t : Ticket} {i : Instr} {k : State → State} (hk : ∀ s, Steady s₀ s → Steady s₀ (k s))
    (h : Steady s₀ s) : Steady s₀ (whenFlash t i k s) := by
  unfold whenFlash
  split
  · exact hk _ h
  · exact steady_startOp h

theorem steady_moveStart {b : MoveBody} {t : Ticket} (h : Steady s₀ s) : Steady s₀ (moveStart b t s) := by
  unfold moveStart
  split
  · exact steady_finish h
  · exact steady_startOp h

theorem steady_objectMoveBody {hdr : Hdr} {b : MoveBody} {t : Ticket} (h : Steady s₀ s) : Steady s₀ (objectMoveBody hdr b t s) := by
  unfold objectMoveBody
  split
  · exact steady_moveStart h
  · exact steady_whenFlash (fun _ h1 => steady_moveStart h1) h

theorem steady_takeObjectMove {q : Nat} {hdr : Hdr} {b : MoveBody} (h : Steady s₀ s) : Steady s₀ (takeObjectMove q hdr b s) :=
  steady_takeCmd (fun _ _ h1 => steady_objectMoveBody h1) h

theorem goes_execObjectMove {q : Nat} {hdr : Hdr} {b : MoveBody} (h : Steady s₀ s) : Goes s₀ (execObjectMove q hdr b s) :=
  goes_withUnit (fun _ h1 => steady_takeObjectMove h1) h

theorem steady_moveSignal {b : MoveBody} {segs : List CauseSpan} (h : Steady s₀ s) : Steady s₀ (moveSignal b segs s) := by
  unfold moveSignal
  split
  · exact h
  · dsimp only
    split
    · split
      · split
        · exact h
        · exact steady_addOp h
      · split
        · exact steady_with h rfl
        · exact h
    · split
      · exact steady_with h rfl
      · exact h

theorem steady_poisonLine {a : Nat} (h : Steady s₀ s) : Steady s₀ (poisonLine a s) := by
  unfold poisonLine
  split
  · split
    · exact h
    · exact steady_with h rfl
  · exact h

theorem steady_poisonCodeword {b : MoveBody} {dst o : Nat} (h : Steady s₀ s) : Steady s₀ (poisonCodeword b dst o s) := by
  unfold poisonCodeword
  refine steady_foldl (fun _ _ h1 => ?_) h
  dsimp only
  split
  · exact steady_poisonLine h1
  · exact h1

theorem goes_execObjectMoveDone {op : Nat} {ecc : Ecc} (h : Steady s₀ s) : Goes s₀ (execObjectMoveDone op ecc s) := by
  unfold execObjectMoveDone
  refine goes_next ?_
  split
  · dsimp only
    split
    · exact steady_waits (by assumption) (steady_engineRead h)
    · exact steady_finish (steady_dropOp (steady_fails (by assumption) (steady_engineRead h)))
    · refine steady_finish (steady_moveSignal (steady_foldl (fun _ _ h1 => steady_poisonCodeword h1) (steady_bgObj ?_)))
      split
      · exact steady_appendFlash (steady_dropOp (steady_good (by assumption) (steady_engineRead h)))
      · exact steady_storeBg (steady_dropOp (steady_good (by assumption) (steady_engineRead h)))
  · exact h

theorem steady_flashCreate {size : W64} {t : Ticket} (h : Steady s₀ s) : Steady s₀ (flashCreate size t s) := by
  unfold flashCreate
  split
  · exact steady_finish h
  · split
    · exact steady_finish h
    · dsimp only
      exact steady_complete (steady_with h rfl)

theorem steady_flashObjCreateBody {hdr : Hdr} {size : W64} {t : Ticket}
    (h : Steady s₀ s) : Steady s₀ (flashObjCreateBody hdr size t s) :=
  steady_whenFlash (fun _ h1 => steady_flashCreate h1) h

theorem steady_takeFlashObjCreate {q : Nat} {hdr : Hdr} {size : W64} (h : Steady s₀ s) : Steady s₀ (takeFlashObjCreate q hdr size s) :=
  steady_takeCmd (fun _ _ h1 => steady_flashObjCreateBody h1) h

theorem goes_execFlashObjCreate {q : Nat} {hdr : Hdr} {size : W64} (h : Steady s₀ s) : Goes s₀ (execFlashObjCreate q hdr size s) :=
  goes_withUnit (fun _ h1 => steady_takeFlashObjCreate h1) h

theorem steady_flashDelete {x : W32} {t : Ticket} (h : Steady s₀ s) : Steady s₀ (flashDelete x t s) := by
  unfold flashDelete
  split
  · exact steady_finish h
  · split
    · exact steady_finish h
    · exact steady_finish (steady_with h rfl)

theorem steady_flashObjDeleteBody {hdr : Hdr} {x : W32} {t : Ticket} (h : Steady s₀ s) : Steady s₀ (flashObjDeleteBody hdr x t s) :=
  steady_whenFlash (fun _ h1 => steady_flashDelete h1) h

theorem steady_takeFlashObjDelete {q : Nat} {hdr : Hdr} {x : W32} (h : Steady s₀ s) : Steady s₀ (takeFlashObjDelete q hdr x s) :=
  steady_takeCmd (fun _ _ h1 => steady_flashObjDeleteBody h1) h

theorem goes_execFlashObjDelete {q : Nat} {hdr : Hdr} {handle : W32} (h : Steady s₀ s) : Goes s₀ (execFlashObjDelete q hdr handle s) :=
  goes_withUnit (fun _ h1 => steady_takeFlashObjDelete h1) h

theorem steady_hostCopyBodyRun {b : HostCopyBody} {t : Ticket} (h : Steady s₀ s) : Steady s₀ (hostCopyBodyRun b t s) := by
  unfold hostCopyBodyRun
  split
  · exact steady_finish h
  · exact steady_startOp h

theorem steady_takeHostCopy {q : Nat} {hdr : Hdr} {b : HostCopyBody} (h : Steady s₀ s) : Steady s₀ (takeHostCopy q hdr b s) :=
  steady_takeCmd (fun _ _ h1 => steady_hostCopyBodyRun h1) h

theorem goes_execHostCopy {q : Nat} {hdr : Hdr} {b : HostCopyBody} (h : Steady s₀ s) : Goes s₀ (execHostCopy q hdr b s) :=
  goes_withUnit (fun _ h1 => steady_takeHostCopy h1) h

theorem goes_execHostCopyDone {op : Nat} {data : List Byte} {aborted : Bool} {ecc : Ecc}
    (h : Steady s₀ s) : Goes s₀ (execHostCopyDone op data aborted ecc s) := by
  unfold execHostCopyDone
  refine goes_next ?_
  split
  · dsimp only
    split
    · exact steady_finish (steady_dropOp h)
    · split
      · exact steady_finish (steady_storeBg (steady_dropOp h))
      · split
        · exact steady_waits (by assumption) (steady_engineRead h)
        · exact steady_finish (steady_dropOp (steady_fails (by assumption) (steady_engineRead h)))
        · exact steady_finish (steady_emit (steady_bgObj (steady_dropOp (steady_good (by assumption) (steady_engineRead h)))))
  · exact h

end Sys2Proof.Machine
end

section
/-! SUPPORT. Steady operations: collectives and castles. Each leaves the queue of waiting commands alone
and memory canonical. -/

namespace Sys2Proof.Machine

variable {s₀ s t : State}

/-! ### Collectives -/

theorem steady_sendColl {b : CollBody} {m : CollMsg} {q : Nat} (h : Steady s₀ s) : Steady s₀ (sendColl b m s q) := by
  unfold sendColl
  split
  · exact steady_emit h
  · exact h

theorem steady_sendAll {b : CollBody} {m : CollMsg} (h : Steady s₀ s) : Steady s₀ (sendAll b m s) :=
  steady_foldl (fun _ _ h1 => steady_sendColl h1) h

theorem steady_dropColl {c : Coll} (h : Steady s₀ s) : Steady s₀ (dropColl c s) := steady_with h rfl

theorem steady_finishColl {c : Coll} (h : Steady s₀ s) : Steady s₀ (finishColl c s) := by
  unfold finishColl
  split
  · dsimp only
    refine steady_endColl (steady_dropColl ?_)
    split
    · exact h
    · exact steady_foldl (fun _ _ h1 => steady_storeBg h1) h
  · exact h

theorem steady_putColl {c : Coll} (h : Steady s₀ s) : Steady s₀ (putColl c s) := steady_with h rfl

theorem steady_sendStages {c : Coll} (h : Steady s₀ s) : Steady s₀ (sendStages c s) :=
  steady_finishColl (steady_putColl (steady_foldl (fun _ _ h1 => steady_sendColl h1) h))

theorem steady_passVerdict {c : Coll} (h : Steady s₀ s) : Steady s₀ (passVerdict c s).2 := by
  unfold passVerdict
  split
  · exact steady_sendAll h
  · exact h

theorem steady_advanceColl {c0 : Coll} (h : Steady s₀ s) : Steady s₀ (advanceColl c0 s) := by
  unfold advanceColl
  dsimp only
  split
  · split
    · exact steady_putColl (steady_waits (by assumption) (steady_engineReadSet (steady_passVerdict h)))
    · refine steady_breakColl ?_
      split
      · exact steady_sendAll (steady_fails (by assumption) (steady_engineReadSet (steady_passVerdict h)))
      · exact steady_fails (by assumption) (steady_engineReadSet (steady_passVerdict h))
    · exact steady_sendStages (steady_good (by assumption) (steady_engineReadSet (steady_passVerdict h)))
  · exact steady_sendStages (steady_passVerdict h)

theorem steady_takeMsg {c0 : Coll} {source : W16} {m : CollMsg} (h : Steady s₀ s) : Steady s₀ (takeMsg c0 source m s) := by
  unfold takeMsg
  dsimp only
  split
  · split
    · exact steady_breakColl (steady_sendAll h)
    · exact steady_advanceColl h
  · split
    · exact steady_advanceColl h
    · exact steady_breakColl h
  · exact steady_advanceColl h
  · exact steady_breakColl h
  · exact steady_advanceColl h
  · exact steady_advanceColl h
  · exact steady_breakColl h

theorem steady_collArrive {name : CollName} {source : W16} {m : CollMsg} (h : Steady s₀ s) : Steady s₀ (collArrive name source m s) := by
  unfold collArrive
  split
  · exact steady_takeMsg h
  · split
    · exact steady_with h rfl
    · exact h

theorem steady_collEarly {name : CollName} (h : Steady s₀ s) : Steady s₀ (collEarly name s) :=
  steady_foldl (fun _ _ h1 => steady_collArrive h1) (steady_with h rfl)

theorem goes_execCollDigest {sender : CollSender} {digest : DigestMsg} (h : Steady s₀ s) : Goes s₀ (execCollDigest sender digest s) :=
  goes_next (steady_collArrive h)

theorem goes_execCollMessage {sender : CollSender} {level index : Nat} {data : CollData}
    (h : Steady s₀ s) : Goes s₀ (execCollMessage sender level index data s) :=
  goes_next (steady_collArrive h)

theorem goes_execCollGrant {sender : CollSender} (h : Steady s₀ s) : Goes s₀ (execCollGrant sender s) := goes_next (steady_collArrive h)
theorem goes_execCollAbort {sender : CollSender} (h : Steady s₀ s) : Goes s₀ (execCollAbort sender s) := goes_next (steady_collArrive h)

theorem goes_execCollStallTimeout {op : Nat} (h : Steady s₀ s) : Goes s₀ (execCollStallTimeout op s) := by
  unfold execCollStallTimeout
  refine goes_next ?_
  split
  · split
    · exact steady_breakColl (steady_sendAll h)
    · exact h
  · exact h

theorem steady_startSends {b : CollBody} (h : Steady s₀ s) : Steady s₀ (startSends b s) := by
  unfold startSends
  dsimp only
  split
  · exact steady_sendAll (steady_sendAll h)
  · exact steady_sendAll h

theorem steady_startColl {c : Coll} (h : Steady s₀ s) : Steady s₀ (startColl c s) := by
  unfold startColl
  dsimp only
  split
  · split
    · exact steady_breakColl h
    · split
      · exact steady_breakColl h
      · exact steady_collEarly (steady_advanceColl (steady_startSends h))
  · split
    · split
      · exact steady_breakColl (steady_setGroup (steady_setGroup h))
      · split
        · exact steady_breakColl (steady_setGroup (steady_setGroup h))
        · exact steady_collEarly (steady_advanceColl (steady_startSends (steady_setGroup (steady_setGroup h))))
    · split
      · exact steady_breakColl (steady_setGroup h)
      · split
        · exact steady_breakColl (steady_setGroup h)
        · exact steady_collEarly (steady_advanceColl (steady_startSends (steady_setGroup h)))

theorem steady_submitColl {t : Option Ticket} {p : Option (Nat × Nat × W32 × BitVec 4)} {fenced : Bool} {b : CollBody}
    (h : Steady s₀ s) : Steady s₀ (submitColl t p fenced b s) := by
  unfold submitColl
  dsimp only
  split
  · exact steady_failColl (steady_with h rfl)
  · split
    · exact steady_startColl (steady_with h rfl)
    · exact steady_with h rfl

theorem steady_takeCollective {q : Nat} {hdr : Hdr} {b : CollBody} (h : Steady s₀ s) : Steady s₀ (takeCollective q hdr b s) :=
  steady_takeCmd (fun _ _ h1 => steady_submitColl h1) h

theorem goes_execCollective {q : Nat} {hdr : Hdr} {b : CollBody} (h : Steady s₀ s) : Goes s₀ (execCollective q hdr b s) :=
  goes_withUnit (fun _ h1 => steady_takeCollective h1) h

theorem goes_execCollStart {i : Issue} {c : Common} {sreg : BitVec 5} {wp : BitVec 10} {cmask : W32} {dmask : BitVec 4}
    (h : Steady s₀ s) : Goes s₀ (execCollStart i c sreg wp cmask dmask s) := by
  unfold execCollStart
  refine goes_issue (fun _ _ _ h1 => ?_) h
  dsimp only
  split
  · exact steady_raiseFault h1
  · split
    · exact steady_raiseFault h1
    · exact steady_submitColl (steady_advance (steady_setRun (steady_setRun (steady_sramEcc h1))))

theorem goes_execCollEligibleStart (h : Steady s₀ s) : Goes s₀ (execCollEligibleStart s) := by
  unfold execCollEligibleStart
  refine goes_next ?_
  split
  · split
    · exact steady_startColl h
    · exact h
  · exact h

theorem steady_readTable {o first count : W16} {w limit : Nat} {t : Ticket} {i : Instr} {k : List (List Byte) → State → State}
    (hk : ∀ y0 s1, Steady s₀ s1 → Steady s₀ (k y0 s1))
    (h : Steady s₀ s) : Steady s₀ (readTable o first count w limit t i k s) := by
  unfold readTable
  dsimp only
  split
  · exact steady_finish h
  · split
    · exact steady_finish h
    · exact steady_readWhole (fun _ h1 => hk _ _ h1) h

theorem steady_writeRoutes {first : W16} {es : List (List Byte)} (h : Steady s₀ s) : Steady s₀ (writeRoutes first es s) := steady_with h rfl

theorem steady_routeSetBody {hdr : Hdr} {o first count : W16} {t : Ticket}
    (h : Steady s₀ s) : Steady s₀ (routeSetBody hdr o first count t s) := by
  unfold routeSetBody
  refine steady_readTable (fun _ _ h1 => ?_) h
  split
  · exact steady_finish h1
  · exact steady_finish (steady_writeRoutes h1)

theorem steady_takeRouteSet {q : Nat} {hdr : Hdr} {o first count : W16}
    (h : Steady s₀ s) : Steady s₀ (takeRouteSet q hdr o first count s) :=
  steady_takeCmd (fun _ _ h1 => steady_routeSetBody h1) h

theorem goes_execRouteSet {q : Nat} {hdr : Hdr} {object first count : W16}
    (h : Steady s₀ s) : Goes s₀ (execRouteSet q hdr object first count s) :=
  goes_withUnit (fun _ h1 => steady_takeRouteSet h1) h

theorem steady_positionSetBody {hdr : Hdr} {o first count : W16} {t : Ticket}
    (h : Steady s₀ s) : Steady s₀ (positionSetBody hdr o first count t s) := by
  unfold positionSetBody
  refine steady_readTable (fun _ _ h1 => ?_) h
  dsimp only
  split
  · exact steady_finish h1
  · exact steady_with h1 rfl

theorem steady_takePositionSet {q : Nat} {hdr : Hdr} {o first count : W16}
    (h : Steady s₀ s) : Steady s₀ (takePositionSet q hdr o first count s) :=
  steady_takeCmd (fun _ _ h1 => steady_positionSetBody h1) h

theorem goes_execPositionSet {q : Nat} {hdr : Hdr} {object first count : W16}
    (h : Steady s₀ s) : Goes s₀ (execPositionSet q hdr object first count s) :=
  goes_withUnit (fun _ h1 => steady_takePositionSet h1) h

theorem goes_execPositionSetApply (h : Steady s₀ s) : Goes s₀ (execPositionSetApply s) := by
  unfold execPositionSetApply
  refine goes_next ?_
  split
  · split
    · dsimp only
      exact steady_finish (steady_with h rfl)
    · exact h
  · exact h

theorem steady_groupSetBody {hdr : Hdr} {o first count : W16} {t : Ticket}
    (h : Steady s₀ s) : Steady s₀ (groupSetBody hdr o first count t s) := by
  unfold groupSetBody
  refine steady_readTable (fun _ _ h1 => ?_) h
  split
  · exact steady_finish h1
  · split
    · exact steady_finish h1
    · exact steady_finish (steady_foldl (fun _ _ h1 => steady_setGroup h1) h1)

theorem steady_takeGroupSet {q : Nat} {hdr : Hdr} {o first count : W16}
    (h : Steady s₀ s) : Steady s₀ (takeGroupSet q hdr o first count s) :=
  steady_takeCmd (fun _ _ h1 => steady_groupSetBody h1) h

theorem goes_execGroupSet {q : Nat} {hdr : Hdr} {object first count : W16}
    (h : Steady s₀ s) : Goes s₀ (execGroupSet q hdr object first count s) :=
  goes_withUnit (fun _ h1 => steady_takeGroupSet h1) h

/-! ### Castles -/

theorem steady_castleRun {b : CastleBody} {t : Ticket} (h : Steady s₀ s) : Steady s₀ (castleRun b t s) := by
  unfold castleRun
  split
  · exact steady_finish h
  · exact steady_with h rfl

theorem steady_takeCastle {q : Nat} {hdr : Hdr} {b : CastleBody} (h : Steady s₀ s) : Steady s₀ (takeCastle q hdr b s) :=
  steady_takeCmd (fun _ _ h1 => steady_castleRun h1) h

theorem goes_execCastle {q : Nat} {hdr : Hdr} {b : CastleBody} (h : Steady s₀ s) : Goes s₀ (execCastle q hdr b s) :=
  goes_withUnit (fun _ h1 => steady_takeCastle h1) h

theorem steady_sendChunk {c : Castle} {x : Chunk} (h : Steady s₀ s) : Steady s₀ (sendChunk c x s) := by
  unfold sendChunk
  refine steady_foldl (fun _ _ h1 => ?_) h
  split
  · exact steady_emit h1
  · exact h1

theorem steady_setBuilding {f : Castle → Castle} (h : Steady s₀ s) : Steady s₀ (setBuilding f s) := steady_with h rfl

theorem steady_castleBuilt {c : Castle} (h : Steady s₀ s) : Steady s₀ (castleBuilt c s) := by
  unfold castleBuilt
  dsimp only
  split
  · exact steady_complete (steady_setSlot (steady_with h rfl))
  · exact steady_wake (steady_setSlot (steady_with h rfl))

theorem steady_castleCheck (h : Steady s₀ s) : Steady s₀ (castleCheck s) := by
  unfold castleCheck
  split
  · split
    · exact steady_castleBuilt h
    · exact h
  · exact h

theorem steady_writeChunk {x : Chunk} (h : Steady s₀ s) : Steady s₀ (writeChunk x s) := by
  unfold writeChunk
  split
  · exact h
  · split
    · exact h
    · split
      · exact h
      · split
        · exact steady_failFlagged h
        · exact steady_castleCheck (steady_storeBg (steady_setBuilding h))

theorem steady_readShard {e : MapEntry} (h : Steady s₀ s) : Steady s₀ (readShard e s).after := by
  unfold readShard
  dsimp only
  split
  · exact h
  · exact steady_engineRead h

theorem steady_sendOwn {l : List Nat} (h : Steady s₀ s) : Steady s₀ (sendOwn l s) := by
  induction l generalizing s with
  | nil => exact steady_castleCheck (steady_setBuilding h)
  | cons i l ih =>
    unfold sendOwn
    split
    · exact h
    · split
      · exact steady_setBuilding (steady_waits (by assumption) (steady_readShard h))
      · refine steady_failBuilding ?_
        split
        · exact steady_sendChunk (steady_fails (by assumption) (steady_readShard h))
        · exact steady_fails (by assumption) (steady_readShard h)
      · have hread : Steady s₀ _ := steady_good (by assumption) (steady_readShard h)
        dsimp only
        split
        · exact steady_failFlagged (steady_sendChunk (steady_bgObj hread))
        · refine ih ?_
          split
          · exact steady_setBuilding (steady_sendChunk (steady_bgObj hread))
          · exact steady_writeChunk (steady_sendChunk (steady_bgObj hread))

theorem steady_resumeCastle (h : Steady s₀ s) : Steady s₀ (resumeCastle s) := by
  unfold resumeCastle
  split
  · split
    · exact h
    · exact steady_sendOwn h
  · exact h

theorem steady_loadImage {c : Castle} (h : Steady s₀ s) : Steady s₀ (loadImage c s) :=
  steady_foldl_fst (fun _ _ h1 => steady_storeBg h1) h

theorem steady_buildTurn {c : Castle} (h : Steady s₀ s) : Steady s₀ (buildTurn c s) := by
  unfold buildTurn
  dsimp only
  split
  · exact steady_castleCheck (steady_setGroup (steady_setBuilding h))
  · exact steady_sendOwn (steady_with (steady_setGroup (steady_setBuilding h)) rfl)

theorem steady_castleTurn (h : Steady s₀ s) : Steady s₀ (castleTurn s) := by
  unfold castleTurn
  split
  · exact h
  · split
    · exact steady_castleBuilt (steady_loadImage h)
    · split
      · exact h
      · split
        · split
          · exact steady_complete (steady_with h rfl)
          · exact h
        · split
          · exact h
          · exact steady_buildTurn h

theorem steady_takeChunk {x : Chunk} (h : Steady s₀ s) : Steady s₀ (takeChunk x s) := by
  unfold takeChunk
  split
  · exact h
  · split
    · exact h
    · split
      · split
        · exact h
        · exact steady_failBuilding h
      · split
        · split
          · exact steady_failFlagged h
          · exact h
        · split
          · exact h
          · split
            · exact steady_writeChunk h
            · split
              · exact steady_failBuilding h
              · exact steady_emit (steady_setBuilding h)

theorem steady_takeEarly (h : Steady s₀ s) : Steady s₀ (takeEarly s) := by
  unfold takeEarly
  split
  · exact h
  · dsimp only
    exact steady_foldl (fun _ _ h1 => steady_takeChunk h1) (steady_with h rfl)

theorem steady_buildBegin (h : Steady s₀ s) : Steady s₀ (buildBegin s) := by
  unfold buildBegin
  dsimp only
  split
  · split
    · exact steady_failBuilding (steady_takeEarly h)
    · exact steady_castleTurn (steady_takeEarly h)
  · exact steady_takeEarly h

theorem steady_castleBegin {c : Castle} (h : Steady s₀ s) : Steady s₀ (castleBegin c s) := by
  unfold castleBegin
  dsimp only
  split
  · refine steady_castleBuilt ?_
    split
    · refine steady_setSlot (steady_with ?_ rfl)
      split
      · exact steady_bgObj h
      · exact h
    · refine steady_with ?_ rfl
      split
      · exact steady_bgObj h
      · exact h
  · split
    · split
      · split
        · split
          · refine steady_failBuilding ?_
            split
            · exact steady_setSlot (steady_with (steady_bgObj h) rfl)
            · exact steady_with (steady_bgObj h) rfl
          · split
            · split
              · exact steady_setSlot (steady_with (steady_bgObj h) rfl)
              · exact steady_with (steady_bgObj h) rfl
            · refine steady_buildBegin ?_
              split
              · exact steady_setSlot (steady_with (steady_bgObj h) rfl)
              · exact steady_with (steady_bgObj h) rfl
        · split
          · refine steady_failBuilding ?_
            split
            · exact steady_setSlot (steady_with (steady_bgObj h) rfl)
            · exact steady_with (steady_bgObj h) rfl
          · split
            · split
              · exact steady_setSlot (steady_with (steady_bgObj h) rfl)
              · exact steady_with (steady_bgObj h) rfl
            · refine steady_buildBegin ?_
              split
              · exact steady_setSlot (steady_with (steady_bgObj h) rfl)
              · exact steady_with (steady_bgObj h) rfl
      · split
        · refine steady_failBuilding ?_
          split
          · exact steady_setSlot (steady_with (steady_bgObj h) rfl)
          · exact steady_with (steady_bgObj h) rfl
        · split
          · split
            · exact steady_setSlot (steady_with (steady_bgObj h) rfl)
            · exact steady_with (steady_bgObj h) rfl
          · refine steady_buildBegin ?_
            split
            · exact steady_setSlot (steady_with (steady_bgObj h) rfl)
            · exact steady_with (steady_bgObj h) rfl
    · split
      · split
        · split
          · refine steady_failBuilding ?_
            split
            · exact steady_setSlot (steady_with h rfl)
            · exact steady_with h rfl
          · split
            · split
              · exact steady_setSlot (steady_with h rfl)
              · exact steady_with h rfl
            · refine steady_buildBegin ?_
              split
              · exact steady_setSlot (steady_with h rfl)
              · exact steady_with h rfl
        · split
          · refine steady_failBuilding ?_
            split
            · exact steady_setSlot (steady_with h rfl)
            · exact steady_with h rfl
          · split
            · split
              · exact steady_setSlot (steady_with h rfl)
              · exact steady_with h rfl
            · refine steady_buildBegin ?_
              split
              · exact steady_setSlot (steady_with h rfl)
              · exact steady_with h rfl
      · split
        · refine steady_failBuilding ?_
          split
          · exact steady_setSlot (steady_with h rfl)
          · exact steady_with h rfl
        · split
          · split
            · exact steady_setSlot (steady_with h rfl)
            · exact steady_with h rfl
          · refine steady_buildBegin ?_
            split
            · exact steady_setSlot (steady_with h rfl)
            · exact steady_with h rfl

theorem steady_readMap {b : CastleBody} (h : Steady s₀ s) : Steady s₀ (readMap b s).after := by
  unfold readMap
  split
  · exact steady_engineRead h
  · exact h

theorem steady_castleHead {c : Castle} {t : List Castle} (h : Steady s₀ s) : Steady s₀ (castleHead c t s) := by
  unfold castleHead
  dsimp only
  split
  · split
    · exact steady_with h rfl
    · exact steady_castleBegin (steady_with h rfl)
  · split
    · exact steady_finish (steady_with h rfl)
    · split
      · exact steady_waits (by assumption) (steady_readMap h)
      · exact steady_finish (steady_with (steady_fails (by assumption) (steady_readMap h)) rfl)
      · split
        · exact steady_finish (steady_with (steady_good (by assumption) (steady_readMap h)) rfl)
        · split
          · exact steady_with (steady_good (by assumption) (steady_readMap h)) rfl
          · exact steady_castleBegin (steady_with (steady_good (by assumption) (steady_readMap h)) rfl)

theorem steady_castleStep (h : Steady s₀ s) : Steady s₀ (castleStep s) := by
  unfold castleStep
  split
  · exact steady_castleTurn h
  · split
    · exact h
    · split
      · exact h
      · exact steady_castleHead h

theorem goes_execCastleStart (h : Steady s₀ s) : Goes s₀ (execCastleStart s) := goes_next (steady_castleStep h)

theorem goes_execCastleChunk {castleId : W64} {index : Nat} {crc : W64} {flagged : Nat} {data : Option (List Byte)}
    (h : Steady s₀ s) : Goes s₀ (execCastleChunk castleId index crc flagged data s) := by
  unfold execCastleChunk
  dsimp only
  refine goes_next ?_
  split
  · split
    · exact steady_takeChunk h
    · exact steady_with h rfl
  · exact steady_with h rfl

theorem goes_execCastleChunkRerequest {castleId : W64} {index : Nat} {node : BitVec 15}
    (h : Steady s₀ s) : Goes s₀ (execCastleChunkRerequest castleId index node s) := by
  unfold execCastleChunkRerequest
  refine goes_next ?_
  split
  · exact h
  · split
    · exact steady_emit (steady_good (by assumption) (steady_readShard h))
    · exact steady_waits (by assumption) (steady_readShard h)
    · exact steady_emit (steady_fails (by assumption) (steady_readShard h))

end Sys2Proof.Machine
end

section
/-! SUPPORT. Steady operations: checkpoints, requests, streams, BAR2 and COMMAND_TAKE. Each leaves the queue of waiting commands alone
and memory canonical. -/

namespace Sys2Proof.Machine

variable {s₀ s t : State}

/-! ### Checkpoints, restores, snapshots -/

theorem steady_endOldCkpt (h : Steady s₀ s) : Steady s₀ (endOldCkpt s) := by
  unfold endOldCkpt
  split
  · split
    · exact h
    · split
      · exact steady_with h rfl
      · exact steady_finish h
  · exact h

theorem steady_ckptStart {b : CkptBody} {t : Ticket} (h : Steady s₀ s) : Steady s₀ (ckptStart b t s) := by
  unfold ckptStart
  split
  · exact steady_finish h
  · dsimp only
    split
    · exact steady_finish (steady_with (steady_flushLog (steady_endOldCkpt h)) rfl)
    · exact steady_with (steady_flushLog (steady_endOldCkpt h)) rfl

theorem steady_checkpointBody {hdr : Hdr} {b : CkptBody} {t : Ticket} (h : Steady s₀ s) : Steady s₀ (checkpointBody hdr b t s) := by
  unfold checkpointBody
  split
  · exact steady_finish h
  · split
    · exact steady_ckptStart h
    · exact steady_whenFlash (fun _ h1 => steady_ckptStart h1) h

theorem steady_takeCheckpointCmd {q : Nat} {hdr : Hdr} {b : CkptBody} (h : Steady s₀ s) : Steady s₀ (takeCheckpointCmd q hdr b s) :=
  steady_takeCmd (fun _ _ h1 => steady_checkpointBody h1) h

theorem goes_execCheckpoint {q : Nat} {hdr : Hdr} {b : CkptBody} (h : Steady s₀ s) : Goes s₀ (execCheckpoint q hdr b s) :=
  goes_withUnit (fun _ h1 => steady_takeCheckpointCmd h1) h

theorem steady_sendBuddy {b : CkptBody} {bs : List Byte} (h : Steady s₀ s) : Steady s₀ (sendBuddy b bs s) := by
  unfold sendBuddy
  dsimp only
  split
  · exact steady_with h rfl
  · exact steady_emit (steady_with h rfl)

theorem steady_endJob {j : CkptJob} {status : Byte} (h : Steady s₀ s) : Steady s₀ (endJob j status s) :=
  steady_startJob (steady_finishOpt h)

theorem steady_ckptCommit (h : Steady s₀ s) : Steady s₀ (ckptCommit s) := by
  unfold ckptCommit
  split
  · exact h
  · dsimp only
    split
    · exact steady_waits (by assumption) (steady_engineRead h)
    · exact steady_endJob (steady_with (steady_fails (by assumption) (steady_engineRead h)) rfl)
    · split
      · exact steady_endJob (steady_with (steady_good (by assumption) (steady_engineRead h)) rfl)
      · exact steady_endJob (steady_flushLog (steady_with (steady_sendBuddy (steady_appendFlash
            (steady_foldl (fun _ _ h1 => steady_bgObj h1) (steady_with (steady_good (by assumption) (steady_engineRead h)) rfl)))) rfl))

theorem goes_execCheckpointCommit (h : Steady s₀ s) : Goes s₀ (execCheckpointCommit s) := goes_next (steady_ckptCommit h)

theorem steady_buddyData {node : BitVec 15} {a b : W16} {data : List Byte} {last : Bool}
    (h : Steady s₀ s) : Steady s₀ (buddyData node a b data last s) := by
  unfold buddyData
  dsimp only
  split
  · split
    · exact steady_emit (steady_with h rfl)
    · split
      · exact steady_emit (steady_with (steady_appendFlash h) rfl)
      · exact steady_appendFlash h
  · split
    · exact steady_emit (steady_with (steady_truncateFlash h) rfl)
    · split
      · exact steady_emit (steady_with (steady_appendFlash (steady_truncateFlash h)) rfl)
      · exact steady_with (steady_appendFlash (steady_truncateFlash h)) rfl

theorem goes_execBuddyCkptData {node : BitVec 15} {targets : W16 × W16} {data : List Byte} {trailer : Bool}
    (h : Steady s₀ s) : Goes s₀ (execBuddyCkptData node targets data trailer s) :=
  goes_next (steady_buddyData h)

theorem goes_execBuddyCommitAck {ok : Bool} (h : Steady s₀ s) : Goes s₀ (execBuddyCommitAck ok s) := by
  unfold execBuddyCommitAck
  refine goes_next ?_
  split
  · exact steady_with h rfl
  · exact h

theorem goes_execBuddyLogUnit {target : W16} {reset : Bool} {data : List Byte}
    (h : Steady s₀ s) : Goes s₀ (execBuddyLogUnit target reset data s) := by
  unfold execBuddyLogUnit
  refine goes_next ?_
  dsimp only
  split
  · split
    · exact steady_appendFlash (steady_truncateFlash h)
    · exact steady_truncateFlash h
  · split
    · exact steady_appendFlash h
    · exact h

theorem goes_execLogUnitAppend (h : Steady s₀ s) : Goes s₀ (execLogUnitAppend s) := by
  unfold execLogUnitAppend
  refine goes_next ?_
  split
  · exact steady_flushLog h
  · exact h

theorem steady_restoreStart {b : RestoreBody} {t : Ticket} (h : Steady s₀ s) : Steady s₀ (restoreStart b t s) := by
  unfold restoreStart
  split
  · exact steady_finish h
  · split
    · exact steady_finish h
    · dsimp only
      split
      · refine steady_emit ?_
        split
        · exact steady_emit (steady_with h rfl)
        · exact steady_with h rfl
      · split
        · exact steady_emit (steady_with h rfl)
        · exact steady_with h rfl

theorem steady_restoreBodyRun {hdr : Hdr} {b : RestoreBody} {t : Ticket} (h : Steady s₀ s) : Steady s₀ (restoreBodyRun hdr b t s) := by
  unfold restoreBodyRun
  split
  · exact steady_finish h
  · split
    · exact steady_finish h
    · split
      · exact steady_whenFlash (fun _ h1 => steady_restoreStart h1) h
      · exact steady_restoreStart h

theorem steady_takeRestore {q : Nat} {hdr : Hdr} {b : RestoreBody} (h : Steady s₀ s) : Steady s₀ (takeRestore q hdr b s) :=
  steady_takeCmd (fun _ _ h1 => steady_restoreBodyRun h1) h

theorem goes_execRestore {q : Nat} {hdr : Hdr} {b : RestoreBody} (h : Steady s₀ s) : Goes s₀ (execRestore q hdr b s) :=
  goes_withUnit (fun _ h1 => steady_takeRestore h1) h

theorem steady_restoreFinish {peerData peerLog : List Byte} {refused : Bool}
    (h : Steady s₀ s) : Steady s₀ (restoreFinish peerData peerLog refused s) := by
  unfold restoreFinish
  split
  · exact h
  · dsimp only
    split
    · exact steady_finish (steady_foldl (fun _ _ h1 => steady_undefineObject h1) (steady_with h rfl))
    · refine steady_finish ?_
      split
      · exact steady_with (steady_foldl (fun _ _ h1 => steady_storeBg h1) (steady_with h rfl)) rfl
      · exact steady_appendFlash (steady_with (steady_foldl (fun _ _ h1 => steady_storeBg h1) (steady_with h rfl)) rfl)

theorem goes_execRestoreDone {peerData peerLog : List Byte} {refused : Bool}
    (h : Steady s₀ s) : Goes s₀ (execRestoreDone peerData peerLog refused s) :=
  goes_next (steady_restoreFinish h)

theorem goes_execPeerCkptRead {node : BitVec 15} {object : W16} {log : Bool}
    (h : Steady s₀ s) : Goes s₀ (execPeerCkptRead node object log s) := by
  unfold execPeerCkptRead
  refine goes_next ?_
  dsimp only
  split <;> exact steady_emit h

theorem steady_snapshotStart {b : SnapshotBody} {t : Ticket} (h : Steady s₀ s) : Steady s₀ (snapshotStart b t s) := by
  unfold snapshotStart
  dsimp only
  split
  · exact steady_finish h
  · split
    · exact steady_finish h
    · exact steady_with h rfl

theorem steady_snapshotBodyRun {hdr : Hdr} {b : SnapshotBody} {t : Ticket} (h : Steady s₀ s) : Steady s₀ (snapshotBodyRun hdr b t s) := by
  unfold snapshotBodyRun
  split
  · exact steady_finish h
  · exact steady_whenFlash (fun _ h1 => steady_snapshotStart h1) h

theorem steady_takeSnapshot {q : Nat} {hdr : Hdr} {b : SnapshotBody} (h : Steady s₀ s) : Steady s₀ (takeSnapshot q hdr b s) :=
  steady_takeCmd (fun _ _ h1 => steady_snapshotBodyRun h1) h

theorem goes_execSnapshot {q : Nat} {hdr : Hdr} {b : SnapshotBody} (h : Steady s₀ s) : Goes s₀ (execSnapshot q hdr b s) :=
  goes_withUnit (fun _ h1 => steady_takeSnapshot h1) h

theorem steady_snapshotEnd {peerRefused : Bool} (h : Steady s₀ s) : Steady s₀ (snapshotEnd peerRefused s) := by
  unfold snapshotEnd
  split
  · exact h
  · dsimp only
    split
    · exact steady_waits (by assumption) (steady_engineRead h)
    · exact steady_finish (steady_with (steady_fails (by assumption) (steady_engineRead h)) rfl)
    · split
      · exact steady_finish (steady_emit (steady_appendFlash (steady_appendFlash
            (steady_foldl (fun _ _ h1 => steady_bgObj h1) (steady_with (steady_good (by assumption) (steady_engineRead h)) rfl)))))
      · exact steady_finish (steady_appendFlash (steady_appendFlash (steady_foldl (fun _ _ h1 => steady_bgObj h1)
            (steady_with (steady_good (by assumption) (steady_engineRead h)) rfl))))

theorem goes_execSnapshotDurable {peerRefused : Bool} (h : Steady s₀ s) : Goes s₀ (execSnapshotDurable peerRefused s) :=
  goes_next (steady_snapshotEnd h)

theorem goes_execSnapshotExport {node : BitVec 15} {image manifest : W16} {imageData manifestData : List Byte}
    (h : Steady s₀ s) : Goes s₀ (execSnapshotExport node image manifest imageData manifestData s) := by
  unfold execSnapshotExport
  refine goes_next ?_
  dsimp only
  split
  · exact steady_emit (steady_appendFlash (steady_appendFlash h))
  · exact steady_emit h

/-! ### ADMIT, CANCEL, PAGE_MOVE -/

theorem steady_takeAdmit {q : Nat} {hdr : Hdr} {b : AdmitBody} (h : Steady s₀ s) : Steady s₀ (takeAdmit q hdr b s) :=
  steady_takeCmd (fun _ _ h1 => steady_reqOp h1) h

theorem goes_execAdmitEntry {q : Nat} {hdr : Hdr} {b : AdmitBody} (h : Steady s₀ s) : Goes s₀ (execAdmitEntry q hdr b s) :=
  goes_withUnit (fun _ h1 => steady_takeAdmit h1) h

theorem steady_takeCancel {q : Nat} {hdr : Hdr} {entry : W16} {key : W32}
    (h : Steady s₀ s) : Steady s₀ (takeCancel q hdr entry key s) :=
  steady_takeCmd (fun _ _ h1 => steady_reqOp h1) h

theorem goes_execCancel {q : Nat} {hdr : Hdr} {entry : W16} {key : W32} (h : Steady s₀ s) : Goes s₀ (execCancel q hdr entry key s) :=
  goes_withUnit (fun _ h1 => steady_takeCancel h1) h

theorem steady_takePageMove {q : Nat} {hdr : Hdr} {b : PageMoveBody} (h : Steady s₀ s) : Steady s₀ (takePageMove q hdr b s) :=
  steady_takeCmd (fun _ _ h1 => steady_reqOp h1) h

theorem goes_execPageMove {q : Nat} {hdr : Hdr} {b : PageMoveBody} (h : Steady s₀ s) : Goes s₀ (execPageMove q hdr b s) :=
  goes_withUnit (fun _ h1 => steady_takePageMove h1) h

theorem steady_movePage {p tier frame : Nat} (h : Steady s₀ s) : Steady s₀ (movePage p tier frame s) :=
  steady_setPage (steady_foldl (fun _ _ h1 => steady_writeObj (steady_bgObj (steady_bgObj h1))) h)

theorem steady_movePages {b : PageMoveBody} {more : Bool} (h : Steady s₀ s) : Steady s₀ (movePages b more s) :=
  steady_wake (steady_setRequest (steady_foldl (fun _ _ h1 => steady_movePage h1) h))

theorem steady_pageMoveEnd {entry : Nat} {ecc : Ecc} (h : Steady s₀ s) : Steady s₀ (pageMoveEnd entry ecc s) := by
  unfold pageMoveEnd
  dsimp only
  split
  · exact h
  · split
    · exact steady_finish (steady_dropOp h)
    · split
      · exact steady_waits (by assumption) (steady_engineRead h)
      · exact steady_failOp (steady_fails (by assumption) (steady_engineRead h))
      · exact steady_finish (steady_movePages (steady_dropOp (steady_good (by assumption) (steady_engineRead h))))

theorem goes_execPageMoveDone {x : PageMoveRead} (h : Steady s₀ s) : Goes s₀ (execPageMoveDone x s) := goes_next (steady_pageMoveEnd h)

/-! ### Streams -/

theorem steady_streamEnds {op : Nat} {x : StreamOp} (h : Steady s₀ s) : Steady s₀ (streamEnds op x s) := by
  unfold streamEnds
  dsimp only
  split
  · split
    · exact steady_dropOp h
    · exact steady_addOp (steady_dropOp h)
  · exact steady_dropOp h

theorem steady_refetch {op k kind ac : Nat} (h : Steady s₀ s) : Steady s₀ (refetch op k kind ac s) := by
  unfold refetch
  dsimp only
  split
  · exact steady_setStream (steady_poisonedLine (steady_lineFailed h))
  · exact steady_poisonedLine (steady_lineFailed h)

theorem steady_serveIn {op : Nat} {x : StreamOp} {corrected : List Nat} (h : Steady s₀ s) : Steady s₀ (serveIn op x corrected s) := by
  unfold serveIn
  dsimp only
  split
  · refine steady_setStream ?_
    split
    · split
      · exact steady_foldl (fun _ _ h1 => steady_lineCorrected h1) h
      · exact steady_fillWrite (steady_foldl (fun _ _ h1 => steady_lineCorrected h1) h)
    · exact steady_foldl (fun _ _ h1 => steady_lineCorrected h1) h
  · refine steady_foldl (fun _ _ h1 => steady_refetch h1) (steady_setStream ?_)
    split
    · split
      · exact steady_foldl (fun _ _ h1 => steady_lineCorrected h1) h
      · exact steady_fillWrite (steady_foldl (fun _ _ h1 => steady_lineCorrected h1) h)
    · exact steady_foldl (fun _ _ h1 => steady_lineCorrected h1) h

theorem steady_fillRepaired {x : StreamOp} (h : Steady s₀ s) : Steady s₀ (fillRepaired x s) := by
  unfold fillRepaired
  split
  · exact h
  · exact steady_foldl (fun _ _ h1 => steady_fillWrite h1) h

theorem steady_endIn {op : Nat} (h : Steady s₀ s) : Steady s₀ (endIn op s) := by
  unfold endIn
  split
  · split
    · exact steady_streamEnds (steady_fillRepaired h)
    · exact h
  · exact h

theorem steady_streamOutDone {op : Nat} {x : StreamOp} (h : Steady s₀ s) : Steady s₀ (streamOutDone op x s) := by
  unfold streamOutDone
  dsimp only
  refine steady_streamEnds ?_
  split
  · split
    · exact h
    · exact steady_streamStore h
  · exact h

theorem goes_execStreamComplete {op : Nat} {corrected : List Nat} (h : Steady s₀ s) : Goes s₀ (execStreamComplete op corrected s) := by
  unfold execStreamComplete
  refine goes_next ?_
  split
  · split
    · exact steady_endIn h
    · split
      · exact h
      · split
        · exact steady_streamOutDone h
        · split
          · exact h
          · exact steady_endIn (steady_serveIn h)
  · exact h

theorem steady_memReread {op k : Nat} {raw : RawLine} {acFrom acTo : Nat}
    (h : Steady s₀ s) : Steady s₀ (memReread op k raw acFrom acTo s) := by
  unfold memReread
  dsimp only
  split
  · exact steady_setStream (steady_setTiers (fun _ => rfl) h)
  · exact steady_lineCorrected (steady_setStream (steady_setTiers (fun _ => rfl) h))
  · exact steady_refetch (steady_setStream (steady_setTiers (fun _ => rfl) h))

theorem goes_execMemReread {op port line : Nat} {raw : RawLine} {acFrom acTo : Nat}
    (h : Steady s₀ s) : Goes s₀ (execMemReread op port line raw acFrom acTo s) := by
  unfold execMemReread
  refine goes_withUnit (fun _ h1 => ?_) h
  dsimp only
  split
  · split
    · exact h1
    · refine steady_memReread ?_
      split
      · exact steady_lineFailed h1
      · exact h1
  · exact h1

theorem steady_frameEdge {m : Nat} (h : Steady s₀ s) : Steady s₀ (frameEdge m s) := by
  unfold frameEdge
  split
  · exact steady_setTiers (fun _ => rfl) h
  · exact h

theorem goes_execFrameEdge {port : Nat} (h : Steady s₀ s) : Goes s₀ (execFrameEdge port s) :=
  goes_withUnit (fun _ h1 => steady_frameEdge h1) h

/-! ### BAR2 -/

theorem steady_barLine {p : Port} {x : Nat × List Byte} (h : Steady s₀ s) : Steady s₀ (barLine p x s) := by
  unfold barLine
  split
  · exact steady_setPort h
  · split
    · split
      · exact steady_setBlock h
      · exact h
    · exact steady_storeBg h

theorem steady_bar2Write {p : Port} {offset : Nat} {data : List Byte} (h : Steady s₀ s) : Steady s₀ (bar2Write p offset data s) := by
  unfold bar2Write
  split
  · exact steady_foldl (fun _ _ h1 => steady_barLine h1) h
  · exact h

theorem goes_execBar2Write {port : Port} {offset : Nat} {data : List Byte}
    (h : Steady s₀ s) : Goes s₀ (execBar2Write port offset data s) :=
  goes_next (steady_bar2Write h)

theorem steady_bar2Read {p : Port} {offset n : Nat} {bad : Bool} (h : Steady s₀ s) : Steady s₀ (bar2Read p offset n bad s) := by
  unfold bar2Read
  split
  · exact h
  · dsimp only
    split
    · exact steady_emit h
    · split
      · exact steady_emit (steady_bgTouch h)
      · split
        · split
          · exact steady_setPort (steady_bgTouch h)
          · exact steady_emit (steady_bgTouch h)
        · exact steady_foldl (fun _ _ h1 => steady_badRead h1) (steady_setPort (steady_bgTouch h))

theorem goes_execBar2Read {port : Port} {offset length : Nat} {bad : Bool}
    (h : Steady s₀ s) : Goes s₀ (execBar2Read port offset length bad s) :=
  goes_next (steady_bar2Read h)

theorem steady_bar2ReadTimeout {p : Port} (h : Steady s₀ s) : Steady s₀ (bar2ReadTimeout p s) := by
  unfold bar2ReadTimeout
  split
  · exact h
  · split
    · exact h
    · exact steady_emit (steady_setPort h)

theorem goes_execBar2ReadTimeout {port : Port} (h : Steady s₀ s) : Goes s₀ (execBar2ReadTimeout port s) :=
  goes_next (steady_bar2ReadTimeout h)

/-! ### COMMAND_TAKE -/

theorem steady_takeBad {q : Nat} {hdr : Hdr} {wide : Bool} {st : Byte} (h : Steady s₀ s) : Steady s₀ (takeBad q hdr wide st s) :=
  steady_takeCmd (fun _ _ h1 => steady_finish h1) h

theorem steady_takeFlashObj {q : Nat} {hdr : Hdr} {d : List Byte} (h : Steady s₀ s) : Steady s₀ (takeFlashObj q hdr d s) := by
  unfold takeFlashObj
  split
  · exact steady_takeFlashObjCreate h
  · split
    · exact steady_takeFlashObjDelete h
    · exact steady_takeBad h

theorem steady_takeOpcode {q : Nat} {hdr : Hdr} {d : List Byte} (h : Steady s₀ s) : Steady s₀ (takeOpcode q hdr d s) := by
  have hall : ∀ k, k = takeOpcode q hdr d → Steady s₀ (k s) := by
    unfold takeOpcode
    split <;> rintro _ rfl
    · exact steady_takeNop h
    · exact steady_takePhase h
    · exact steady_takePlyRun h
    · exact steady_takeBookLoad h
    · exact steady_takePlace h
    · exact steady_takeObjectMove h
    · exact steady_takeFlashObj h
    · exact steady_takeHostCopy h
    · exact steady_takeCastle h
    · exact steady_takeCollective h
    · exact steady_takeRouteSet h
    · exact steady_takePositionSet h
    · exact steady_takeGroupSet h
    · exact steady_takeCheckpointCmd h
    · exact steady_takeRestore h
    · exact steady_takeSnapshot h
    · exact steady_takeAdmit h
    · exact steady_takeCancel h
    · exact steady_takePageMove h
    · exact steady_takeBad h
  exact hall _ rfl

theorem steady_stopQueue {q cause : Nat} (h : Steady s₀ s) : Steady s₀ (stopQueue q cause s) := steady_raiseEventAt (steady_setQueue h)

theorem steady_commandTake {q : Nat} {answer : HostAnswer} (h : Steady s₀ s) : Steady s₀ (commandTake q answer s) := by
  unfold commandTake
  split
  · split
    · exact h
    · exact steady_stopQueue h
  · split
    · exact steady_stopQueue h
    · exact h
  · split
    · exact h
    · split
      · exact steady_takeOpcode h
      · exact steady_takeBad h

theorem goes_execCommandTake {q : Nat} {answer : HostAnswer} (h : Steady s₀ s) : Goes s₀ (execCommandTake q answer s) :=
  goes_withUnit (fun _ h1 => steady_commandTake h1) h

end Sys2Proof.Machine
end

section
/-! SUPPORT. Steady operations: updates, starts and resets. Each leaves the queue of waiting commands alone
and memory canonical. -/

namespace Sys2Proof.Machine

variable {s₀ s t : State}

/-! ### The update chain -/

theorem steady_setUpdate {f : Update → Update} (h : Steady s₀ s) : Steady s₀ (setUpdate f s) := steady_with h rfl

theorem steady_migrateSettings (h : Steady s₀ s) : Steady s₀ (migrateSettings s) := by
  unfold migrateSettings
  dsimp only
  split
  · split
    · exact steady_score (steady_with h rfl)
    · split
      · split
        · split <;> exact steady_with h rfl
        · exact steady_with h rfl
      · exact h
  · split
    · exact steady_score (steady_with h rfl)
    · split
      · split
        · split <;> exact steady_with h rfl
        · exact steady_with h rfl
      · exact h

theorem steady_followToken {pos r : Nat} (h : Steady s₀ s) : Steady s₀ (followToken pos r s) := steady_setUpdate h

theorem steady_countResult {pos r : Nat} (h : Steady s₀ s) : Steady s₀ (countResult pos r s) := by
  unfold countResult
  refine steady_followToken ?_
  split
  · exact steady_setUpdate h
  · exact h

theorem steady_reportResult {pos r : Nat} (h : Steady s₀ s) : Steady s₀ (reportResult pos r s) := by
  unfold reportResult
  split
  · exact steady_countResult h
  · exact steady_emit h

theorem steady_endForward (h : Steady s₀ s) : Steady s₀ (endForward s) := steady_setUpdate h

theorem steady_forwardTo {pos : Nat} (h : Steady s₀ s) : Steady s₀ (forwardTo pos s) := by
  unfold forwardTo
  dsimp only
  split
  · exact steady_emit (steady_setUpdate h)
  · exact steady_endForward h

theorem steady_storeBundle {settingsOk readBackOk : Bool} (h : Steady s₀ s) : Steady s₀ (storeBundle settingsOk readBackOk s).1 := by
  unfold storeBundle
  split
  · dsimp only
    split
    · exact steady_forwardTo (steady_reportResult (steady_score (steady_setUpdate h)))
    · dsimp only
      split
      · exact steady_forwardTo (steady_reportResult (steady_score (steady_setUpdate h)))
      · exact steady_reportResult (steady_score (steady_setUpdate h))
  · dsimp only
    split
    · exact steady_forwardTo (steady_reportResult (steady_score (steady_setUpdate h)))
    · dsimp only
      split
      · exact steady_forwardTo (steady_reportResult (steady_score (steady_setUpdate h)))
      · exact steady_reportResult (steady_score (steady_setUpdate h))

theorem steady_passToken {timeout : Nat} {rest : List Nat} (h : Steady s₀ s) : Steady s₀ (passToken timeout rest s) := by
  unfold passToken
  split
  · exact h
  · split
    · exact steady_setUpdate h
    · exact steady_emit h

theorem steady_releaseToken (h : Steady s₀ s) : Steady s₀ (releaseToken s) := by
  unfold releaseToken
  dsimp only
  split
  · exact steady_passToken (steady_setUpdate h)
  · exact h

theorem steady_applyNext (h : Steady s₀ s) : Steady s₀ (applyNext s) := by
  unfold applyNext
  split
  · exact steady_setUpdate h
  · dsimp only
    exact steady_releaseToken (steady_reportResult (steady_setUpdate h))

theorem steady_beginApply (h : Steady s₀ s) : Steady s₀ (beginApply s) := steady_applyNext (steady_setUpdate h)
theorem steady_takeEffect (h : Steady s₀ s) : Steady s₀ (takeEffect s) := steady_applyNext (steady_score (steady_setUpdate h))

theorem steady_blocksRestarted {bs : List Nat} (h : Steady s₀ s) : Steady s₀ (blocksRestarted bs s) := by
  unfold blocksRestarted
  dsimp only
  split
  · exact steady_takeEffect (steady_setUpdate h)
  · exact steady_setUpdate h

theorem steady_measure (h : Steady s₀ s) : Steady s₀ (measure s) := steady_setUpdate h

theorem steady_glarenRestarted (h : Steady s₀ s) : Steady s₀ (glarenRestarted s) := by
  unfold glarenRestarted
  refine steady_measure ?_
  split
  · exact steady_takeEffect h
  · exact h

theorem steady_warmRestarted (h : Steady s₀ s) : Steady s₀ (warmRestarted s) := by
  unfold warmRestarted
  dsimp only
  split
  · exact steady_takeEffect (steady_with (steady_blocksRestarted h) rfl)
  · exact steady_blocksRestarted h

theorem steady_runSlot {slotB : Bool} (h : Steady s₀ s) : Steady s₀ (runSlot slotB s) :=
  steady_measure (steady_migrateSettings (steady_setUpdate h))

theorem steady_coldRestarted (h : Steady s₀ s) : Steady s₀ (coldRestarted s) := by
  unfold coldRestarted
  split
  · dsimp only
    split
    · exact steady_applyNext (steady_setUpdate h)
    · exact steady_takeEffect (steady_setUpdate h)
  · exact h

/-! ### Starts and resets -/

theorem steady_setResets {f : Resets → Resets} (h : Steady s₀ s) : Steady s₀ (setResets f s) := steady_with h rfl
theorem steady_diesOff (h : Steady s₀ s) : Steady s₀ (diesOff s) := steady_withMem h (fun _ => Memory.wf_nil)
theorem steady_glarenCold (h : Steady s₀ s) : Steady s₀ (glarenCold s) := steady_with h rfl

theorem steady_journalMove {old : State} (h : Steady s₀ s) : Steady s₀ (journalMove old s) := by
  unfold journalMove
  split
  · exact h
  · exact steady_score h

theorem steady_startNode (h : Steady s₀ s) : Steady s₀ (startNode s) := by
  unfold startNode
  split
  · exact steady_with h rfl
  · exact h

theorem steady_enterRecovery (h : Steady s₀ s) : Steady s₀ (enterRecovery s) := by
  unfold enterRecovery
  dsimp only
  split
  · exact steady_setUpdate (steady_emit (steady_score (steady_setResets h)))
  · exact steady_score (steady_setResets h)

theorem steady_failStart {step : Nat} (h : Steady s₀ s) : Steady s₀ (failStart step s) := steady_score (steady_setResets
    (steady_diesOff h))

theorem steady_closeStart (h : Steady s₀ s) : Steady s₀ (closeStart s) := by
  unfold closeStart
  split
  · exact h
  · exact steady_score (steady_setResets h)

theorem steady_beginStart (h : Steady s₀ s) : Steady s₀ (beginStart s) := by
  unfold beginStart
  split
  · exact steady_enterRecovery h
  · exact steady_score (steady_setResets h)

theorem steady_beginCold {causes : BitVec 7} (h : Steady s₀ s) : Steady s₀ (beginCold causes s) := by
  unfold beginCold
  dsimp only
  split
  · exact steady_journalMove (steady_beginStart (steady_glarenCold (steady_diesOff (steady_setResets h))))
  · exact steady_setResets (steady_journalMove (steady_beginStart (steady_glarenCold (steady_diesOff (steady_setResets h)))))

theorem steady_powerOn (h : Steady s₀ s) : Steady s₀ (powerOn s) := by
  unfold powerOn
  dsimp only
  split
  · exact steady_glarenCold (steady_diesOff (steady_with h rfl))
  · exact steady_beginCold (steady_with h rfl)

theorem goes_execPowerGood (h : Steady s₀ s) : Goes s₀ (execPowerGood s) := by
  unfold execPowerGood
  refine goes_next ?_
  split
  · exact h
  · exact steady_powerOn h

theorem steady_inputLoss (h : Steady s₀ s) : Steady s₀ (inputLoss s) := steady_setResets (steady_diesOff (steady_score h))

theorem goes_execInputLoss (h : Steady s₀ s) : Goes s₀ (execInputLoss s) := by
  unfold execInputLoss
  refine goes_next ?_
  split
  · exact steady_inputLoss h
  · exact h

theorem steady_selfTest {failed : List (Nat × Nat)} (h : Steady s₀ s) : Steady s₀ (selfTest failed s) :=
  steady_foldl (fun _ _ h1 => steady_failEngine h1) (steady_with (steady_foldl (fun _ _ h1 => steady_with h1 rfl) h) rfl)

theorem steady_finishCold {failed : List (Nat × Nat)} (h : Steady s₀ s) : Steady s₀ (finishCold failed s) :=
  steady_coldRestarted (steady_with (steady_startNode (steady_selfTest h)) rfl)

theorem steady_coldSteps {saved : Bool} (h : Steady s₀ s) : Steady s₀ (coldSteps saved s) := steady_with h rfl

theorem steady_coldStart {saved slotB : Bool} {failed : List (Nat × Nat)} {fails : Option Nat}
    (h : Steady s₀ s) : Steady s₀ (coldStart saved slotB failed fails s) := by
  unfold coldStart
  split
  · exact steady_enterRecovery h
  · exact steady_failStart h
  · split
    · exact steady_enterRecovery h
    · dsimp only
      split
      · exact steady_finishCold (steady_coldSteps (steady_runSlot h))
      · exact steady_setResets (steady_coldSteps (steady_runSlot h))

theorem goes_execColdStart {saved slotB : Bool} {failedSelfTest : List (Nat × Nat)} {fails : Option Nat}
    (h : Steady s₀ s) : Goes s₀ (execColdStart saved slotB failedSelfTest fails s) := by
  unfold execColdStart
  refine goes_next ?_
  split
  · exact steady_coldStart h
  · exact h

theorem goes_execStartTimeout {step : Nat} (h : Steady s₀ s) : Goes s₀ (execStartTimeout step s) := by
  unfold execStartTimeout
  refine goes_next ?_
  split
  · exact steady_failStart h
  · exact h

theorem goes_execStartRetry (h : Steady s₀ s) : Goes s₀ (execStartRetry s) := by
  unfold execStartRetry
  refine goes_next ?_
  split
  · exact steady_beginCold h
  · exact h

theorem steady_requestWarm {bit : Nat} (h : Steady s₀ s) : Steady s₀ (requestWarm bit s) := by
  unfold requestWarm
  dsimp only
  split
  · exact h
  · split
    · exact steady_setResets h
    · split
      · exact steady_setResets h
      · exact steady_score (steady_setResets h)

theorem steady_warmState (h : Steady s₀ s) : Steady s₀ (warmState s) := steady_withMem h (Memory.wf_filter _ _)

theorem steady_finishWarm (h : Steady s₀ s) : Steady s₀ (finishWarm s) :=
  steady_measure (steady_warmRestarted (steady_migrateSettings (steady_startNode (steady_setResets h))))

theorem steady_warmReset {fails : Option Nat} (h : Steady s₀ s) : Steady s₀ (warmReset fails s) := by
  unfold warmReset
  dsimp only
  split
  · exact steady_setResets (steady_score (steady_beginStart (steady_warmState (steady_closeStart (steady_dropBuilding h)))))
  · split
    · exact steady_failStart (steady_score (steady_beginStart (steady_warmState (steady_closeStart (steady_dropBuilding h)))))
    · split
      · exact steady_finishWarm (steady_score (steady_beginStart (steady_warmState (steady_closeStart (steady_dropBuilding h)))))
      · exact steady_setResets (steady_score (steady_beginStart (steady_warmState (steady_closeStart (steady_dropBuilding h)))))

theorem goes_execWarmReset {fails : Option Nat} (h : Steady s₀ s) : Goes s₀ (execWarmReset fails s) := by
  unfold execWarmReset
  refine goes_next ?_
  split
  · split
    · exact steady_warmReset h
    · exact h
  · exact h

theorem goes_execWarmNAssert (h : Steady s₀ s) : Goes s₀ (execWarmNAssert s) := by
  unfold execWarmNAssert
  refine goes_next ?_
  split
  · exact steady_requestWarm (steady_setResets h)
  · exact h

theorem goes_execWarmNRelease (h : Steady s₀ s) : Goes s₀ (execWarmNRelease s) := by
  unfold execWarmNRelease
  refine goes_next ?_
  split
  · exact h
  · dsimp only
    split
    · exact steady_finishWarm (steady_setResets h)
    · split
      · exact steady_finishCold (steady_setResets h)
      · exact steady_setResets h

theorem goes_execPerstAssert {port : Port} (h : Steady s₀ s) : Goes s₀ (execPerstAssert port s) := by
  unfold execPerstAssert
  refine goes_next ?_
  split
  · exact h
  · dsimp only
    split
    · refine steady_portCold ?_
      split
      · exact steady_portDown (steady_setPort h)
      · exact steady_setPort h
    · exact steady_setPort (steady_setPort h)

theorem goes_execPerstDeassert {port : Port} (h : Steady s₀ s) : Goes s₀ (execPerstDeassert port s) := by
  unfold execPerstDeassert
  refine goes_next ?_
  split
  · exact steady_setPort h
  · exact h

theorem goes_execPcieLinkDown {port : Port} (h : Steady s₀ s) : Goes s₀ (execPcieLinkDown port s) := by
  unfold execPcieLinkDown
  refine goes_next ?_
  split
  · split
    · exact steady_portDown h
    · exact steady_setPort h
  · exact h

theorem goes_execPcieLinkTrained {port : Port} {rate : BitVec 3} {width : BitVec 4}
    (h : Steady s₀ s) : Goes s₀ (execPcieLinkTrained port rate width s) := by
  unfold execPcieLinkTrained
  refine goes_next ?_
  split
  · exact steady_setPort h
  · exact h

theorem goes_execPcieConfigurationWrite {port : Port} {bar2Log2 : Option Nat} {d3hot : Option Bool} {numVfs : Option Nat}
    (h : Steady s₀ s) : Goes s₀ (execPcieConfigurationWrite port bar2Log2 d3hot numVfs s) :=
  goes_next (steady_setPort h)

theorem steady_glarenRestart (h : Steady s₀ s) : Steady s₀ (glarenRestart s) := steady_with (steady_glarenCold h) rfl

theorem steady_cancelGov (h : Steady s₀ s) : Steady s₀ (cancelGov s) := by
  unfold cancelGov
  split
  · exact steady_launchHeld h
  · exact h

theorem steady_glarenSelfReset (h : Steady s₀ s) : Steady s₀ (glarenSelfReset s) := by
  unfold glarenSelfReset
  split
  · exact h
  · dsimp only
    refine steady_setResets (steady_glarenRestart ?_)
    split
    · exact steady_requestWarm (steady_cancelGov h)
    · exact steady_cancelGov h

theorem goes_execGlarenSelfReset (h : Steady s₀ s) : Goes s₀ (execGlarenSelfReset s) := goes_next (steady_glarenSelfReset h)
theorem goes_execWatchdogGlaren (h : Steady s₀ s) : Goes s₀ (execWatchdogGlaren s) := goes_next (steady_glarenSelfReset h)

theorem steady_decideMove {p : Port} {op : Nat} {expected : W32} (h : Steady s₀ s) : Steady s₀ (decideMove p op expected s) := by
  unfold decideMove
  dsimp only
  split
  · exact steady_setPort h
  · split
    · split
      · exact steady_setPort (steady_changeHolder h)
      · exact steady_setPort h
    · split
      · exact steady_setPort (steady_with h rfl)
      · exact steady_setPort h
    · split
      · exact steady_setPort (steady_changeHolder h)
      · exact steady_setPort h
    · split
      · exact steady_setPort (steady_changeHolder h)
      · split
        · exact steady_setPort (steady_changeHolder h)
        · exact steady_setPort h

theorem steady_decideHeld {p : Port} (h : Steady s₀ s) : Steady s₀ (decideHeld p s) := by
  unfold decideHeld
  split
  · exact steady_decideMove h
  · exact h

theorem goes_execGlarenSelfResetEnd (h : Steady s₀ s) : Goes s₀ (execGlarenSelfResetEnd s) := by
  unfold execGlarenSelfResetEnd
  refine goes_next ?_
  split
  · exact h
  · dsimp only
    refine steady_glarenRestarted (steady_decideHeld (steady_decideHeld ?_))
    split
    · exact steady_foldl (fun _ _ h1 => steady_commitScore h1) (steady_score (steady_setResets h))
    · exact steady_score (steady_foldl (fun _ _ h1 => steady_commitScore h1) (steady_score (steady_setResets h)))

theorem steady_clockAction {k : Nat} (h : Steady s₀ s) : Steady s₀ (clockAction k s) := by
  unfold clockAction
  split
  · exact steady_requestWarm h
  · split
    · exact h
    · split
      · exact steady_startBlock h
      · exact steady_glarenSelfReset h

theorem steady_clockWindow {k : Nat} {locked switched : Bool} {count : BitVec 24}
    (h : Steady s₀ s) : Steady s₀ (clockWindow k locked switched count s) := by
  unfold clockWindow
  split
  · exact h
  · dsimp only
    split
    · refine steady_clockAction (steady_score ?_)
      split
      · exact steady_with (steady_setResets h) rfl
      · exact steady_setResets h
    · exact steady_setResets h

theorem goes_execClockMonitorWindow {k : Nat} {locked switched : Bool} {count : BitVec 24}
    (h : Steady s₀ s) : Goes s₀ (execClockMonitorWindow k locked switched count s) :=
  goes_withUnit (fun _ h1 => steady_clockWindow h1) h

/-! ### Links that go down -/

theorem steady_linkDown {u : Nat} (h : Steady s₀ s) : Steady s₀ (linkDown u s) := by
  unfold linkDown
  dsimp only
  split
  · exact steady_foldl (fun _ _ h1 => steady_emit h1) (steady_setUPort h)
  · exact steady_setUPort h

end Sys2Proof.Machine
end

section
/-! SUPPORT. Steady operations: registers. Each leaves the queue of waiting commands alone
and memory canonical. -/

namespace Sys2Proof.Machine

variable {s₀ s t : State}

/-! ### Registers -/

theorem steady_guarded {f : Fn} {r : Reg} {k : State → State} (hk : ∀ s, Steady s₀ s → Steady s₀ (k s))
    (h : Steady s₀ s) : Steady s₀ (guarded f r k s) := by
  unfold guarded
  split
  · exact hk _ h
  · exact h

theorem steady_writeMove {f : Fn} {o op : Nat} {expected : W32} (h : Steady s₀ s) : Steady s₀ (writeMove f o op expected s) := by
  unfold writeMove
  split
  · exact steady_reject h
  · split
    · exact steady_decideMove h
    · dsimp only
      exact steady_setPort (steady_with h rfl)

theorem steady_moveReq {f : Fn} {op : Nat} {expected : W32} (h : Steady s₀ s) : Steady s₀ (moveReq f op expected s) :=
  steady_guarded (fun _ h1 => steady_writeMove h1) h

theorem goes_execMoveAcquire {f : Fn} {expected : W32} (h : Steady s₀ s) : Goes s₀ (execMoveAcquire f expected s) :=
  goes_next (steady_moveReq h)

theorem goes_execMoveRenew {f : Fn} {expected : W32} (h : Steady s₀ s) : Goes s₀ (execMoveRenew f expected s) :=
  goes_next (steady_moveReq h)

theorem goes_execMoveRelease {f : Fn} {expected : W32} (h : Steady s₀ s) : Goes s₀ (execMoveRelease f expected s) :=
  goes_next (steady_moveReq h)

theorem goes_execMoveTake {f : Fn} {expected : W32} (h : Steady s₀ s) : Goes s₀ (execMoveTake f expected s) := goes_next
    (steady_moveReq h)

theorem steady_writeLease {f : Fn} {o v : Nat} (h : Steady s₀ s) : Steady s₀ (writeLease f o v s) := by
  unfold writeLease
  refine steady_control (fun _ h1 => ?_) h
  split
  · exact steady_reject h1
  · exact steady_with h1 rfl

theorem steady_writeEvents {f : Fn} {v : Nat} (h : Steady s₀ s) : Steady s₀ (writeEvents f v s) := steady_setPort h
theorem steady_writeMask {f : Fn} {v : Nat} (h : Steady s₀ s) : Steady s₀ (writeMask f v s) := steady_setPort h

theorem steady_writeReset {f : Fn} {o v : Nat} (h : Steady s₀ s) : Steady s₀ (writeReset f o v s) := by
  unfold writeReset
  refine steady_control (fun _ h1 => ?_) h
  split
  · exact steady_requestWarm h1
  · exact h1

theorem goes_execWarmResetRequest {f : Fn} {value : W32} (h : Steady s₀ s) : Goes s₀ (execWarmResetRequest f value s) :=
  goes_next (steady_guarded (fun _ h1 => steady_writeReset h1) h)

theorem steady_writeWindow {f : Fn} {o v : Nat} (h : Steady s₀ s) : Steady s₀ (writeWindow f o v s) := by
  unfold writeWindow
  dsimp only
  split
  · exact steady_setPort h
  · exact steady_reject h

theorem goes_execBar2WindowWrite {f : Fn} {value : W64} (h : Steady s₀ s) : Goes s₀ (execBar2WindowWrite f value s) :=
  goes_next (steady_guarded (fun _ h1 => steady_writeWindow h1) h)

theorem steady_requestBlock {b : Nat} {now : Bool} (h : Steady s₀ s) : Steady s₀ (requestBlock b now s) := by
  unfold requestBlock
  split
  · exact steady_startBlock h
  · split
    · exact steady_setBlock h
    · exact steady_setBlock h
    · exact h

theorem steady_writeBlockReset {f : Fn} {o v : Nat} (h : Steady s₀ s) : Steady s₀ (writeBlockReset f o v s) := by
  unfold writeBlockReset
  refine steady_control (fun _ h1 => ?_) h
  split
  · exact steady_reject h1
  · exact steady_requestBlock h1

theorem goes_execBlockReset {f : Fn} {value : W32} (h : Steady s₀ s) : Goes s₀ (execBlockReset f value s) :=
  goes_next (steady_guarded (fun _ h1 => steady_writeBlockReset h1) h)

theorem steady_setEnable {q : Nat} {en : Bool} (h : Steady s₀ s) : Steady s₀ (setEnable q en s) := steady_setQueue h
theorem steady_flushOne {q : Nat} {hdr : Hdr} (h : Steady s₀ s) : Steady s₀ (flushOne q hdr s) := steady_finish (steady_setQueue h)

theorem steady_flushQueue {q : Nat} {hdrs : List Hdr} (h : Steady s₀ s) : Steady s₀ (flushQueue q hdrs s) := by
  unfold flushQueue
  dsimp only
  split
  · exact steady_stopQueue (steady_foldl (fun _ _ h1 => steady_flushOne h1) h)
  · exact steady_foldl (fun _ _ h1 => steady_flushOne h1) h

theorem steady_giveQueue {f : Fn} {o q : Nat} {new : Fn} (h : Steady s₀ s) : Steady s₀ (giveQueue f o q new s) := by
  unfold giveQueue
  dsimp only
  split
  · exact steady_setQueue h
  · exact steady_reject h

theorem steady_giveMark {f : Fn} {o m : Nat} {new : Fn} (h : Steady s₀ s) : Steady s₀ (giveMark f o m new s) := by
  unfold giveMark
  split
  · exact steady_markNotify (steady_setMark h)
  · exact steady_reject h

theorem steady_queueOwner {f : Fn} {o q : Nat} {k : State → State} (hk : ∀ s, Steady s₀ s → Steady s₀ (k s))
    (h : Steady s₀ s) : Steady s₀ (queueOwner f o q k s) := by
  unfold queueOwner
  split
  · exact hk _ h
  · exact steady_reject h

theorem steady_writeQCtrl {f : Fn} {o q v : Nat} {hdrs : List Hdr} (h : Steady s₀ s) : Steady s₀ (writeQCtrl f o q v hdrs s) := by
  unfold writeQCtrl
  dsimp only
  split
  · refine steady_reject ?_
    split
    · refine steady_setQueue ?_
      split
      · split
        · exact steady_flushQueue (steady_setEnable h)
        · exact steady_setEnable h
      · exact h
    · split
      · split
        · exact steady_flushQueue (steady_setEnable h)
        · exact steady_setEnable h
      · exact h
  · split
    · refine steady_setQueue ?_
      split
      · split
        · exact steady_flushQueue (steady_setEnable h)
        · exact steady_setEnable h
      · exact h
    · split
      · split
        · exact steady_flushQueue (steady_setEnable h)
        · exact steady_setEnable h
      · exact h

theorem goes_execQEnable {f : Fn} {q : Nat} {enable : Bool} (h : Steady s₀ s) : Goes s₀ (execQEnable f q enable s) :=
  goes_withUnit (fun _ h1 => steady_guarded (fun _ h2 => steady_queueOwner (fun _ h3 => steady_setEnable h3) h2) h1) h

theorem goes_execQFlush {f : Fn} {q : Nat} {hdrs : List Hdr} (h : Steady s₀ s) : Goes s₀ (execQFlush f q hdrs s) :=
  goes_withUnit (fun _ h1 => steady_guarded (fun _ h2 => steady_queueOwner (fun _ h3 => steady_flushQueue h3) h2) h1) h

theorem goes_execQOwnerChange {f : Fn} {mark : Bool} {index : Nat} {owner : Fn}
    (h : Steady s₀ s) : Goes s₀ (execQOwnerChange f mark index owner s) := by
  unfold execQOwnerChange
  refine goes_withUnit (fun _ h1 => ?_) h
  split
  · exact steady_guarded (fun _ h1 => steady_giveMark h1) h1
  · exact steady_guarded (fun _ h1 => steady_giveQueue h1) h1

theorem steady_writeBase {f : Fn} {o q ring v : Nat} (h : Steady s₀ s) : Steady s₀ (writeBase f o q ring v s) := by
  unfold writeBase
  refine steady_queueOwner (fun _ h1 => ?_) h
  dsimp only
  split
  · exact steady_reject h1
  · exact steady_setQueue h1

theorem steady_writeSize {f : Fn} {o q ring v : Nat} (h : Steady s₀ s) : Steady s₀ (writeSize f o q ring v s) := by
  unfold writeSize
  refine steady_queueOwner (fun _ h1 => ?_) h
  dsimp only
  split
  · exact steady_reject h1
  · exact steady_setQueue h1

theorem steady_writeIndex {f : Fn} {o q ring : Nat} {v : W32} (h : Steady s₀ s) : Steady s₀ (writeIndex f o q ring v s) :=
  steady_queueOwner (fun _ h1 => steady_setQueue h1) h

theorem goes_execSqDoorbell {f : Fn} {q : Nat} {tail : W32} (h : Steady s₀ s) : Goes s₀ (execSqDoorbell f q tail s) :=
  goes_withUnit (fun _ h1 => steady_guarded (fun _ h2 => steady_writeIndex h2) h1) h

theorem steady_writeVector {f : Fn} {o q v : Nat} (h : Steady s₀ s) : Steady s₀ (writeVector f o q v s) := by
  unfold writeVector
  refine steady_queueOwner (fun _ h1 => ?_) h
  split
  · exact steady_reject h1
  · exact steady_setQueue h1

theorem steady_writeMarkAdd {f : Fn} {o m n : Nat} (h : Steady s₀ s) : Steady s₀ (writeMarkAdd f o m n s) := by
  unfold writeMarkAdd
  split
  · exact steady_reject h
  · exact steady_addMark h

theorem goes_execMarkAdd {f : Fn} {mark : Nat} {amount : W64} (h : Steady s₀ s) : Goes s₀ (execMarkAdd f mark amount s) :=
  goes_withUnit (fun _ h1 => steady_guarded (fun _ h2 => steady_writeMarkAdd h2) h1) h

theorem steady_writeNotifyAt {m : Nat} {v : W64} (h : Steady s₀ s) : Steady s₀ (writeNotifyAt m v s) := steady_markNotify
    (steady_setMark h)

theorem steady_writeNotify {f : Fn} {o m v : Nat} (h : Steady s₀ s) : Steady s₀ (writeNotify f o m v s) := by
  unfold writeNotify
  split
  · exact steady_reject h
  · exact steady_markNotify (steady_setMark h)

theorem goes_execMarkNotifyArm {f : Fn} {mark : Nat} {value : W32} (h : Steady s₀ s) : Goes s₀ (execMarkNotifyArm f mark value s) :=
  goes_withUnit (fun _ h1 => steady_guarded (fun _ h2 => steady_writeNotify h2) h1) h

theorem steady_setDealer {g : Dealer → Dealer} (h : Steady s₀ s) : Steady s₀ (setDealer g s) := steady_with h rfl

theorem steady_idleControl {f : Fn} {o : Nat} {k : State → State} (hk : ∀ s, Steady s₀ s → Steady s₀ (k s))
    (h : Steady s₀ s) : Steady s₀ (idleControl f o k s) := by
  unfold idleControl
  refine steady_control (fun _ h1 => ?_) h
  split
  · exact hk _ h1
  · exact steady_reject h1

theorem steady_writeStepNumber {f : Fn} {o : Nat} {v : W64} (h : Steady s₀ s) : Steady s₀ (writeStepNumber f o v s) :=
  steady_idleControl (fun _ h1 => steady_setDealer h1) h

theorem goes_execStepNumberWrite {f : Fn} {value : W64} (h : Steady s₀ s) : Goes s₀ (execStepNumberWrite f value s) :=
  goes_next (steady_guarded (fun _ h1 => steady_writeStepNumber h1) h)

theorem steady_writeEvalInterleave {f : Fn} {o v : Nat} (h : Steady s₀ s) : Steady s₀ (writeEvalInterleave f o v s) :=
  steady_control (fun _ h1 => steady_setDealer h1) h

theorem steady_writeWaitBound {f : Fn} {o v : Nat} (h : Steady s₀ s) : Steady s₀ (writeWaitBound f o v s) := by
  unfold writeWaitBound
  refine steady_control (fun _ h1 => ?_) h
  split
  · exact steady_reject h1
  · exact steady_setDealer h1

theorem steady_writeFault {f : Fn} {o v : Nat} (h : Steady s₀ s) : Steady s₀ (writeFault f o v s) := by
  unfold writeFault
  refine steady_control (fun _ h1 => ?_) h
  split
  · exact steady_setDealer h1
  · exact h1

theorem goes_execFaultRecordClear {f : Fn} {value : W64} (h : Steady s₀ s) : Goes s₀ (execFaultRecordClear f value s) :=
  goes_next (steady_guarded (fun _ h1 => steady_writeFault h1) h)

theorem steady_writePinInterleave {f : Fn} {o v : Nat} (h : Steady s₀ s) : Steady s₀ (writePinInterleave f o v s) :=
  steady_control (fun _ h1 => steady_setDealer h1) h

theorem steady_writeDealConfig {f : Fn} {o v : Nat} (h : Steady s₀ s) : Steady s₀ (writeDealConfig f o v s) := by
  unfold writeDealConfig
  refine steady_idleControl (fun _ h1 => ?_) h
  dsimp only
  split
  · exact steady_setDealer h1
  · exact steady_reject h1

theorem steady_writeRefill {f : Fn} {o v : Nat} (h : Steady s₀ s) : Steady s₀ (writeRefill f o v s) :=
  steady_control (fun _ h1 => steady_setDealer h1) h

theorem goes_execRefillConfigWrite {f : Fn} {value : W32} (h : Steady s₀ s) : Goes s₀ (execRefillConfigWrite f value s) :=
  goes_next (steady_guarded (fun _ h1 => steady_writeRefill h1) h)

theorem steady_writeBudget {f : Fn} {o v : Nat} (h : Steady s₀ s) : Steady s₀ (writeBudget f o v s) :=
  steady_control (fun _ h1 => steady_setDealer h1) h

theorem goes_execBudgetSet {f : Fn} {value : W64} (h : Steady s₀ s) : Goes s₀ (execBudgetSet f value s) :=
  goes_next (steady_guarded (fun _ h1 => steady_writeBudget h1) h)

theorem steady_initPages (h : Steady s₀ s) : Steady s₀ (initPages s) := by
  unfold initPages
  dsimp only
  exact steady_setDealer h

theorem steady_pageControl {f : Fn} {o : Nat} {k : State → State} (hk : ∀ s, Steady s₀ s → Steady s₀ (k s))
    (h : Steady s₀ s) : Steady s₀ (pageControl f o k s) := by
  unfold pageControl
  refine steady_idleControl (fun _ h1 => ?_) h
  split
  · exact steady_initPages (hk _ h1)
  · exact steady_reject h1

theorem steady_writePageConfig {f : Fn} {o v : Nat} (h : Steady s₀ s) : Steady s₀ (writePageConfig f o v s) :=
  steady_pageControl (fun _ h1 => steady_setDealer h1) h

theorem steady_writePagePool {f : Fn} {o d v : Nat} (h : Steady s₀ s) : Steady s₀ (writePagePool f o d v s) :=
  steady_pageControl (fun _ h1 => steady_setDealer h1) h

theorem goes_execPageConfigWrite {f : Fn} {pool : Option Nat} {value : W64}
    (h : Steady s₀ s) : Goes s₀ (execPageConfigWrite f pool value s) := by
  unfold execPageConfigWrite
  split
  · exact goes_next (steady_guarded (fun _ h1 => steady_writePageConfig h1) h)
  · exact goes_withUnit (fun _ h1 => steady_guarded (fun _ h2 => steady_writePagePool h2) h1) h

theorem steady_writeBatchObject {f : Fn} {o v : Nat} (h : Steady s₀ s) : Steady s₀ (writeBatchObject f o v s) :=
  steady_idleControl (fun _ h1 => steady_setDealer h1) h

theorem steady_writeTenant {f : Fn} {o t v : Nat} (h : Steady s₀ s) : Steady s₀ (writeTenant f o t v s) :=
  steady_control (fun _ h1 => steady_setDealer h1) h

theorem steady_writeCounterClear {f : Fn} {o v : Nat} (h : Steady s₀ s) : Steady s₀ (writeCounterClear f o v s) := by
  unfold writeCounterClear
  refine steady_control (fun _ h1 => ?_) h
  split
  · exact steady_with h1 rfl
  · exact h1

theorem goes_execCounterClear {f : Fn} {value : W32} (h : Steady s₀ s) : Goes s₀ (execCounterClear f value s) :=
  goes_next (steady_guarded (fun _ h1 => steady_writeCounterClear h1) h)

theorem steady_writeFlagClear {f : Fn} {o k v : Nat} (h : Steady s₀ s) : Steady s₀ (writeFlagClear f o k v s) := by
  unfold writeFlagClear
  refine steady_control (fun _ h1 => ?_) h
  split
  · exact steady_clearFlags h1
  · exact h1

theorem goes_execFlagClear {f : Fn} {cluster : Nat} {value : W32} (h : Steady s₀ s) : Goes s₀ (execFlagClear f cluster value s) :=
  goes_withUnit (fun _ h1 => steady_guarded (fun _ h2 => steady_writeFlagClear h2) h1) h

theorem steady_writeBgShare {f : Fn} {o v : Nat} (h : Steady s₀ s) : Steady s₀ (writeBgShare f o v s) := by
  unfold writeBgShare
  refine steady_control (fun _ h1 => ?_) h
  split
  · exact steady_reject h1
  · exact steady_with h1 rfl

theorem steady_setPortEnable {u : Nat} {en : Bool} (h : Steady s₀ s) : Steady s₀ (setPortEnable u en s) := steady_setUPort h
theorem steady_setPortEncrypt {u : Nat} {en : Bool} (h : Steady s₀ s) : Steady s₀ (setPortEncrypt u en s) := steady_setUPort h

theorem steady_writePortCtrl {f : Fn} {o u v : Nat} (h : Steady s₀ s) : Steady s₀ (writePortCtrl f o u v s) :=
  steady_control (fun _ h1 => steady_setPortEnable (steady_setPortEncrypt h1)) h

theorem goes_execPortEnableWrite {f : Fn} {u : Nat} {enable : Bool} (h : Steady s₀ s) : Goes s₀ (execPortEnableWrite f u enable s) :=
  goes_withUnit (fun _ h1 => steady_guarded (fun _ h2 => steady_control (fun _ h3 => steady_setPortEnable h3) h2) h1) h

theorem goes_execPortEncryptWrite {f : Fn} {u : Nat} {encrypt : Bool}
    (h : Steady s₀ s) : Goes s₀ (execPortEncryptWrite f u encrypt s) :=
  goes_withUnit (fun _ h1 => steady_guarded (fun _ h2 => steady_control (fun _ h3 => steady_setPortEncrypt h3) h2) h1) h

theorem steady_writeWeights {f : Fn} {o u v : Nat} (h : Steady s₀ s) : Steady s₀ (writeWeights f o u v s) := by
  unfold writeWeights
  refine steady_control (fun _ h1 => ?_) h
  split
  · exact steady_reject h1
  · exact steady_setUPort h1

theorem steady_restartMatch (h : Steady s₀ s) : Steady s₀ (restartMatch s) := steady_with h rfl
theorem steady_resumeTwin (h : Steady s₀ s) : Steady s₀ (resumeTwin s) := steady_restartMatch (steady_with h rfl)

theorem steady_writeTwin {f : Fn} {o v : Nat} (h : Steady s₀ s) : Steady s₀ (writeTwin f o v s) := by
  unfold writeTwin
  refine steady_control (fun _ h1 => ?_) h
  split
  · exact steady_reject h1
  · dsimp only
    refine steady_with ?_ rfl
    split
    · split
      · exact steady_restartMatch (steady_resumeTwin h1)
      · exact steady_resumeTwin h1
    · split
      · exact steady_restartMatch h1
      · exact h1

theorem goes_execTwinResume {f : Fn} {value : W32} (h : Steady s₀ s) : Goes s₀ (execTwinResume f value s) :=
  goes_next (steady_guarded (fun _ h1 => steady_writeTwin h1) h)

theorem steady_writeReplay {f : Fn} {o : Nat} {v : W64} (h : Steady s₀ s) : Steady s₀ (writeReplay f o v s) :=
  steady_control (fun _ h1 => steady_with h1 rfl) h

theorem goes_execReplayUntilWrite {f : Fn} {value : W64} (h : Steady s₀ s) : Goes s₀ (execReplayUntilWrite f value s) :=
  goes_next (steady_guarded (fun _ h1 => steady_writeReplay h1) h)

theorem steady_writeGov {f : Fn} {o v : Nat} (h : Steady s₀ s) : Steady s₀ (writeGov f o v s) := by
  unfold writeGov
  refine steady_control (fun _ h1 => ?_) h
  split
  · exact steady_reject h1
  · exact steady_with h1 rfl

theorem steady_writeSbWindow {v : Nat} (h : Steady s₀ s) : Steady s₀ (writeSbWindow v s) := steady_with h rfl

theorem steady_writeDebug {f : Fn} {o v : Nat} (h : Steady s₀ s) : Steady s₀ (writeDebug f o v s) := by
  unfold writeDebug
  refine steady_control (fun _ h1 => ?_) h
  split
  · exact steady_reject h1
  · exact steady_with h1 rfl

theorem goes_execDebugCtrlArm {f : Fn} {value : W32} (h : Steady s₀ s) : Goes s₀ (execDebugCtrlArm f value s) :=
  goes_next (steady_guarded (fun _ h1 => steady_writeDebug h1) h)

theorem steady_writePip {f : Fn} {o i v : Nat} (h : Steady s₀ s) : Steady s₀ (writePip f o i v s) := by
  unfold writePip
  split
  · dsimp only
    exact steady_with h rfl
  · exact steady_reject h

theorem goes_execPipSelectWrite {f : Fn} {i : Nat} {value : W32} (h : Steady s₀ s) : Goes s₀ (execPipSelectWrite f i value s) :=
  goes_withUnit (fun _ h1 => steady_guarded (fun _ h2 => steady_writePip h2) h1) h

theorem steady_writeMboxWord {f : Fn} {data : Bool} {w : Nat} {v : W64} (h : Steady s₀ s) : Steady s₀ (writeMboxWord f data w v s) :=
  steady_setPort h

theorem steady_writeDoorbell {f : Fn} {o v : Nat} (h : Steady s₀ s) : Steady s₀ (writeDoorbell f o v s) := by
  unfold writeDoorbell
  split
  · exact h
  · split
    · exact steady_reject h
    · exact steady_setPort h

theorem steady_writeMboxStatus {f : Fn} {v : Nat} (h : Steady s₀ s) : Steady s₀ (writeMboxStatus f v s) := steady_setPort h

theorem steady_regWrite {f : Fn} {o : Nat} {r : Reg} {v : W64} (h : Steady s₀ s) : Steady s₀ (regWrite f o r v s) := by
  unfold regWrite
  dsimp only
  split
  · exact steady_writeMove h
  · exact steady_writeLease h
  · exact steady_writeEvents h
  · exact steady_writeMask h
  · exact steady_writeReset h
  · exact steady_writeWindow h
  · exact steady_writeBlockReset h
  · exact steady_writeQCtrl (steady_with h rfl)
  · exact steady_writeBase h
  · exact steady_writeSize h
  · exact steady_writeIndex h
  · exact steady_writeVector h
  · exact steady_writeMarkAdd h
  · exact steady_giveMark h
  · exact steady_writeNotifyAt h
  · exact steady_writeNotify h
  · exact steady_writeStepNumber h
  · exact steady_writeEvalInterleave h
  · exact steady_writeWaitBound h
  · exact steady_writeFault h
  · exact steady_writePinInterleave h
  · exact steady_writeDealConfig h
  · exact steady_writeRefill h
  · exact steady_writeBudget h
  · exact steady_writePageConfig h
  · exact steady_writePagePool h
  · exact steady_writeBatchObject h
  · exact steady_writeTenant h
  · exact steady_writeCounterClear h
  · exact steady_writeFlagClear h
  · exact steady_writeBgShare h
  · exact steady_writePortCtrl h
  · exact steady_writeWeights h
  · exact steady_writeTwin h
  · exact steady_writeReplay h
  · exact steady_writeGov h
  · exact steady_writeSbWindow h
  · exact steady_writeDebug h
  · exact steady_writePip h
  · exact steady_writeMboxWord h
  · exact steady_writeMboxWord h
  · exact steady_writeDoorbell h
  · exact steady_writeMboxStatus h
  · exact h

theorem steady_writeAt {f : Fn} {o : Nat} {v : W64} (h : Steady s₀ s) : Steady s₀ (writeAt f o v s) := by
  unfold writeAt
  split
  · exact steady_guarded (fun _ h1 => steady_regWrite h1) h
  · exact h

theorem goes_execRegisterWrite {f : Fn} {offset : Nat} {value : W64} (h : Steady s₀ s) : Goes s₀ (execRegisterWrite f offset value s) :=
  goes_next (steady_writeAt h)

theorem steady_readClear {r : Reg} (h : Steady s₀ s) : Steady s₀ (readClear r s) := by
  unfold readClear
  split
  · exact steady_setDealer h
  · exact steady_setDealer h
  · exact steady_setDealer h
  · exact steady_with h rfl
  · exact steady_with h rfl
  · exact steady_with h rfl
  · exact h

theorem steady_clearAt {f : Fn} {o : Nat} (h : Steady s₀ s) : Steady s₀ (clearAt f o s) := by
  unfold clearAt
  split
  · exact steady_guarded (fun _ h1 => steady_readClear h1) h
  · exact h

theorem goes_execReadClear {f : Fn} {offset : Nat} (h : Steady s₀ s) : Goes s₀ (execReadClear f offset s) :=
  goes_next (steady_emit (steady_clearAt h))

theorem steady_halfRead {f : Fn} {o : Nat} (h : Steady s₀ s) : Steady s₀ (halfRead f o s) := by
  unfold halfRead
  split
  · dsimp only
    exact steady_emit (steady_setPort (steady_clearAt h))
  · split
    · split
      · exact steady_emit (steady_setPort h)
      · exact steady_emit h
    · exact steady_emit (steady_clearAt h)

theorem steady_halfWrite {f : Fn} {o : Nat} {v : W32} (h : Steady s₀ s) : Steady s₀ (halfWrite f o v s) := by
  unfold halfWrite
  split
  · exact steady_setPort h
  · split
    · split
      · exact steady_writeAt (steady_setPort h)
      · exact h
    · exact steady_writeAt h

theorem goes_execReg64HalfAccess {f : Fn} {offset : Nat} {write : Option W32}
    (h : Steady s₀ s) : Goes s₀ (execReg64HalfAccess f offset write s) := by
  unfold execReg64HalfAccess
  refine goes_next ?_
  split
  · exact steady_halfRead h
  · exact steady_halfWrite h

end Sys2Proof.Machine
end

section
/-! SUPPORT. Steady operations: Glaren's services. Each leaves the queue of waiting commands alone
and memory canonical. -/

namespace Sys2Proof.Machine

variable {s₀ s t : State}

/-! ### The mailbox -/

theorem steady_mboxAnswer {p : Port} {status : Byte} {resp : List Byte} (h : Steady s₀ s) : Steady s₀ (mboxAnswer p status resp s) :=
  steady_setPort h

theorem steady_mboxStatus {p : Port} {status : Nat} (h : Steady s₀ s) : Steady s₀ (mboxStatus p status s) := steady_mboxAnswer h
theorem steady_mboxOpen {p : Port} (h : Steady s₀ s) : Steady s₀ (mboxOpen p s) := steady_with (steady_mboxAnswer h) rfl

theorem goes_mboxServe {p : Port} {op : Nat} {needs rec_ : Bool} {k : State → State} (hk : ∀ s, Steady s₀ s → Steady s₀ (k s))
    (h : Steady s₀ s) : Goes s₀ (mboxServe p op needs rec_ k s) := by
  unfold mboxServe
  refine goes_next ?_
  split
  · exact h
  · split
    · split
      · exact hk _ h
      · split
        · exact steady_mboxStatus h
        · exact steady_mboxOpen h
    · split
      · exact steady_mboxStatus h
      · exact hk _ h

theorem steady_hostScore {p : Port} {r : List Byte} (h : Steady s₀ s) : Steady s₀ (hostScore p r s) := steady_score h

theorem steady_sbAppend {p : Port} {count : Nat} (h : Steady s₀ s) : Steady s₀ (sbAppend p count s) := by
  unfold sbAppend
  dsimp only
  split
  · exact steady_mboxStatus h
  · split
    · exact steady_mboxOpen h
    · split
      · exact steady_mboxStatus h
      · exact steady_mboxStatus (steady_foldl (fun _ _ h1 => steady_hostScore h1) (steady_setPort h))

theorem goes_execSbAppend {port : Port} {count : Nat} (h : Steady s₀ s) : Goes s₀ (execSbAppend port count s) :=
  goes_mboxServe (fun _ h1 => steady_sbAppend h1) h

theorem steady_updateBegin {p : Port} {imageLength chainLength : Nat}
    (h : Steady s₀ s) : Steady s₀ (updateBegin p imageLength chainLength s) := by
  unfold updateBegin
  split
  · exact steady_mboxStatus h
  · split
    · exact steady_mboxStatus h
    · exact steady_mboxStatus (steady_setUpdate h)

theorem goes_execUpdateBegin {port : Port} {imageLength chainLength : Nat}
    (h : Steady s₀ s) : Goes s₀ (execUpdateBegin port imageLength chainLength s) :=
  goes_mboxServe (fun _ h1 => steady_updateBegin h1) h

theorem steady_updateData {p : Port} {offset length : Nat} (h : Steady s₀ s) : Steady s₀ (updateData p offset length s) := by
  unfold updateData
  dsimp only
  split
  · exact steady_mboxStatus h
  · split
    · exact steady_mboxStatus h
    · exact steady_mboxStatus (steady_setUpdate h)

theorem goes_execUpdateData {port : Port} {offset length : Nat} (h : Steady s₀ s) : Goes s₀ (execUpdateData port offset length s) :=
  goes_mboxServe (fun _ h1 => steady_updateData h1) h

theorem steady_updateEnd {p : Port} {settingsOk readBackOk : Bool}
    (h : Steady s₀ s) : Steady s₀ (updateEnd p settingsOk readBackOk s) := by
  unfold updateEnd
  split
  · exact steady_mboxStatus h
  · dsimp only
    exact steady_mboxStatus (steady_storeBundle (steady_setUpdate h))

theorem goes_execUpdateEnd {port : Port} {settingsOk readBackOk : Bool}
    (h : Steady s₀ s) : Goes s₀ (execUpdateEnd port settingsOk readBackOk s) :=
  goes_mboxServe (fun _ h1 => steady_updateEnd h1) h

theorem steady_startToken {timeout : Nat} (h : Steady s₀ s) : Steady s₀ (startToken timeout s) := steady_passToken (steady_setUpdate h)

theorem steady_applyStart {p : Port} {timeout : Nat} (h : Steady s₀ s) : Steady s₀ (applyStart p timeout s) := by
  unfold applyStart
  dsimp only
  split
  · exact steady_mboxOpen h
  · split
    · exact steady_mboxStatus h
    · exact steady_mboxStatus (steady_startToken h)

theorem goes_execApplyStart {port : Port} {timeout : Nat} (h : Steady s₀ s) : Goes s₀ (execApplyStart port timeout s) :=
  goes_mboxServe (fun _ h1 => steady_applyStart h1) h

theorem steady_leaveRecovery {reason : Nat} (h : Steady s₀ s) : Steady s₀ (leaveRecovery reason s) :=
  steady_beginCold (steady_score (steady_setResets (steady_with h rfl)))

theorem steady_recoveryApply (h : Steady s₀ s) : Steady s₀ (recoveryApply s) :=
  steady_leaveRecovery (steady_releaseToken (steady_reportResult (steady_setUpdate
    (steady_foldl (fun _ _ h1 => steady_score (steady_setUpdate h1)) h))))

theorem steady_applyRequest {p : Port} (h : Steady s₀ s) : Steady s₀ (applyRequest p s) := by
  unfold applyRequest
  split
  · split
    · exact steady_mboxStatus h
    · exact steady_recoveryApply (steady_mboxStatus h)
  · split
    · exact steady_mboxStatus (steady_beginApply h)
    · exact steady_mboxStatus h

theorem goes_execApply {port : Port} (h : Steady s₀ s) : Goes s₀ (execApply port s) := goes_mboxServe (fun _ h1 => steady_applyRequest h1) h

theorem goes_execRecoveryExit {port : Port} (h : Steady s₀ s) : Goes s₀ (execRecoveryExit port s) := by
  unfold execRecoveryExit
  refine goes_mboxServe (fun _ h1 => ?_) h
  split
  · exact steady_leaveRecovery (steady_mboxStatus h1)
  · exact steady_mboxStatus h1

theorem steady_serviceEngine {p : Port} {k e : Nat} {clear : Bool} (h : Steady s₀ s) : Steady s₀ (serviceEngine p k e clear s) := by
  unfold serviceEngine
  dsimp only
  split
  · exact steady_mboxStatus h
  · split
    · exact steady_mboxStatus (steady_with h rfl)
    · exact steady_mboxStatus (steady_failEngine (steady_with h rfl))

theorem steady_serviceNoEngine {p : Port} (h : Steady s₀ s) : Steady s₀ (serviceNoEngine p s) := by
  unfold serviceNoEngine
  split
  · exact steady_mboxStatus h
  · exact steady_mboxOpen h

theorem goes_execEngineService {port : Port} {cluster engine : Nat} {clear : Bool}
    (h : Steady s₀ s) : Goes s₀ (execEngineService port cluster engine clear s) := by
  unfold execEngineService
  refine goes_mboxServe (fun _ h1 => ?_) h
  split
  · exact steady_serviceEngine h1
  · exact steady_serviceNoEngine h1

theorem steady_securityCommit {p : Port} (h : Steady s₀ s) : Steady s₀ (securityCommit p s) :=
  steady_mboxStatus (steady_score (steady_with h rfl))

theorem goes_execSecurityCommit {port : Port} (h : Steady s₀ s) : Goes s₀ (execSecurityCommit port s) :=
  goes_mboxServe (fun _ h1 => steady_securityCommit h1) h

theorem steady_settingsRead {p : Port} (h : Steady s₀ s) : Steady s₀ (settingsRead p s) :=
  steady_mboxStatus (steady_setPort (steady_with h rfl))

theorem goes_execSettingsRead {port : Port} (h : Steady s₀ s) : Goes s₀ (execSettingsRead port s) :=
  goes_mboxServe (fun _ h1 => steady_settingsRead h1) h

theorem steady_debugChallenge {p : Port} {scope : BitVec 3} (h : Steady s₀ s) : Steady s₀ (debugChallenge p scope s) :=
  steady_mboxAnswer (steady_with h rfl)

theorem goes_execDebugChallenge {port : Port} {scope : BitVec 3} (h : Steady s₀ s) : Goes s₀ (execDebugChallenge port scope s) :=
  goes_mboxServe (fun _ h1 => steady_debugChallenge h1) h

theorem steady_unlock {c : List Byte} {scope : BitVec 3} (h : Steady s₀ s) : Steady s₀ (unlock c scope s) :=
  steady_score (steady_with h rfl)

theorem steady_debugResponse {p : Port} {publicKey signature : List Byte}
    (h : Steady s₀ s) : Steady s₀ (debugResponse p publicKey signature s) := by
  unfold debugResponse
  dsimp only
  split
  · exact steady_mboxStatus h
  · split
    · exact steady_mboxStatus (steady_with h rfl)
    · split
      · exact steady_mboxStatus (steady_unlock (steady_with h rfl))
      · exact steady_mboxStatus (steady_with h rfl)

theorem goes_execDebugResponse {port : Port} {publicKey signature : List Byte}
    (h : Steady s₀ s) : Goes s₀ (execDebugResponse port publicKey signature s) :=
  goes_mboxServe (fun _ h1 => steady_debugResponse h1) h

theorem goes_execDebugLock {port : Port} (h : Steady s₀ s) : Goes s₀ (execDebugLock port s) :=
  goes_mboxServe (fun _ h1 => steady_mboxStatus (steady_score (steady_with h1 rfl))) h

theorem goes_execDebugChallengeExpiry (h : Steady s₀ s) : Goes s₀ (execDebugChallengeExpiry s) := by
  unfold execDebugChallengeExpiry
  refine goes_next ?_
  split
  · split
    · exact steady_with h rfl
    · exact h
  · exact h

/-! ### The tray and DOE -/

theorem steady_trayAnswer {bs : List Byte} (h : Steady s₀ s) : Steady s₀ (trayAnswer bs s) := by
  unfold trayAnswer
  split
  · exact steady_emit h
  · exact h

theorem goes_execIdentity (h : Steady s₀ s) : Goes s₀ (execIdentity s) := goes_next (steady_trayAnswer h)

theorem goes_execCoordinates {slot tray : BitVec 3} {rack : BitVec 8} {hall : BitVec 1}
    (h : Steady s₀ s) : Goes s₀ (execCoordinates slot tray rack hall s) := by
  unfold execCoordinates
  refine goes_next ?_
  split
  · dsimp only
    split
    · exact steady_with h rfl
    · exact steady_startNode (steady_with h rfl)
  · exact h

theorem goes_execSensors {index : Nat} (h : Steady s₀ s) : Goes s₀ (execSensors index s) :=
  goes_withUnit (fun _ h1 => steady_trayAnswer h1) h

theorem goes_execAlert (h : Steady s₀ s) : Goes s₀ (execAlert s) := goes_next (steady_trayAnswer h)

theorem goes_execScorebook {index : W32} (h : Steady s₀ s) : Goes s₀ (execScorebook index s) := by
  unfold execScorebook
  refine goes_next ?_
  split
  · exact steady_trayAnswer h
  · exact steady_trayAnswer (steady_with h rfl)

theorem goes_execSbNext (h : Steady s₀ s) : Goes s₀ (execSbNext s) := goes_next (steady_trayAnswer h)

theorem goes_execDoeDiscovery {port : Port} (h : Steady s₀ s) : Goes s₀ (execDoeDiscovery port s) := by
  unfold execDoeDiscovery
  dsimp only
  refine goes_next ?_
  split
  · exact steady_emit h
  · exact h

theorem goes_execAttestationReport {port : Port} {nonce : List Byte} (h : Steady s₀ s) : Goes s₀ (execAttestationReport port nonce s) := by
  unfold execAttestationReport
  refine goes_next ?_
  split
  · exact steady_with h rfl
  · exact h

theorem goes_execReportSigned (h : Steady s₀ s) : Goes s₀ (execReportSigned s) := by
  unfold execReportSigned
  refine goes_next ?_
  split
  · exact h
  · dsimp only
    split
    · exact steady_emit (steady_with h rfl)
    · exact h

theorem goes_execDeviceCertificate {port : Port} (h : Steady s₀ s) : Goes s₀ (execDeviceCertificate port s) := by
  unfold execDeviceCertificate
  refine goes_next ?_
  split
  · exact steady_emit h
  · exact h

theorem goes_execDoeAbort {port : Port} (h : Steady s₀ s) : Goes s₀ (execDoeAbort port s) := goes_next (steady_with h rfl)

/-! ### Sensors and caps -/

theorem steady_setSensor {i : Nat} {f : Sensor → Sensor} (h : Steady s₀ s) : Steady s₀ (setSensor i f s) := steady_with h rfl
theorem steady_sensorRecord {i : Nat} {v : ℤ} (h : Steady s₀ s) : Steady s₀ (sensorRecord i v s) := steady_score h

theorem steady_supplyHealth (h : Steady s₀ s) : Steady s₀ (supplyHealth s) := by
  unfold supplyHealth
  split
  · exact steady_with h rfl
  · exact h

theorem steady_shutDown (h : Steady s₀ s) : Steady s₀ (shutDown s) := steady_setResets (steady_diesOff h)

theorem steady_readSensor {i : Nat} {v : ℤ} {amps : Nat} (h : Steady s₀ s) : Steady s₀ (readSensor i v amps s) := by
  unfold readSensor
  dsimp only
  split
  · exact steady_setSensor h
  · split
    · exact steady_shutDown (steady_sensorRecord (steady_setSensor h))
    · split
      · split
        · exact steady_setSensor h
        · exact steady_sensorRecord (steady_supplyHealth (steady_setSensor h))
      · split <;> exact steady_setSensor h

theorem steady_thermalCap (h : Steady s₀ s) : Steady s₀ (thermalCap s) := steady_with h rfl

theorem steady_inputPower {mv : ℤ} {amps : Nat} (h : Steady s₀ s) : Steady s₀ (inputPower mv amps s) := by
  unfold inputPower
  dsimp only
  split
  · split
    · exact steady_with (steady_setRun (steady_with h rfl)) rfl
    · exact steady_score (steady_with (steady_setRun (steady_with h rfl)) rfl)
  · exact steady_setRun (steady_with h rfl)

theorem steady_sensorSample {i : Nat} {v : ℤ} {amps : Nat} (h : Steady s₀ s) : Steady s₀ (sensorSample i v amps s) := by
  unfold sensorSample
  split
  · exact h
  · dsimp only
    split
    · refine steady_thermalCap (steady_readSensor ?_)
      split
      · exact steady_inputPower h
      · exact h
    · refine steady_readSensor ?_
      split
      · exact steady_inputPower h
      · exact h

theorem goes_execSensorSample {index : Nat} {value : ℤ} {milliamps : Nat}
    (h : Steady s₀ s) : Goes s₀ (execSensorSample index value milliamps s) :=
  goes_withUnit (fun _ h1 => steady_sensorSample h1) h

theorem steady_warnClear {i : Nat} (h : Steady s₀ s) : Steady s₀ (warnClear i s) := by
  unfold warnClear
  dsimp only
  split
  · exact steady_setSensor h
  · exact h

theorem goes_execSensorWarnClear {index : Nat} (h : Steady s₀ s) : Goes s₀ (execSensorWarnClear index s) :=
  goes_withUnit (fun _ h1 => steady_warnClear h1) h

theorem goes_execPeakCapRelease (h : Steady s₀ s) : Goes s₀ (execPeakCapRelease s) := by
  unfold execPeakCapRelease
  refine goes_next ?_
  dsimp only
  split
  · exact steady_with h rfl
  · exact h

theorem goes_execHoldupCheck {ok : Bool} (h : Steady s₀ s) : Goes s₀ (execHoldupCheck ok s) := by
  unfold execHoldupCheck
  refine goes_next ?_
  split
  · exact h
  · dsimp only
    split
    · exact steady_with h rfl
    · exact steady_score (steady_with h rfl)

theorem steady_summaryOf {b : Nat} (h : Steady s₀ s) : Steady s₀ (summaryOf b s) := by
  unfold summaryOf
  dsimp only
  split
  · exact steady_with h rfl
  · exact steady_score (steady_with h rfl)

theorem goes_execScorebookSummary (h : Steady s₀ s) : Goes s₀ (execScorebookSummary s) := by
  unfold execScorebookSummary
  refine goes_next ?_
  split
  · exact steady_foldl (fun _ _ h1 => steady_summaryOf h1) (steady_with h rfl)
  · exact h

/-! ### Messages of the update chain -/

theorem steady_answerForward {sender : BitVec 15} {pos r : Nat} (h : Steady s₀ s) : Steady s₀ (answerForward sender pos r s) := by
  unfold answerForward
  split
  · exact h
  · exact steady_emit h

theorem steady_takeForward {sender : BitVec 15} {bundle : List Byte} {settingsOk readBackOk : Bool} {chain : List (BitVec 15)} {pos : Nat}
    (h : Steady s₀ s) : Steady s₀ (takeForward sender bundle settingsOk readBackOk chain pos s) := by
  unfold takeForward
  split
  · dsimp only
    exact steady_emit (steady_score h)
  · dsimp only
    exact steady_answerForward (steady_storeBundle (steady_setUpdate h))

theorem goes_execUpdateForward {sender : BitVec 15} {bundle : List Byte} {settingsOk readBackOk : Bool} {chain : List (BitVec 15)} {pos : Nat}
    (h : Steady s₀ s) : Goes s₀ (execUpdateForward sender bundle settingsOk readBackOk chain pos s) := by
  unfold execUpdateForward
  refine goes_next ?_
  split
  · exact steady_takeForward h
  · exact h

theorem steady_takeResult {pos r : Nat} (h : Steady s₀ s) : Steady s₀ (takeResult pos r s) := by
  unfold takeResult
  dsimp only
  split
  · refine steady_countResult ?_
    split
    · exact steady_endForward h
    · exact h
  · split
    · exact steady_endForward h
    · exact h

theorem goes_execUpdateResult {pos result : Nat} (h : Steady s₀ s) : Goes s₀ (execUpdateResult pos result s) := by
  unfold execUpdateResult
  refine goes_next ?_
  split
  · exact steady_takeResult h
  · exact h

theorem goes_execForwardTimeout (h : Steady s₀ s) : Goes s₀ (execForwardTimeout s) := by
  unfold execForwardTimeout
  refine goes_next ?_
  split
  · split
    · exact steady_forwardTo (steady_reportResult h)
    · exact h
  · exact h

theorem steady_takeToken {timeout : Nat} {rest : List Nat} (h : Steady s₀ s) : Steady s₀ (takeToken timeout rest s) := by
  unfold takeToken
  dsimp only
  split
  · exact h
  · split
    · exact steady_passToken h
    · split
      · exact steady_recoveryApply (steady_setUpdate h)
      · exact steady_setUpdate h

theorem goes_execApplyToken {timeout : Nat} {rest : List Nat} (h : Steady s₀ s) : Goes s₀ (execApplyToken timeout rest s) := by
  unfold execApplyToken
  refine goes_next ?_
  split
  · exact steady_takeToken h
  · exact h

theorem goes_execTokenTimeout (h : Steady s₀ s) : Goes s₀ (execTokenTimeout s) := by
  unfold execTokenTimeout
  refine goes_next ?_
  split
  · split
    · exact steady_releaseToken (steady_setUpdate h)
    · exact h
  · exact h

theorem goes_execTokenHolderTimeout (h : Steady s₀ s) : Goes s₀ (execTokenHolderTimeout s) := by
  unfold execTokenHolderTimeout
  refine goes_next ?_
  dsimp only
  split
  · split
    · exact steady_setUpdate (steady_countResult h)
    · exact h
  · exact h

end Sys2Proof.Machine
end

section
/-! SUPPORT. Steady operations: the halves, block resets, flash and links. Each leaves the queue of waiting commands alone
and memory canonical. -/

namespace Sys2Proof.Machine

variable {s₀ s t : State}

/-! ### The two halves -/

theorem goes_execBoundaryRecord {half : Half} (h : Steady s₀ s) : Goes s₀ (execBoundaryRecord half s) := by
  unfold execBoundaryRecord
  refine goes_next ?_
  split
  · split
    · exact steady_with h rfl
    · exact h
  · exact h

theorem goes_execSplitDetect (h : Steady s₀ s) : Goes s₀ (execSplitDetect s) := by
  unfold execSplitDetect
  refine goes_next ?_
  split
  · exact steady_emit (steady_emit (steady_with h rfl))
  · exact h

theorem steady_newEpoch (h : Steady s₀ s) : Steady s₀ (newEpoch s) := steady_raiseEvent (steady_score (steady_with h rfl))

theorem steady_grantEast (h : Steady s₀ s) : Steady s₀ (grantEast s) := by
  unfold grantEast
  dsimp only
  exact steady_emit (steady_with (steady_newEpoch h) rfl)

theorem goes_execRoleQuery {half : Half} (h : Steady s₀ s) : Goes s₀ (execRoleQuery half s) := by
  unfold execRoleQuery
  refine goes_next ?_
  split
  · exact h
  · dsimp only
    split
    · refine steady_emit ?_
      split
      · exact steady_with h rfl
      · exact h
    · split
      · refine steady_grantEast ?_
        split
        · exact steady_with h rfl
        · exact h
      · refine steady_emit ?_
        split
        · exact steady_with h rfl
        · exact h

theorem goes_execRoleSilenceGrant (h : Steady s₀ s) : Goes s₀ (execRoleSilenceGrant s) := by
  unfold execRoleSilenceGrant
  refine goes_next ?_
  split
  · exact steady_grantEast h
  · exact h

theorem steady_endFenced {ts : List Ticket} (h : Steady s₀ s) : Steady s₀ (endFenced ts s) :=
  steady_foldl (fun _ _ h1 => steady_finish h1) h

theorem steady_failDealer {mine : Ticket → Bool} (h : Steady s₀ s) : Steady s₀ (failDealer mine s) := by
  unfold failDealer
  dsimp only
  refine steady_endFenced ?_
  split
  · split
    · split
      · split
        · refine steady_with ?_ rfl
          split
          · split
            · exact steady_failBuilding h
            · exact h
          · exact h
        · refine steady_setSlot (steady_with ?_ rfl)
          split
          · split
            · exact steady_failBuilding h
            · exact h
          · exact h
      · split
        · refine steady_with ?_ rfl
          split
          · split
            · exact steady_failBuilding h
            · exact h
          · exact h
        · refine steady_setSlot (steady_with ?_ rfl)
          split
          · split
            · exact steady_failBuilding h
            · exact h
          · exact h
    · split
      · refine steady_with ?_ rfl
        split
        · split
          · exact steady_failBuilding h
          · exact h
        · exact h
      · refine steady_setSlot (steady_with ?_ rfl)
        split
        · split
          · exact steady_failBuilding h
          · exact h
        · exact h
  · refine steady_with ?_ rfl
    split
    · split
      · exact steady_failBuilding h
      · exact h
    · exact h

theorem steady_failConceal {mine : Ticket → Bool} (h : Steady s₀ s) : Steady s₀ (failConceal mine s) :=
  steady_endFenced (steady_startJob (steady_with h rfl))

theorem steady_failPort {p : Port} (h : Steady s₀ s) : Steady s₀ (failPort p s) := by
  unfold failPort
  dsimp only
  refine steady_failConceal (steady_failDealer (steady_foldl (fun _ _ h1 => ?_) (steady_foldl (fun _ _ h1 => steady_failOp h1) h)))
  split
  · exact steady_breakColl h1
  · exact steady_failColl h1

theorem steady_fenceHalf {hdr : Half} (h : Steady s₀ s) : Steady s₀ (fenceHalf hdr s) := by
  unfold fenceHalf
  dsimp only
  split
  · split
    · split
      · exact steady_foldl (fun _ _ h1 => steady_setUPort h1) (steady_with (steady_writeRecords (steady_failPort
            (steady_with (steady_abandonRun h) rfl))) rfl)
      · exact steady_failPort (steady_with (steady_abandonRun h) rfl)
    · split
      · exact steady_foldl (fun _ _ h1 => steady_setUPort h1) (steady_with (steady_writeRecords (steady_failPort
            (steady_with h rfl))) rfl)
      · exact steady_failPort (steady_with h rfl)
  · split
    · exact steady_foldl (fun _ _ h1 => steady_setUPort h1) (steady_with (steady_writeRecords (steady_failPort (steady_with h rfl))) rfl)
    · exact steady_failPort (steady_with h rfl)

theorem steady_takeMirror (h : Steady s₀ s) : Steady s₀ (takeMirror s) := steady_endFenced (steady_with h rfl)

theorem steady_holdRole {hdr : Half} {epoch : W32} (h : Steady s₀ s) : Steady s₀ (holdRole hdr epoch s) := by
  unfold holdRole
  dsimp only
  refine steady_raiseEvent (steady_score ?_)
  split
  · refine steady_afterBoundary (steady_with ?_ rfl)
    split
    · exact h
    · exact steady_takeMirror h
  · refine steady_with ?_ rfl
    split
    · exact h
    · exact steady_takeMirror h

theorem goes_execRoleAnswer {half : Half} {hold : Bool} {epoch : W32} (h : Steady s₀ s) : Goes s₀ (execRoleAnswer half hold epoch s) := by
  unfold execRoleAnswer
  refine goes_next ?_
  split
  · exact h
  · split
    · split
      · exact h
      · exact steady_holdRole h
    · exact steady_fenceHalf h

theorem goes_execRoleQueryTimeout {half : Half} (h : Steady s₀ s) : Goes s₀ (execRoleQueryTimeout half s) := by
  unfold execRoleQueryTimeout
  refine goes_next ?_
  split
  · split
    · exact steady_fenceHalf h
    · exact h
  · exact h

theorem goes_execDealerHeartbeat {half : Half} (h : Steady s₀ s) : Goes s₀ (execDealerHeartbeat half s) := by
  unfold execDealerHeartbeat
  refine goes_next ?_
  split
  · exact steady_with h rfl
  · exact h

theorem goes_execWatchdogDealer (h : Steady s₀ s) : Goes s₀ (execWatchdogDealer s) := by
  unfold execWatchdogDealer
  refine goes_next ?_
  dsimp only
  split
  · exact steady_requestWarm h
  · exact h

theorem goes_execDigestReport {step : W64} {plyId : W32} {health : W16} {abandoned : Bool} {digest : W64}
    (h : Steady s₀ s) : Goes s₀ (execDigestReport step plyId health abandoned digest s) := by
  unfold execDigestReport
  refine goes_next ?_
  split
  · exact steady_wake (steady_compareAll (steady_with h rfl))
  · exact h

/-! ### Block resets that go on -/

theorem steady_setOverride {b : Nat} {v : Bool} (h : Steady s₀ s) : Steady s₀ (setOverride b v s) := by
  unfold setOverride
  split
  · exact steady_setResets h
  · exact h

theorem steady_holdEnd {b : Nat} (h : Steady s₀ s) : Steady s₀ (holdEnd b s) := by
  unfold holdEnd
  split
  · exact h
  · split
    · exact steady_score (steady_setOverride (steady_setBlock (steady_with h rfl)))
    · exact steady_setBlock h

theorem goes_execBlockResetHoldEnd {block : Nat} (h : Steady s₀ s) : Goes s₀ (execBlockResetHoldEnd block s) :=
  goes_withUnit (fun _ h1 => steady_holdEnd h1) h

theorem goes_execBlockClockStable {block : Nat} (h : Steady s₀ s) : Goes s₀ (execBlockClockStable block s) :=
  goes_withUnit (fun _ h1 => steady_setBlock h1) h

theorem steady_initBlock {b : Nat} (h : Steady s₀ s) : Steady s₀ (initBlock b s) := by
  unfold initBlock
  split
  · exact h
  · split
    · exact steady_setUPort h
    · exact steady_setPort h

theorem steady_initDone {b : Nat} (h : Steady s₀ s) : Steady s₀ (initDone b s) := by
  unfold initDone
  split
  · exact h
  · dsimp only
    exact steady_wake (steady_blocksRestarted (steady_initBlock (steady_setOverride (steady_setBlock h))))

theorem goes_execBlockInitDone {block : Nat} (h : Steady s₀ s) : Goes s₀ (execBlockInitDone block s) :=
  goes_withUnit (fun _ h1 => steady_initDone h1) h

/-! ### Repairs and flash -/

theorem steady_rerun {t : Ticket} {i : Instr} (h : Steady s₀ s) : Steady s₀ (rerun t i s) := by
  unfold rerun
  split
  · exact steady_bookLoadBody h
  · exact steady_routeSetBody h
  · exact steady_positionSetBody h
  · exact steady_groupSetBody h
  · exact h

theorem steady_resumeOp {e : Nat × Op} (h : Steady s₀ s) : Steady s₀ (resumeOp s e) := by
  unfold resumeOp
  split
  · split
    · exact steady_rerun (steady_dropOp h)
    · exact steady_finish (steady_dropOp h)
    · exact h
  · exact h

theorem steady_resumeColl {id : Nat} (h : Steady s₀ s) : Steady s₀ (resumeColl s id) := by
  unfold resumeColl
  split
  · split
    · exact steady_advanceColl h
    · exact h
  · exact h

theorem steady_resumeReads (h : Steady s₀ s) : Steady s₀ (resumeReads s) :=
  steady_resumeCastle (steady_foldl (fun _ _ h1 => steady_resumeColl h1) (steady_foldl (fun _ _ h1 => steady_resumeOp h1) h))

theorem goes_execRepairSourceDone {id : Nat} {clean : Option (List Byte)} {ac : Nat}
    (h : Steady s₀ s) : Goes s₀ (execRepairSourceDone id clean ac s) :=
  goes_next (steady_resumeReads (steady_repairSourceDone h))

theorem goes_execRepairRewriteDone {port line : Nat} {clean : Bool}
    (h : Steady s₀ s) : Goes s₀ (execRepairRewriteDone port line clean s) :=
  goes_withUnit (fun _ h1 => steady_resumeReads (steady_rewriteDone h1)) h

theorem steady_countDecode {d errors retries : Nat} {first soft bad : Bool}
    (h : Steady s₀ s) : Steady s₀ (countDecode d errors retries first soft bad s) :=
  steady_setMedia h

theorem steady_setMoveRead {op : Nat} {bad : List Nat} {segs : List CauseSpan}
    (h : Steady s₀ s) : Steady s₀ (setMoveRead op bad segs s) := by
  unfold setMoveRead
  split
  · exact steady_with h rfl
  · exact h

theorem steady_codewordDecode {d errors retries : Nat} {softOk : Bool} {op o acFrom acTo : Nat}
    (h : Steady s₀ s) : Steady s₀ (codewordDecode d errors retries softOk op o acFrom acTo s) := by
  unfold codewordDecode
  dsimp only
  split
  · split
    · exact steady_setMoveRead (steady_countDecode h)
    · exact h
  · exact h
  · split
    · split
      · split
        · exact steady_failBuilding (steady_countDecode h)
        · exact steady_countDecode h
      · exact h
    · exact h

theorem goes_execFlashCodewordDecode {die errors retries : Nat} {softOk : Bool} {op offset acFrom acTo : Nat}
    (h : Steady s₀ s) : Goes s₀ (execFlashCodewordDecode die errors retries softOk op offset acFrom acTo s) :=
  goes_withUnit (fun _ h1 => steady_codewordDecode h1) h

theorem steady_wearAlert {a b : FlashLayer} {d : Nat} (h : Steady s₀ s) : Steady s₀ (wearAlert a b d s) := by
  unfold wearAlert
  split
  · exact h
  · dsimp only
    exact steady_raiseEvent (steady_with (steady_score h) rfl)

theorem steady_relocate {d : Nat} {disturb patrol badBlock : Bool}
    (h : Steady s₀ s) : Steady s₀ (relocate d disturb patrol badBlock s) :=
  steady_wearAlert (steady_setMedia (steady_with h rfl))

theorem goes_execFlashRelocate {die : Nat} {disturb patrol badBlock : Bool}
    (h : Steady s₀ s) : Goes s₀ (execFlashRelocate die disturb patrol badBlock s) := by
  unfold execFlashRelocate
  refine goes_withUnit (fun _ h1 => ?_) h
  split
  · exact steady_relocate h1
  · exact h1

theorem steady_flashPatrol {d corrections retries : Nat} (h : Steady s₀ s) : Steady s₀ (flashPatrol d corrections retries s) := by
  unfold flashPatrol
  split
  · exact h
  · dsimp only
    split
    · exact steady_relocate (steady_setMedia (steady_with h rfl))
    · exact steady_setMedia (steady_with h rfl)

theorem goes_execFlashPatrol {die corrections retries : Nat} (h : Steady s₀ s) : Goes s₀ (execFlashPatrol die corrections retries s) :=
  goes_withUnit (fun _ h1 => steady_flashPatrol h1) h

theorem steady_resumeFlash {t : Ticket} {i : Instr} (h : Steady s₀ s) : Steady s₀ (resumeFlash t i s) := by
  unfold resumeFlash
  split
  · exact steady_moveStart h
  · exact steady_flashCreate h
  · exact steady_flashDelete h
  · exact steady_ckptStart h
  · exact steady_restoreStart h
  · exact steady_snapshotStart h
  · exact h

theorem steady_resumeAll (h : Steady s₀ s) : Steady s₀ (resumeAll s) := by
  unfold resumeAll
  split
  · exact steady_foldl (fun _ _ h1 => steady_resumeFlash (steady_dropOp h1)) h
  · exact h

theorem steady_formatLayer {d : Nat} (h : Steady s₀ s) : Steady s₀ (formatLayer d s) :=
  steady_wearAlert (steady_with (steady_setMedia h) rfl)

theorem steady_layerReady {d : Nat} (h : Steady s₀ s) : Steady s₀ (layerReady d s) := by
  unfold layerReady
  split
  · exact h
  · dsimp only
    refine steady_resumeAll (steady_setLayer ?_)
    split
    · exact steady_formatLayer h
    · exact h

theorem goes_execFlashLayerReady {die : Nat} (h : Steady s₀ s) : Goes s₀ (execFlashLayerReady die s) :=
  goes_withUnit (fun _ h1 => steady_layerReady h1) h

/-! ### The link layer -/

theorem steady_sendHello {u : Nat} (h : Steady s₀ s) : Steady s₀ (sendHello u s) := steady_emit h

theorem steady_portTrained {u : Nat} {reversed full peerEncrypt : Bool}
    (h : Steady s₀ s) : Steady s₀ (portTrained u reversed full peerEncrypt s) := by
  unfold portTrained
  dsimp only
  split
  · exact h
  · refine steady_sendHello (steady_setUPort ?_)
    split
    · exact steady_with h rfl
    · exact h

theorem goes_execPortTrained {u : Nat} {reversed : Bool} {x : Training} (h : Steady s₀ s) : Goes s₀ (execPortTrained u reversed x s) :=
  goes_withUnit (fun _ h1 => steady_portTrained h1) h

theorem goes_execPortRetrainRetry {u : Nat} (h : Steady s₀ s) : Goes s₀ (execPortRetrainRetry u s) := by
  unfold execPortRetrainRetry
  refine goes_withUnit (fun _ h1 => ?_) h
  split
  · exact steady_setUPort h1
  · exact h1

theorem goes_execLaneFail {u : Nat} (h : Steady s₀ s) : Goes s₀ (execLaneFail u s) := by
  unfold execLaneFail
  refine goes_withUnit (fun _ h1 => ?_) h
  split
  · exact steady_linkDown h1
  · exact h1

theorem steady_pendKeys {u : Nat} {secret : List Byte} (h : Steady s₀ s) : Steady s₀ (pendKeys u secret s) := steady_setUPort h
theorem steady_refuseKeys {u : Nat} (h : Steady s₀ s) : Steady s₀ (refuseKeys u s) := steady_setUPort h

theorem steady_sendKemKey {u : Nat} (h : Steady s₀ s) : Steady s₀ (sendKemKey u s) := by
  unfold sendKemKey
  dsimp only
  split
  · exact steady_emit (steady_setUPort (steady_with h rfl))
  · exact h

theorem steady_encapsulationKey {u : Nat} {cert pk key sig : List Byte}
    (h : Steady s₀ s) : Steady s₀ (encapsulationKey u cert pk key sig s) := by
  unfold encapsulationKey
  dsimp only
  split
  · exact h
  · split
    · exact steady_refuseKeys h
    · split
      · exact h
      · split
        · exact steady_emit (steady_pendKeys (steady_with h rfl))
        · exact steady_refuseKeys h

theorem goes_execEncapsulationKey {u : Nat} {certificate publicKey key signature : List Byte}
    (h : Steady s₀ s) : Goes s₀ (execEncapsulationKey u certificate publicKey key signature s) :=
  goes_withUnit (fun _ h1 => steady_encapsulationKey h1) h

theorem steady_kemCiphertext {u : Nat} {cert pk ct sig : List Byte} (h : Steady s₀ s) : Steady s₀ (kemCiphertext u cert pk ct sig s) := by
  unfold kemCiphertext
  dsimp only
  split
  · exact h
  · split
    · exact h
    · split
      · exact steady_pendKeys (steady_setUPort h)
      · exact steady_refuseKeys h

theorem goes_execKemCiphertext {u : Nat} {certificate publicKey ciphertext signature : List Byte}
    (h : Steady s₀ s) : Goes s₀ (execKemCiphertext u certificate publicKey ciphertext signature s) :=
  goes_withUnit (fun _ h1 => steady_kemCiphertext h1) h

theorem steady_keyedUp {u : Nat} (h : Steady s₀ s) : Steady s₀ (keyedUp u s) := by
  unfold keyedUp
  dsimp only
  split
  · exact steady_sendHello (steady_setUPort h)
  · exact h

theorem steady_keySwitch {u : Nat} {l : LinkField} (h : Steady s₀ s) : Steady s₀ (keySwitch u l s) := by
  unfold keySwitch
  split
  · exact h
  · dsimp only
    split
    · exact steady_keyedUp (steady_setUPort (steady_setUPort h))
    · exact steady_setUPort h

theorem goes_execKeySwitch {x : SwitchMsg} (h : Steady s₀ s) : Goes s₀ (execKeySwitch x s) :=
  goes_withUnit (fun _ h1 => steady_keySwitch h1) h

theorem goes_execKeyRollover {u : Nat} {transmit : Bool} (h : Steady s₀ s) : Goes s₀ (execKeyRollover u transmit s) :=
  goes_withUnit (fun _ h1 => steady_setUPort h1) h

theorem steady_unroutable {u n : Nat} (h : Steady s₀ s) : Steady s₀ (unroutable u n s) := steady_setUPort h

theorem steady_freeBuffer {u v : Nat} (h : Steady s₀ s) : Steady s₀ (freeBuffer u v s) := by
  unfold freeBuffer
  split
  · exact steady_setUPort h
  · exact h

theorem steady_enqueue {o i : Nat} {f : Flit} (h : Steady s₀ s) : Steady s₀ (enqueue o i f s) := steady_setUPort h

theorem steady_forward {u : Nat} {f : Flit} (h : Steady s₀ s) : Steady s₀ (forward u f s) := by
  unfold forward
  split
  · exact steady_freeBuffer (steady_setUPort h)
  · split
    · exact steady_freeBuffer (steady_unroutable h)
    · exact steady_enqueue h

theorem steady_tagFailed {u : Nat} (h : Steady s₀ s) : Steady s₀ (tagFailed u s) := by
  unfold tagFailed
  dsimp only
  split
  · exact steady_linkDown (steady_score (steady_setUPort h))
  · exact steady_setUPort h

theorem steady_acceptFlit {u : Nat} {f : Flit} (h : Steady s₀ s) : Steady s₀ (acceptFlit u f s) := by
  unfold acceptFlit
  dsimp only
  split
  · refine steady_freeBuffer ?_
    split
    · exact steady_refuseKeys (steady_setUPort h)
    · exact steady_setUPort h
  · split
    · exact steady_freeBuffer (steady_setUPort h)
    · exact steady_forward (steady_setUPort h)

theorem steady_flitReceive {u : Nat} {r : FlitRead} (h : Steady s₀ s) : Steady s₀ (flitReceive u r s) := by
  unfold flitReceive
  dsimp only
  split
  · exact steady_setUPort h
  · split
    · exact steady_setUPort (steady_setUPort h)
    · split
      · exact steady_setUPort (steady_setUPort h)
      · split
        · split
          · exact steady_setUPort (steady_setUPort (steady_setUPort h))
          · exact steady_setUPort (steady_setUPort h)
        · split
          · exact steady_tagFailed (steady_setUPort (steady_setUPort h))
          · exact steady_acceptFlit (steady_setUPort (steady_setUPort h))

theorem goes_execFlitReceive {u : Nat} {x : FlitRead} (h : Steady s₀ s) : Goes s₀ (execFlitReceive u x s) :=
  goes_withUnit (fun _ h1 => steady_flitReceive h1) h

theorem steady_nakReceive {u : Nat} {l : LinkField} (h : Steady s₀ s) : Steady s₀ (nakReceive u l s) := by
  unfold nakReceive
  split
  · exact h
  · dsimp only
    split
    · exact steady_linkDown (steady_setUPort h)
    · exact steady_setUPort h

theorem goes_execNakReceive {u : Nat} {x : LinkField} (h : Steady s₀ s) : Goes s₀ (execNakReceive u x s) :=
  goes_withUnit (fun _ h1 => steady_nakReceive h1) h

theorem steady_sendOut {o : Nat} {vc : BitVec 2} {dst : BitVec 15} {bs : List Byte}
    (h : Steady s₀ s) : Steady s₀ (sendOut o vc dst bs s) :=
  steady_foldl (fun _ _ h1 => steady_enqueue h1) (steady_with h rfl)

theorem steady_sendTo {vc : BitVec 2} {dst : BitVec 15} {bs : List Byte} (h : Steady s₀ s) : Steady s₀ (sendTo vc dst bs s) := by
  unfold sendTo
  split
  · exact steady_sendOut h
  · exact steady_unroutable h

theorem steady_frameOne {e : Emit} (h : Steady s₀ s) : Steady s₀ (frameOne e s) := by
  unfold frameOne
  split
  · exact steady_sendTo h
  · split
    · exact steady_sendOut h
    · exact h
  · split
    · exact steady_sendOut h
    · exact h
  · exact steady_sendTo h
  · split
    · exact steady_sendTo h
    · exact h
  · exact steady_sendTo h
  · exact steady_sendTo h
  · split
    · exact steady_sendTo h
    · exact h
  · exact h

theorem steady_frameAll (h : Steady s₀ s) : Steady s₀ (frameAll s) := steady_foldl (fun _ _ h1 => steady_frameOne h1) (steady_with h rfl)

theorem steady_emitFlit {u : Nat} {x : UPort} {f : Flit} (h : Steady s₀ s) : Steady s₀ (emitFlit u x f s) := by
  unfold emitFlit
  dsimp only
  exact steady_emit h

theorem steady_sendNew {u v n i : Nat} {w : W16} {f0 : Flit} (h : Steady s₀ s) : Steady s₀ (sendNew u v n i w f0 s) := by
  unfold sendNew
  dsimp only
  split
  · exact steady_emitFlit (steady_setUPort (steady_setUPort h))
  · exact steady_freeBuffer (steady_emitFlit (steady_setUPort (steady_setUPort h)))

theorem steady_emitControl {u : Nat} {kind : BitVec 2} {x : UPort} (h : Steady s₀ s) : Steady s₀ (emitControl u kind x s) :=
  steady_emitFlit (steady_with h rfl)

theorem steady_sendData {u : Nat} (h : Steady s₀ s) : Steady s₀ (sendData u s) := by
  unfold sendData
  dsimp only
  split
  · exact steady_emitControl (steady_setUPort h)
  · split
    · exact steady_emitControl (steady_setUPort h)
    · split
      · exact steady_sendNew h
      · exact steady_emitControl (steady_setUPort h)

theorem steady_flitSlot {u : Nat} (h : Steady s₀ s) : Steady s₀ (flitSlot u s) := by
  unfold flitSlot
  dsimp only
  split
  · exact steady_frameAll h
  · split
    · exact steady_emitControl (steady_setUPort (steady_frameAll h))
    · split
      · exact steady_keyedUp (steady_emitControl (steady_setUPort (steady_frameAll h)))
      · split
        · exact steady_emitFlit (steady_setUPort (steady_frameAll h))
        · exact steady_sendData (steady_frameAll h)

theorem goes_execFlitSlot {u : Nat} (h : Steady s₀ s) : Goes s₀ (execFlitSlot u s) := goes_withUnit (fun _ h1 => steady_flitSlot h1) h

/-! ### Discovery and loss -/

theorem steady_hello {u : Nat} {node : BitVec 15} {peerPort : BitVec 4} (h : Steady s₀ s) : Steady s₀ (hello u node peerPort s) := by
  unfold hello
  split
  · exact h
  · exact steady_sendKemKey (steady_setUPort h)

theorem goes_execHello {u : Nat} {node : BitVec 15} {peerPort : BitVec 4} (h : Steady s₀ s) : Goes s₀ (execHello u node peerPort s) :=
  goes_withUnit (fun _ h1 => steady_hello h1) h

theorem goes_execMgmtQuery {node : BitVec 15} (h : Steady s₀ s) : Goes s₀ (execMgmtQuery node s) := by
  unfold execMgmtQuery
  refine goes_next ?_
  split
  · exact steady_emit h
  · exact h

theorem goes_execProbe {x : ProbeMsg} (h : Steady s₀ s) : Goes s₀ (execProbe x s) := by
  unfold execProbe
  refine goes_next ?_
  split
  · refine steady_foldl (fun _ _ h1 => ?_) h
    split
    · exact steady_setUPort h1
    · exact h1
  · split
    · exact steady_emit h
    · exact h

theorem steady_failInvolved {p : Nat} (h : Steady s₀ s) : Steady s₀ (failInvolved p s) := steady_foldl (fun _ _ h1 => steady_breakColl h1) h

theorem steady_failSourced {p : Nat} (h : Steady s₀ s) : Steady s₀ (failSourced p s) := by
  unfold failSourced
  dsimp only
  refine steady_foldl (fun _ _ h1 => steady_finish h1) (steady_with ?_ rfl)
  split
  · split
    · exact steady_failBuilding h
    · exact h
  · exact h

theorem steady_markAbsent {p : Nat} (h : Steady s₀ s) : Steady s₀ (markAbsent p s) := by
  unfold markAbsent
  split
  · exact h
  · dsimp only
    exact steady_raiseEvent (steady_score (steady_with (steady_failSourced (steady_failInvolved h)) rfl))

theorem steady_floodLoss {p : Nat} {node : BitVec 15} {count : W32} (h : Steady s₀ s) : Steady s₀ (floodLoss p node count s) :=
  steady_foldl (fun _ _ h1 => steady_emit h1) h

theorem steady_probeTimeout {u : Nat} (h : Steady s₀ s) : Steady s₀ (probeTimeout u s) := by
  unfold probeTimeout
  dsimp only
  split
  · exact h
  · split
    · exact steady_setUPort h
    · exact steady_floodLoss (steady_with (steady_markAbsent (steady_setUPort h)) rfl)

theorem goes_execProbeTimeout {u : Nat} (h : Steady s₀ s) : Goes s₀ (execProbeTimeout u s) :=
  goes_withUnit (fun _ h1 => steady_probeTimeout h1) h

theorem steady_loss {u : Nat} {p : BitVec 14} {node : BitVec 15} {count : W32} (h : Steady s₀ s) : Steady s₀ (loss u p node count s) := by
  unfold loss
  split
  · exact h
  · dsimp only
    exact steady_floodLoss (steady_markAbsent (steady_with h rfl))

theorem goes_execLoss {u : Nat} {position : BitVec 14} {node : BitVec 15} {count : W32}
    (h : Steady s₀ s) : Goes s₀ (execLoss u position node count s) :=
  goes_withUnit (fun _ h1 => steady_loss h1) h

end Sys2Proof.Machine
end

section
/-! SUPPORT. Steady operations: instructions of programs and the end of a step. Each leaves the queue of waiting commands alone
and memory canonical. -/

namespace Sys2Proof.Machine

variable {s₀ s t : State}

/-! ### MOVE instructions -/

theorem steady_portReads {q a n t : Nat} (h : Steady s₀ s) : Steady s₀ (portReads q a n t s).2 := steady_usePort (steady_claimBanks h)

theorem steady_deliverBeats {st : Store} {start lat : Nat} {xs : List Nat} {bs : List Byte}
    (h : Steady s₀ s) : Steady s₀ (deliverBeats st start lat xs bs s) :=
  steady_foldl (fun _ _ h1 => steady_deliver h1) h

theorem steady_writeBeats {a : Nat} {xs : List Nat} {bs : List Byte} (h : Steady s₀ s) : Steady s₀ (writeBeats a xs bs s) :=
  steady_foldl (fun _ _ h1 => steady_sramStore h1) h

theorem goes_loadHalf {i : Issue} {c : Common} {op : BitVec 4} {f : MoveF} {side : Nat} {transposed : Bool}
    (h : Steady s₀ s) : Goes s₀ (loadHalf i c op f side transposed s) := by
  unfold loadHalf
  refine goes_issue (fun _ _ _ h1 => ?_) h
  dsimp only
  split
  · exact steady_raiseFault h1
  · split
    · exact steady_raiseFault h1
    · split
      · exact steady_raiseFault h1
      · exact steady_advance (steady_doneAt (steady_foldl (fun _ _ h1 => steady_with (steady_deliverBeats h1) rfl)
            (steady_portReads (steady_sramEcc h1))))

theorem goes_execLda {i : Issue} {c : Common} {f : MoveF} (h : Steady s₀ s) : Goes s₀ (execLda i c f s) := goes_loadHalf h
theorem goes_execLdb {i : Issue} {c : Common} {f : MoveF} (h : Steady s₀ s) : Goes s₀ (execLdb i c f s) := goes_loadHalf h
theorem goes_execLdat {i : Issue} {c : Common} {f : MoveF} (h : Steady s₀ s) : Goes s₀ (execLdat i c f s) := goes_loadHalf h
theorem goes_execLdbt {i : Issue} {c : Common} {f : MoveF} (h : Steady s₀ s) : Goes s₀ (execLdbt i c f s) := goes_loadHalf h

theorem goes_execAccld {i : Issue} {c : Common} {f : MoveF} (h : Steady s₀ s) : Goes s₀ (execAccld i c f s) := by
  unfold execAccld
  refine goes_issue (fun _ _ _ h1 => ?_) h
  dsimp only
  split
  · exact h1
  · split
    · exact steady_raiseFault h1
    · exact steady_advance (steady_doneAt (steady_foldl (fun _ _ h1 => steady_with
          (steady_foldl (fun _ _ h2 => steady_deliver h2) h1) rfl) (steady_portReads (steady_sramEcc h1))))

theorem goes_execSpill {i : Issue} {c : Common} {f : MoveF} (h : Steady s₀ s) : Goes s₀ (execSpill i c f s) := by
  unfold execSpill
  refine goes_issue (fun _ _ _ h1 => ?_) h
  dsimp only
  split
  · exact steady_raiseFault h1
  · split
    · exact steady_raiseFault h1
    · split
      · exact steady_raiseFault h1
      · exact steady_advance (steady_doneAt (steady_writeBeats (steady_usePort (steady_claimBanks (steady_arrayEcc h1)))))

theorem steady_fillTags {k : Nat} {tag : W16} {o n ac : Nat} (h : Steady s₀ s) : Steady s₀ (fillTags k tag o n ac s) :=
  steady_with (steady_deliver h) rfl

theorem goes_execFill {i : Issue} {c : Common} {f : MoveF} (h : Steady s₀ s) : Goes s₀ (execFill i c f s) := by
  unfold execFill
  refine goes_issue (fun _ _ _ h1 => ?_) h
  dsimp only
  split
  · exact steady_raiseFault h1
  · split
    · exact steady_raiseFault h1
    · exact steady_advance (steady_doneAt (steady_foldl (fun _ _ h1 => steady_fillTags h1) (steady_deliverBeats
          (steady_portReads (steady_sramEcc h1)))))

theorem goes_execParld {i : Issue} {c : Common} {f : MoveF} (h : Steady s₀ s) : Goes s₀ (execParld i c f s) := by
  unfold execParld
  refine goes_issue (fun _ _ _ h1 => ?_) h
  dsimp only
  split
  · exact steady_raiseFault h1
  · exact steady_advance (steady_doneAt (steady_deliverBeats (steady_portReads (steady_sramEcc h1))))

theorem goes_execGradst {i : Issue} {c : Common} {f : MoveF} (h : Steady s₀ s) : Goes s₀ (execGradst i c f s) := by
  unfold execGradst
  refine goes_issue (fun _ _ _ h1 => ?_) h
  dsimp only
  split
  · exact steady_raiseFault h1
  · exact steady_advance (steady_doneAt (steady_writeBeats (steady_usePort (steady_claimBanks (steady_arrayEcc h1)))))

theorem goes_execCopy {i : Issue} {c : Common} {f : MoveF} (h : Steady s₀ s) : Goes s₀ (execCopy i c f s) := by
  unfold execCopy
  refine goes_issue (fun _ _ _ h1 => ?_) h
  dsimp only
  split
  · exact steady_raiseFault h1
  · exact steady_advance (steady_doneAt (steady_writeBeats (steady_claimBanks (steady_portReads (steady_sramEcc h1)))))

theorem goes_startStream {i : Issue} {c : Common} {op : BitVec 4} {f : MoveF} {out : Bool}
    (h : Steady s₀ s) : Goes s₀ (startStream i c op f out s) := by
  unfold startStream
  refine goes_issue (fun _ _ _ h1 => ?_) h
  dsimp only
  split
  · split
    · exact steady_raiseFault h1
    · split
      · exact h1
      · exact steady_advance (steady_setRun (steady_setRun (steady_addOp (steady_sramEcc h1))))
  · split
    · exact steady_raiseFault h1
    · split
      · exact h1
      · exact steady_advance (steady_setRun (steady_addOp (steady_sramEcc h1)))

theorem goes_execStreamIn {i : Issue} {c : Common} {f : MoveF} (h : Steady s₀ s) : Goes s₀ (execStreamIn i c f s) := goes_startStream h
theorem goes_execStreamOut {i : Issue} {c : Common} {f : MoveF} (h : Steady s₀ s) : Goes s₀ (execStreamOut i c f s) := goes_startStream h

theorem goes_execXfer {i : Issue} {c : Common} {f : MoveF} (h : Steady s₀ s) : Goes s₀ (execXfer i c f s) := by
  unfold execXfer
  refine goes_issue (fun _ _ _ h1 => ?_) h
  dsimp only
  split
  · exact steady_raiseFault h1
  · exact steady_advance (steady_doneAt (steady_writeBeats (steady_claimBanks (steady_portReads (steady_sramEcc h1)))))

/-! ### MMA instructions -/

theorem steady_mmaOn {p pc t : Nat} {pr : Prog} {c : Common} {f : MmaF} {je : Nat × Nat}
    (h : Steady s₀ s) : Steady s₀ (mmaOn p pc t pr c f s je) :=
  steady_setRun (steady_doneAt (steady_deliver (steady_with h rfl)))

theorem goes_execMma {i : Issue} {c : Common} {f : MmaF} (h : Steady s₀ s) : Goes s₀ (execMma i c f s) := by
  unfold execMma
  refine goes_issue (fun _ _ _ h1 => ?_) h
  dsimp only
  split
  · exact h1
  · split
    · exact steady_raiseFault (steady_failEngine h1)
    · split
      · exact steady_raiseFault h1
      · exact steady_advance (steady_foldl (fun _ _ h1 => steady_mmaOn h1) (steady_arrayEcc h1))

theorem steady_drainRows {k src prog pc dest ac : Nat} {sat bf16 : Bool} {tileM tileN : W16} {tile : List W32}
    (h : Steady s₀ s) : Steady s₀ (drainRows k src prog pc dest ac sat bf16 tileM tileN tile s) :=
  steady_doneAt (steady_flagRows (steady_foldl (fun _ _ h1 => steady_sramStore h1) (steady_claimBanks h)))

theorem goes_execMmaBankComplete {cluster engine bank : Nat} (h : Steady s₀ s) : Goes s₀ (execMmaBankComplete cluster engine bank s) := by
  unfold execMmaBankComplete
  refine goes_withUnit (fun _ h1 => ?_) h
  split
  · exact h1
  · split
    · exact h1
    · split
      · exact h1
      · split
        · exact steady_setRun h1
        · dsimp only
          split
          · exact steady_setRun h1
          · exact steady_drainRows (steady_setRun h1)

/-! ### RED instructions -/

theorem steady_treeOutput {level k src p pc dest : Nat} {sat : Bool} {f : TreeF} {ac : Nat} {rows : List W32}
    (h : Steady s₀ s) : Steady s₀ (treeOutput level k src p pc dest sat f ac rows s) := by
  unfold treeOutput
  split
  · exact steady_doneAt (steady_setRun h)
  · exact steady_drainRows h

theorem goes_execEtree {i : Issue} {c : Common} {f : TreeF} (h : Steady s₀ s) : Goes s₀ (execEtree i c f s) := by
  unfold execEtree
  refine goes_issue (fun _ _ _ h1 => ?_) h
  dsimp only
  split
  · exact steady_raiseFault h1
  · split
    · exact steady_raiseFault h1
    · split
      · exact steady_raiseFault h1
      · split
        · exact steady_raiseFault h1
        · exact steady_advance (steady_treeOutput (steady_foldl (fun _ _ h1 => steady_with h1 rfl) (steady_setRun h1)))

theorem steady_treeMeet {level cost key src : Nat} {ps : List TreeItem}
    (h : Steady s₀ s) : Steady s₀ (treeMeet level cost key src ps s) := by
  unfold treeMeet
  split
  · dsimp only
    split
    · exact steady_raiseFault (steady_setRun h)
    · exact steady_treeOutput (steady_setRun (steady_setRun h))
  · exact h

theorem goes_treeJoin {i : Issue} {c : Common} {op : BitVec 4} {f : TreeF} {level limit : Nat}
    {unitOf : Nat → Nat} {own : Nat} {members : List Nat → List Nat} {cost key src : Nat}
    (h : Steady s₀ s) : Goes s₀ (treeJoin i c op f level limit unitOf own members cost key src s) := by
  unfold treeJoin
  refine goes_issue (fun _ _ _ h1 => ?_) h
  dsimp only
  split
  · split
    · exact steady_raiseFault h1
    · split
      · exact steady_raiseFault h1
      · split
        · split
          · exact steady_treeMeet (steady_advance (steady_setRun h1))
          · exact steady_advance (steady_setRun h1)
        · exact steady_advance (steady_setRun h1)
  · exact steady_raiseFault h1

theorem goes_execCtree {i : Issue} {c : Common} {f : TreeF} (h : Steady s₀ s) : Goes s₀ (execCtree i c f s) := goes_treeJoin h
theorem goes_execDtree {i : Issue} {c : Common} {f : TreeF} (h : Steady s₀ s) : Goes s₀ (execDtree i c f s) := goes_treeJoin h

theorem goes_execTreePartnerTimeout {cluster : Nat} (h : Steady s₀ s) : Goes s₀ (execTreePartnerTimeout cluster s) := by
  unfold execTreePartnerTimeout
  refine goes_withUnit (fun _ h1 => ?_) h
  split
  · exact h1
  · split
    · exact h1
    · dsimp only
      exact steady_raiseFault h1

theorem goes_execTopk {i : Issue} {c : Common} {f : TopkF} (h : Steady s₀ s) : Goes s₀ (execTopk i c f s) := by
  unfold execTopk
  refine goes_issue (fun _ _ _ h1 => ?_) h
  dsimp only
  split
  · exact steady_raiseFault h1
  · split
    · split
      · exact steady_raiseFault h1
      · refine steady_advance (steady_doneAt (steady_with ?_ rfl))
        split
        · exact steady_reportFlag (steady_foldl (fun _ _ h1 => steady_sramStore h1) (steady_sramEcc h1))
        · exact steady_foldl (fun _ _ h1 => steady_sramStore h1) (steady_sramEcc h1)
    · split
      · exact steady_raiseFault h1
      · refine steady_advance (steady_doneAt (steady_with ?_ rfl))
        split
        · exact steady_reportFlag (steady_foldl (fun _ _ h1 => steady_sramStore h1) (steady_sramEcc h1))
        · exact steady_foldl (fun _ _ h1 => steady_sramStore h1) (steady_sramEcc h1)

/-! ### ROW instructions -/

theorem steady_rowStep {p op : Nat} {c : Common} {f : RowF} {xa ga oa t : Nat} {st : State × List (List (Option Nat))} {v : Nat}
    (h : Steady s₀ st.1) : Steady s₀ (rowStep p op c f xa ga oa t st v).1 := by
  unfold rowStep
  split
  · split
    · split
      · split
        · dsimp only
          exact steady_deliver (steady_deliver (steady_deliver (steady_deliver (steady_sramStore h))))
        · dsimp only
          exact steady_deliver (steady_deliver (steady_sramStore h))
      · split
        · dsimp only
          exact steady_deliver (steady_deliver (steady_deliver (steady_deliver (steady_sramStore h))))
        · dsimp only
          exact steady_deliver (steady_deliver (steady_sramStore h))
    · split
      · split
        · dsimp only
          exact steady_deliver (steady_deliver (steady_deliver (steady_deliver (steady_sramStore h))))
        · dsimp only
          exact steady_deliver (steady_deliver (steady_sramStore h))
      · split
        · dsimp only
          exact steady_deliver (steady_deliver (steady_deliver (steady_deliver (steady_sramStore h))))
        · dsimp only
          exact steady_deliver (steady_deliver (steady_sramStore h))
  · split
    · split
      · split
        · dsimp only
          exact steady_deliver (steady_deliver (steady_deliver (steady_deliver (steady_sramStore h))))
        · dsimp only
          exact steady_deliver (steady_deliver (steady_sramStore h))
      · split
        · dsimp only
          exact steady_deliver (steady_deliver (steady_deliver (steady_deliver (steady_sramStore h))))
        · dsimp only
          exact steady_deliver (steady_deliver (steady_sramStore h))
    · split
      · split
        · dsimp only
          exact steady_deliver (steady_deliver (steady_deliver (steady_deliver (steady_sramStore h))))
        · dsimp only
          exact steady_deliver (steady_deliver (steady_sramStore h))
      · split
        · dsimp only
          exact steady_deliver (steady_deliver (steady_deliver (steady_deliver (steady_sramStore h))))
        · dsimp only
          exact steady_deliver (steady_deliver (steady_sramStore h))

theorem goes_rowOp {i : Issue} {c : Common} {op : BitVec 4} {f : RowF} (h : Steady s₀ s) : Goes s₀ (rowOp i c op f s) := by
  unfold rowOp
  refine goes_issue (fun _ _ _ h1 => ?_) h
  dsimp only
  split
  · exact steady_raiseFault h1
  · refine steady_advance (steady_doneAt (steady_with ?_ rfl))
    split
    · refine steady_deliver ?_
      split
      · exact steady_arrayEcc h1
      · exact h1
    · refine steady_flagRows (steady_foldl_fst (fun _ _ h1 => steady_rowStep h1) ?_)
      dsimp only
      split
      · exact steady_arrayEcc (steady_sramEcc h1)
      · exact steady_sramEcc h1

theorem goes_execLnFwd {i : Issue} {c : Common} {f : RowF} (h : Steady s₀ s) : Goes s₀ (execLnFwd i c f s) := goes_rowOp h
theorem goes_execRmsFwd {i : Issue} {c : Common} {f : RowF} (h : Steady s₀ s) : Goes s₀ (execRmsFwd i c f s) := goes_rowOp h
theorem goes_execSmaxFwd {i : Issue} {c : Common} {f : RowF} (h : Steady s₀ s) : Goes s₀ (execSmaxFwd i c f s) := goes_rowOp h
theorem goes_execLse {i : Issue} {c : Common} {f : RowF} (h : Steady s₀ s) : Goes s₀ (execLse i c f s) := goes_rowOp h
theorem goes_execAmax {i : Issue} {c : Common} {f : RowF} (h : Steady s₀ s) : Goes s₀ (execAmax i c f s) := goes_rowOp h
theorem goes_execLnBwd {i : Issue} {c : Common} {f : RowF} (h : Steady s₀ s) : Goes s₀ (execLnBwd i c f s) := goes_rowOp h
theorem goes_execRmsBwd {i : Issue} {c : Common} {f : RowF} (h : Steady s₀ s) : Goes s₀ (execRmsBwd i c f s) := goes_rowOp h
theorem goes_execSmaxBwd {i : Issue} {c : Common} {f : RowF} (h : Steady s₀ s) : Goes s₀ (execSmaxBwd i c f s) := goes_rowOp h
theorem goes_execGradClear {i : Issue} {c : Common} {f : RowF} (h : Steady s₀ s) : Goes s₀ (execGradClear i c f s) := goes_rowOp h

/-! ### The end of a step -/

theorem steady_holdAtEnd {e : Nat × Prog} (h : Steady s₀ s) : Steady s₀ (holdAtEnd e s) := by
  unfold holdAtEnd
  split
  · split
    · exact steady_countHold h
    · exact h
  · exact h

theorem steady_closeStep {r : Run} {ac : Nat} {excess : W64} {abandoned : Bool} {stall : Tab W64} {digest : W64}
    (h : Steady s₀ s) : Steady s₀ (closeStep r ac excess abandoned stall digest s) :=
  steady_sendReport (steady_addLog (steady_with h rfl))

theorem steady_stepPower {r : Run} {ac : Nat} (h : Steady s₀ s) : Steady s₀ (stepPower r ac s) := steady_with h rfl
theorem steady_recordEnergy {r : Run} (h : Steady s₀ s) : Steady s₀ (recordEnergy r s) := steady_with h rfl

theorem steady_countOpt {r : Run} (h : Steady s₀ s) : Steady s₀ (countOpt r s) := by
  unfold countOpt
  split
  · split
    · dsimp only
      exact steady_with h rfl
    · exact h
  · exact h

theorem steady_endStep {r : Run} (h : Steady s₀ s) : Steady s₀ (endStep r s) := by
  unfold endStep
  dsimp only
  split
  · exact h
  · split
    · exact steady_complete (steady_checkDigest (steady_countOpt (steady_recordEnergy (steady_stepPower (steady_closeStep
          (steady_with (steady_foldl (fun _ _ h1 => steady_holdAtEnd h1) h) rfl))))))
    · exact steady_checkDigest (steady_countOpt (steady_recordEnergy (steady_stepPower (steady_closeStep (steady_with
          (steady_foldl (fun _ _ h1 => steady_holdAtEnd h1) h) rfl)))))

theorem steady_endAbandoned {r : Run} (h : Steady s₀ s) : Steady s₀ (endAbandoned r s) := by
  unfold endAbandoned
  dsimp only
  refine steady_finishOpt (steady_checkDigest (steady_stepPower (steady_closeStep (steady_foldl (fun _ _ h1 => ?_) h))))
  split
  · exact steady_streamUndefine h1
  · exact steady_undefineBytes h1

theorem goes_execStepEnd (h : Steady s₀ s) : Goes s₀ (execStepEnd s) := by
  unfold execStepEnd
  refine goes_next ?_
  split
  · exact h
  · split
    · split
      · exact h
      · exact steady_endAbandoned h
    · split
      · exact steady_endStep h
      · exact h

theorem steady_holdToAbort {a : Nat} {r : Run} {e : Nat × Prog} (h : Steady s₀ s) : Steady s₀ (holdToAbort a r e s) := by
  unfold holdToAbort
  dsimp only
  split
  · split
    · exact steady_countHold h
    · exact h
  · split
    · split
      · split
        · exact steady_countHold h
        · exact h
      · exact h
    · exact h

theorem landWrites_wf (ws : List SramWrite) (m : Tab Byte) (h : Memory.wf m = true) : Memory.wf (landWrites ws m) = true := by
  refine List.foldlRecOn (motive := fun acc : Tab Byte × List SramWrite => Memory.wf acc.1 = true) ws _ h (fun acc hacc w _ => ?_)
  have hw := writeBytes_wf w.bytes acc.1 w.addr hacc
  dsimp only
  split
  · exact writeBytes_foldl_wf _ _ _ _ hw
  · exact hw

/-- Putting back what had not landed at the abort stores bytes (R164). -/
theorem restoreWrites_wf (a : Nat) (ws : List SramWrite) (m : Tab Byte) (h : Memory.wf m = true) :
    Memory.wf (restoreWrites a ws m) = true :=
  landWrites_wf _ _ (writeBytes_foldl_wf _ _ _ _ h)

theorem steady_abortRun {r : Run} {a : Nat} (h : Steady s₀ s) : Steady s₀ (abortRun r a s) :=
  steady_score (steady_setRun (steady_withMem
    (steady_foldl (fun _ _ h1 => steady_dropFlags h1) (steady_foldl (fun _ _ h1 => steady_holdToAbort h1) h))
    (restoreWrites_wf a r.writes _)))

theorem goes_execPlyAbort (h : Steady s₀ s) : Goes s₀ (execPlyAbort s) := by
  unfold execPlyAbort
  refine goes_next ?_
  split
  · exact h
  · split
    · split
      · exact h
      · exact steady_abortRun h
    · exact h

theorem goes_execDeadlockDetect (h : Steady s₀ s) : Goes s₀ (execDeadlockDetect s) := by
  unfold execDeadlockDetect
  refine goes_next ?_
  split
  · exact h
  · split
    · split
      · exact steady_raiseFault h
      · exact h
    · exact h

/-! ### VEC instructions -/

theorem goes_vecOp {i : Issue} {c : Common} {op : BitVec 4} {f : VecF} (h : Steady s₀ s) : Goes s₀ (vecOp i c op f s) := by
  unfold vecOp
  refine goes_issue (fun _ _ _ h1 => ?_) h
  dsimp only
  split
  · exact steady_raiseFault h1
  · refine steady_advance (steady_doneAt (steady_flagRows (steady_setRun ?_)))
    split
    · exact steady_foldl (fun _ _ h1 => steady_sramStore h1) (steady_sramEcc h1)
    · exact steady_setRun (steady_sramEcc h1)

theorem goes_execAdd {i : Issue} {c : Common} {f : VecF} (h : Steady s₀ s) : Goes s₀ (execAdd i c f s) := goes_vecOp h
theorem goes_execSub {i : Issue} {c : Common} {f : VecF} (h : Steady s₀ s) : Goes s₀ (execSub i c f s) := goes_vecOp h
theorem goes_execMul {i : Issue} {c : Common} {f : VecF} (h : Steady s₀ s) : Goes s₀ (execMul i c f s) := goes_vecOp h
theorem goes_execFma {i : Issue} {c : Common} {f : VecF} (h : Steady s₀ s) : Goes s₀ (execFma i c f s) := goes_vecOp h
theorem goes_execMin {i : Issue} {c : Common} {f : VecF} (h : Steady s₀ s) : Goes s₀ (execMin i c f s) := goes_vecOp h
theorem goes_execMax {i : Issue} {c : Common} {f : VecF} (h : Steady s₀ s) : Goes s₀ (execMax i c f s) := goes_vecOp h
theorem goes_execCmp {i : Issue} {c : Common} {f : VecF} (h : Steady s₀ s) : Goes s₀ (execCmp i c f s) := goes_vecOp h
theorem goes_execSel {i : Issue} {c : Common} {f : VecF} (h : Steady s₀ s) : Goes s₀ (execSel i c f s) := goes_vecOp h
theorem goes_execUnary {i : Issue} {c : Common} {f : VecF} (h : Steady s₀ s) : Goes s₀ (execUnary i c f s) := goes_vecOp h
theorem goes_execCvt {i : Issue} {c : Common} {f : VecF} (h : Steady s₀ s) : Goes s₀ (execCvt i c f s) := goes_vecOp h
theorem goes_execPbdec {i : Issue} {c : Common} {f : VecF} (h : Steady s₀ s) : Goes s₀ (execPbdec i c f s) := goes_vecOp h
theorem goes_execPbenc {i : Issue} {c : Common} {f : VecF} (h : Steady s₀ s) : Goes s₀ (execPbenc i c f s) := goes_vecOp h
theorem goes_execRsqrt {i : Issue} {c : Common} {f : VecF} (h : Steady s₀ s) : Goes s₀ (execRsqrt i c f s) := goes_vecOp h
theorem goes_execDivsqrt {i : Issue} {c : Common} {f : VecF} (h : Steady s₀ s) : Goes s₀ (execDivsqrt i c f s) := goes_vecOp h
theorem goes_execFunc {i : Issue} {c : Common} {f : VecF} (h : Steady s₀ s) : Goes s₀ (execFunc i c f s) := goes_vecOp h

end Sys2Proof.Machine
end

section
/-! SUPPORT. Every command and event answers a next state but for the unlocked test access port's services (R474), and every meaning is steady. -/

namespace Sys2Proof.Machine

/-- While TAP is locked, or where no service is asked for, the test access port does nothing (R474). -/
theorem execTestAccessPort_next {trstLow tmsMoved serve : Bool} {s t : State} (h : execTestAccessPort trstLow tmsMoved serve s = .next t) :
    t = s := by
  unfold execTestAccessPort at h
  split at h
  · cases h
  · cases h; rfl

theorem execTestAccessPort_locked {trstLow tmsMoved serve : Bool} {s : State} (h : s.glaren.unlocked.getLsbD 1 = false) :
    execTestAccessPort trstLow tmsMoved serve s = .next s := by
  simp only [execTestAccessPort, h, Bool.false_eq_true, false_and, if_false]

theorem goes_exec {c : Instr} {s : State} (hc : ∀ a b d, c ≠ .testAccessPort a b d) : Goes s (exec c s) :=
  match c with
  | .nop .. => goes_execNop (steady_refl s)
  | .phase .. => goes_execPhase (steady_refl s)
  | .plyRun .. => goes_execPlyRun (steady_refl s)
  | .bookLoad .. => goes_execBookLoad (steady_refl s)
  | .bookLoadDone .. => goes_execBookLoadDone (steady_refl s)
  | .place .. => goes_execPlace (steady_refl s)
  | .objectMove .. => goes_execObjectMove (steady_refl s)
  | .objectMoveDone .. => goes_execObjectMoveDone (steady_refl s)
  | .flashObjCreate .. => goes_execFlashObjCreate (steady_refl s)
  | .flashObjDelete .. => goes_execFlashObjDelete (steady_refl s)
  | .hostCopy .. => goes_execHostCopy (steady_refl s)
  | .hostCopyDone .. => goes_execHostCopyDone (steady_refl s)
  | .castle .. => goes_execCastle (steady_refl s)
  | .castleStart => goes_execCastleStart (steady_refl s)
  | .castleChunk .. => goes_execCastleChunk (steady_refl s)
  | .collective .. => goes_execCollective (steady_refl s)
  | .collEligibleStart => goes_execCollEligibleStart (steady_refl s)
  | .collDigest .. => goes_execCollDigest (steady_refl s)
  | .collMessage .. => goes_execCollMessage (steady_refl s)
  | .collGrant .. => goes_execCollGrant (steady_refl s)
  | .collAbort .. => goes_execCollAbort (steady_refl s)
  | .collStallTimeout .. => goes_execCollStallTimeout (steady_refl s)
  | .routeSet .. => goes_execRouteSet (steady_refl s)
  | .positionSet .. => goes_execPositionSet (steady_refl s)
  | .positionSetApply => goes_execPositionSetApply (steady_refl s)
  | .groupSet .. => goes_execGroupSet (steady_refl s)
  | .checkpoint .. => goes_execCheckpoint (steady_refl s)
  | .checkpointCommit => goes_execCheckpointCommit (steady_refl s)
  | .buddyCkptData .. => goes_execBuddyCkptData (steady_refl s)
  | .restore .. => goes_execRestore (steady_refl s)
  | .restoreDone .. => goes_execRestoreDone (steady_refl s)
  | .peerCkptRead .. => goes_execPeerCkptRead (steady_refl s)
  | .snapshot .. => goes_execSnapshot (steady_refl s)
  | .snapshotDurable .. => goes_execSnapshotDurable (steady_refl s)
  | .snapshotExport .. => goes_execSnapshotExport (steady_refl s)
  | .admitEntry .. => goes_execAdmitEntry (steady_refl s)
  | .cancel .. => goes_execCancel (steady_refl s)
  | .pageMove .. => goes_execPageMove (steady_refl s)
  | .pageMoveDone .. => goes_execPageMoveDone (steady_refl s)
  | .commandTake .. => goes_execCommandTake (steady_refl s)
  | .sbAppend .. => goes_execSbAppend (steady_refl s)
  | .updateBegin .. => goes_execUpdateBegin (steady_refl s)
  | .updateData .. => goes_execUpdateData (steady_refl s)
  | .updateEnd .. => goes_execUpdateEnd (steady_refl s)
  | .applyStart .. => goes_execApplyStart (steady_refl s)
  | .apply .. => goes_execApply (steady_refl s)
  | .recoveryExit .. => goes_execRecoveryExit (steady_refl s)
  | .engineService .. => goes_execEngineService (steady_refl s)
  | .debugChallenge .. => goes_execDebugChallenge (steady_refl s)
  | .debugResponse .. => goes_execDebugResponse (steady_refl s)
  | .debugLock .. => goes_execDebugLock (steady_refl s)
  | .securityCommit .. => goes_execSecurityCommit (steady_refl s)
  | .settingsRead .. => goes_execSettingsRead (steady_refl s)
  | .identity => goes_execIdentity (steady_refl s)
  | .coordinates .. => goes_execCoordinates (steady_refl s)
  | .sensors .. => goes_execSensors (steady_refl s)
  | .alert => goes_execAlert (steady_refl s)
  | .scorebook .. => goes_execScorebook (steady_refl s)
  | .sbNext => goes_execSbNext (steady_refl s)
  | .doeDiscovery .. => goes_execDoeDiscovery (steady_refl s)
  | .attestationReport .. => goes_execAttestationReport (steady_refl s)
  | .reportSigned => goes_execReportSigned (steady_refl s)
  | .deviceCertificate .. => goes_execDeviceCertificate (steady_refl s)
  | .doeAbort .. => goes_execDoeAbort (steady_refl s)
  | .moveAcquire .. => goes_execMoveAcquire (steady_refl s)
  | .moveRenew .. => goes_execMoveRenew (steady_refl s)
  | .moveRelease .. => goes_execMoveRelease (steady_refl s)
  | .moveTake .. => goes_execMoveTake (steady_refl s)
  | .stepNumberWrite .. => goes_execStepNumberWrite (steady_refl s)
  | .flagClear .. => goes_execFlagClear (steady_refl s)
  | .counterClear .. => goes_execCounterClear (steady_refl s)
  | .faultRecordClear .. => goes_execFaultRecordClear (steady_refl s)
  | .budgetSet .. => goes_execBudgetSet (steady_refl s)
  | .refillConfigWrite .. => goes_execRefillConfigWrite (steady_refl s)
  | .pageConfigWrite .. => goes_execPageConfigWrite (steady_refl s)
  | .markAdd .. => goes_execMarkAdd (steady_refl s)
  | .markNotifyArm .. => goes_execMarkNotifyArm (steady_refl s)
  | .qEnable .. => goes_execQEnable (steady_refl s)
  | .qFlush .. => goes_execQFlush (steady_refl s)
  | .qOwnerChange .. => goes_execQOwnerChange (steady_refl s)
  | .sqDoorbell .. => goes_execSqDoorbell (steady_refl s)
  | .bar2WindowWrite .. => goes_execBar2WindowWrite (steady_refl s)
  | .bar2Write .. => goes_execBar2Write (steady_refl s)
  | .bar2Read .. => goes_execBar2Read (steady_refl s)
  | .bar2ReadTimeout .. => goes_execBar2ReadTimeout (steady_refl s)
  | .warmResetRequest .. => goes_execWarmResetRequest (steady_refl s)
  | .blockReset .. => goes_execBlockReset (steady_refl s)
  | .blockClockStable .. => goes_execBlockClockStable (steady_refl s)
  | .blockInitDone .. => goes_execBlockInitDone (steady_refl s)
  | .portEnableWrite .. => goes_execPortEnableWrite (steady_refl s)
  | .portEncryptWrite .. => goes_execPortEncryptWrite (steady_refl s)
  | .twinResume .. => goes_execTwinResume (steady_refl s)
  | .replayUntilWrite .. => goes_execReplayUntilWrite (steady_refl s)
  | .debugCtrlArm .. => goes_execDebugCtrlArm (steady_refl s)
  | .pipSelectWrite .. => goes_execPipSelectWrite (steady_refl s)
  | .readClear .. => goes_execReadClear (steady_refl s)
  | .reg64HalfAccess .. => goes_execReg64HalfAccess (steady_refl s)
  | .registerWrite .. => goes_execRegisterWrite (steady_refl s)
  | .boundary => goes_execBoundary (steady_refl s)
  | .idleBoundaryTimeout => goes_execIdleBoundaryTimeout (steady_refl s)
  | .stepEnd => goes_execStepEnd (steady_refl s)
  | .plyAbort => goes_execPlyAbort (steady_refl s)
  | .deadlockDetect => goes_execDeadlockDetect (steady_refl s)
  | .treePartnerTimeout .. => goes_execTreePartnerTimeout (steady_refl s)
  | .waitTimeout .. => goes_execWaitTimeout (steady_refl s)
  | .govConfirm => goes_execGovConfirm (steady_refl s)
  | .govConfirmTimeout => goes_execGovConfirmTimeout (steady_refl s)
  | .signalArrival .. => goes_execSignalArrival (steady_refl s)
  | .externalCompletion .. => goes_execExternalCompletion (steady_refl s)
  | .mmaBankComplete .. => goes_execMmaBankComplete (steady_refl s)
  | .lda .. => goes_execLda (steady_refl s)
  | .ldb .. => goes_execLdb (steady_refl s)
  | .ldat .. => goes_execLdat (steady_refl s)
  | .ldbt .. => goes_execLdbt (steady_refl s)
  | .accld .. => goes_execAccld (steady_refl s)
  | .spill .. => goes_execSpill (steady_refl s)
  | .fill .. => goes_execFill (steady_refl s)
  | .parld .. => goes_execParld (steady_refl s)
  | .gradst .. => goes_execGradst (steady_refl s)
  | .copy .. => goes_execCopy (steady_refl s)
  | .streamIn .. => goes_execStreamIn (steady_refl s)
  | .streamOut .. => goes_execStreamOut (steady_refl s)
  | .xfer .. => goes_execXfer (steady_refl s)
  | .mma .. => goes_execMma (steady_refl s)
  | .lnFwd .. => goes_execLnFwd (steady_refl s)
  | .rmsFwd .. => goes_execRmsFwd (steady_refl s)
  | .smaxFwd .. => goes_execSmaxFwd (steady_refl s)
  | .lse .. => goes_execLse (steady_refl s)
  | .amax .. => goes_execAmax (steady_refl s)
  | .lnBwd .. => goes_execLnBwd (steady_refl s)
  | .rmsBwd .. => goes_execRmsBwd (steady_refl s)
  | .smaxBwd .. => goes_execSmaxBwd (steady_refl s)
  | .gradClear .. => goes_execGradClear (steady_refl s)
  | .add .. => goes_execAdd (steady_refl s)
  | .sub .. => goes_execSub (steady_refl s)
  | .mul .. => goes_execMul (steady_refl s)
  | .fma .. => goes_execFma (steady_refl s)
  | .min .. => goes_execMin (steady_refl s)
  | .max .. => goes_execMax (steady_refl s)
  | .cmp .. => goes_execCmp (steady_refl s)
  | .sel .. => goes_execSel (steady_refl s)
  | .unary .. => goes_execUnary (steady_refl s)
  | .cvt .. => goes_execCvt (steady_refl s)
  | .pbdec .. => goes_execPbdec (steady_refl s)
  | .pbenc .. => goes_execPbenc (steady_refl s)
  | .rsqrt .. => goes_execRsqrt (steady_refl s)
  | .divsqrt .. => goes_execDivsqrt (steady_refl s)
  | .func .. => goes_execFunc (steady_refl s)
  | .etree .. => goes_execEtree (steady_refl s)
  | .ctree .. => goes_execCtree (steady_refl s)
  | .dtree .. => goes_execDtree (steady_refl s)
  | .topk .. => goes_execTopk (steady_refl s)
  | .syncAwait .. => goes_execSyncAwait (steady_refl s)
  | .syncSignal .. => goes_execSyncSignal (steady_refl s)
  | .collStart .. => goes_execCollStart (steady_refl s)
  | .lset .. => goes_execLset (steady_refl s)
  | .bnz .. => goes_execBnz (steady_refl s)
  | .jump .. => goes_execJump (steady_refl s)
  | .bvar .. => goes_execBvar (steady_refl s)
  | .seta .. => goes_execSeta (steady_refl s)
  | .adda .. => goes_execAdda (steady_refl s)
  | .ctrlNop .. => goes_execCtrlNop (steady_refl s)
  | .ctrlEnd .. => goes_execCtrlEnd (steady_refl s)
  | .inc .. => goes_execInc (steady_refl s)
  | .stamp .. => goes_execStamp (steady_refl s)
  | .dump .. => goes_execDump (steady_refl s)
  | .streamComplete .. => goes_execStreamComplete (steady_refl s)
  | .frameEdge .. => goes_execFrameEdge (steady_refl s)
  | .memReread .. => goes_execMemReread (steady_refl s)
  | .repairSourceDone .. => goes_execRepairSourceDone (steady_refl s)
  | .repairRequest .. => goes_execRepairRequest (steady_refl s)
  | .repairRewriteDone .. => goes_execRepairRewriteDone (steady_refl s)
  | .correctionRewrite .. => goes_execCorrectionRewrite (steady_refl s)
  | .patrolScrub .. => goes_execPatrolScrub (steady_refl s)
  | .flashCodewordDecode .. => goes_execFlashCodewordDecode (steady_refl s)
  | .flashRelocate .. => goes_execFlashRelocate (steady_refl s)
  | .flashPatrol .. => goes_execFlashPatrol (steady_refl s)
  | .flashLayerReady .. => goes_execFlashLayerReady (steady_refl s)
  | .flitReceive .. => goes_execFlitReceive (steady_refl s)
  | .nakReceive .. => goes_execNakReceive (steady_refl s)
  | .laneFail .. => goes_execLaneFail (steady_refl s)
  | .portTrained .. => goes_execPortTrained (steady_refl s)
  | .portRetrainRetry .. => goes_execPortRetrainRetry (steady_refl s)
  | .hello .. => goes_execHello (steady_refl s)
  | .mgmtQuery .. => goes_execMgmtQuery (steady_refl s)
  | .probe .. => goes_execProbe (steady_refl s)
  | .probeTimeout .. => goes_execProbeTimeout (steady_refl s)
  | .loss .. => goes_execLoss (steady_refl s)
  | .encapsulationKey .. => goes_execEncapsulationKey (steady_refl s)
  | .kemCiphertext .. => goes_execKemCiphertext (steady_refl s)
  | .keySwitch .. => goes_execKeySwitch (steady_refl s)
  | .keyRollover .. => goes_execKeyRollover (steady_refl s)
  | .boundaryRecord .. => goes_execBoundaryRecord (steady_refl s)
  | .splitDetect => goes_execSplitDetect (steady_refl s)
  | .roleQuery .. => goes_execRoleQuery (steady_refl s)
  | .roleAnswer .. => goes_execRoleAnswer (steady_refl s)
  | .roleQueryTimeout .. => goes_execRoleQueryTimeout (steady_refl s)
  | .roleSilenceGrant => goes_execRoleSilenceGrant (steady_refl s)
  | .dealerHeartbeat .. => goes_execDealerHeartbeat (steady_refl s)
  | .watchdogDealer => goes_execWatchdogDealer (steady_refl s)
  | .watchdogGlaren => goes_execWatchdogGlaren (steady_refl s)
  | .glarenSelfReset => goes_execGlarenSelfReset (steady_refl s)
  | .glarenSelfResetEnd => goes_execGlarenSelfResetEnd (steady_refl s)
  | .digestReport .. => goes_execDigestReport (steady_refl s)
  | .logUnitAppend => goes_execLogUnitAppend (steady_refl s)
  | .buddyLogUnit .. => goes_execBuddyLogUnit (steady_refl s)
  | .powerGood => goes_execPowerGood (steady_refl s)
  | .coldStart .. => goes_execColdStart (steady_refl s)
  | .inputLoss => goes_execInputLoss (steady_refl s)
  | .warmNAssert => goes_execWarmNAssert (steady_refl s)
  | .warmNRelease => goes_execWarmNRelease (steady_refl s)
  | .warmReset .. => goes_execWarmReset (steady_refl s)
  | .perstAssert .. => goes_execPerstAssert (steady_refl s)
  | .perstDeassert .. => goes_execPerstDeassert (steady_refl s)
  | .pcieLinkDown .. => goes_execPcieLinkDown (steady_refl s)
  | .pcieLinkTrained .. => goes_execPcieLinkTrained (steady_refl s)
  | .clockMonitorWindow .. => goes_execClockMonitorWindow (steady_refl s)
  | .sensorSample .. => goes_execSensorSample (steady_refl s)
  | .sensorWarnClear .. => goes_execSensorWarnClear (steady_refl s)
  | .peakCapRelease => goes_execPeakCapRelease (steady_refl s)
  | .holdupCheck .. => goes_execHoldupCheck (steady_refl s)
  | .scorebookSummary => goes_execScorebookSummary (steady_refl s)
  | .startTimeout .. => goes_execStartTimeout (steady_refl s)
  | .startRetry => goes_execStartRetry (steady_refl s)
  | .updateForward .. => goes_execUpdateForward (steady_refl s)
  | .updateResult .. => goes_execUpdateResult (steady_refl s)
  | .forwardTimeout => goes_execForwardTimeout (steady_refl s)
  | .applyToken .. => goes_execApplyToken (steady_refl s)
  | .tokenTimeout => goes_execTokenTimeout (steady_refl s)
  | .tokenHolderTimeout => goes_execTokenHolderTimeout (steady_refl s)
  | .blockResetHoldEnd .. => goes_execBlockResetHoldEnd (steady_refl s)
  | .buddyCommitAck .. => goes_execBuddyCommitAck (steady_refl s)
  | .debugChallengeExpiry => goes_execDebugChallengeExpiry (steady_refl s)
  | .castleChunkRerequest .. => goes_execCastleChunkRerequest (steady_refl s)
  | .flitSlot .. => goes_execFlitSlot (steady_refl s)
  | .pcieConfigurationWrite .. => goes_execPcieConfigurationWrite (steady_refl s)
  | .testAccessPort a b d => absurd rfl (hc a b d)

/-- What every meaning leaves alone. -/
theorem steady_exec {c : Instr} {s t : State} (h : exec c s = .next t) : Steady s t := by
  by_cases hc : ∃ a b d, c = .testAccessPort a b d
  · obtain ⟨a, b, d, rfl⟩ := hc
    exact execTestAccessPort_next h ▸ steady_refl s
  · push Not at hc
    obtain ⟨t', ht, hsteady⟩ := goes_exec (s := s) hc
    cases h.symm.trans ht
    exact hsteady

theorem steady_step_memOk {s t : State} (hs : MemOk s) (h : step s = .next t) : MemOk t := by
  unfold step at h
  split at h
  · exact (steady_exec h).memOk hs
  · cases h
    exact (steady_passTick (steady_refl s)).memOk hs

/-- Settles O4: every arm's meaning answers a next state; the test access port's does so while TAP is locked. -/
theorem commandsAnswerNextState : Obligations.CommandsAnswerNextState := by
  unfold Obligations.CommandsAnswerNextState
  intro c s
  by_cases hc : ∃ a b d, c = .testAccessPort a b d
  · obtain ⟨a, b, d, rfl⟩ := hc
    cases hlock : s.glaren.unlocked.getLsbD 1 with
    | false => exact .inl ⟨s, execTestAccessPort_locked hlock⟩
    | true => exact .inr ⟨a, b, d, rfl, rfl⟩
  · push Not at hc
    obtain ⟨t, ht, _⟩ := goes_exec (s := s) hc
    exact .inl ⟨t, ht⟩

/-- Settles O3: no operation that a meaning is made of writes the queue of waiting commands. -/
theorem meaningsKeepQueue : Obligations.MeaningsKeepQueue := by
  unfold Obligations.MeaningsKeepQueue
  exact fun _ _ _ h => (steady_exec h).pending

/-- Settles O59: memory changes by stores and by clearing ranges, which keep its canonical form. -/
theorem memoryCanonical : Obligations.MemoryCanonical := by
  unfold Obligations.MemoryCanonical
  exact fun _ _ => steady_step_memOk

/-- Settles O1: the step's definition at a queue that is not empty. -/
theorem stepRunsFrontCommand : Obligations.StepRunsFrontCommand := by
  unfold Obligations.StepRunsFrontCommand
  intro s c rest h
  simp only [step, h]

end Sys2Proof.Machine
end

section
/-! SUPPORT. The checks that every command meets (R395, R397, R408), and COMMAND_TAKE (R396, R399): a descriptor runs the command that its
opcode names; a descriptor that cannot be read, or a record that cannot be written, stops its queue. -/

namespace Sys2Proof.Machine

/-! ### Taking, by its outcome -/

/-- A row that takes a command from an existing queue, as a next state. -/
theorem withUnit_ge {i n : Nat} {s : State} {k : State → State} (h : ¬i < n) : withUnit i n s k = .next s := by
  simp only [withUnit, h, if_false]

/-- A command that R395 keeps in its queue changes Q_STATUS.WAITING alone. -/
theorem takeCmd_of_cannotTake {q : Nat} {h : Hdr} {wide : Bool} {ready : State → Bool} {k : Ticket → State → State} {s : State}
    (hn : canTake s q h = false) :
    takeCmd q h wide ready k s = setQueue q (fun x => { x with waiting := queueOpen s q && !waitOk s h }) s :=
  takeCmd_waits (by simp [hn])

/-- A taken command that ends at once reports its status and leaves everything but the host interface, Glaren and the resets alone. -/
theorem taken_finish {q : Nat} {h : Hdr} {s : State} {st : Byte} (hc : canTake s q h = true) :
    Reported (nextTicket s q h) st 0 s (finish (nextTicket s q h) st (taken q s)) ∧
      (finish (nextTicket s q h) st (taken q s)).tiers = s.tiers ∧ (finish (nextTicket s q h) st (taken q s)).dealer = s.dealer ∧
      (finish (nextTicket s q h) st (taken q s)).unlia = s.unlia :=
  ⟨taken_reported hc, by simp, by simp, by simp⟩

/-- A command that did not succeed leaves every mark as it was (R397). -/
theorem taken_finish_marks {q : Nat} {h : Hdr} {s : State} {st : Byte} (hok : st ≠ Status.ok) (hcan : st ≠ Status.cancelled)
    (hlate : st ≠ Status.lateCancel) : (finish (nextTicket s q h) st (taken q s)).host.marks = s.host.marks := by
  rw [finish, complete_marks_same _ _ _ _ _ (by simp [hok, hcan, hlate])]
  simp

/-! ### NOP -/

theorem taken_finish_queue {q : Nat} {h : Hdr} {s : State} {st : Byte} (hc : canTake s q h = true) :
    queue (finish (nextTicket s q h) st (taken q s)) q =
      { queue s q with sqHead := (queue s q).sqHead + 1, cqTail := (queue s q).cqTail + 1, waiting := false } := by
  have herr : (queue s q).error = false := by
    have := canTake_open hc
    simp [queueOpen] at this
    tauto
  rw [finish_queue, taken_queue]
  have hsize : ¬(queue s q).cqSize = 0#17 := canTake_cqSize hc
  simp [nextTicket, ended, herr, hsize]

theorem taken_finish_queue_other {q k : Nat} {h : Hdr} {s : State} {st : Byte} (hk : k ≠ q) :
    queue (finish (nextTicket s q h) st (taken q s)) k = queue s k := by
  rw [finish_queue, taken_queue]
  simp [nextTicket, Ne.symm hk]

theorem completes_nop {q : Nat} {h : Hdr} {s : State} (ha : accepts s q h false = true) :
    Completes (.nop q h) s (fun t =>
      Reported (nextTicket s q h) Status.ok 0 s t ∧
      (queue t q).sqHead = (queue s q).sqHead + 1 ∧ (queue t q).cqTail = (queue s q).cqTail + 1 ∧
      (queue t q).inFlight = (queue s q).inFlight ∧
      (mark t h.doneMark.toNat).value = (if h.done = true then markSum (mark s h.doneMark.toNat).value 1 else (mark s h.doneMark.toNat).value) ∧
      (∀ m, m ≠ h.doneMark.toNat → mark t m = mark s m) ∧ (∀ k, k ≠ q → queue t k = queue s k) ∧
      t.dealer = s.dealer ∧ t.units = s.units ∧ t.counters = s.counters ∧ t.tiers = s.tiers ∧ t.unlia = s.unlia ∧
      t.conceal = s.conceal ∧ t.resets.startOk = true) := by
  obtain ⟨_, hc, _⟩ := accepts_spec ha
  have hmark (m : Nat) : mark (taken q s) m = mark s m := mark_congr m (by simp)
  refine ⟨_, exec_nop_accepts q h s ha, taken_reported hc, ?_, ?_, ?_, ?_, fun m hm => ?_, fun k hk => taken_finish_queue_other hk, ?_⟩
  · rw [taken_finish_queue hc]
  · rw [taken_finish_queue hc]
  · rw [taken_finish_queue hc]
  · simp [finish, complete_mark_value, hmark, nextTicket]
  · exact (complete_mark_other _ _ _ _ _ m hm).trans (hmark m)
  · simp

/-- Settles O5: NOP by what taking and completing change, the other clauses by the branches of taking a command. -/
theorem commandsMeetCommonChecks : Obligations.CommandsMeetCommonChecks := by
  unfold Obligations.CommandsMeetCommonChecks
  refine ⟨fun q h s ha => completes_nop ha, fun q h s hq hn => ?_, fun q h s hq hc => ?_⟩
  · refine ⟨queueOpen s q && !waitOk s h, ?_⟩
    have hwait {wide : Bool} {ready : State → Bool} {k : Ticket → State → State} :
        withUnit q 256 s (takeCmd q h wide ready k) =
          .next (setQueue q (fun x => { x with waiting := queueOpen s q && !waitOk s h }) s) := by
      rw [withUnit_of_lt hq, takeCmd_of_cannotTake hn]
    exact ⟨fun _ => hwait, fun _ => hwait, fun _ => hwait, fun _ => hwait, fun _ => hwait, fun _ => hwait, fun _ => hwait,
      fun _ _ => hwait, hwait⟩
  · dsimp only
    have htake {k : Ticket → State → State} := (withUnit_of_lt hq s _).trans (congrArg Host.Outcome.next
      (takeCmd_checks (q := q) (h := h) (wide := true) (ready := always) (k := k) hc rfl))
    have hends (st : Byte) := taken_finish (q := q) (h := h) (s := s) (st := st) hc
    refine ⟨fun hf b => ?_, fun hf hno b => ?_, fun hf hown hmove => ?_⟩
    · refine ⟨_, htake.trans (by rw [if_pos hf]), ?_⟩
      obtain ⟨hrep, htiers, hdealer, _⟩ := hends Status.fenced
      exact ⟨hrep, htiers, hdealer⟩
    · refine ⟨_, htake.trans (by rw [if_neg (by simp [hf]), if_pos hno]), ?_⟩
      obtain ⟨hrep, htiers, hdealer, _⟩ := hends Status.notOwner
      exact ⟨hrep, htiers, hdealer, taken_finish_marks (by decide) (by decide) (by decide)⟩
    · have hmoved {k : Ticket → State → State} : withUnit q 256 s (takeCmd q h true always k) =
          .next (finish (nextTicket s q h) Status.notMove (taken q s)) :=
        htake.trans (by rw [if_neg (by simp [hf]), if_neg hown, if_pos ⟨rfl, hmove⟩])
      obtain ⟨hrep, htiers, hdealer, hunlia⟩ := hends Status.notMove
      have hmarks := taken_finish_marks (q := q) (h := h) (s := s) (st := Status.notMove) (by decide) (by decide) (by decide)
      exact ⟨fun _ => ⟨_, hmoved, hrep, htiers, hdealer, hmarks⟩, fun _ => ⟨_, hmoved, hrep, htiers, hdealer, hmarks⟩,
        fun _ _ _ => ⟨_, hmoved, hrep, hunlia, htiers, hmarks⟩⟩

/-! ### COMMAND_TAKE -/

theorem exec_commandTake {q : Nat} {a : HostAnswer} {s : State} (hq : q < 256) :
    exec (.commandTake q a) s = .next (commandTake q a s) := withUnit_of_lt hq _ _

/-- A descriptor of an open queue, its header free of reserved bits, runs the command of its opcode. -/
theorem exec_commandTake_descriptor {q : Nat} {d : List Byte} {s : State} (hq : q < 256) (ho : queueOpen s q = true) (hd : hdrOk d = true) :
    exec (.commandTake q (.descriptor d)) s = .next (takeOpcode q (hdrOf d) d s) := by
  rw [exec_commandTake hq]
  simp only [commandTake, ho, hd, not_true_eq_false, if_false, if_true]

/-- An opcode beyond Table 13.7 completes with BAD_OPCODE (R396). -/
theorem takeOpcode_undefined {q : Nat} {h : Hdr} {d : List Byte} {s : State} (hop : 0x13 ≤ fieldAt d 0 1) :
    takeOpcode q h d s = takeBad q { h with done := false } false Status.badOpcode s := by
  suffices ∀ k, k = takeOpcode q h d → k s = takeBad q { h with done := false } false Status.badOpcode s from this _ rfl
  unfold takeOpcode
  split <;> rintro _ rfl
  case h_20 => rfl
  all_goals omega

/-- An event leaves every queue alone. -/
theorem queue_raiseEventAt (p : Port) (n k : Nat) (s : State) : queue (raiseEventAt p n s) k = queue s k := by
  unfold raiseEventAt
  dsimp only
  split
  · exact queue_congr k (by simp)
  · rfl

/-- A queue that stops shows its error and cause, and its owner's port hears of it (R399). -/
theorem stopQueue_spec (q cause : Nat) (s : State) :
    (queue (stopQueue q cause s) q).error = true ∧ (queue (stopQueue q cause s) q).cause = BitVec.ofNat 3 cause ∧
      (queue (stopQueue q cause s) q).sqHead = (queue s q).sqHead ∧
      (portSt (stopQueue q cause s) (queue s q).owner.port).events.getLsbD Event.queueError = true ∧
      (stopQueue q cause s).dealer = s.dealer ∧ (stopQueue q cause s).tiers = s.tiers := by
  have hqueue : queue (stopQueue q cause s) q = { queue s q with error := true, cause := BitVec.ofNat 3 cause } :=
    (queue_raiseEventAt _ _ _ _).trans (by simp)
  rw [hqueue]
  refine ⟨rfl, rfl, rfl, ?_, ?_, ?_⟩
  · simp [stopQueue, portSt_raiseEventAt, Event.queueError]
  · simp [stopQueue, raiseEventAt_frame]
  · simp [stopQueue, raiseEventAt_frame]

/-- Settles O6: every defined opcode is an arm of `takeOpcode`, which is the meaning of its command. -/
theorem commandTakeReadsDescriptor : Obligations.CommandTakeReadsDescriptor := by
  unfold Obligations.CommandTakeReadsDescriptor
  intro q d s hq ho hd
  have harm {k : State → State} (h : takeOpcode q (hdrOf d) d = k) :
      exec (.commandTake q (.descriptor d)) s = withUnit q 256 s k := by
    rw [exec_commandTake_descriptor hq ho hd, withUnit_of_lt hq, h]
  have herr : (queue s q).error = false := by
    simp only [queueOpen, Bool.and_eq_true, Bool.not_eq_true'] at ho
    tauto
  refine ⟨fun h => harm ?_, fun h => harm ?_, fun h => harm ?_, fun h => harm ?_, fun h => harm ?_, fun h => harm ?_, fun h h1 => harm ?_,
    fun h h1 => harm ?_, fun h => harm ?_, fun h => harm ?_, fun h => harm ?_, fun h => harm ?_, fun h => harm ?_, fun h => harm ?_,
    fun h => harm ?_, fun h => harm ?_, fun h => harm ?_, fun h => harm ?_, fun h => harm ?_, fun h => harm ?_, fun hop ha => ?_, ?_, ?_⟩
  case refine_7 => simp only [takeOpcode, h, takeFlashObj, h1, if_true]
  case refine_8 => simp only [takeOpcode, h, takeFlashObj, h1, one_ne_zero, if_false, if_true]
  case refine_21 =>
    refine ⟨_, (exec_commandTake_descriptor hq ho hd).trans (congrArg _ ((takeOpcode_undefined hop).trans (takeCmd_accepts ha rfl))), ?_⟩
    obtain ⟨hrep, htiers, hdealer, _⟩ := taken_finish (st := Status.badOpcode) (accepts_spec ha).2.1
    exact ⟨hrep, hdealer, htiers⟩
  case refine_22 =>
    refine ⟨stopQueue q 2 s, (exec_commandTake hq).trans (by simp only [commandTake, ho, if_true]), ?_⟩
    exact stopQueue_spec q 2 s
  case refine_23 =>
    refine ⟨stopQueue q 3 s, (exec_commandTake hq).trans (by simp only [commandTake, herr, Bool.false_eq_true, if_false]), ?_⟩
    exact stopQueue_spec q 3 s
  all_goals simp only [takeOpcode, h]

end Sys2Proof.Machine
end

section
/-! SUPPORT. The link layer (R323 to R337): what training, keying, flits and slots do to their own port, and that they touch no other. -/

namespace Sys2Proof.Machine

/-! ### What a port reads as -/

theorem uport_congr (k : Nat) {s t : State} (hu : t.unlia.ports = s.unlia.ports) (hg : t.glaren.linkEncrypt = s.glaren.linkEncrypt) :
    uport t k = uport s k := by
  simp only [uport, hu, hg]

@[simp] theorem uport_emit (e : Emit) (k : Nat) (s : State) : uport (emit e s) k = uport s k := uport_congr k (by simp) (by simp)
@[simp] theorem uport_score (a b c : Nat) (x : W64) (d : List Byte) (k : Nat) (s : State) : uport (score a b c x d s) k = uport s k :=
  uport_congr k (by simp) (by simp)

@[simp] theorem uport_free (n k : Nat) (s : State) : uport { s with free := n } k = uport s k := rfl

@[simp] theorem natAt_natSet (t : Tab Nat) (j k v : Nat) : natAt (natSet t j v) k = if j = k then v else natAt t k := by
  simp only [natAt, natSet, Tab.get_set]

/-- Emissions alone change no port. -/
theorem uport_emitAll {α : Type} (e : α → Emit) (l : List α) (k : Nat) (s : State) :
    uport (l.foldl (fun s p => emit (e p) s) s) k = uport s k :=
  foldl_keeps (fun s => uport s k) (fun s _ => uport_emit _ k s) l s

theorem dealer_emitAll {α : Type} (e : α → Emit) (l : List α) (s : State) : (l.foldl (fun s p => emit (e p) s) s).dealer = s.dealer :=
  foldl_keeps State.dealer (fun s p => show (emit (e p) s).dealer = s.dealer by simp) l s

/-! ### Training -/

theorem uport_linkDown (u : Nat) (s : State) :
    uport (linkDown u s) u =
        { linkDrop .training (uport s u) with probing := if (uport s u).peerValid then some s.tick else (uport s u).probing } ∧
      (∀ w, w ≠ u → uport (linkDown u s) w = uport s w) ∧ (linkDown u s).dealer = s.dealer := by
  have hport (w : Nat) : uport (linkDown u s) w =
      uport (setUPort u (fun x => { linkDrop .training x with probing := if x.peerValid then some s.tick else x.probing }) s) w := by
    unfold linkDown
    dsimp only
    split
    · exact uport_emitAll _ _ w _
    · rfl
  refine ⟨?_, fun w hw => ?_, ?_⟩
  · rw [hport, uport_setUPort, if_pos rfl]
  · rw [hport, uport_setUPort, if_neg (Ne.symm hw)]
  · unfold linkDown
    dsimp only
    split
    · exact dealer_emitAll _ _ _
    · rfl

theorem completes_portTrained {u : Nat} {s : State} (hu : u < 16) (hm : mayLink s u = true)
    (hst : (uport s u).state = .down ∨ (uport s u).state = .training) (reversed full peer : Bool) :
    Completes (.portTrained u reversed { full := full, peerEncrypt := peer }) s (fun t =>
      (uport t u).state = (if (uport s u).encrypt || peer then .keying else .up) ∧
      (uport t u).refused = decide ((uport s u).encrypt ≠ peer) ∧ (uport t u).reversed = reversed ∧
      (∀ w, w ≠ u → uport t w = uport s w) ∧ t.unlia.routes = s.unlia.routes ∧
      t.out = s.out ++ [.mgmtPort u Msg.hello (helloBytes s u)] ∧ t.dealer = s.dealer) := by
  have hgo : ¬(¬mayLink s u = true ∨ (uport s u).state ≠ .down ∧ (uport s u).state ≠ .training) := by
    rintro (h | ⟨h1, h2⟩)
    · exact h hm
    · exact hst.elim h1 h2
  let saved := { s with glaren := { s.glaren with
    coeffs := Tab.set (fun _ => false) s.glaren.coeffs u true, settingsSeq := s.glaren.settingsSeq + 1 } }
  let trained (x : UPort) : UPort :=
    { x with state := if x.encrypt ∨ peer then .keying else .up, refused := decide (x.encrypt ≠ peer), reversed := reversed }
  have hend (s1 : State) (h1 : s1 = saved ∨ s1 = s) :
      (∀ w, uport s1 w = uport s w) ∧ s1.unlia = s.unlia ∧ s1.out = s.out ∧ s1.dealer = s.dealer ∧
        helloBytes (setUPort u trained s1) u = helloBytes s u := by
    rcases h1 with rfl | rfl
    · exact ⟨fun _ => rfl, rfl, rfl, rfl, rfl⟩
    · exact ⟨fun _ => rfl, rfl, rfl, rfl, rfl⟩
  obtain ⟨s1, hs1, hrun⟩ : ∃ s1, (s1 = saved ∨ s1 = s) ∧
      portTrained u reversed full peer s = sendHello u (setUPort u trained s1) := by
    refine ⟨if full ∨ ¬Tab.get (fun _ => false) s.glaren.coeffs u then saved else s, ?_, if_neg hgo⟩
    split
    · exact .inl rfl
    · exact .inr rfl
  obtain ⟨hports, hunlia, hout, hdealer, hhello⟩ := hend s1 hs1
  refine ⟨_, (withUnit_of_lt hu _ _).trans (congrArg _ hrun), ?_⟩
  refine ⟨?_, ?_, ?_, fun w hw => ?_, ?_, ?_, ?_⟩
  · simp [sendHello, hports, trained]
  · simp [sendHello, hports, trained]
  · simp [sendHello, trained]
  · simp [sendHello, hports, Ne.symm hw]
  · simp [sendHello, hunlia]
  · rw [sendHello, hhello]; exact congrArg (· ++ _) hout
  · simp [sendHello, hdealer]

theorem completes_portRetrainRetry {u : Nat} {s : State} (hu : u < 16) (hm : mayLink s u = true) (hst : (uport s u).state = .down) :
    Completes (.portRetrainRetry u) s (fun t =>
      (uport t u).state = .training ∧ (∀ w, w ≠ u → uport t w = uport s w) ∧ t.dealer = s.dealer ∧ t.out = s.out) := by
  refine ⟨setUPort u (fun x => { x with state := .training }) s, (withUnit_of_lt hu _ _).trans (congrArg _ (if_pos ⟨hst, hm⟩)), ?_⟩
  exact ⟨by simp, fun w hw => by simp [Ne.symm hw], rfl, rfl⟩

theorem completes_laneFail {u : Nat} {s : State} (hu : u < 16) (hon : linkOn (uport s u) = true) :
    Completes (.laneFail u) s (fun t =>
      (uport t u).state = .training ∧ (uport t u).replay = [] ∧ (uport t u).txKey = [] ∧
      (uport t u).downCount = (uport s u).downCount + 1 ∧ (∀ w, w ≠ u → uport t w = uport s w) ∧ t.dealer = s.dealer) := by
  have hup : (uport s u).state = .up ∨ (uport s u).state = .keying := by simpa [linkOn] using hon
  obtain ⟨hport, hothers, hdealer⟩ := uport_linkDown u s
  refine ⟨linkDown u s, (withUnit_of_lt hu _ _).trans (congrArg _ (if_pos hon)), ?_⟩
  refine ⟨?_, ?_, ?_, ?_, hothers, hdealer⟩
  · rw [hport]; rfl
  · rw [hport]; rfl
  · rw [hport]; rfl
  · rw [hport]; simp [linkDrop, hup]

theorem exec_laneFail_off {u : Nat} {s : State} (hu : u < 16) (hoff : linkOn (uport s u) = false) : exec (.laneFail u) s = .next s :=
  (withUnit_of_lt hu _ _).trans (congrArg _ (if_neg (by simp [hoff])))

theorem sendKemKey_plain {u : Nat} {s : State} (h : (uport s u).encrypt = false) : sendKemKey u s = s := by
  simp [sendKemKey, h]

theorem completes_hello {u : Nat} {s : State} (hu : u < 16) (hon : linkOn (uport s u) = true) (hplain : (uport s u).encrypt = false)
    (node : BitVec 15) (port : BitVec 4) :
    Completes (.hello u node port) s (fun t =>
      (uport t u).peerNode = node ∧ (uport t u).peerPort = port ∧ (uport t u).peerValid = decide ((uport s u).state = .up) ∧
      (uport t u).probing = none ∧ (∀ w, w ≠ u → uport t w = uport s w) ∧ t.out = s.out ∧ t.dealer = s.dealer) := by
  refine ⟨_, withUnit_of_lt hu _ _, ?_⟩
  simp only [hello, hon, not_true_eq_false, if_false]
  rw [sendKemKey_plain (by simp [hplain])]
  exact ⟨by simp, by simp, by simp, by simp, fun w hw => by simp [Ne.symm hw], rfl, rfl⟩

/-! ### Keys -/

theorem uport_refuseKeys (u w : Nat) (s : State) :
    uport (refuseKeys u s) w = if u = w then { uport s w with state := .keying, refused := true } else uport s w := by
  simp [refuseKeys]

theorem uport_pendKeys (u : Nat) (secret : List Byte) (s : State) :
    (uport (pendKeys u secret s) u).state = (uport s u).state ∧ (uport (pendKeys u secret s) u).refused = (uport s u).refused ∧
      (uport (pendKeys u secret s) u).kemId = (uport s u).kemId ∧ (uport (pendKeys u secret s) u).sendSwitch = true ∧
      (∀ w, w ≠ u → uport (pendKeys u secret s) w = uport s w) := by
  refine ⟨?_, ?_, ?_, ?_, fun w hw => ?_⟩
  · simp [pendKeys]
  · simp [pendKeys]
  · simp [pendKeys]
  · simp [pendKeys]
  · simp [pendKeys, Ne.symm hw]

/-- ENCAPSULATION_KEY at an end that is not to encrypt (R337). -/
theorem completes_encapsulationKey_plain {u : Nat} {s : State} (hu : u < 16) (hon : linkOn (uport s u) = true)
    (hplain : (uport s u).encrypt = false) (a b c d : List Byte) :
    Completes (.encapsulationKey u a b c d) s (fun t =>
      (uport t u).state = .keying ∧ (uport t u).refused = true ∧ (∀ w, w ≠ u → uport t w = uport s w) ∧ t.out = s.out ∧
      t.dealer = s.dealer) := by
  refine ⟨refuseKeys u s, ?_, ?_⟩
  · refine (withUnit_of_lt hu _ _).trans ?_
    simp [encapsulationKey, hon, hplain]
  · exact ⟨by simp [uport_refuseKeys], by simp [uport_refuseKeys], fun w hw => by simp [uport_refuseKeys, Ne.symm hw], rfl, rfl⟩

/-- ENCAPSULATION_KEY at the higher end of a port that is to encrypt (R335 step 2). -/
theorem completes_encapsulationKey_keying {u : Nat} {s : State} (hu : u < 16) (hst : (uport s u).state = .keying)
    (henc : (uport s u).encrypt = true) (hhigh : (uport s u).peerNode < s.unlia.nodeId) (cert pk key sig : List Byte) :
    Completes (.encapsulationKey u cert pk key sig) s (fun t =>
      (∀ w, w ≠ u → uport t w = uport s w) ∧ t.dealer = s.dealer ∧ (uport t u).state = .keying ∧
      ((certOk cert pk && Config.slhVerify pk key sig) = true →
        (uport t u).sendSwitch = true ∧ (uport t u).refused = (uport s u).refused) ∧
      ((certOk cert pk && Config.slhVerify pk key sig) = false → (uport t u).refused = true ∧ t.out = s.out)) := by
  have hlink : linkOn (uport s u) = true := by simp [linkOn, hst]
  have hlow : ¬s.unlia.nodeId ≤ (uport s u).peerNode := BitVec.not_le.mpr hhigh
  refine ⟨_, withUnit_of_lt hu _ _, ?_⟩
  simp only [encapsulationKey, hlink, henc, hst, hlow, not_true_eq_false, if_false, ne_eq, or_self]
  split
  next hok =>
    obtain ⟨hstate, hrefused, -, hswitch, hothers⟩ := uport_pendKeys u (Config.kemEncaps key s.free).2 { s with free := s.free + 1 }
    refine ⟨fun w hw => ?_, ?_, ?_, fun _ => ⟨?_, ?_⟩, fun h => ?_⟩
    · rw [uport_emit]; exact hothers w hw
    · simp [pendKeys]
    · rw [uport_emit, hstate]; exact hst
    · rw [uport_emit, hswitch]
    · rw [uport_emit, hrefused]; rfl
    · simp [hok] at h
  next hbad =>
    refine ⟨fun w hw => ?_, rfl, ?_, fun h => ?_, fun _ => ⟨?_, rfl⟩⟩
    · simp [uport_refuseKeys, Ne.symm hw]
    · simp [uport_refuseKeys]
    · exact absurd (by simpa using h) hbad
    · simp [uport_refuseKeys]

/-- KEM_CIPHERTEXT at the lower end (R335 step 3). -/
theorem completes_kemCiphertext {u : Nat} {s : State} (hu : u < 16) (hst : (uport s u).state = .keying)
    (hkem : (uport s u).kemId.isSome = true) (cert pk ct sig : List Byte) :
    Completes (.kemCiphertext u cert pk ct sig) s (fun t =>
      (∀ w, w ≠ u → uport t w = uport s w) ∧ t.dealer = s.dealer ∧ t.out = s.out ∧ (uport t u).state = .keying ∧
      ((certOk cert pk && Config.slhVerify pk ct sig) = true → (uport t u).sendSwitch = true ∧ (uport t u).kemId = none) ∧
      ((certOk cert pk && Config.slhVerify pk ct sig) = false → (uport t u).refused = true)) := by
  obtain ⟨n, hn⟩ := Option.isSome_iff_exists.mp hkem
  refine ⟨_, withUnit_of_lt hu _ _, ?_⟩
  simp only [kemCiphertext, hn, hst, ne_eq, not_true_eq_false, if_false]
  split
  next hok =>
    obtain ⟨hstate, -, hid, hswitch, hothers⟩ :=
      uport_pendKeys u (Config.kemDecaps n ct) (setUPort u (fun x => { x with kemId := none }) s)
    refine ⟨fun w hw => ?_, rfl, rfl, ?_, fun _ => ⟨hswitch, ?_⟩, fun h => ?_⟩
    · rw [hothers w hw, uport_setUPort, if_neg (Ne.symm hw)]
    · rw [hstate, uport_setUPort, if_pos rfl]; exact hst
    · rw [hid, uport_setUPort, if_pos rfl]
    · simp [hok] at h
  next hbad =>
    refine ⟨fun w hw => ?_, rfl, rfl, ?_, fun h => ?_, fun _ => ?_⟩
    · simp [uport_refuseKeys, Ne.symm hw]
    · simp [uport_refuseKeys]
    · exact absurd (by simpa using h) hbad
    · simp [uport_refuseKeys]

/-- What a link field carries touches the credits, the replay buffer and the count of NAKs alone (R325). -/
theorem takeLink_fields (l : LinkField) (x : UPort) :
    takeLink l x = { x with credits := (takeLink l x).credits, replay := (takeLink l x).replay, resend := (takeLink l x).resend,
                            nakCount := (takeLink l x).nakCount } := rfl

theorem uport_keyedUp (u : Nat) (s : State) :
    (uport (keyedUp u s) u =
      if (uport s u).state = .keying ∧ (uport s u).txKey ≠ [] ∧ (uport s u).rxKey ≠ [] then
        { uport s u with state := .up, encrypted := true }
      else uport s u) ∧ (∀ w, w ≠ u → uport (keyedUp u s) w = uport s w) ∧ (keyedUp u s).dealer = s.dealer := by
  unfold keyedUp
  dsimp only
  split
  · exact ⟨by simp [sendHello], fun w hw => by simp [sendHello, Ne.symm hw], by simp [sendHello]⟩
  · exact ⟨rfl, fun _ _ => rfl, rfl⟩

theorem completes_keySwitch {u : Nat} {s : State} (hu : u < 16) (link : LinkField) (hst : (uport s u).state = .keying)
    (hpend : (uport s u).pendRx ≠ []) :
    Completes (.keySwitch { port := u, link := link }) s (fun t =>
      (uport t u).rxKey = (uport s u).pendRx ∧ (uport t u).pendRx = [] ∧ (uport t u).rxKeyIndex = 0 ∧ (uport t u).rxCount = 0 ∧
      (uport t u).state = (if (uport s u).txKey = [] then .keying else .up) ∧ (∀ w, w ≠ u → uport t w = uport s w) ∧
      t.dealer = s.dealer) := by
  have hon : linkOn (uport s u) = true := by simp [linkOn, hst]
  let s1 := setUPort u (takeLink link) s
  let s2 := setUPort u (fun x => { x with rxKey := x.pendRx, pendRx := [], rxKeyIndex := 0, rxCount := 0 }) s1
  have h1 : uport s1 u = takeLink link (uport s u) := by simp [s1]
  have h2 : uport s2 u = { takeLink link (uport s u) with rxKey := (uport s u).pendRx, pendRx := [], rxKeyIndex := 0, rxCount := 0 } := by
    simp only [s2, uport_setUPort, if_true, h1]; rfl
  have hk : (uport s1 u).state = .keying ∧ (uport s1 u).pendRx ≠ [] := by rw [h1]; exact ⟨hst, hpend⟩
  obtain ⟨hport, hothers, hdealer⟩ := uport_keyedUp u s2
  refine ⟨keyedUp u s2, ?_, ?_⟩
  · refine (withUnit_of_lt hu _ _).trans (congrArg _ ?_)
    simp only [keySwitch, hon, not_true_eq_false, if_false]
    exact if_pos hk
  · refine ⟨?_, ?_, ?_, ?_, ?_, fun w hw => ?_, hdealer⟩
    · rw [hport, h2]; split <;> rfl
    · rw [hport, h2]; split <;> rfl
    · rw [hport, h2]; split <;> rfl
    · rw [hport, h2]; split <;> rfl
    · have hst' : (takeLink link (uport s u)).state = .keying := hst
      have htx : (takeLink link (uport s u)).txKey = (uport s u).txKey := rfl
      rw [hport, h2]
      by_cases h : (uport s u).txKey = []
      · simp [hst', htx, h]
      · simp [hst', htx, h, hpend]
    · rw [hothers w hw]; simp [s2, s1, Ne.symm hw]

theorem completes_keyRollover {u : Nat} {s : State} (hu : u < 16) (transmit : Bool) :
    Completes (.keyRollover u transmit) s (fun t => (∀ w, w ≠ u → uport t w = uport s w) ∧ t.out = s.out ∧ t.dealer = s.dealer ∧
      (transmit = true → (uport s u).txKey ≠ [] → ((uport s u).keyIndex.toNat + 1) * 2 ^ 32 ≤ (uport s u).txCount.toNat →
        (uport t u).keyIndex = (uport s u).keyIndex + 1 ∧ (uport t u).txKey = nextKey (uport s u).txKey) ∧
      (transmit = false → (uport s u).rxKey ≠ [] → ((uport s u).rxKeyIndex.toNat + 1) * 2 ^ 32 ≤ (uport s u).rxCount.toNat →
        (uport t u).rxKeyIndex = (uport s u).rxKeyIndex + 1 ∧ (uport t u).rxKey = nextKey (uport s u).rxKey)) := by
  refine ⟨_, withUnit_of_lt hu _ _, fun w hw => by rw [uport_setUPort, if_neg (Ne.symm hw)], rfl, rfl, ?_, ?_⟩
  · rintro rfl hkey hdue
    simp only [uport_setUPort, if_true, rollTx, if_pos (And.intro hkey hdue), and_self]
  · rintro rfl hkey hdue
    simp only [uport_setUPort, if_true, Bool.false_eq_true, if_false, rollRx, if_pos (And.intro hkey hdue), and_self]

/-- Settles O48, by the link state in which each training event and key message finds its port. -/
theorem linkTrainingAndKeys : Obligations.LinkTrainingAndKeys := by
  unfold Obligations.LinkTrainingAndKeys
  refine ⟨fun u s hu => ⟨fun hm hst => completes_portTrained hu hm hst, completes_portRetrainRetry hu, completes_laneFail hu,
    exec_laneFail_off hu, completes_hello hu⟩, fun u s hu => ⟨completes_encapsulationKey_plain hu, completes_encapsulationKey_keying hu,
    completes_kemCiphertext hu, fun link => completes_keySwitch hu link, completes_keyRollover hu⟩⟩

end Sys2Proof.Machine
end

section
/-! SUPPORT. Flits (R325 to R328, R332): what a received flit, a NAK and a slot do to their port; which flit a slot sends; hop counts. -/

namespace Sys2Proof.Machine

/-- A command completes in the state that its meaning answers. -/
theorem Completes.intro {c : Instr} {s t : State} {P : State → Prop} (h : exec c s = .next t) (hp : P t) : Completes c s P := ⟨t, h, hp⟩

/-! ### Received flits -/

theorem linkOn_countFec (a b : Nat) (x : UPort) : linkOn (countFec a b x) = linkOn x := rfl

/-- Rolling the receive key over touches the key and its index alone. -/
theorem rollRx_fields (x : UPort) : rollRx x = { x with rxKey := (rollRx x).rxKey, rxKeyIndex := (rollRx x).rxKeyIndex } := by
  unfold rollRx
  split
  · rfl
  · rfl

theorem rollRx_plain {x : UPort} (h : x.rxKey = []) : rollRx x = x := by simp [rollRx, h]
theorem rollTx_plain {x : UPort} (h : x.txKey = []) : rollTx x = x := by simp [rollTx, h]

/-- The port on which a flit has been counted and its link field taken. -/
def linkRead (r : FlitRead) (x : UPort) : UPort :=
  rollRx (takeLink { ack := (flitOf r.bytes).ack, creditVc := (flitOf r.bytes).creditVc, credits := (flitOf r.bytes).credits }
    (countFec r.corrected r.uncorrectable x))

theorem linkRead_fields (r : FlitRead) (x : UPort) :
    linkRead r x = { countFec r.corrected r.uncorrectable x with
      credits := (linkRead r x).credits, replay := (linkRead r x).replay, resend := (linkRead r x).resend,
      nakCount := (linkRead r x).nakCount, rxKey := (linkRead r x).rxKey, rxKeyIndex := (linkRead r x).rxKeyIndex } := by
  unfold linkRead
  rw [rollRx_fields]
  rfl

theorem takeLink_replay (l : LinkField) (x : UPort) : ∀ f ∈ (takeLink l x).replay, f ∈ x.replay := fun _ hf => List.mem_of_mem_filter hf

theorem takeLink_credits (l : LinkField) (x : UPort) :
    natAt (takeLink l x).credits l.creditVc.toNat = natAt x.credits l.creditVc.toNat - l.credits.toNat := by
  simp [takeLink, takeCredits, ackFlits]

theorem linkRead_replay (r : FlitRead) (x : UPort) : ∀ f ∈ (linkRead r x).replay, f ∈ x.replay := by
  intro f hf
  rw [linkRead, rollRx_fields] at hf
  exact takeLink_replay _ _ f hf

theorem linkRead_credits (r : FlitRead) (x : UPort) :
    natAt (linkRead r x).credits (flitOf r.bytes).creditVc.toNat =
      natAt x.credits (flitOf r.bytes).creditVc.toNat - (flitOf r.bytes).credits.toNat := by
  rw [linkRead, rollRx_fields]
  exact takeLink_credits _ _

/-- The state in which a flit has been counted and its link field taken. -/
def readLink (u : Nat) (r : FlitRead) (s : State) : State :=
  setUPort u (fun x => rollRx (takeLink { ack := (flitOf r.bytes).ack, creditVc := (flitOf r.bytes).creditVc, credits := (flitOf r.bytes).credits } x))
    (setUPort u (countFec r.corrected r.uncorrectable) s)

theorem uport_readLink (u w : Nat) (r : FlitRead) (s : State) :
    uport (readLink u r s) w = if u = w then linkRead r (uport s w) else uport s w := by
  simp only [readLink, uport_setUPort]
  split
  · rfl
  · rfl

section
variable {u : Nat} {s : State} {r : FlitRead}

theorem flitReceive_badCrc (hon : linkOn (uport s u) = true) (hcrc : flitCrcOk r.bytes = false) :
    flitReceive u r s =
      setUPort u (fun x => { x with crcErrors := x.crcErrors + 1, sendNak := true }) (setUPort u (countFec r.corrected r.uncorrectable) s) := by
  simp only [flitReceive, uport_setUPort, if_true, linkOn_countFec, hon, hcrc, not_true_eq_false, if_false, Bool.false_eq_true,
    not_false_eq_true]

theorem expected_readLink : (uport (readLink u r s) u).expected = (uport s u).expected := by
  rw [uport_readLink, if_pos rfl, linkRead_fields]; rfl

/-- IDLE, NAK and LINK flits give their link field alone. -/
theorem flitReceive_control (hon : linkOn (uport s u) = true) (hcrc : flitCrcOk r.bytes = true) (hkind : (flitOf r.bytes).kind ≠ 0) :
    flitReceive u r s = readLink u r s := by
  simp only [flitReceive, uport_setUPort, if_true, linkOn_countFec, hon, hcrc, not_true_eq_false, if_false, if_pos hkind]
  rfl

theorem flitReceive_unexpected (hon : linkOn (uport s u) = true) (hcrc : flitCrcOk r.bytes = true) (hkind : (flitOf r.bytes).kind = 0)
    (hseq : (flitOf r.bytes).seq ≠ (uport s u).expected) :
    flitReceive u r s =
      if seqAhead (flitOf r.bytes).seq (uport s u).expected < 512 then setUPort u (fun x => { x with sendNak := true }) (readLink u r s)
      else readLink u r s := by
  have hexp := expected_readLink (u := u) (s := s) (r := r)
  have hlinked : linkOn (uport (setUPort u (countFec r.corrected r.uncorrectable) s) u) = true := by simpa [linkOn_countFec] using hon
  simp only [flitReceive, ← readLink.eq_1, hlinked, hcrc, not_true_eq_false, if_false, hkind, ne_eq, hexp, hseq, not_false_eq_true, if_true]

/-- The expected flit of a port that has no receive key is accepted as it is. -/
theorem flitReceive_expected (hon : linkOn (uport s u) = true) (hcrc : flitCrcOk r.bytes = true) (hkind : (flitOf r.bytes).kind = 0)
    (hseq : (flitOf r.bytes).seq = (uport s u).expected) (hkey : (uport s u).rxKey = []) :
    flitReceive u r s = acceptFlit u (flitOf r.bytes) (readLink u r s) := by
  have hexp := expected_readLink (u := u) (s := s) (r := r)
  have hlinked : linkOn (uport (setUPort u (countFec r.corrected r.uncorrectable) s) u) = true := by simpa [linkOn_countFec] using hon
  have hplain : (uport (readLink u r s) u).rxKey = [] := by
    have hkey' : (takeLink { ack := (flitOf r.bytes).ack, creditVc := (flitOf r.bytes).creditVc, credits := (flitOf r.bytes).credits }
      (countFec r.corrected r.uncorrectable (uport s u))).rxKey = [] := hkey
    rw [uport_readLink, if_pos rfl, linkRead, rollRx_plain hkey']
    exact hkey'
  have hopen : openFlit (uport (readLink u r s) u) (flitOf r.bytes) = some (flitOf r.bytes).payload := by
    simp only [openFlit, hplain, if_true]
  have hdata : ¬(flitOf r.bytes).kind ≠ 0 := not_not_intro hkind
  have hnext : ¬(flitOf r.bytes).seq ≠ (uport s u).expected := not_not_intro hseq
  simp only [flitReceive, ← readLink.eq_1, hlinked, hcrc, not_true_eq_false, if_false, hexp, hdata, hnext, hopen]

/-- The link field touches no count of flits, no queue, no channel. -/
theorem linkRead_kept (r : FlitRead) (x : UPort) :
    (linkRead r x).state = x.state ∧ (linkRead r x).expected = x.expected ∧ (linkRead r x).flitsRx = x.flitsRx ∧
      (linkRead r x).owed = x.owed ∧ (linkRead r x).txQueue = x.txQueue ∧ (linkRead r x).hopLimit = x.hopLimit ∧
      (linkRead r x).fecCorrected = x.fecCorrected + BitVec.ofNat 64 r.corrected ∧
      (linkRead r x).fecUncorrectable = x.fecUncorrectable + BitVec.ofNat 64 r.uncorrectable := by
  rw [linkRead_fields]
  exact ⟨rfl, rfl, rfl, rfl, rfl, rfl, rfl, rfl⟩

theorem linkOn_congr {x y : UPort} (h : y.state = x.state) : linkOn y = linkOn x := by simp only [linkOn, h]

/-- Whether a port carries a channel depends on its own state and the module's coordinates alone. -/
theorem carries_congr {s t : State} (u v : Nat) (hst : (uport t u).state = (uport s u).state) (hn : t.unlia.nodeValid = s.unlia.nodeValid)
    (hr : t.resets = s.resets) : carries t u v = carries s u v := by
  simp only [carries, linkOn, hst, hn, hr]

/-- The state of a port whose expected flit has been counted. -/
def counted (u : Nat) (s : State) : State :=
  setUPort u (fun x => { x with expected := x.expected + 1, flitsRx := x.flitsRx + 1, rxCount := x.rxCount + 1 }) s

/-- A flit of a channel that the port carries is delivered here, or forwarded. -/
theorem acceptFlit_carried {f : Flit} (hc : carries s u f.vc.toNat = true) :
    acceptFlit u f s =
      if ¬s.unlia.nodeValid ∨ f.dst = s.unlia.nodeId then freeBuffer u f.vc.toNat (counted u s) else forward u f (counted u s) := by
  have hc' : carries (counted u s) u f.vc.toNat = true :=
    (carries_congr (s := s) (t := counted u s) u f.vc.toNat (by simp [counted]) rfl rfl).trans hc
  simp only [acceptFlit, ← counted.eq_1, hc', not_true_eq_false, if_false]
  rfl

theorem uport_freeBuffer (u w v : Nat) (s : State) :
    uport (freeBuffer u v s) w =
      if u < 16 ∧ u = w then { uport s w with owed := Tab.mod (fun _ => 0) (uport s w).owed v (· + 1) } else uport s w := by
  unfold freeBuffer
  split
  next h => simp [h]
  next h => simp [h]

theorem freeBuffer_frame (u v : Nat) (s : State) : (freeBuffer u v s).dealer = s.dealer ∧ (freeBuffer u v s).out = s.out := by
  unfold freeBuffer
  split
  · exact ⟨rfl, rfl⟩
  · exact ⟨rfl, rfl⟩

theorem natAt_mod_succ (t : Tab Nat) (k : Nat) : natAt (Tab.mod (fun _ => 0) t k (· + 1)) k = natAt t k + 1 := by
  simp [natAt, Tab.get_mod]

/-! ### FLIT_RECEIVE and NAK_RECEIVE -/

/-- A bad CRC asks for a NAK (R326). -/
theorem completes_flitReceive_badCrc (hu : u < 16) (hon : linkOn (uport s u) = true) (hcrc : flitCrcOk r.bytes = false) :
    Completes (.flitReceive u r) s (fun t =>
      (uport t u).crcErrors = (uport s u).crcErrors + 1 ∧ (uport t u).sendNak = true ∧ (uport t u).expected = (uport s u).expected ∧
      ((uport t u).fecCorrected = (uport s u).fecCorrected + BitVec.ofNat 64 r.corrected ∧
        (uport t u).fecUncorrectable = (uport s u).fecUncorrectable + BitVec.ofNat 64 r.uncorrectable) ∧
      (∀ w, w ≠ u → uport t w = uport s w) ∧ t.out = s.out ∧ t.dealer = s.dealer) := by
  refine ⟨_, (withUnit_of_lt hu _ _).trans (congrArg _ (flitReceive_badCrc hon hcrc)), ?_⟩
  simp only [uport_setUPort, if_true]
  exact ⟨rfl, trivial, rfl, ⟨rfl, rfl⟩, fun w hw => by simp [Ne.symm hw], rfl, rfl⟩

/-- The expected flit is taken and its credit owed (R327). -/
theorem completes_flitReceive_taken (hu : u < 16) (hon : linkOn (uport s u) = true) (hcrc : flitCrcOk r.bytes = true)
    (hkind : (flitOf r.bytes).kind = 0) (hseq : (flitOf r.bytes).seq = (uport s u).expected) (hkey : (uport s u).rxKey = [])
    (hc : carries s u (flitOf r.bytes).vc.toNat = true) (hdst : (flitOf r.bytes).dst = s.unlia.nodeId) :
    Completes (.flitReceive u r) s (fun t =>
      (uport t u).expected = (uport s u).expected + 1 ∧ (uport t u).flitsRx = (uport s u).flitsRx + 1 ∧
      ((uport t u).fecCorrected = (uport s u).fecCorrected + BitVec.ofNat 64 r.corrected ∧
        (uport t u).fecUncorrectable = (uport s u).fecUncorrectable + BitVec.ofNat 64 r.uncorrectable) ∧
      natAt (uport t u).owed (flitOf r.bytes).vc.toNat = natAt (uport s u).owed (flitOf r.bytes).vc.toNat + 1 ∧
      (∀ w, w ≠ u → uport t w = uport s w) ∧ t.dealer = s.dealer) := by
  obtain ⟨hstate, hexp, hrx, howed, -, -, hfec, hfecU⟩ := linkRead_kept r (uport s u)
  have hown : uport (readLink u r s) u = linkRead r (uport s u) := by rw [uport_readLink, if_pos rfl]
  have hc' : carries (readLink u r s) u (flitOf r.bytes).vc.toNat = true :=
    (carries_congr (s := s) (t := readLink u r s) u _ (by rw [hown]; exact hstate) rfl rfl).trans hc
  refine ⟨freeBuffer u (flitOf r.bytes).vc.toNat (counted u (readLink u r s)), (withUnit_of_lt hu _ _).trans (congrArg _ ?_), ?_⟩
  · rw [flitReceive_expected hon hcrc hkind hseq hkey, acceptFlit_carried hc']
    exact if_pos (.inr hdst)
  · simp only [uport_freeBuffer, hu, and_self, if_true, counted, uport_setUPort, hown, hexp, hrx, howed, hfec, hfecU, natAt_mod_succ,
      true_and]
    refine ⟨fun w hw => ?_, (freeBuffer_frame _ _ _).1⟩
    simp [Ne.symm hw, uport_readLink]

/-- Another sequence number is not taken (R326). -/
theorem completes_flitReceive_unexpected (hu : u < 16) (hon : linkOn (uport s u) = true) (hcrc : flitCrcOk r.bytes = true)
    (hkind : (flitOf r.bytes).kind = 0) (hseq : (flitOf r.bytes).seq ≠ (uport s u).expected) :
    Completes (.flitReceive u r) s (fun t =>
      (uport t u).expected = (uport s u).expected ∧ (uport t u).flitsRx = (uport s u).flitsRx ∧
      (((flitOf r.bytes).seq - (uport s u).expected).toNat < 512 → (uport t u).sendNak = true) ∧
      (∀ w, w ≠ u → uport t w = uport s w) ∧ t.out = s.out) := by
  obtain ⟨-, hexp, hrx, -⟩ := linkRead_kept r (uport s u)
  refine ⟨_, (withUnit_of_lt hu _ _).trans (congrArg _ (flitReceive_unexpected hon hcrc hkind hseq)), ?_⟩
  split
  next h => exact ⟨by simp [uport_readLink, hexp], by simp [uport_readLink, hrx], fun _ => by simp,
      fun w hw => by simp [uport_readLink, Ne.symm hw], rfl⟩
  next h => exact ⟨by simp [uport_readLink, hexp], by simp [uport_readLink, hrx], fun hlt => absurd hlt h,
      fun w hw => by simp [uport_readLink, Ne.symm hw], rfl⟩

theorem completes_flitReceive_control (hu : u < 16) (hon : linkOn (uport s u) = true) (hcrc : flitCrcOk r.bytes = true)
    (hkind : (flitOf r.bytes).kind ≠ 0) :
    Completes (.flitReceive u r) s (fun t =>
      (uport t u).expected = (uport s u).expected ∧ (∀ x ∈ (uport t u).replay, x ∈ (uport s u).replay) ∧
      natAt (uport t u).credits (flitOf r.bytes).creditVc.toNat =
        natAt (uport s u).credits (flitOf r.bytes).creditVc.toNat - (flitOf r.bytes).credits.toNat ∧
      (∀ w, w ≠ u → uport t w = uport s w) ∧ t.out = s.out) := by
  have hown : uport (readLink u r s) u = linkRead r (uport s u) := by rw [uport_readLink, if_pos rfl]
  refine Completes.intro ((withUnit_of_lt hu _ _).trans (congrArg _ (flitReceive_control hon hcrc hkind))) ?_
  rw [hown]
  exact ⟨(linkRead_kept r _).2.1, linkRead_replay r _, linkRead_credits r _, fun w hw => by rw [uport_readLink, if_neg (Ne.symm hw)], rfl⟩

/-- The first NAK for a flit resends the replay buffer (R326). -/
theorem completes_nakReceive (hu : u < 16) (hon : linkOn (uport s u) = true) (n : BitVec 10) (v k : BitVec 2)
    (hn : (uport s u).nakSeq ≠ n) :
    Completes (.nakReceive u { ack := n, creditVc := v, credits := k }) s (fun t =>
      (uport t u).retries = (uport s u).retries + 1 ∧ (uport t u).nakSeq = n ∧ (uport t u).resend = (uport t u).replay ∧
      (uport t u).nakCount = 1 ∧ natAt (uport t u).credits v.toNat = natAt (uport s u).credits v.toNat - k.toNat ∧
      (∀ w, w ≠ u → uport t w = uport s w) ∧ t.dealer = s.dealer) := by
  let l : LinkField := { ack := n, creditVc := v, credits := k }
  let nak (x : UPort) : UPort :=
    let y := takeLink l x
    { y with retries := y.retries + 1, nakCount := if y.nakSeq = n then y.nakCount + 1 else 1, nakSeq := n, resend := y.replay }
  have hother : (takeLink l (uport s u)).nakSeq ≠ n := hn
  have hcount : (nak (uport s u)).nakCount = 1 := if_neg hother
  refine Completes.intro (t := setUPort u nak s) ((withUnit_of_lt hu _ _).trans (congrArg _ ?_)) ?_
  · have hfew : ¬16 ≤ (uport (setUPort u nak s) u).nakCount := by rw [uport_setUPort, if_pos rfl, hcount]; decide
    simp only [nakReceive, hon, not_true_eq_false, if_false]
    exact if_neg hfew
  · have hown : uport (setUPort u nak s) u = nak (uport s u) := by rw [uport_setUPort, if_pos rfl]
    rw [hown]
    exact ⟨rfl, rfl, rfl, hcount, takeLink_credits l (uport s u), fun w hw => by rw [uport_setUPort, if_neg (Ne.symm hw)], rfl⟩

end

end Sys2Proof.Machine
end

section
/-! SUPPORT. Flit slots (R328): a slot sends a NAK that is due, a KEY_SWITCH, the replay, a new flit or an IDLE, in this order. -/

namespace Sys2Proof.Machine

/-- With nothing sent since the last slot there is nothing to frame. -/
theorem frameAll_framed {s : State} (h : s.framed = s.out.length) : frameAll s = s := by
  have hs : { s with framed := s.out.length } = s := by rw [← h]
  simp only [frameAll, h, List.drop_length, List.foldl_nil]
  exact hs

/-- A flit leaves with the port's acknowledgement, and nothing else changes. -/
theorem emitFlit_spec (u : Nat) (x : UPort) (f : Flit) (s : State) :
    (emitFlit u x f s).out = s.out ++
        [.flit u (flitBytes { f with ack := x.expected, creditVc := (creditReturn x).1, credits := (creditReturn x).2 })] ∧
      (emitFlit u x f s).dealer = s.dealer ∧ ∀ w, uport (emitFlit u x f s) w = uport s w :=
  ⟨rfl, rfl, fun _ => rfl⟩

theorem emitControl_spec (u : Nat) (kind : BitVec 2) (x : UPort) (s : State) :
    (∃ g, (emitControl u kind x s).out = s.out ++ [.flit u (flitBytes g)] ∧ g.kind = kind ∧ g.ack = x.expected) ∧
      (emitControl u kind x s).dealer = s.dealer ∧ ∀ w, uport (emitControl u kind x s) w = uport s w :=
  ⟨⟨_, rfl, rfl, rfl⟩, rfl, fun _ => rfl⟩

section
variable {u : Nat} {s : State}

theorem completes_flitSlot_off (hu : u < 16) (hframed : s.framed = s.out.length) (hoff : linkOn (uport s u) = false) :
    Completes (.flitSlot u) s (fun t => t.out = s.out ∧ t.unlia = s.unlia ∧ t.dealer = s.dealer) := by
  refine Completes.intro (t := s) ((withUnit_of_lt hu _ _).trans (congrArg _ ?_)) ⟨rfl, rfl, rfl⟩
  simp only [flitSlot, frameAll_framed hframed, hoff, Bool.false_eq_true, not_false_eq_true, if_true]

/-- A NAK that is due goes first. -/
theorem completes_flitSlot_nak (hu : u < 16) (hframed : s.framed = s.out.length) (hon : linkOn (uport s u) = true)
    (hnak : (uport s u).sendNak = true) :
    Completes (.flitSlot u) s (fun t =>
      (∃ g, t.out = s.out ++ [.flit u (flitBytes g)] ∧ g.kind = 2 ∧ g.ack = (uport s u).expected) ∧ (uport t u).sendNak = false ∧
      (uport t u).replay = (uport s u).replay ∧ (∀ w, w ≠ u → uport t w = uport s w) ∧ t.dealer = s.dealer) := by
  let s1 := setUPort u (fun x => payCredits { x with sendNak := false }) s
  have hown : uport s1 u = payCredits { uport s u with sendNak := false } := by rw [uport_setUPort, if_pos rfl]
  obtain ⟨hout, hdealer, hports⟩ := emitControl_spec u 2 (uport s u) s1
  refine Completes.intro (t := emitControl u 2 (uport s u) s1) ((withUnit_of_lt hu _ _).trans (congrArg _ ?_)) ?_
  · simp only [flitSlot, frameAll_framed hframed, hon, not_true_eq_false, if_false, hnak, if_true, s1]
  · rw [hports, hown]
    exact ⟨hout, rfl, rfl, fun w hw => by rw [hports, uport_setUPort, if_neg (Ne.symm hw)], hdealer⟩

/-- Then a KEY_SWITCH, with which the pending key comes into use (R335). -/
theorem completes_flitSlot_switch (hu : u < 16) (hframed : s.framed = s.out.length) (hon : linkOn (uport s u) = true)
    (hnak : (uport s u).sendNak = false) (hswitch : (uport s u).sendSwitch = true) (hrx : (uport s u).rxKey = []) :
    Completes (.flitSlot u) s (fun t =>
      (∃ g, t.out = s.out ++ [.flit u (flitBytes g)] ∧ g.kind = 3 ∧ g.ack = (uport s u).expected) ∧ (uport t u).sendSwitch = false ∧
      (uport t u).txKey = (uport s u).pendTx ∧ (uport t u).keyIndex = 0 ∧ (uport t u).txCount = 0 ∧
      (uport t u).replay = (uport s u).replay ∧ (∀ w, w ≠ u → uport t w = uport s w) ∧ t.dealer = s.dealer) := by
  let switched (x : UPort) : UPort :=
    payCredits { x with sendSwitch := false, txKey := x.pendTx, pendTx := [], keyIndex := 0, txCount := 0 }
  let s1 := setUPort u switched s
  let s2 := emitControl u 3 (uport s u) s1
  obtain ⟨hout, hdealer, hports⟩ := emitControl_spec u 3 (uport s u) s1
  have hown : uport s2 u = switched (uport s u) := by rw [hports, uport_setUPort, if_pos rfl]
  have hwaits : keyedUp u s2 = s2 := by
    have : (uport s2 u).rxKey = [] := by rw [hown]; exact hrx
    simp [keyedUp, this]
  refine Completes.intro (t := s2) ((withUnit_of_lt hu _ _).trans (congrArg _ ?_)) ?_
  · simp only [flitSlot, frameAll_framed hframed, hon, not_true_eq_false, if_false, hnak, Bool.false_eq_true, hswitch, if_true]
    exact hwaits
  · rw [hown]
    exact ⟨hout, rfl, rfl, rfl, rfl, rfl, fun w hw => by rw [hports, uport_setUPort, if_neg (Ne.symm hw)], hdealer⟩

/-- Then the replay. -/
theorem completes_flitSlot_replay (hu : u < 16) (hframed : s.framed = s.out.length) (hon : linkOn (uport s u) = true)
    (hnak : (uport s u).sendNak = false) (hswitch : (uport s u).sendSwitch = false) (f : Flit) (rest : List Flit)
    (hresend : (uport s u).resend = f :: rest) :
    Completes (.flitSlot u) s (fun t =>
      (∃ c n, t.out = s.out ++ [.flit u (flitBytes { f with ack := (uport s u).expected, creditVc := c, credits := n })]) ∧
      (uport t u).resend = rest ∧ (uport t u).flitsTx = (uport s u).flitsTx ∧ (∀ w, w ≠ u → uport t w = uport s w) ∧
      t.dealer = s.dealer) := by
  let s1 := setUPort u (fun x => payCredits { x with resend := rest }) s
  have hown : uport s1 u = payCredits { uport s u with resend := rest } := by rw [uport_setUPort, if_pos rfl]
  obtain ⟨hout, hdealer, hports⟩ := emitFlit_spec u (uport s u) f s1
  refine Completes.intro (t := emitFlit u (uport s u) f s1) ((withUnit_of_lt hu _ _).trans (congrArg _ ?_)) ?_
  · simp only [flitSlot, frameAll_framed hframed, hon, not_true_eq_false, if_false, hnak, Bool.false_eq_true, hswitch, hresend, s1]
  · rw [hports, hown]
    exact ⟨⟨_, _, hout⟩, rfl, rfl, fun w hw => by rw [hports, uport_setUPort, if_neg (Ne.symm hw)], hdealer⟩

theorem flitSlot_data (hframed : s.framed = s.out.length) (hon : linkOn (uport s u) = true) (hnak : (uport s u).sendNak = false)
    (hswitch : (uport s u).sendSwitch = false) (hresend : (uport s u).resend = []) : flitSlot u s = sendData u s := by
  simp only [flitSlot, frameAll_framed hframed, hon, not_true_eq_false, if_false, hnak, Bool.false_eq_true, hswitch, hresend]

/-! ### New flits -/

/-- An empty queue has no flit of any channel. -/
theorem nextInput_empty {x : UPort} (v : Nat) (h : x.txQueue = []) : nextInput x v = none := by
  simp [nextInput, h]

/-- The round robin over the 17 inputs finds the only flit that waits. -/
theorem nextInput_single {x : UPort} {i : Nat} {f : Flit} (h : x.txQueue = [(i, f)]) (hi : i < 17) :
    nextInput x f.vc.toNat = some i := by
  have hturn : i ∈ (List.range 17).map (fun j => (natAt x.served (2 + f.vc.toNat) + j) % 17) := by
    simp only [List.mem_map, List.mem_range]
    exact ⟨(i + 17 - natAt x.served (2 + f.vc.toNat) % 17) % 17, by omega, by omega⟩
  simp only [nextInput, h, List.any_cons, List.any_nil, Bool.or_false, decide_true, Bool.and_true]
  obtain ⟨j, hj⟩ : ∃ j, ((List.range 17).map (fun j => (natAt x.served (2 + f.vc.toNat) + j) % 17)).find? (fun k => decide (i = k)) = some j :=
    Option.isSome_iff_exists.mp (List.find?_isSome.mpr ⟨i, hturn, by simp⟩)
  have : i = j := by simpa using List.find?_some hj
  rw [hj, ← this]

theorem sendData_idle (hqueue : (uport s u).txQueue = []) :
    sendData u s = emitControl u 1 (uport s u) (setUPort u payCredits s) := by
  simp only [sendData, nextInput_empty _ hqueue]
  split
  · rfl
  · rfl

theorem sendData_single {i n : Nat} {f : Flit} {w : W16} (hqueue : (uport s u).txQueue = [(i, f)]) (hi : i < 17)
    (hnext : nextChannel s u 5 (uport s u).roundWeights (natAt (uport s u).served 0 % 4) (natAt (uport s u).served 1) =
      some (f.vc.toNat, n, w)) : sendData u s = sendNew u f.vc.toNat n i w f s := by
  have hfind : (uport s u).txQueue.find? (fun e => decide (e.1 = i) && decide (e.2.vc.toNat = f.vc.toNat)) = some (i, f) := by
    simp [hqueue]
  simp only [sendData, hnext, nextInput_single hqueue hi, hfind]

/-- A flit as the replay buffer of its port keeps it. -/
def numbered (x : UPort) (f : Flit) : Flit := { f with seq := x.nextSeq, ack := 0, creditVc := 0, credits := 0 }

/-- What sending a new flit g without a key leaves on its port. -/
def sentNew (v n i : Nat) (w : W16) (g : Flit) (x : UPort) : UPort :=
  payCredits { x with
    txQueue := takeFlit i v none x.txQueue, replay := x.replay ++ [g], nextSeq := x.nextSeq + 1,
    credits := natSet x.credits v (natAt x.credits v + 1), flitsTx := x.flitsTx + 1, txCount := x.txCount + 1,
    roundWeights := w, served := natSet (natSet (natSet x.served 0 v) 1 (n + 1)) (2 + v) ((i + 1) % 17) }

/-- Without a transmit key the whole flit goes out in clear. -/
theorem sendNew_plain {v n i : Nat} {w : W16} {f : Flit} (hkey : (uport s u).txKey = []) :
    sendNew u v n i w f s = freeBuffer i v (emitFlit u (uport s u) (numbered (uport s u) f)
      (setUPort u (sentNew v n i w (numbered (uport s u) f)) (setUPort u rollTx s))) := by
  have hown : uport (setUPort u rollTx s) u = uport s u := by rw [uport_setUPort, if_pos rfl, rollTx_plain hkey]
  have hrest : flitRest (uport s u) f = none := by simp [flitRest, hkey]
  have hseal (g : Flit) : sealFlit (uport s u) g = g := by simp [sealFlit, hkey]
  simp only [sendNew, hown, hrest, Option.isSome_none, Bool.false_eq_true, if_false, hseal]
  rfl

theorem takeFlit_single (i : Nat) (f : Flit) : takeFlit i f.vc.toNat none [(i, f)] = [] := by simp [takeFlit]

theorem freeBuffer_keeps (i v w : Nat) (s : State) :
    (uport (freeBuffer i v s) w).txQueue = (uport s w).txQueue ∧ (uport (freeBuffer i v s) w).flitsTx = (uport s w).flitsTx ∧
      (uport (freeBuffer i v s) w).nextSeq = (uport s w).nextSeq ∧ (uport (freeBuffer i v s) w).replay = (uport s w).replay ∧
      (uport (freeBuffer i v s) w).credits = (uport s w).credits ∧ (uport (freeBuffer i v s) w).hopLimit = (uport s w).hopLimit := by
  rw [uport_freeBuffer]
  split
  · exact ⟨rfl, rfl, rfl, rfl, rfl, rfl⟩
  · exact ⟨rfl, rfl, rfl, rfl, rfl, rfl⟩

/-- Then the only flit that waits, of a channel whose turn it is. -/
theorem completes_flitSlot_new (hu : u < 16) (hframed : s.framed = s.out.length) (hon : linkOn (uport s u) = true)
    (hnak : (uport s u).sendNak = false) (hswitch : (uport s u).sendSwitch = false) (f : Flit) (i n : Nat) (w : W16)
    (hresend : (uport s u).resend = []) (hqueue : (uport s u).txQueue = [(i, f)]) (hi : i < 17) (hkey : (uport s u).txKey = [])
    (hnext : nextChannel s u 5 (uport s u).roundWeights (natAt (uport s u).served 0 % 4) (natAt (uport s u).served 1) =
      some (f.vc.toNat, n, w)) :
    Completes (.flitSlot u) s (fun t =>
      (∃ c k, t.out = s.out ++ [.flit u (flitBytes { f with
        seq := (uport s u).nextSeq, ack := (uport s u).expected, creditVc := c, credits := k })]) ∧
      (uport t u).txQueue = [] ∧ (uport t u).flitsTx = (uport s u).flitsTx + 1 ∧ (uport t u).nextSeq = (uport s u).nextSeq + 1 ∧
      (uport t u).replay = (uport s u).replay ++ [{ f with seq := (uport s u).nextSeq, ack := 0, creditVc := 0, credits := 0 }] ∧
      natAt (uport t u).credits f.vc.toNat = natAt (uport s u).credits f.vc.toNat + 1 ∧
      (∀ x, x ≠ u → (uport t x).txQueue = (uport s x).txQueue) ∧ t.dealer = s.dealer) := by
  let g := numbered (uport s u) f
  let s1 := setUPort u (sentNew f.vc.toNat n i w g) (setUPort u rollTx s)
  let s2 := emitFlit u (uport s u) g s1
  have hown : uport s2 u = sentNew f.vc.toNat n i w g (uport s u) := by
    rw [(emitFlit_spec _ _ _ _).2.2, uport_setUPort, if_pos rfl, uport_setUPort, if_pos rfl, rollTx_plain hkey]
  have hqueued : (uport s2 u).txQueue = [] := by rw [hown]; simp only [sentNew, payCredits, hqueue, takeFlit_single]
  obtain ⟨hdealer, hout⟩ := freeBuffer_frame i f.vc.toNat s2
  obtain ⟨hq, htx, hseq, hreplay, hcredits, -⟩ := freeBuffer_keeps i f.vc.toNat u s2
  refine Completes.intro (t := freeBuffer i f.vc.toNat s2) ((withUnit_of_lt hu _ _).trans (congrArg _ ?_)) ?_
  · rw [flitSlot_data hframed hon hnak hswitch hresend, sendData_single hqueue hi hnext, sendNew_plain hkey]
  · rw [hq, htx, hseq, hreplay, hcredits, hout, hdealer, hqueued, hown]
    refine ⟨⟨_, _, rfl⟩, rfl, rfl, rfl, rfl, ?_, fun x hx => ?_, rfl⟩
    · simp [sentNew, payCredits]
    · rw [(freeBuffer_keeps i f.vc.toNat x s2).1, (emitFlit_spec _ _ _ _).2.2, uport_setUPort, if_neg (Ne.symm hx), uport_setUPort,
        if_neg (Ne.symm hx)]

theorem completes_flitSlot_idle (hu : u < 16) (hframed : s.framed = s.out.length) (hon : linkOn (uport s u) = true)
    (hnak : (uport s u).sendNak = false) (hswitch : (uport s u).sendSwitch = false) (hresend : (uport s u).resend = [])
    (hqueue : (uport s u).txQueue = []) :
    Completes (.flitSlot u) s (fun t =>
      (∃ g, t.out = s.out ++ [.flit u (flitBytes g)] ∧ g.kind = 1 ∧ g.ack = (uport s u).expected) ∧
      (uport t u).flitsTx = (uport s u).flitsTx ∧ (uport t u).nextSeq = (uport s u).nextSeq ∧ (∀ w, w ≠ u → uport t w = uport s w) ∧
      t.dealer = s.dealer) := by
  let s1 := setUPort u payCredits s
  have hown : uport s1 u = payCredits (uport s u) := by rw [uport_setUPort, if_pos rfl]
  obtain ⟨hout, hdealer, hports⟩ := emitControl_spec u 1 (uport s u) s1
  refine Completes.intro (t := emitControl u 1 (uport s u) s1) ((withUnit_of_lt hu _ _).trans (congrArg _ ?_)) ?_
  · rw [flitSlot_data hframed hon hnak hswitch hresend, sendData_idle hqueue]
  · rw [hports, hown]
    exact ⟨hout, rfl, rfl, fun w hw => by rw [hports, uport_setUPort, if_neg (Ne.symm hw)], hdealer⟩

end

/-- Settles O49, by the case of a received flit and by what a slot finds to send. -/
theorem flitsAndSlots : Obligations.FlitsAndSlots := by
  unfold Obligations.FlitsAndSlots
  refine ⟨fun u bs fixed lost s hu hon => ?_, fun u s hu hframed => ?_⟩
  · let r : FlitRead := { bytes := bs, corrected := fixed, uncorrectable := lost }
    exact ⟨completes_flitReceive_badCrc (r := r) hu hon, completes_flitReceive_taken (r := r) hu hon,
      completes_flitReceive_unexpected (r := r) hu hon, completes_flitReceive_control (r := r) hu hon, completes_nakReceive hu hon⟩
  · exact ⟨completes_flitSlot_off hu hframed, completes_flitSlot_nak hu hframed, fun hon hnak =>
      ⟨completes_flitSlot_switch hu hframed hon hnak, fun hswitch => ⟨completes_flitSlot_replay hu hframed hon hnak hswitch,
        completes_flitSlot_new hu hframed hon hnak hswitch, completes_flitSlot_idle hu hframed hon hnak hswitch⟩⟩⟩

/-! ### Hop counts (R332) -/

theorem cutFlits_hops (n : Nat) (vc : BitVec 2) (dst src : BitVec 15) (fuel : Nat) (first : Bool) (bs : List Byte) :
    ∀ f ∈ cutFlits n vc dst src fuel first bs, f.hops = 15 := by
  induction fuel generalizing first bs with
  | zero => simp [cutFlits]
  | succ fuel ih =>
    intro f hf
    rw [cutFlits] at hf
    rcases List.mem_cons.mp hf with rfl | hrest
    · rfl
    · split at hrest
      · simp at hrest
      · exact ih _ _ f hrest

section
variable {u : Nat} {s : State} {r : FlitRead}

/-- The expected flit of another module is forwarded. -/
theorem flitReceive_forwards (hon : linkOn (uport s u) = true) (hcrc : flitCrcOk r.bytes = true)
    (hkind : (flitOf r.bytes).kind = 0) (hseq : (flitOf r.bytes).seq = (uport s u).expected) (hkey : (uport s u).rxKey = [])
    (hc : carries s u (flitOf r.bytes).vc.toNat = true) (hvalid : s.unlia.nodeValid = true)
    (hdst : (flitOf r.bytes).dst ≠ s.unlia.nodeId) :
    flitReceive u r s = forward u (flitOf r.bytes) (counted u (readLink u r s)) := by
  have hstate : (uport (readLink u r s) u).state = (uport s u).state := by
    rw [uport_readLink, if_pos rfl]; exact (linkRead_kept r _).1
  have hc' : carries (readLink u r s) u (flitOf r.bytes).vc.toNat = true :=
    (carries_congr (s := s) (t := readLink u r s) u _ hstate rfl rfl).trans hc
  have hforeign : ¬(¬(readLink u r s).unlia.nodeValid = true ∨ (flitOf r.bytes).dst = (readLink u r s).unlia.nodeId) := by
    rintro (h | h)
    · exact h hvalid
    · exact hdst h
  rw [flitReceive_expected hon hcrc hkind hseq hkey, acceptFlit_carried hc']
  exact if_neg hforeign

theorem counted_readLink_frame :
    (counted u (readLink u r s)).out = s.out ∧ (counted u (readLink u r s)).dealer = s.dealer ∧
      (counted u (readLink u r s)).unlia.routes = s.unlia.routes := by
  simp only [counted, readLink, setUPort_out, setUPort_dealer, setUPort_unlia_routes, and_self]

/-- Counting a flit leaves what forwarding asks of the ports. -/
theorem uport_counted_readLink (u w : Nat) (r : FlitRead) (s : State) :
    (uport (counted u (readLink u r s)) w).state = (uport s w).state ∧
      (uport (counted u (readLink u r s)) w).txQueue = (uport s w).txQueue ∧
      (uport (counted u (readLink u r s)) w).hopLimit = (uport s w).hopLimit := by
  obtain ⟨hstate, -, -, -, hqueue, hhops, -⟩ := linkRead_kept r (uport s w)
  simp only [counted, uport_setUPort, uport_readLink]
  split
  · exact ⟨hstate, hqueue, hhops⟩
  · exact ⟨rfl, rfl, rfl⟩

theorem completes_flitReceive_hopLimit (hu : u < 16) (hon : linkOn (uport s u) = true) (hcrc : flitCrcOk r.bytes = true)
    (hkind : (flitOf r.bytes).kind = 0) (hseq : (flitOf r.bytes).seq = (uport s u).expected) (hkey : (uport s u).rxKey = [])
    (hc : carries s u (flitOf r.bytes).vc.toNat = true) (hvalid : s.unlia.nodeValid = true)
    (hdst : (flitOf r.bytes).dst ≠ s.unlia.nodeId) (hhops : (flitOf r.bytes).hops = 0) :
    Completes (.flitReceive u r) s (fun t => (uport t u).hopLimit = (uport s u).hopLimit + 1 ∧
      (∀ w, (uport t w).txQueue = (uport s w).txQueue) ∧ t.out = s.out ∧ t.dealer = s.dealer) := by
  obtain ⟨hout, hdealer, -⟩ := counted_readLink_frame (u := u) (r := r) (s := s)
  have hports := uport_counted_readLink u (r := r) (s := s)
  have hrun := flitReceive_forwards hon hcrc hkind hseq hkey hc hvalid hdst
  generalize counted u (readLink u r s) = s1 at hout hdealer hports hrun
  rw [forward, if_pos hhops] at hrun
  obtain ⟨hdealer', hout'⟩ := freeBuffer_frame u (flitOf r.bytes).vc.toNat (setUPort u (fun x => { x with hopLimit := x.hopLimit + 1 }) s1)
  refine Completes.intro ((withUnit_of_lt hu _ _).trans (congrArg _ hrun)) ⟨?_, fun w => ?_, hout'.trans hout, hdealer'.trans hdealer⟩
  · obtain ⟨-, -, -, -, -, hlimit⟩ := freeBuffer_keeps u (flitOf r.bytes).vc.toNat u (setUPort u (fun x => { x with hopLimit := x.hopLimit + 1 }) s1)
    obtain ⟨-, -, hcount⟩ := hports u
    rw [hlimit, uport_setUPort, if_pos rfl]
    exact congrArg (· + 1) hcount
  · rw [(freeBuffer_keeps _ _ _ _).1, uport_setUPort]
    split
    · exact (hports w).2.1
    · exact (hports w).2.1

theorem routeOf_congr {t : State} (dst : BitVec 15) (fallback : Nat) (hr : t.unlia.routes = s.unlia.routes)
    (hst : ∀ w, (uport t w).state = (uport s w).state) : routeOf t dst fallback = routeOf s dst fallback := by
  have hon (w : Nat) : linkOn (uport t w) = linkOn (uport s w) := linkOn_congr (hst w)
  simp only [routeOf, hr, hon]

theorem completes_flitReceive_forward (hu : u < 16) (hon : linkOn (uport s u) = true) (hcrc : flitCrcOk r.bytes = true)
    (hkind : (flitOf r.bytes).kind = 0) (hseq : (flitOf r.bytes).seq = (uport s u).expected) (hkey : (uport s u).rxKey = [])
    (hc : carries s u (flitOf r.bytes).vc.toNat = true) (hvalid : s.unlia.nodeValid = true)
    (hdst : (flitOf r.bytes).dst ≠ s.unlia.nodeId) (hhops : (flitOf r.bytes).hops ≠ 0) (o : Nat)
    (hroute : routeOf s (flitOf r.bytes).dst u = .ok o) :
    Completes (.flitReceive u r) s (fun t =>
      (uport t o).txQueue = (uport s o).txQueue ++ [(u, { flitOf r.bytes with hops := (flitOf r.bytes).hops - 1 })] ∧
      (∀ w, w ≠ o → (uport t w).txQueue = (uport s w).txQueue) ∧ (∀ w, (uport t w).hopLimit = (uport s w).hopLimit) ∧
      t.out = s.out ∧ t.dealer = s.dealer) := by
  obtain ⟨hout, hdealer, hroutes⟩ := counted_readLink_frame (u := u) (r := r) (s := s)
  have hports := uport_counted_readLink u (r := r) (s := s)
  have hrun := flitReceive_forwards hon hcrc hkind hseq hkey hc hvalid hdst
  generalize counted u (readLink u r s) = s1 at hout hdealer hroutes hports hrun
  have hroute1 : routeOf s1 (flitOf r.bytes).dst u = .ok o := (routeOf_congr _ _ hroutes (fun w => (hports w).1)).trans hroute
  simp only [forward, if_neg hhops, hroute1] at hrun
  refine Completes.intro ((withUnit_of_lt hu _ _).trans (congrArg _ hrun)) ⟨?_, fun w hw => ?_, fun w => ?_, hout, hdealer⟩
  · rw [enqueue, uport_setUPort, if_pos rfl]
    exact congrArg (· ++ _) (hports o).2.1
  · rw [enqueue, uport_setUPort, if_neg (Ne.symm hw)]
    exact (hports w).2.1
  · rw [enqueue, uport_setUPort]
    split
    · exact (hports w).2.2
    · exact (hports w).2.2

end

/-- Settles O50: segments are cut with 15 hops, a forwarded flit is queued with one less, one with none only frees its buffer. -/
theorem hopCounts : Obligations.HopCounts := by
  unfold Obligations.HopCounts
  refine ⟨fun n vc dst src fuel first bs => cutFlits_hops n vc dst src fuel first bs, fun u o bs s hu hon hcrc => ?_⟩
  intro f hkind hseq hkey hc hvalid hdst
  let r : FlitRead := { bytes := bs, corrected := 0, uncorrectable := 0 }
  exact ⟨completes_flitReceive_hopLimit (r := r) hu hon hcrc hkind hseq hkey hc hvalid hdst,
    fun hhops => completes_flitReceive_forward (r := r) hu hon hcrc hkind hseq hkey hc hvalid hdst hhops o⟩

end Sys2Proof.Machine
end

section
/-! SUPPORT. Probes and the loss of a position (R342, R343). -/

namespace Sys2Proof.Machine

/-! ### Messages that flood -/

/-- Emissions alone change nothing but what has been sent. -/
theorem emitAll_frame {α : Type} (e : α → Emit) (l : List α) (s : State) :
    let t := l.foldl (fun s u => emit (e u) s) s
    t.dealer = s.dealer ∧ t.tiers = s.tiers ∧ t.unlia = s.unlia ∧ t.host = s.host ∧ t.glaren = s.glaren ∧ t.resets = s.resets := by
  induction l generalizing s with
  | nil => exact ⟨rfl, rfl, rfl, rfl, rfl, rfl⟩
  | cons x l ih =>
    obtain ⟨hd, ht, hu, hh, hg, hr⟩ := ih (emit (e x) s)
    exact ⟨hd.trans (by simp), ht.trans (by simp), hu.trans (by simp), hh.trans (by simp), hg.trans (by simp), hr.trans (by simp)⟩

theorem floodLoss_frame (p : Nat) (node : BitVec 15) (count : W32) (s : State) :
    let t := floodLoss p node count s
    t.dealer = s.dealer ∧ t.tiers = s.tiers ∧ t.unlia = s.unlia ∧ t.host = s.host ∧ t.glaren = s.glaren ∧ t.resets = s.resets :=
  emitAll_frame _ _ s

/-! ### A position that becomes ABSENT -/

theorem failInvolved_idle {p : Nat} {s : State} (h : s.unlia.colls = []) : failInvolved p s = s := by
  simp [failInvolved, h]

theorem failSourced_idle {p : Nat} {s : State} (hb : s.dealer.building = none) (hc : s.dealer.castles = []) : failSourced p s = s := by
  simp only [failSourced, hb, hc, List.filter_nil, List.foldl_nil]
  rw [← hc, ← hb]

/-- With no collective or castle to fail, a position that becomes ABSENT is recorded and told to both hosts. -/
theorem markAbsent_idle {p : Nat} {s : State} (hst : (position s p).state ≠ 2) (hcolls : s.unlia.colls = [])
    (hb : s.dealer.building = none) (hc : s.dealer.castles = []) :
    markAbsent p s = raiseEvent Event.peerLost (score 7 2 0x0030 s.dealer.stepNumber (leBytes 2 p)
      { s with unlia := { s.unlia with
          positions := Tab.mod (fun _ => Position.cold) s.unlia.positions p (fun x => { x with state := 2 }),
          lossLast := BitVec.ofNat 14 p, lossCount := s.unlia.lossCount + 1 } }) := by
  simp only [markAbsent, if_neg hst, failInvolved_idle hcolls, failSourced_idle hb hc]

theorem markAbsent_spec {p : Nat} {s : State} (hst : (position s p).state ≠ 2) (hcolls : s.unlia.colls = [])
    (hb : s.dealer.building = none) (hc : s.dealer.castles = []) :
    let t := markAbsent p s
    t.unlia = { s.unlia with
      positions := Tab.mod (fun _ => Position.cold) s.unlia.positions p (fun x => { x with state := 2 }),
      lossLast := BitVec.ofNat 14 p, lossCount := s.unlia.lossCount + 1 } ∧
    (∀ x, (portSt t x).events.getLsbD Event.peerLost = true) ∧ t.dealer = s.dealer ∧ t.tiers = s.tiers ∧
    t.glaren.linkEncrypt = s.glaren.linkEncrypt := by
  rw [markAbsent_idle hst hcolls hb hc]
  exact ⟨by simp, fun x => raiseEvent_events (by decide) x _, by simp, by simp, by simp⟩

theorem position_mod {s t : State} {p : Nat}
    (h : t.unlia.positions = Tab.mod (fun _ => Position.cold) s.unlia.positions p (fun x => { x with state := 2 })) (q : Nat) :
    position t q = if p = q then { position s q with state := 2 } else position s q := by
  simp only [position, h, Tab.get_mod]

/-! ### LOSS and PROBE_TIMEOUT -/

section
variable {u : Nat} {s : State}

theorem exec_loss_seen {p : BitVec 14} {node : BitVec 15} {count : W32} (hu : u < 16)
    (hseen : s.unlia.lossSeen.contains (p, node, count) = true) : exec (.loss u p node count) s = .next s :=
  (withUnit_of_lt hu _ _).trans (congrArg _ (if_pos (.inr (.inr hseen))))

theorem completes_loss {p : BitVec 14} {node : BitVec 15} {count : W32} (hu : u < 16) (hup : (uport s u).state = .up)
    (hmgood : s.resets.mgood = true) (hnew : s.unlia.lossSeen.contains (p, node, count) = false) (hst : (position s p.toNat).state ≠ 2)
    (hcolls : s.unlia.colls = []) (hb : s.dealer.building = none) (hc : s.dealer.castles = []) :
    Completes (.loss u p node count) s (fun t =>
      (position t p.toNat).state = 2 ∧ (∀ q, q ≠ p.toNat → position t q = position s q) ∧ t.unlia.lossLast = p ∧
      t.unlia.lossCount = s.unlia.lossCount + 1 ∧ t.unlia.lossSeen = s.unlia.lossSeen ++ [(p, node, count)] ∧
      (∀ x, (portSt t x).events.getLsbD Event.peerLost = true) ∧ t.dealer = s.dealer ∧ t.tiers = s.tiers) := by
  let s1 : State := { s with unlia := { s.unlia with lossSeen := s.unlia.lossSeen ++ [(p, node, count)] } }
  have hgo : ¬((uport s u).state ≠ .up ∨ ¬s.resets.mgood = true ∨ s.unlia.lossSeen.contains (p, node, count) = true) := by
    rintro (h | h | h)
    · exact h hup
    · exact h hmgood
    · rw [hnew] at h; exact Bool.noConfusion h
  obtain ⟨hunlia, hevents, hdealer, htiers, -⟩ := markAbsent_spec (p := p.toNat) (s := s1) hst hcolls hb hc
  obtain ⟨hdealer', htiers', hunlia', hhost', -⟩ := floodLoss_frame p.toNat node count (markAbsent p.toNat s1)
  have hall := hunlia'.trans hunlia
  have hpos := position_mod (s := s1) (t := floodLoss p.toNat node count (markAbsent p.toNat s1)) (p := p.toNat) (by rw [hall])
  refine Completes.intro ((withUnit_of_lt hu _ _).trans (congrArg _ (if_neg hgo))) ?_
  refine ⟨by rw [hpos, if_pos rfl], fun q hq => by rw [hpos, if_neg (Ne.symm hq)]; rfl, ?_, by rw [hall], by rw [hall],
    fun x => by rw [portSt_congr x (congrArg HostIf.ports hhost')]; exact hevents x, hdealer'.trans hdealer, htiers'.trans htiers⟩
  rw [hall]
  simp

theorem completes_probeTimeout {p : Nat} (hu : u < 16) (hover : probeOver s u = true) (hmgood : s.resets.mgood = true)
    (hpos : positionOf s (uport s u).peerNode = some p) (hst : (position s p).state ≠ 2) (hcolls : s.unlia.colls = [])
    (hb : s.dealer.building = none) (hc : s.dealer.castles = []) :
    Completes (.probeTimeout u) s (fun t =>
      (uport t u).probing = none ∧ (position t p).state = 2 ∧ t.unlia.lossCount = s.unlia.lossCount + 1 ∧
      t.unlia.lossLast = BitVec.ofNat 14 p ∧ (∀ x, (portSt t x).events.getLsbD Event.peerLost = true) ∧ t.dealer = s.dealer ∧
      t.tiers = s.tiers) := by
  let s1 := setUPort u (fun x => { x with probing := none }) s
  let s2 := markAbsent p s1
  let s3 : State := { s2 with unlia := { s2.unlia with
    lossSeen := s2.unlia.lossSeen ++ [(BitVec.ofNat 14 p, s2.unlia.nodeId, s2.unlia.lossCount)] } }
  have hgo : ¬(¬probeOver s u = true ∨ ¬s.resets.mgood = true) := by simp [hover, hmgood]
  obtain ⟨hunlia, hevents, hdealer, htiers, hlinks⟩ := markAbsent_spec (p := p) (s := s1) hst hcolls hb hc
  obtain ⟨hdealer', htiers', hunlia', hhost', hglaren', -⟩ := floodLoss_frame p s2.unlia.nodeId s2.unlia.lossCount s3
  have hpositions := position_mod (s := s1) (t := floodLoss p s2.unlia.nodeId s2.unlia.lossCount s3) (p := p)
    (by rw [hunlia']; exact congrArg Unlia.positions hunlia)
  refine Completes.intro (t := floodLoss p s2.unlia.nodeId s2.unlia.lossCount s3) ((withUnit_of_lt hu _ _).trans (congrArg _ ?_)) ?_
  · have hpos1 : positionOf s1 (uport s u).peerNode = some p := hpos
    simp only [probeTimeout, if_neg hgo]
    simp only [s1] at hpos1
    simp only [hpos1]
    rfl
  · refine ⟨?_, by rw [hpositions, if_pos rfl], ?_, ?_, fun x => ?_, hdealer'.trans hdealer, htiers'.trans htiers⟩
    · rw [uport_congr (s := s1) u (by rw [hunlia']; exact (congrArg Unlia.ports hunlia :)) (by rw [hglaren']; exact hlinks)]
      simp [s1]
    · rw [hunlia']; exact congrArg Unlia.lossCount hunlia
    · rw [hunlia']; exact congrArg Unlia.lossLast hunlia
    · rw [portSt_congr x (congrArg HostIf.ports hhost')]; exact hevents x

theorem exec_probeTimeout_early (hu : u < 16) (hover : probeOver s u = false) : exec (.probeTimeout u) s = .next s :=
  (withUnit_of_lt hu _ _).trans (congrArg _ (if_pos (.inl (by simp [hover]))))

end

/-! ### PROBE -/

/-- The answer to a probe of `node`, as it arrives at port u. -/
def probeHeard (node : BitVec 15) (s : State) (u : Nat) : State :=
  if (uport s u).probing.isSome ∧ (uport s u).peerNode = node then setUPort u (fun y => { y with probing := none }) s else s

theorem uport_probeHeard (node : BitVec 15) (s : State) (u w : Nat) :
    uport (probeHeard node s u) w =
      if u = w ∧ (uport s w).peerNode = node then { uport s w with probing := none } else uport s w := by
  unfold probeHeard
  by_cases hw : u = w
  · subst hw
    by_cases hpeer : (uport s u).peerNode = node
    · by_cases hprobe : (uport s u).probing.isSome = true
      · simp [hprobe, hpeer]
      · have hnone : (uport s u).probing = none := by simpa using hprobe
        have hsame : { uport s u with probing := none } = uport s u := by rw [← hnone]
        rw [if_neg (fun h => hprobe h.1), if_pos ⟨rfl, hpeer⟩, hsame]
    · simp [hpeer]
  · split
    · simp [hw]
    · simp [hw]

/-- After the answer no port whose peer is `node` is probing, and every other port is as it was. -/
theorem uport_probesHeard (node : BitVec 15) (l : List Nat) (s : State) (w : Nat) :
    uport (l.foldl (probeHeard node) s) w =
      if w ∈ l ∧ (uport s w).peerNode = node then { uport s w with probing := none } else uport s w := by
  induction l generalizing s with
  | nil => simp
  | cons u l ih =>
    have hpeer : (uport (probeHeard node s u) w).peerNode = (uport s w).peerNode := by
      rw [uport_probeHeard]
      split
      · rfl
      · rfl
    rw [List.foldl_cons, ih, hpeer, uport_probeHeard]
    by_cases hnode : (uport s w).peerNode = node
    · by_cases hu : u = w
      · simp [hnode, hu]
      · simp [hnode, hu, Ne.symm hu]
    · simp [hnode]

theorem probesHeard_frame (node : BitVec 15) (l : List Nat) (s : State) :
    (l.foldl (probeHeard node) s).out = s.out ∧ (l.foldl (probeHeard node) s).dealer = s.dealer := by
  have hstep (s : State) (u : Nat) : (probeHeard node s u).out = s.out ∧ (probeHeard node s u).dealer = s.dealer := by
    unfold probeHeard
    split
    · exact ⟨rfl, rfl⟩
    · exact ⟨rfl, rfl⟩
  exact ⟨foldl_keeps State.out (fun s u => (hstep s u).1) l s, foldl_keeps State.dealer (fun s u => (hstep s u).2) l s⟩

theorem completes_probe_reply {u : Nat} {node : BitVec 15} {s : State} (hu : u < 16) (hpeer : (uport s u).peerNode = node) :
    Completes (.probe { node := node, reply := true }) s (fun t =>
      (uport t u).probing = none ∧ (∀ w, (uport s w).peerNode ≠ node → uport t w = uport s w) ∧ t.out = s.out ∧ t.dealer = s.dealer) := by
  obtain ⟨hout, hdealer⟩ := probesHeard_frame node (List.range 16) s
  refine Completes.intro (t := (List.range 16).foldl (probeHeard node) s) rfl ⟨?_, fun w hw => ?_, hout, hdealer⟩
  · rw [uport_probesHeard, if_pos ⟨List.mem_range.mpr hu, hpeer⟩]
  · rw [uport_probesHeard, if_neg (fun h => hw h.2)]

/-- Settles O51: a position that is lost is marked ABSENT, recorded and flooded by one operation. -/
theorem positionsLost : Obligations.PositionsLost := by
  unfold Obligations.PositionsLost
  refine ⟨fun node s hserves => ⟨?_, ?_⟩, fun u node s hu => completes_probe_reply hu,
    fun u p node count s hu hup hmgood => ⟨exec_loss_seen hu, completes_loss hu hup hmgood⟩,
    fun u p s hu hover hmgood hpos _ hst => completes_probeTimeout hu hover hmgood hpos hst, fun u s hu => exec_probeTimeout_early hu⟩
  · simp only [exec, execProbe, hserves, if_true, Bool.false_eq_true, if_false]
    rfl
  · refine ⟨((List.range 16).map (helloBytes s)).flatten ++ ownPositionBytes s, ?_⟩
    simp only [exec, execMgmtQuery, hserves, if_true]
    rfl

end Sys2Proof.Machine
end

section
/-! SUPPORT. The tables of Unlia (R331, R341, R346): a table-writing command writes the entries of its range from its object's bytes, and
no other. -/

namespace Sys2Proof.Machine

/-! ### Writing a range of entries -/

/-- Entries written one after another from `a` on: what a reader finds in the range, and outside it. -/
theorem foldl_zipIdx_writes {σ α β : Type} (read : σ → Nat → β) (write : Nat → α → σ → σ) (f : α → β)
    (hwrite : ∀ i x k s, read (write i x s) k = if i = k then f x else read s k) (a : Nat) (es : List α) (s : σ) :
    (∀ i (hi : i < es.length), read (es.zipIdx.foldl (fun s e => write (a + e.2) e.1 s) s) (a + i) = f es[i]) ∧
      (∀ k, k < a ∨ a + es.length ≤ k → read (es.zipIdx.foldl (fun s e => write (a + e.2) e.1 s) s) k = read s k) := by
  suffices hfrom : ∀ n s,
      (∀ i (hi : i < es.length), read ((es.zipIdx n).foldl (fun s e => write (a + e.2) e.1 s) s) (a + (n + i)) = f es[i]) ∧
        (∀ k, k < a + n ∨ a + n + es.length ≤ k →
          read ((es.zipIdx n).foldl (fun s e => write (a + e.2) e.1 s) s) k = read s k) by
    simpa using hfrom 0 s
  induction es with
  | nil => exact fun n s => ⟨fun i hi => absurd hi (Nat.not_lt_zero i), fun _ _ => rfl⟩
  | cons x es ih =>
    intro n s
    obtain ⟨hin, hout⟩ := ih (n + 1) (write (a + n) x s)
    rw [List.zipIdx_cons, List.foldl_cons]
    refine ⟨fun i hi => ?_, fun k hk => ?_⟩
    · cases i with
      | zero => rw [hout _ (by omega), hwrite, if_pos (by omega)]; rfl
      | succ i =>
        have h := hin i (Nat.lt_of_succ_lt_succ hi)
        rw [show n + 1 + i = n + (i + 1) by omega] at h
        exact h
    · rw [hout k (by simp only [List.length_cons] at hk; omega), hwrite, if_neg (by simp only [List.length_cons] at hk; omega)]

/-! ### Reading the entries -/

/-- A table-writing command whose object holds good entries hands them on. -/
theorem readTable_good {o first count : W16} {w limit : Nat} {es : List (List Byte)} {s : State} (hr : TableRead s o first count w limit es)
    (t : Ticket) (i : Instr) (k : List (List Byte) → State → State) : readTable o first count w limit t i k s = k es s := by
  obtain ⟨hmem, hpoison, hlen, hcount, hlimit, hgood, hes⟩ := hr
  have hformat : ¬(¬(obj s o.toNat).inMem = true ∨ (obj s o.toNat).poison ≠ .clean ∨ (obj s o.toNat).len < count.toNat * w) := by
    rintro (h | h | h)
    · exact h hmem
    · exact h hpoison
    · omega
  have hrange : ¬(count = 0 ∨ limit < first.toNat + count.toNat) := by
    rintro (h | h)
    · exact hcount h
    · omega
  have hread : engineRead [{ object := o.toNat, off := 0, bytes := count.toNat * w }] .clean s = .good s := hgood
  simp only [readTable, if_neg hformat, if_neg hrange, readWhole, hread, hes]

theorem TableRead.length {s : State} {o first count : W16} {w limit : Nat} {es : List (List Byte)} (hr : TableRead s o first count w limit es) :
    es.length = count.toNat := by
  obtain ⟨-, -, -, -, -, -, hes⟩ := hr
  rw [hes, List.length_map, List.length_range]

/-! ### The commands -/

section
variable {q : Nat} {h : Hdr} {o first count : W16} {es : List (List Byte)} {s : State}

theorem completes_routeSet (ha : accepts s q h true = true) (hr : TableRead (taken q s) o first count 8 4096 es)
    (hok : es.all routeOk = true) :
    Completes (.routeSet q h o first count) s (fun t =>
      Reported (nextTicket s q h) Status.ok 0 s t ∧
      (∀ i (hi : i < es.length), Tab.get zero64 t.unlia.routes (first.toNat + i) = BitVec.ofNat 64 (fieldAt es[i] 0 8)) ∧
      (∀ r, (r < first.toNat ∨ first.toNat + count.toNat ≤ r) → Tab.get zero64 t.unlia.routes r = Tab.get zero64 s.unlia.routes r) ∧
      t.unlia.groups = s.unlia.groups ∧ t.unlia.positions = s.unlia.positions ∧ t.tiers = s.tiers ∧ t.dealer = s.dealer) := by
  obtain ⟨hin, hout⟩ := foldl_zipIdx_writes (Tab.get zero64) (fun i e r => Tab.set zero64 r i (BitVec.ofNat 64 (fieldAt e 0 8))) _
    (fun i x k r => Tab.get_set zero64 r i k _) first.toNat es s.unlia.routes
  refine Completes.intro (t := finish (nextTicket s q h) Status.ok (writeRoutes first es (taken q s))) ?_ ?_
  · rw [exec_routeSet_accepts q h o first count s ha, routeSetBody, readTable_good hr]
    simp [hok]
  · refine ⟨accepted_finished ha (by simp [writeRoutes]) rfl, fun i hi => ?_, fun r hrange => ?_, ?_, ?_, ?_, ?_⟩
    · simpa [writeRoutes] using hin i hi
    · simpa [writeRoutes] using hout r (by rw [hr.length]; exact hrange)
    all_goals simp [writeRoutes]

/-- GROUP_SET's writes touch the group table alone. -/
theorem setGroups_frame (first : Nat) (es : List (List Byte)) (s : State) :
    let t := es.zipIdx.foldl (fun s e => setGroup (first + e.2) (fun _ => groupAt e.1) s) s
    t.out = s.out ∧ t.host = s.host ∧ t.unlia.routes = s.unlia.routes ∧ t.unlia.positions = s.unlia.positions ∧ t.tiers = s.tiers ∧
      t.dealer = s.dealer := by
  have keeps {β : Type} (p : State → β) (hp : ∀ g f s, p (setGroup g f s) = p s) :
      p (es.zipIdx.foldl (fun s e => setGroup (first + e.2) (fun _ => groupAt e.1) s) s) = p s :=
    foldl_keeps p (fun s e => hp (first + e.2) (fun _ => groupAt e.1) s) es.zipIdx s
  exact ⟨keeps State.out fun _ _ _ => rfl, keeps State.host fun _ _ _ => rfl, keeps (fun s => s.unlia.routes) fun _ _ _ => rfl,
    keeps (fun s => s.unlia.positions) fun _ _ _ => rfl, keeps State.tiers fun _ _ _ => rfl, keeps State.dealer fun _ _ _ => rfl⟩

theorem completes_groupSet (ha : accepts s q h true = true) (hr : TableRead (taken q s) o first count 64 1024 es)
    (hok : es.all groupOk = true) (hfree : (List.range count.toNat).any (fun i => groupBusy s (first.toNat + i)) = false) :
    Completes (.groupSet q h o first count) s (fun t =>
      Reported (nextTicket s q h) Status.ok 0 s t ∧ (∀ i (hi : i < es.length), group t (first.toNat + i) = groupAt es[i]) ∧
      (∀ g, (g < first.toNat ∨ first.toNat + count.toNat ≤ g) → group t g = group s g) ∧
      t.unlia.routes = s.unlia.routes ∧ t.unlia.positions = s.unlia.positions ∧ t.tiers = s.tiers ∧ t.dealer = s.dealer) := by
  obtain ⟨hin, hout⟩ := foldl_zipIdx_writes group (fun i e s => setGroup i (fun _ => groupAt e) s) groupAt
    (fun i x k s => group_setGroup i k _ s) first.toNat es (taken q s)
  obtain ⟨hsent, hhost, hroutes, hpositions, htiers, hdealer⟩ := setGroups_frame first.toNat es (taken q s)
  have hfree' : (List.range count.toNat).any (fun i => groupBusy (taken q s) (first.toNat + i)) = false := by
    simpa only [groupBusy, taken_frame] using hfree
  have hgroup (k : Ticket) (st : Byte) (t : State) (g : Nat) : group (finish k st t) g = group t g := group_congr g (by simp)
  refine Completes.intro (t := finish (nextTicket s q h) Status.ok
    (es.zipIdx.foldl (fun s e => setGroup (first.toNat + e.2) (fun _ => groupAt e.1) s) (taken q s))) ?_ ?_
  · rw [exec_groupSet_accepts q h o first count s ha, groupSetBody, readTable_good hr]
    simp only [hok, hfree', not_true_eq_false, Bool.false_eq_true, if_false]
  · refine ⟨accepted_finished ha (hsent.trans (by simp)) (congrArg HostIf.queues hhost), fun i hi => ?_, fun g hrange => ?_, ?_, ?_, ?_, ?_⟩
    · rw [hgroup]; exact hin i hi
    · rw [hgroup, hout g (by rw [hr.length]; exact hrange)]
      exact group_congr g (by simp)
    all_goals simp [hroutes, hpositions, htiers, hdealer]

/-- POSITION_SET is checked at once and waits for its moment. -/
theorem completes_positionSet (ha : accepts s q h true = true) (hr : TableRead (taken q s) o first count 16 16384 es)
    (hok : es.all positionOk = true) (hunique : nodesUnique (writePositions first.toNat (es.map positionAt) (positionsAhead s)) = true) :
    Completes (.positionSet q h o first count) s (fun t =>
      t.unlia.posSets = s.unlia.posSets ++ [(nextTicket s q h, first.toNat, es.map positionAt)] ∧ Outstanding q s t ∧
      t.unlia.positions = s.unlia.positions ∧ t.tiers = s.tiers ∧ t.dealer = s.dealer) := by
  have hahead : positionsAhead (taken q s) = positionsAhead s := by simp [positionsAhead]
  refine Completes.intro (t := { taken q s with unlia := { (taken q s).unlia with
    posSets := (taken q s).unlia.posSets ++ [(nextTicket s q h, first.toNat, es.map positionAt)] } }) ?_ ?_
  · rw [exec_positionSet_accepts q h o first count s ha, positionSetBody, readTable_good hr]
    simp only [hok, hahead, hunique, not_true_eq_false, or_self, if_false]
  · exact ⟨by simp, outstanding_of_queues (by simp) rfl, by simp, by simp, by simp⟩

theorem completes_positionSetApply {k : Ticket} {first : Nat} {ps : List Position} {rest : List (Ticket × Nat × List Position)}
    (hsets : s.unlia.posSets = (k, first, ps) :: rest) (hidle : activeColls s = 0) (herr : (queue s k.q).error = false)
    (hring : (queue s k.q).cqSize ≠ 0) :
    Completes .positionSetApply s (fun t =>
      Reported k Status.ok 0 s t ∧ t.unlia.posSets = rest ∧ t.unlia.posDigest = positionDigest t.unlia.positions ∧
      (∀ i (hi : i < ps.length), position t (first + i) = ps[i]) ∧
      (∀ p, (p < first ∨ first + ps.length ≤ p) → position t p = position s p) ∧ t.tiers = s.tiers ∧ t.dealer = s.dealer) := by
  let tab := writePositions first ps s.unlia.positions
  obtain ⟨hin, hout⟩ := foldl_zipIdx_writes (Tab.get (fun _ => Position.cold)) (fun i p t => Tab.set (fun _ => Position.cold) t i p) id
    (fun i x k t => Tab.get_set _ t i k x) first ps s.unlia.positions
  let s1 : State := { s with unlia := { s.unlia with positions := tab, posDigest := positionDigest tab, posSets := rest } }
  have hunlia : (finish k Status.ok s1).unlia = s1.unlia := by simp
  refine Completes.intro (t := finish k Status.ok s1) ?_ ?_
  · simp only [exec, execPositionSetApply, hsets, hidle, if_true]
    rfl
  · refine ⟨complete_reported_of_out rfl herr hring, by rw [hunlia], by rw [hunlia], fun i hi => ?_, fun p hp => ?_, by simp [s1],
      by simp [s1]⟩
    · rw [position, hunlia]; exact hin i hi
    · rw [position, hunlia]; exact hout p hp

end

/-- Settles O14: each command folds one write per entry over its range. -/
theorem tableCommands : Obligations.TableCommands := by
  unfold Obligations.TableCommands
  exact ⟨fun q h o first count es s => completes_routeSet, fun q h o first count es s => completes_groupSet,
    fun q h o first count es s => completes_positionSet, fun k first ps rest s => completes_positionSetApply⟩

end Sys2Proof.Machine
end

section
/-! SUPPORT. What a collective's progress leaves alone (R349 to R358): reading its sources, sending, ending and failing touch no group, no
request, no weight slot, no unit; and a collective once active stays so until it ends. -/

namespace Sys2Proof.Machine

/-! ### Operations beside Unlia -/

/-- From s to t nothing of Unlia, the units, the requests and the weight slots has changed. -/
def Aside (s t : State) : Prop :=
  t.unlia = s.unlia ∧ t.units = s.units ∧ t.dealer.requests = s.dealer.requests ∧ t.dealer.slots = s.dealer.slots

theorem Aside.refl (s : State) : Aside s s := ⟨rfl, rfl, rfl, rfl⟩

theorem Aside.trans {s t u : State} (h1 : Aside s t) (h2 : Aside t u) : Aside s u := by
  obtain ⟨hu1, hn1, hr1, hs1⟩ := h1
  obtain ⟨hu2, hn2, hr2, hs2⟩ := h2
  exact ⟨hu2.trans hu1, hn2.trans hn1, hr2.trans hr1, hs2.trans hs1⟩

theorem aside_foldl {α : Type} {f : State → α → State} (hf : ∀ s x, Aside s (f s x)) (l : List α) (s : State) : Aside s (l.foldl f s) := by
  induction l generalizing s with
  | nil => exact Aside.refl s
  | cons x l ih => exact (hf s x).trans (ih (f s x))

theorem aside_emit (e : Emit) (s : State) : Aside s (emit e s) := by simp [Aside]
theorem aside_score (a b c : Nat) (x : W64) (d : List Byte) (s : State) : Aside s (score a b c x d s) := by simp [Aside]
theorem aside_raiseEvent (n : Nat) (s : State) : Aside s (raiseEvent n s) := by simp [Aside]
theorem aside_setTiers (f : Tiers → Tiers) (s : State) : Aside s (setTiers f s) := ⟨rfl, rfl, rfl, rfl⟩
theorem aside_setPort (p : Port) (f : PortSt → PortSt) (s : State) : Aside s (setPort p f s) := ⟨rfl, rfl, rfl, rfl⟩
theorem aside_setObj (o : Nat) (f : Obj → Obj) (s : State) : Aside s (setObj o f s) := ⟨rfl, rfl, rfl, rfl⟩
theorem aside_addOp (o : Op) (s : State) : Aside s (addOp o s) := ⟨rfl, rfl, rfl, rfl⟩
theorem aside_wake (s : State) : Aside s (wake s) := ⟨rfl, rfl, rfl, rfl⟩
theorem aside_complete (t : Ticket) (st : Byte) (r : W64) (nf : Bool) (s : State) : Aside s (complete t st r nf s) := by simp [Aside]

theorem aside_fillWrite (a : Nat) (bs : List Byte) (s : State) : Aside s (fillWrite a bs s) := by
  unfold fillWrite
  split
  · split
    · exact ⟨rfl, rfl, rfl, rfl⟩
    · exact ⟨rfl, rfl, rfl, rfl⟩
  · exact ⟨rfl, rfl, rfl, rfl⟩

theorem aside_undefineBytes (a n : Nat) (s : State) : Aside s (undefineBytes a n s) := aside_fillWrite a _ s
theorem aside_storeBg (a : Nat) (bs : List Byte) (s : State) : Aside s (storeBg a bs s) := aside_fillWrite a bs s

/-! ### Reading a source -/

theorem aside_lineFailed (k kind : Nat) (s : State) : Aside s (lineFailed k kind s) := aside_setTiers _ s

theorem aside_markHard (k : Nat) (s : State) : Aside s (markHard k s) := by
  unfold markHard
  split
  · exact Aside.trans (t := { s with
      tiers := { s.tiers with hardRepair := s.tiers.hardRepair ++ [rowKey k] }
      glaren := { s.glaren with settingsSeq := s.glaren.settingsSeq + 1 } }) ⟨rfl, rfl, rfl, rfl⟩ (aside_score _ _ _ _ _ _)
  · exact Aside.refl s

theorem aside_answerBar (k : Nat) (poisoned : Bool) (s : State) : Aside s (answerBar k poisoned s) :=
  aside_foldl (fun s p => (aside_setPort p _ s).trans (aside_foldl (fun s _ => aside_emit _ s) _ _)) _ s

theorem aside_poisonObject (o line : Nat) (s : State) : Aside s (poisonObject o line s) :=
  Aside.trans (t := setTiers (fun t => { t with lastPoisoned := BitVec.ofNat 16 o }) (setObj o (fun x => { x with poison := .poisoned }) s))
    ⟨rfl, rfl, rfl, rfl⟩ ((aside_score _ _ _ _ _ _).trans (aside_raiseEvent _ _))

theorem aside_giveUp (o k : Nat) (s : State) : Aside s (giveUp o k none s) := by
  unfold giveUp
  dsimp only
  refine Aside.trans ?_ ((aside_answerBar k true _).trans (aside_wake _))
  simp only [failReader]
  split
  · exact aside_setTiers _ s
  · exact (aside_setTiers _ s).trans (aside_poisonObject o k _)

theorem aside_poisonedLine (k : Nat) (s : State) : Aside s (poisonedLine k none s) := by
  unfold poisonedLine
  dsimp only
  split
  · exact (aside_markHard k s).trans (aside_answerBar k true _)
  · split
    · exact (aside_markHard k s).trans (aside_answerBar k true _)
    · split
      · exact (aside_markHard k s).trans (aside_giveUp _ k _)
      · have hobj (o : Nat) (x : Obj) (t : State) :
            Aside t (if x.poison = .poisoned then t else setObj o (fun x => { x with poison := .repairing }) t) := by
          split
          · exact Aside.refl t
          · exact aside_setObj _ _ t
        split
        · exact ((aside_markHard k s).trans (hobj _ _ _)).trans (Aside.trans ⟨rfl, rfl, rfl, rfl⟩ (aside_emit _ _))
        · exact ((aside_markHard k s).trans (hobj _ _ _)).trans ⟨rfl, rfl, rfl, rfl⟩

theorem aside_badRead (k kind : Nat) (s : State) : Aside s (badRead none k kind s) := by
  unfold badRead
  refine Aside.trans ?_ (aside_poisonedLine k _)
  split
  · exact aside_lineFailed k kind s
  · exact ((aside_lineFailed k kind s).trans (aside_setTiers _ _)).trans (aside_lineFailed k kind _)

theorem aside_sramDouble (line : Nat) (s : State) : Aside s (sramDouble line s) :=
  Aside.trans (t := { s with tiers := _ }) ⟨rfl, rfl, rfl, rfl⟩ (aside_score _ _ _ _ _ _)

theorem aside_countSingle (r : ReadSet) (ecc : Ecc) (s : State) : Aside s (countSingle r ecc s) := by
  unfold countSingle
  split
  · exact ⟨rfl, rfl, rfl, rfl⟩
  · exact Aside.refl s

theorem aside_engineReadSet (r : ReadSet) (ecc : Ecc) (s : State) : Aside s (engineReadSet r ecc s).after := by
  have hbad (bad : List (Nat × Nat)) : Aside s (bad.foldl (fun s x => badRead none x.1 x.2 s) s) :=
    aside_foldl (fun s x => aside_badRead x.1 x.2 s) bad s
  unfold engineReadSet
  dsimp only
  split
  · exact Aside.refl s
  · split
    · exact (aside_sramDouble _ s).trans (aside_wake _)
    · split
      · exact Aside.refl s
      · split
        · exact aside_countSingle r ecc s
        · split
          · exact hbad _
          · exact hbad _

/-! ### The list of collectives -/

/-- Since s the groups, the units, the requests and the weight slots are as they were, and every collective of t meets P. -/
def CollKeep (P : Coll → Prop) (s t : State) : Prop :=
  t.unlia.groups = s.unlia.groups ∧ t.units = s.units ∧ t.dealer.requests = s.dealer.requests ∧ t.dealer.slots = s.dealer.slots ∧
    ∀ x ∈ t.unlia.colls, P x

/-- Every collective of this id is active. -/
def ActiveId (id : Nat) (x : Coll) : Prop := x.id = id → x.active = true

/-- Every collective of this id is active, but for those that share the id of c. -/
def ActiveBut (id : Nat) (c x : Coll) : Prop := x.id = id → x.active = true ∨ x.id = c.id

section
variable {P Q : Coll → Prop} {s₀ s t : State} {id : Nat} {c : Coll}

theorem CollKeep.aside (h : CollKeep P s₀ s) (ha : Aside s t) : CollKeep P s₀ t := by
  obtain ⟨hg, hn, hr, hs, hp⟩ := h
  obtain ⟨hu2, hn2, hr2, hs2⟩ := ha
  exact ⟨by rw [hu2, hg], hn2.trans hn, hr2.trans hr, hs2.trans hs, by rw [hu2]; exact hp⟩

theorem CollKeep.mono (h : CollKeep P s₀ s) (hPQ : ∀ x, P x → Q x) : CollKeep Q s₀ s := by
  obtain ⟨hg, hn, hr, hs, hp⟩ := h
  exact ⟨hg, hn, hr, hs, fun x hx => hPQ x (hp x hx)⟩

theorem collKeep_sendAll (b : CollBody) (m : CollMsg) (h : CollKeep P s₀ s) : CollKeep P s₀ (sendAll b m s) := by
  refine h.aside (aside_foldl (fun s q => ?_) _ s)
  unfold sendColl
  split
  · exact aside_emit _ s
  · exact Aside.refl s

/-- A collective replaced by an active one of its id. -/
theorem collKeep_putColl (hc : c.active = true) (h : CollKeep (ActiveBut id c) s₀ s) : CollKeep (ActiveId id) s₀ (putColl c s) := by
  obtain ⟨hg, hn, hr, hs, hp⟩ := h
  refine ⟨hg, hn, hr, hs, fun x hx hid => ?_⟩
  obtain ⟨y, hy, rfl⟩ := List.mem_map.mp hx
  by_cases hyc : y.id = c.id
  · rw [if_pos hyc]; exact hc
  · rw [if_neg hyc] at hid ⊢
    exact (hp y hy hid).resolve_right hyc

/-- Dropping a collective drops every one of its id. -/
theorem collKeep_drop {f : Unlia → Unlia} (hf : ∀ x, (f x).groups = x.groups)
    (hcolls : ∀ x, (f x).colls = x.colls.filter (fun x => decide (x.id ≠ c.id))) (h : CollKeep (ActiveBut id c) s₀ s) :
    CollKeep (fun x => ActiveId id x ∧ x.id ≠ c.id) s₀ { s with unlia := f s.unlia } := by
  obtain ⟨hg, hn, hr, hs, hp⟩ := h
  refine ⟨(hf _).trans hg, hn, hr, hs, fun x hx => ?_⟩
  obtain ⟨hxs, hxc⟩ := List.mem_filter.mp (by rw [← hcolls]; exact hx)
  have hne : x.id ≠ c.id := by simpa using hxc
  exact ⟨fun hid => (hp x hxs hid).resolve_right hne, hne⟩

theorem aside_endColl (c : Coll) (st : Byte) (nf : Bool) (s : State) : Aside s (endColl c st nf s) := by
  have hrecord : Aside s (match c.ticket with | some t => complete t st 0 nf s | none => s) := by
    split
    · exact aside_complete _ _ _ _ s
    · exact Aside.refl s
  unfold endColl
  dsimp only
  split
  · exact hrecord.trans (aside_addOp _ _)
  · exact hrecord

theorem collKeep_breakColl (st : Byte) (h : CollKeep (ActiveBut id c) s₀ s) :
    CollKeep (fun x => ActiveId id x ∧ x.id ≠ c.id) s₀ (breakColl st c s) := by
  have hundefined : CollKeep (ActiveBut id c) s₀ (if st = Status.collMismatch then s
      else (collDests s c.body).foldl (fun s' x => undefineBytes x.1 x.2 s') s) := by
    split
    · exact h
    · exact h.aside (aside_foldl (fun s (x : Nat × Nat) => aside_undefineBytes x.1 x.2 s) _ s)
  exact (collKeep_drop (f := fun u => { u with
    colls := u.colls.filter (fun x => decide (x.id ≠ c.id))
    collErrors := match collErrorIndex st with
      | some k => bump u.collErrors k 1
      | none => u.collErrors }) (fun _ => rfl) (fun _ => rfl) hundefined).aside (aside_endColl c st false _)

theorem collKeep_finishColl (h : CollKeep (ActiveId id) s₀ s) : CollKeep (ActiveId id) s₀ (finishColl c s) := by
  unfold finishColl
  split
  · dsimp only
    have hstored : CollKeep (ActiveBut id c) s₀ (if collAbandoned s c = true then s
        else (collDies c.body).foldl (fun s' d => storeBg (collDst s c.body d).1 (collResult s c d) s') s) := by
      refine CollKeep.mono (P := ActiveId id) ?_ (fun x hx hid => .inl (hx hid))
      split
      · exact h
      · exact h.aside (aside_foldl (fun s' d => aside_storeBg _ _ s') _ s)
    exact ((collKeep_drop (f := fun u => { u with colls := u.colls.filter (fun x => decide (x.id ≠ c.id)) }) (fun _ => rfl) (fun _ => rfl)
      hstored).mono (fun x hx => hx.1)).aside (aside_endColl c _ _ _)
  · exact h

theorem collKeep_sendStages (hc : c.active = true) (h : CollKeep (ActiveBut id c) s₀ s) : CollKeep (ActiveId id) s₀ (sendStages c s) := by
  refine collKeep_finishColl (collKeep_putColl hc (h.aside (aside_foldl (fun s m => ?_) _ s)))
  unfold sendColl
  split
  · exact aside_emit _ s
  · exact Aside.refl s

theorem passVerdict_active (c : Coll) (s : State) : (passVerdict c s).1.active = c.active ∧ (passVerdict c s).1.id = c.id := by
  unfold passVerdict
  split
  · exact ⟨rfl, rfl⟩
  · exact ⟨rfl, rfl⟩

theorem collKeep_advanceColl (hc : c.active = true) (h : CollKeep (ActiveBut id c) s₀ s) :
    CollKeep (ActiveId id) s₀ (advanceColl c s) := by
  obtain ⟨hactive, hid⟩ := passVerdict_active c s
  have hverdict : CollKeep (ActiveBut id (passVerdict c s).1) s₀ (passVerdict c s).2 := by
    have h' : CollKeep (ActiveBut id (passVerdict c s).1) s₀ s := h.mono (fun x hx => by simpa only [ActiveBut, hid] using hx)
    revert h'
    unfold passVerdict
    split
    · exact fun h' => collKeep_sendAll _ _ h'
    · exact fun h' => h'
  have hc' : (passVerdict c s).1.active = true := hactive.trans hc
  unfold advanceColl
  dsimp only
  generalize (passVerdict c s).1 = c1 at hverdict hc'
  generalize (passVerdict c s).2 = s1 at hverdict
  split
  · have hread := hverdict.aside (aside_engineReadSet (rangeSet s1 (collSources s1 c1.body)) .clean s1)
    split
    next heq => rw [heq] at hread; exact collKeep_putColl hc' hread
    next heq =>
      rw [heq] at hread
      refine (collKeep_breakColl _ ?_).mono (fun x hx => hx.1)
      split
      · exact collKeep_sendAll _ _ hread
      · exact hread
    next heq => rw [heq] at hread; exact collKeep_sendStages hc' hread
  · exact collKeep_sendStages hc' hverdict

theorem collKeep_takeMsg {source : W16} {m : CollMsg} (hc : c.active = true) (h : CollKeep (ActiveId id) s₀ s) :
    CollKeep (ActiveId id) s₀ (takeMsg c source m s) := by
  have hbut (c : Coll) : CollKeep (ActiveBut id c) s₀ s := h.mono (fun x hx hid => .inl (hx hid))
  have hbreak {c : Coll} {st : Byte} {s : State} (h : CollKeep (ActiveBut id c) s₀ s) : CollKeep (ActiveId id) s₀ (breakColl st c s) :=
    (collKeep_breakColl st h).mono (fun x hx => hx.1)
  unfold takeMsg
  dsimp only
  split
  · split
    · exact hbreak (collKeep_sendAll _ _ (hbut _))
    · exact collKeep_advanceColl hc (hbut _)
  · split
    · exact collKeep_advanceColl hc (hbut _)
    · exact hbreak (hbut _)
  · exact collKeep_advanceColl hc (hbut _)
  · exact hbreak (hbut _)
  · exact collKeep_advanceColl hc (hbut _)
  · exact collKeep_advanceColl hc (hbut _)
  · exact hbreak (hbut _)

theorem collKeep_collArrive {name : CollName} {source : W16} {m : CollMsg} (h : CollKeep (ActiveId id) s₀ s) :
    CollKeep (ActiveId id) s₀ (collArrive name source m s) := by
  unfold collArrive
  split
  next c hfind =>
    have hpred := List.find?_some hfind
    simp only [Bool.and_eq_true] at hpred
    exact collKeep_takeMsg hpred.1.1 h
  next =>
    split
    · exact h
    · exact h

theorem collKeep_collEarly {name : CollName} (h : CollKeep (ActiveId id) s₀ s) : CollKeep (ActiveId id) s₀ (collEarly name s) := by
  have hfold (l : List (CollName × W16 × CollMsg)) (s : State) (h : CollKeep (ActiveId id) s₀ s) :
      CollKeep (ActiveId id) s₀ (l.foldl (fun s e => collArrive e.1 e.2.1 e.2.2 s) s) := by
    induction l generalizing s with
    | nil => exact h
    | cons e l ih => exact ih _ (collKeep_collArrive h)
  exact hfold _ _ h

theorem collKeep_startSends (b : CollBody) (h : CollKeep P s₀ s) : CollKeep P s₀ (startSends b s) := by
  unfold startSends
  dsimp only
  split
  · exact collKeep_sendAll _ _ (collKeep_sendAll _ _ h)
  · exact collKeep_sendAll _ _ h

end

end Sys2Proof.Machine
end

section
/-! SUPPORT. COLLECTIVE and COLL_ELIGIBLE_START (R347, R348, R353, R354): what waits, what is refused, and what starts. -/

namespace Sys2Proof.Machine

/-! ### COLLECTIVE -/

/-- A collective as it waits for its turn. -/
def waitingColl (t : Option Ticket) (p : Option (Nat × Nat × W32 × BitVec 4)) (b : CollBody) (s : State) : Coll :=
  { id := s.host.nextOp, ticket := t, prog := p, body := b, active := false, reading := false, granted := false, taken := false,
    digests := [], agreed := false, sent := [], last := s.tick, nodes := [] }

/-- A state that has given out the next id. -/
def idTaken (s : State) : State := { s with host := { s.host with nextOp := s.host.nextOp + 1 } }

theorem submitColl_waits {t : Option Ticket} {p : Option (Nat × Nat × W32 × BitVec 4)} {fenced : Bool} {b : CollBody} {s : State}
    (hf : collFault s fenced b = none) (hgroup : isP2p b = false) :
    submitColl t p fenced b s =
      { idTaken s with unlia := { (idTaken s).unlia with colls := (idTaken s).unlia.colls ++ [waitingColl t p b s] } } := by
  simp only [submitColl, hf, hgroup, Bool.false_eq_true, false_and, if_false]
  rfl

theorem submitColl_fails {t : Option Ticket} {p : Option (Nat × Nat × W32 × BitVec 4)} {fenced : Bool} {b : CollBody} {s : State} {st : Byte}
    (hf : collFault s fenced b = some st) : submitColl t p fenced b s = failColl (waitingColl t p b s) st (idTaken s) := by
  simp only [submitColl, hf]
  rfl

/-- The state in which a collective has failed and been counted. -/
def collFailed (c : Coll) (st : Byte) (s : State) : State :=
  { s with unlia := { s.unlia with
      colls := s.unlia.colls.filter (fun x => decide (x.id ≠ c.id))
      collErrors := match collErrorIndex st with
        | some i => bump s.unlia.collErrors i 1
        | none => s.unlia.collErrors } }

theorem failColl_eq (c : Coll) (st : Byte) (s : State) : failColl c st s = endColl c st false (collFailed c st s) := rfl

/-- The end of a collective that a queue issued gives a record. -/
theorem endColl_command {c : Coll} {k : Ticket} (hk : c.ticket = some k) (hp : c.prog = none) (st : Byte) (nf : Bool) (s : State) :
    endColl c st nf s = complete k st 0 nf s := by
  simp only [endColl, hk, hp]

theorem completes_collective_waits {q : Nat} {h : Hdr} {b : CollBody} {s : State} (ha : accepts s q h true = true)
    (hroom : queueWaiting s < 192) (hf : collFault (taken q s) false b = none) (hgroup : isP2p b = false) :
    Completes (.collective q h b) s (fun t =>
      t.unlia.colls = s.unlia.colls ++ [{
        id := s.host.nextOp, ticket := some (nextTicket s q h), prog := none, body := b,
        active := false, reading := false, granted := false, taken := false, digests := [], agreed := false, sent := [],
        last := s.tick, nodes := [] }] ∧
      Outstanding q s t ∧ t.tiers = s.tiers ∧ t.dealer = s.dealer ∧ t.units = s.units) := by
  refine Completes.intro ((exec_collective_accepts q h b s ha hroom).trans (congrArg _ (submitColl_waits hf hgroup))) ?_
  exact ⟨by simp [idTaken, waitingColl], outstanding_of_queues (by simp [idTaken]) rfl, by simp [idTaken], by simp [idTaken],
    by simp [idTaken]⟩

theorem completes_collective_refused {q : Nat} {h : Hdr} {b : CollBody} {s : State} {st : Byte} (ha : accepts s q h true = true)
    (hroom : queueWaiting s < 192) (hf : collFault (taken q s) false b = some st) :
    Completes (.collective q h b) s (fun t =>
      Reported (nextTicket s q h) st 0 s t ∧ t.tiers = s.tiers ∧ t.dealer = s.dealer ∧ t.unlia.groups = s.unlia.groups) := by
  refine Completes.intro ((exec_collective_accepts q h b s ha hroom).trans (congrArg _ (submitColl_fails hf))) ?_
  rw [failColl_eq, endColl_command rfl rfl]
  exact ⟨accepted_reported ha (by simp [idTaken, collFailed]) rfl, by simp [idTaken, collFailed], by simp [idTaken, collFailed],
    by simp [idTaken, collFailed]⟩

/-! ### COLL_ELIGIBLE_START -/

/-- The state in which a collective of one group has consumed its number. -/
def numberConsumed (b : CollBody) (s : State) : State := setGroup b.group.toNat (fun g => { g with nextSeq := g.nextSeq + 1 }) s

section
variable {c : Coll} {s : State}

theorem startColl_group (hgroup : isP2p c.body = false) (hone : inGroup2 s c.body = false) :
    startColl c s =
      if collBroken (numberConsumed c.body s) c.body then breakColl Status.collLost c (numberConsumed c.body s)
      else if collShut (numberConsumed c.body s) c.body then breakColl Status.reset c (numberConsumed c.body s)
      else collEarly (collName c.body) (advanceColl { c with
        active := true, reading := decide (supplied (numberConsumed c.body s) c.body ≠ 0), last := s.tick }
        (startSends c.body (numberConsumed c.body s))) := by
  simp only [startColl, hgroup, Bool.false_eq_true, if_false, ← numberConsumed.eq_1, hone]
  rfl

/-- A start consumes the group's number, and leaves no collective of the id waiting. -/
theorem startColl_keeps (hgroup : isP2p c.body = false) (hone : inGroup2 s c.body = false)
    (hwait : ∀ x ∈ s.unlia.colls, x.id = c.id → x.active = true ∨ x.id = c.id) :
    CollKeep (ActiveId c.id) (numberConsumed c.body s) (startColl c s) := by
  have hbut : CollKeep (ActiveBut c.id c) (numberConsumed c.body s) (numberConsumed c.body s) := ⟨rfl, rfl, rfl, rfl, hwait⟩
  rw [startColl_group hgroup hone]
  split
  · exact (collKeep_breakColl _ hbut).mono (fun x hx => hx.1)
  · split
    · exact (collKeep_breakColl _ hbut).mono (fun x hx => hx.1)
    · exact collKeep_collEarly (collKeep_advanceColl rfl (collKeep_startSends _ hbut))

/-- Consuming a number changes no member of a group. -/
theorem collMembers_numberConsumed (b b' : CollBody) (s : State) : collMembers (numberConsumed b' s) b = collMembers s b := by
  have hmembers (g : Nat) : membersOf (numberConsumed b' s) (group (numberConsumed b' s) g) = membersOf s (group s g) := by
    rw [numberConsumed, group_setGroup]
    split
    · rfl
    · rfl
  simp only [collMembers, hmembers]

theorem startColl_broken (hgroup : isP2p c.body = false) (hone : inGroup2 s c.body = false)
    (hbroken : ∃ p ∈ collMembers s c.body, (position s p).state ≠ 1) : ∀ x ∈ (startColl c s).unlia.colls, x.id ≠ c.id := by
  have hlost : collBroken (numberConsumed c.body s) c.body = true := by
    obtain ⟨p, hp, hst⟩ := hbroken
    have hany : (collMembers (numberConsumed c.body s) c.body).any (fun p => decide ((position (numberConsumed c.body s) p).state ≠ 1)) = true := by
      rw [collMembers_numberConsumed]
      exact List.any_eq_true.mpr ⟨p, hp, decide_eq_true hst⟩
    simp only [collBroken, hgroup, hany, Bool.not_false, Bool.and_true, Bool.or_true, Bool.true_or]
  have hbut : CollKeep (ActiveBut c.id c) (numberConsumed c.body s) (numberConsumed c.body s) := ⟨rfl, rfl, rfl, rfl, fun _ _ hid => .inr hid⟩
  rw [startColl_group hgroup hone, if_pos hlost]
  obtain ⟨-, -, -, -, hcolls⟩ := collKeep_breakColl Status.collLost hbut
  exact fun x hx => (hcolls x hx).2

/-- The only eligible collective starts. -/
theorem exec_collEligibleStart (hmay : mayStart s = true) (honly : s.unlia.colls.filter (eligible s) = [c]) :
    exec .collEligibleStart s = .next (startColl c s) := by
  simp only [exec, execCollEligibleStart, hmay, if_true, honly, List.foldl_cons, List.foldl_nil]

theorem completes_collEligibleStart (hmay : mayStart s = true) (honly : s.unlia.colls.filter (eligible s) = [c])
    (hgroup : isP2p c.body = false) (hone : inGroup2 s c.body = false) :
    Completes .collEligibleStart s (fun t =>
      (group t c.body.group.toNat).nextSeq = (group s c.body.group.toNat).nextSeq + 1 ∧
      (∀ g, g ≠ c.body.group.toNat → group t g = group s g) ∧
      (∀ x ∈ t.unlia.colls, x.id = c.id → x.active = true) ∧
      ((∃ p ∈ collMembers s c.body, (position s p).state ≠ 1) → ∀ x ∈ t.unlia.colls, x.id ≠ c.id) ∧
      t.dealer.requests = s.dealer.requests ∧ t.dealer.slots = s.dealer.slots ∧ t.units = s.units) := by
  obtain ⟨hgroups, hunits, hrequests, hslots, hcolls⟩ := startColl_keeps hgroup hone (fun _ _ hid => .inr hid)
  refine Completes.intro (exec_collEligibleStart hmay honly) ⟨?_, fun g hg => ?_, hcolls, startColl_broken hgroup hone, hrequests, hslots, hunits⟩
  · rw [group_congr _ hgroups, numberConsumed, group_setGroup, if_pos rfl]
  · rw [group_congr _ hgroups, numberConsumed, group_setGroup, if_neg (Ne.symm hg)]

end

/-- Settles O12: a start alone advances the group's NEXT_SEQ, and submission only queues. -/
theorem collectivesStart : Obligations.CollectivesStart := by
  unfold Obligations.CollectivesStart
  exact ⟨fun q h b s ha hroom => ⟨completes_collective_waits ha hroom, fun st => completes_collective_refused ha hroom⟩,
    fun c s => completes_collEligibleStart⟩

end Sys2Proof.Machine
end

section
/-! SUPPORT. The run of a collective (R349 to R358): a message that it lacks is counted, its data are written when the verdict is in, and a
failure ends it with its record and its count. -/

namespace Sys2Proof.Machine

/-! ### Messages of a collective -/

/-- What a message to a position is sent as: nothing where the position has no holder. -/
def collEmit (s : State) (b : CollBody) (x : Nat × CollMsg) : Option Emit :=
  (holderNode s (ownCopy s) x.1).map (fun n => .coll (collChannel b) n (nameThere s b) x.2)

theorem sendColl_eq (b : CollBody) (m : CollMsg) (s : State) (q : Nat) :
    sendColl b m s q = { s with out := s.out ++ (collEmit s b (q, m)).toList } := by
  unfold sendColl collEmit
  cases holderNode s (ownCopy s) q with
  | none => simp
  | some n => rfl

/-- Messages of a collective go out one after another, and nothing else changes. -/
theorem sendColls_eq (b : CollBody) (l : List (Nat × CollMsg)) (s : State) :
    l.foldl (fun s x => sendColl b x.2 s x.1) s = { s with out := s.out ++ l.filterMap (collEmit s b) } := by
  induction l generalizing s with
  | nil => simp
  | cons x l ih =>
    rw [List.foldl_cons, ih, sendColl_eq]
    have hemit (o : List Emit) : collEmit { s with out := o } b = collEmit s b := rfl
    rw [hemit]
    cases h : collEmit s b x with
    | none => simp [h]
    | some e => simp [h, hemit (s.out ++ [e])]

/-- As `sendColls_eq`, for values. -/
theorem sendValues_eq (b : CollBody) (ms : List (Nat × ValueMsg)) (s : State) :
    ms.foldl (fun s m => sendColl b (.value m.2) s m.1) s =
      { s with out := s.out ++ ms.filterMap (fun m => collEmit s b (m.1, .value m.2)) } := by
  have h := sendColls_eq b (ms.map (fun m => (m.1, CollMsg.value m.2))) s
  rw [List.foldl_map, List.filterMap_map] at h
  exact h

theorem sendAll_eq (b : CollBody) (m : CollMsg) (s : State) :
    sendAll b m s = { s with out := s.out ++ ((collOthers s b).map (fun q => (q, m))).filterMap (collEmit s b) } := by
  rw [← sendColls_eq, List.foldl_map]
  rfl

/-- Every other member with a holder is told. -/
theorem sendAll_tells {b : CollBody} {m : CollMsg} {s : State} {p : Nat} {n : BitVec 15} (hp : p ∈ collOthers s b)
    (hn : holderNode s (ownCopy s) p = some n) : .coll (collChannel b) n (nameThere s b) m ∈ (sendAll b m s).out := by
  rw [sendAll_eq]
  refine List.mem_append_right _ (List.mem_filterMap.mpr ⟨(p, m), List.mem_map_of_mem hp, ?_⟩)
  simp [collEmit, hn]

/-! ### A collective that goes on -/

section
variable {c : Coll} {s : State} {source : W16}

theorem collArrive_lacks {m : CollMsg} (hcolls : s.unlia.colls = [c]) (hact : c.active = true) (hlacks : c.lacks source m = true) :
    collArrive (collName c.body) source m s = takeMsg c source m s := by
  simp [collArrive, hcolls, hact, hlacks]

theorem collArrive_early {name : CollName} {m : CollMsg} (hcolls : s.unlia.colls = []) (hkeep : keepsEarly s name m = true) :
    collArrive name source m s = { s with unlia := { s.unlia with early := s.unlia.early ++ [(name, source, m)] } } := by
  simp [collArrive, hcolls, hkeep]

theorem keepsEarly_group {g : W16} {seq : W32} (m : CollMsg) (hg : g.toNat < 1024) (hseq : seqOpen seq (group s g.toNat).nextSeq = true) :
    keepsEarly s (.group g seq) m = true := by
  have h : keepsEarly s (.group g seq) m = (decide (g.toNat < 1024) && seqOpen seq (group s g.toNat).nextSeq) := rfl
  rw [h, hseq, Bool.and_true]
  exact decide_eq_true hg

/-- What a collective sends depends on its descriptor, its values and whether its source has been read. -/
theorem collSends_congr {c' : Coll} (hb : c'.body = c.body) (hn : c'.nodes = c.nodes) (hr : c'.reading = c.reading) :
    collSends s c' = collSends s c := by
  simp only [collSends, leafSends, hb, hn, hr]

theorem advanceColl_sends (hv : passVerdict c s = (c, s)) (hr : c.reading = false) : advanceColl c s = sendStages c s := by
  simp only [advanceColl, hv, hr, Bool.false_eq_true, false_and, if_false]

/-- A collective whose every stage has been sent has nothing left but its end. -/
theorem sendStages_quiet (hsent : ∀ x ∈ collSends s c, c.sent.contains x.1 = true) : sendStages c s = finishColl c (putColl c s) := by
  have hnone : (collSends s c).filter (fun x => !c.sent.contains x.1) = [] :=
    List.filter_eq_nil_iff.mpr (fun x hx => by rw [hsent x hx]; decide)
  simp only [sendStages, hnone, List.map_nil, List.flatten_nil, List.append_nil, if_true, List.foldl_nil]

theorem finishColl_waits (h : c.agreed = false) : finishColl c s = s := by
  simp [finishColl, h]

/-- The only collective, replaced. -/
theorem putColl_only {c' : Coll} (hcolls : s.unlia.colls = [c]) (hid : c'.id = c.id) :
    putColl c' s = { s with unlia := { s.unlia with colls := [c'] } } := by
  simp [putColl, hcolls, hid]

/-- While the verdict is out a collective that lacks nothing to send is only replaced. -/
theorem advanceColl_counts {c' : Coll} (hcolls : s.unlia.colls = [c]) (hid : c'.id = c.id) (hagreed : c'.agreed = false)
    (hv : passVerdict c' s = (c', s)) (hr : c'.reading = false) (hsent : ∀ x ∈ collSends s c', c'.sent.contains x.1 = true) :
    advanceColl c' s = { s with unlia := { s.unlia with colls := [c'] } } := by
  rw [advanceColl_sends hv hr, sendStages_quiet hsent, finishColl_waits hagreed, putColl_only hcolls hid]

theorem completes_collDigest_counts (hcolls : s.unlia.colls = [c]) (hact : c.active = true) (hagreed : c.agreed = false)
    (hr : c.reading = false) (hnew : c.digests.contains source = false) (hsent : ∀ x ∈ collSends s c, c.sent.contains x.1 = true)
    (hv : passVerdict { c with last := s.tick, digests := c.digests ++ [source] } s =
      ({ c with last := s.tick, digests := c.digests ++ [source] }, s)) :
    Completes (.collDigest { name := collName c.body, source := source } (.digest (partnerHash s c.body))) s (fun t =>
      t.unlia.colls = [{ c with last := s.tick, digests := c.digests ++ [source] }] ∧
      SameMemory s t ∧ t.out = s.out ∧ t.dealer = s.dealer ∧ t.host = s.host) := by
  have hrun : collArrive (collName c.body) source (.digest (.digest (partnerHash s c.body))) s =
      { s with unlia := { s.unlia with colls := [{ c with last := s.tick, digests := c.digests ++ [source] }] } } := by
    rw [collArrive_lacks hcolls hact (by rw [Coll.lacks, hnew]; rfl)]
    simp only [takeMsg, ne_eq, not_true_eq_false, if_false]
    refine advanceColl_counts hcolls rfl hagreed hv hr (fun x hx => hsent x ?_)
    rwa [collSends_congr (c := c) (by rfl) (by rfl) (by rfl)] at hx
  exact Completes.intro (congrArg Host.Outcome.next hrun) ⟨rfl, fun _ => rfl, rfl, rfl, rfl⟩

theorem completes_collMessage_counts (hcolls : s.unlia.colls = [c]) (hact : c.active = true) (hagreed : c.agreed = false) (l i : Nat)
    (ws : List W32) (hr : c.reading = false) (hnew : nodeAt c.nodes l i = none)
    (hsent : ∀ x ∈ collSends s { c with nodes := c.nodes ++ [(l, i, ws)] }, c.sent.contains x.1 = true)
    (hv : passVerdict { c with last := s.tick, nodes := c.nodes ++ [(l, i, ws)] } s =
      ({ c with last := s.tick, nodes := c.nodes ++ [(l, i, ws)] }, s)) :
    Completes (.collMessage { name := collName c.body, source := source } l i (.elements ws)) s (fun t =>
      t.unlia.colls = [{ c with last := s.tick, nodes := c.nodes ++ [(l, i, ws)] }] ∧
      SameMemory s t ∧ t.out = s.out ∧ t.dealer = s.dealer ∧ t.host = s.host) := by
  have hrun : collArrive (collName c.body) source (.value (.value l i ws)) s =
      { s with unlia := { s.unlia with colls := [{ c with last := s.tick, nodes := c.nodes ++ [(l, i, ws)] }] } } := by
    rw [collArrive_lacks hcolls hact (by simp [Coll.lacks, hnew])]
    refine advanceColl_counts hcolls rfl hagreed hv hr (fun x hx => hsent x ?_)
    rwa [collSends_congr (c := { c with nodes := c.nodes ++ [(l, i, ws)] }) (by rfl) (by rfl) (by rfl)] at hx
  exact Completes.intro (congrArg Host.Outcome.next hrun) ⟨rfl, fun _ => rfl, rfl, rfl, rfl⟩

/-- A collective that may read its source, and finds it good, holds its own values. -/
theorem advanceColl_granted (hv : passVerdict c s = (c, s)) (hr : c.reading = true) (hg : c.granted = true)
    (hread : engineReadSet (rangeSet s (collSources s c.body)) .clean s = .good s) :
    advanceColl c s = sendStages { c with reading := false, nodes := c.nodes ++ ownNodes s c.body } s := by
  simp only [advanceColl, hv, hr, hg, hread, or_true, and_self, if_true]

/-- A SEND that holds its source sends every die's elements to its partner. -/
theorem collSends_send (hkind : c.body.kind = 6) (hr : c.reading = false) (hnodes : c.nodes = ownNodes s c.body) :
    collSends s c = [(0, (collDies c.body).map (fun d => (c.body.peer.toNat, .value 0 d (sourceWords s c.body d))))] := by
  have hp2p : isP2p c.body = true := by simp [isP2p, hkind]
  have hred : isReduction c.body = false := by simp [isReduction, hkind]
  have hown : ownNodes s c.body = (collDies c.body).map (fun d => (0, d, sourceWords s c.body d)) := by simp [ownNodes, hp2p]
  have hkind7 : ¬c.body.kind = 7 := by rw [hkind]; decide
  simp only [collSends, hred, hr, hkind7, Bool.false_eq_true, if_false, false_and, or_self]
  congr 1
  simp [leafSends, collOthers, hp2p, hkind, hnodes, hown]

theorem completes_collGrant (hcolls : s.unlia.colls = [c]) (hact : c.active = true) (hagreed : c.agreed = false) (n : BitVec 15)
    (hkind : c.body.kind = 6) (hgranted : c.granted = false) (hr : c.reading = true) (hnodes : c.nodes = []) (hsent : c.sent = [])
    (hv : passVerdict { c with last := s.tick, granted := true } s = ({ c with last := s.tick, granted := true }, s))
    (hread : engineReadSet (rangeSet s (collSources s c.body)) .clean s = .good s)
    (hn : holderNode s (ownCopy s) c.body.peer.toNat = some n) :
    Completes (.collGrant { name := collName c.body, source := source }) s (fun t =>
      t.unlia.colls = [{ c with last := s.tick, granted := true, reading := false, nodes := ownNodes s c.body, sent := [0] }] ∧
      SameMemory s t ∧ t.host = s.host ∧ t.dealer = s.dealer ∧
      t.out = s.out ++ (collDies c.body).map (fun d =>
        .coll (collChannel c.body) n (nameThere s c.body) (.value (.value 0 d (sourceWords s c.body d))))) := by
  let c1 : Coll := { c with last := s.tick, granted := true, reading := false, nodes := ownNodes s c.body }
  have hunsent : (collSends s c1).filter (fun x => !c1.sent.contains x.1) =
      [(0, (collDies c.body).map (fun d => (c.body.peer.toNat, .value 0 d (sourceWords s c.body d))))] := by
    rw [collSends_send (c := c1) hkind rfl rfl]
    simp [c1, hsent]
  have hemits : ((collDies c.body).map (fun d => (c.body.peer.toNat, ValueMsg.value 0 d (sourceWords s c.body d)))).filterMap
      (fun m => collEmit s c.body (m.1, .value m.2)) =
      (collDies c.body).map (fun d => .coll (collChannel c.body) n (nameThere s c.body) (.value (.value 0 d (sourceWords s c.body d)))) := by
    rw [List.filterMap_map]
    refine List.filterMap_eq_map_iff_forall_eq_some.mpr (fun d _ => ?_)
    simp [collEmit, hn]
  have hstages : sendStages c1 s =
      { s with
        out := s.out ++ (collDies c.body).map (fun d =>
          .coll (collChannel c.body) n (nameThere s c.body) (.value (.value 0 d (sourceWords s c.body d))))
        unlia := { s.unlia with colls := [{ c1 with sent := [0] }] } } := by
    simp only [sendStages, hunsent, List.map_cons, List.map_nil, List.flatten_cons, List.flatten_nil, List.append_nil]
    rw [sendValues_eq, hemits, finishColl_waits, putColl_only]
    · simp [c1, hsent]
    · exact hcolls
    · rfl
    · exact hagreed
  have hrun : collArrive (collName c.body) source .grant s = sendStages c1 s := by
    rw [collArrive_lacks hcolls hact (by simp [Coll.lacks, hkind, hgranted])]
    have hgoes := advanceColl_granted (c := { c with last := s.tick, granted := true }) hv hr rfl hread
    simp only [hnodes, List.nil_append] at hgoes
    simp only [takeMsg, hnodes]
    exact hgoes
  exact Completes.intro (congrArg Host.Outcome.next (hrun.trans hstages)) ⟨rfl, fun _ => rfl, rfl, rfl, rfl⟩

/-! ### The end -/

/-- With the verdict in and its data there a command's collective of one die ends in OK, its destination written. -/
theorem finishColl_done {k : Ticket} {d : Nat} (hact : c.active = true) (hagreed : c.agreed = true) (hready : dataReady s c = true)
    (hk : c.ticket = some k) (hp : c.prog = none) (hdie : collDies c.body = [d]) :
    finishColl c s = complete k Status.ok 0 (collNonfinite s c) (dropColl c (storeBg (collDst s c.body d).1 (collResult s c d) s)) := by
  have hgoes : collAbandoned s c = false := by simp [collAbandoned, hp]
  simp only [finishColl, hact, hagreed, hready, and_self, if_true, hgoes, Bool.false_eq_true, if_false, hdie, List.foldl_cons,
    List.foldl_nil, endColl_command hk hp]

theorem completes_collDigest_done {k : Ticket} {d : Nat} (hcolls : s.unlia.colls = [c]) (hact : c.active = true)
    (hagreed : c.agreed = false) (hr : c.reading = false) (hk : c.ticket = some k) (hp : c.prog = none)
    (herr : (queue s k.q).error = false) (hring : (queue s k.q).cqSize ≠ 0) (hdie : collDies c.body = [d])
    (hsent : ∀ x ∈ collSends s c, c.sent.contains x.1 = true) (hready : dataReady s c = true) :
    Completes (.collDigest { name := collName c.body, source := source } (.verdict true)) s (fun t =>
      Reported k Status.ok 0 s t ∧ t.unlia.colls = [] ∧ Filled (collDst s c.body d).1 (collResult s c d) s t ∧ t.units = s.units ∧
      t.tiers.objects = s.tiers.objects ∧ t.dealer.requests = s.dealer.requests) := by
  let c1 : Coll := { c with last := s.tick, agreed := true }
  let s1 : State := { s with unlia := { s.unlia with colls := [c1] } }
  let s2 := storeBg (collDst s c.body d).1 (collResult s c d) s1
  have hfinish : finishColl c1 s1 = complete k Status.ok 0 (collNonfinite s1 c1) (dropColl c1 s2) :=
    finishColl_done (c := c1) (s := s1) hact rfl hready hk hp hdie
  have hrun : collArrive (collName c.body) source (.digest (.verdict true)) s =
      complete k Status.ok 0 (collNonfinite s1 c1) (dropColl c1 s2) := by
    rw [collArrive_lacks hcolls hact (by rw [Coll.lacks, hagreed]; rfl), ← hfinish]
    have hv : passVerdict c1 s = (c1, s) := by simp [passVerdict, c1]
    have hsends : ∀ x ∈ collSends s c1, c1.sent.contains x.1 = true := fun x hx => hsent x (by
      rwa [collSends_congr (c := c) (c' := c1) rfl rfl rfl] at hx)
    have hput : putColl c1 s = s1 := putColl_only hcolls rfl
    rw [← hput, ← sendStages_quiet hsends, ← advanceColl_sends hv hr]
    rfl
  obtain ⟨hout, hhost, hunits, hunlia, -, hmem, hobjects, -⟩ := storeBg_frame (collDst s c.body d).1 (collResult s c d) s1
  refine Completes.intro (congrArg Host.Outcome.next hrun) ⟨?_, ?_, ?_, ?_, ?_, ?_⟩
  · have hqueue : queue (dropColl c1 s2) k.q = queue s k.q := queue_congr k.q (congrArg HostIf.queues hhost :)
    exact complete_reported_of_out hout (by rw [hqueue]; exact herr) (by rw [hqueue]; exact hring)
  · simp [dropColl, s2, s1]
  · exact filled_of_storeBg (u := s1) rfl rfl (by simp [dropColl, s2])
  · simp [dropColl, s2, s1]
  · simp [dropColl, s2, s1]
  · obtain ⟨-, -, hrequests, -⟩ := aside_storeBg (collDst s c.body d).1 (collResult s c d) s1
    simp only [complete_frame]
    exact hrequests

/-! ### Failures -/

/-- The destinations of a collective that fails, left undefined unless its digests did not agree. -/
def collUndefined (c : Coll) (st : Byte) (s : State) : State :=
  if st = Status.collMismatch then s else (collDests s c.body).foldl (fun s' x => undefineBytes x.1 x.2 s') s

theorem collUndefined_frame (c : Coll) (st : Byte) (s : State) :
    (collUndefined c st s).out = s.out ∧ (collUndefined c st s).host = s.host ∧ (collUndefined c st s).unlia = s.unlia := by
  have hstep (s : State) (x : Nat × Nat) : (undefineBytes x.1 x.2 s).out = s.out ∧ (undefineBytes x.1 x.2 s).host = s.host ∧
      (undefineBytes x.1 x.2 s).unlia = s.unlia := by simp [undefineBytes]
  unfold collUndefined
  split
  · exact ⟨rfl, rfl, rfl⟩
  · exact ⟨foldl_keeps State.out (fun s x => (hstep s x).1) _ s, foldl_keeps State.host (fun s x => (hstep s x).2.1) _ s,
      foldl_keeps State.unlia (fun s x => (hstep s x).2.2) _ s⟩

theorem breakColl_command {k : Ticket} (hk : c.ticket = some k) (hp : c.prog = none) (st : Byte) :
    breakColl st c s = complete k st 0 false (collFailed c st (collUndefined c st s)) := endColl_command hk hp st false _

/-- The failure of the only collective: its record, and the count of its status. -/
theorem breakColl_only {k : Ticket} {st : Byte} (hcolls : s.unlia.colls = [c]) {c' : Coll} (hid : c'.id = c.id) (hk : c'.ticket = some k)
    (hp : c'.prog = none) (herr : (queue s k.q).error = false) (hring : (queue s k.q).cqSize ≠ 0) :
    Reported k st 0 s (breakColl st c' s) ∧ (breakColl st c' s).unlia.colls = [] ∧
      (∀ i, collErrorIndex st = some i →
        Tab.get zero64 (breakColl st c' s).unlia.collErrors i = Tab.get zero64 s.unlia.collErrors i + 1) := by
  obtain ⟨hout, hhost, hunlia⟩ := collUndefined_frame c' st s
  rw [breakColl_command hk hp]
  refine ⟨?_, ?_, fun i hi => ?_⟩
  · have hqueue : queue (collFailed c' st (collUndefined c' st s)) k.q = queue s k.q := queue_congr k.q (congrArg HostIf.queues hhost :)
    exact complete_reported_of_out hout (by rw [hqueue]; exact herr) (by rw [hqueue]; exact hring)
  · simp [collFailed, hunlia, hcolls, hid]
  · simp [collFailed, hunlia, hi, bump, Tab.get_mod]

/-- A collective whose digests do not agree leaves its destinations unchanged (R355). -/
theorem breakColl_mismatch_memory {k : Ticket} (hk : c.ticket = some k) (hp : c.prog = none) :
    (breakColl Status.collMismatch c s).tiers = s.tiers := by
  rw [breakColl_command hk hp]
  simp [collFailed, collUndefined]

theorem out_of_reported {k : Ticket} {st : Byte} {r : W64} {t : State} {e : Emit} (h : Reported k st r s t) (he : e ∈ s.out) : e ∈ t.out := by
  obtain ⟨fl, addr, rest, hout⟩ := h
  rw [hout]
  exact List.mem_append_left _ he

section
variable {k : Ticket} (hcolls : s.unlia.colls = [c]) (hact : c.active = true) (hk : c.ticket = some k) (hp : c.prog = none)
  (herr : (queue s k.q).error = false) (hring : (queue s k.q).cqSize ≠ 0)
include hcolls hact hk hp herr hring

/-- A digest that does not agree ends the collective, and every other member is told. -/
theorem completes_collDigest_mismatch (d : W64) (hd : d ≠ partnerHash s c.body) (hnew : c.digests.contains source = false) :
    Completes (.collDigest { name := collName c.body, source := source } (.digest d)) s (fun t =>
      Reported k Status.collMismatch 0 (sendAll c.body (.digest (.verdict false)) s) t ∧ t.unlia.colls = [] ∧ SameMemory s t ∧
      (∀ p ∈ collOthers s c.body, ∀ n, holderNode s (ownCopy s) p = some n →
        .coll (collChannel c.body) n (nameThere s c.body) (.digest (.verdict false)) ∈ t.out) ∧
      Tab.get zero64 t.unlia.collErrors 0 = Tab.get zero64 s.unlia.collErrors 0 + 1) := by
  let c1 : Coll := { c with last := s.tick }
  let s1 := sendAll c.body (.digest (.verdict false)) s
  have hs1 : s1 = _ := sendAll_eq c.body (.digest (.verdict false)) s
  have hrun : collArrive (collName c.body) source (.digest (.digest d)) s = breakColl Status.collMismatch c1 s1 := by
    rw [collArrive_lacks hcolls hact (by rw [Coll.lacks, hnew]; rfl)]
    exact if_pos hd
  obtain ⟨hrep, hnone, hcount⟩ := breakColl_only (st := Status.collMismatch) (s := s1) (c := c) (c' := c1) (k := k)
    (by rw [hs1]; exact hcolls) rfl hk hp (by rw [hs1]; exact herr) (by rw [hs1]; exact hring)
  refine Completes.intro (congrArg Host.Outcome.next hrun) ⟨hrep, hnone, ?_, fun p hpos n hn => out_of_reported hrep (sendAll_tells hpos hn), ?_⟩
  · refine sameMemory_of_mem (congrArg Tiers.mem ?_)
    rw [breakColl_mismatch_memory (c := c1) hk hp, hs1]
  · rw [hcount 0 rfl, hs1]

theorem completes_collDigest_refused (hagreed : c.agreed = false) :
    Completes (.collDigest { name := collName c.body, source := source } (.verdict false)) s (fun t =>
      Reported k Status.collMismatch 0 s t ∧ t.unlia.colls = [] ∧ SameMemory s t ∧
      Tab.get zero64 t.unlia.collErrors 0 = Tab.get zero64 s.unlia.collErrors 0 + 1) := by
  have hrun : collArrive (collName c.body) source (.digest (.verdict false)) s =
      breakColl Status.collMismatch { c with last := s.tick } s := by
    rw [collArrive_lacks hcolls hact (by rw [Coll.lacks, hagreed]; rfl)]
    rfl
  obtain ⟨hrep, hnone, hcount⟩ := breakColl_only (st := Status.collMismatch) (c' := { c with last := s.tick }) hcolls rfl hk hp herr hring
  refine Completes.intro (congrArg Host.Outcome.next hrun) ⟨hrep, hnone, sameMemory_of_mem (congrArg Tiers.mem ?_), hcount 0 rfl⟩
  exact breakColl_mismatch_memory (c := { c with last := s.tick }) hk hp

theorem completes_collAbort :
    Completes (.collAbort { name := collName c.body, source := source }) s (fun t =>
      Reported k Status.collStall 0 s t ∧ t.unlia.colls = [] ∧
      Tab.get zero64 t.unlia.collErrors 1 = Tab.get zero64 s.unlia.collErrors 1 + 1) := by
  have hrun : collArrive (collName c.body) source .abort s = breakColl Status.collStall { c with last := s.tick } s :=
    collArrive_lacks hcolls hact rfl
  obtain ⟨hrep, hnone, hcount⟩ := breakColl_only (st := Status.collStall) (c' := { c with last := s.tick }) hcolls rfl hk hp herr hring
  exact Completes.intro (congrArg Host.Outcome.next hrun) ⟨hrep, hnone, hcount 1 rfl⟩

theorem completes_collStallTimeout (hquiet : collQuiet s c = true) :
    Completes (.collStallTimeout c.id) s (fun t =>
      Reported k Status.collStall 0 (sendAll c.body .abort s) t ∧ t.unlia.colls = [] ∧
      Tab.get zero64 t.unlia.collErrors 1 = Tab.get zero64 s.unlia.collErrors 1 + 1) := by
  have hs1 := sendAll_eq c.body .abort s
  have hrun : exec (.collStallTimeout c.id) s = .next (breakColl Status.collStall c (sendAll c.body .abort s)) := by
    simp [exec, execCollStallTimeout, collAt, hcolls, hact, hquiet]
  obtain ⟨hrep, hnone, hcount⟩ := breakColl_only (st := Status.collStall) (s := sendAll c.body .abort s) (c := c) (c' := c) (k := k)
    (by rw [hs1]; exact hcolls) rfl hk hp (by rw [hs1]; exact herr) (by rw [hs1]; exact hring)
  refine Completes.intro hrun ⟨hrep, hnone, ?_⟩
  rw [hcount 1 rfl, hs1]

theorem completes_collMessage_poisoned (l i : Nat) :
    Completes (.collMessage { name := collName c.body, source := source } l i .poisoned) s (fun t =>
      Reported k Status.objectPoisoned 0 s t ∧ t.unlia.colls = []) := by
  have hrun : collArrive (collName c.body) source (.value .poisoned) s = breakColl Status.objectPoisoned { c with last := s.tick } s :=
    collArrive_lacks hcolls hact rfl
  obtain ⟨hrep, hnone, -⟩ := breakColl_only (st := Status.objectPoisoned) (c' := { c with last := s.tick }) hcolls rfl hk hp herr hring
  exact Completes.intro (congrArg Host.Outcome.next hrun) ⟨hrep, hnone⟩

end

theorem exec_collStallTimeout_moving (hcolls : s.unlia.colls = [c]) (hquiet : collQuiet s c = false) :
    exec (.collStallTimeout c.id) s = .next s := by
  simp [exec, execCollStallTimeout, collAt, hcolls, hquiet]

end

/-- Settles O13: what each message counts, and the four ways in which a started collective ends. -/
theorem collectivesRun : Obligations.CollectivesRun := by
  unfold Obligations.CollectivesRun
  refine ⟨⟨fun c source s hcolls hact hagreed => ⟨completes_collDigest_counts hcolls hact hagreed,
      completes_collMessage_counts hcolls hact hagreed, fun n hkind hgranted _ => completes_collGrant hcolls hact hagreed n hkind hgranted⟩,
      fun g source seq m s hcolls hg hseq => ?_⟩,
    fun c k d source s hcolls hact hagreed hr hk hp herr hring hdie =>
      completes_collDigest_done hcolls hact hagreed hr hk hp herr hring hdie,
    fun c k source s hcolls hact hk hp herr hring => ⟨completes_collDigest_mismatch hcolls hact hk hp herr hring,
      completes_collDigest_refused hcolls hact hk hp herr hring, completes_collAbort hcolls hact hk hp herr hring,
      completes_collStallTimeout hcolls hact hk hp herr hring, exec_collStallTimeout_moving hcolls,
      completes_collMessage_poisoned hcolls hact hk hp herr hring⟩⟩
  exact congrArg Host.Outcome.next (collArrive_early hcolls (keepsEarly_group (.digest m) hg hseq))

end Sys2Proof.Machine
end

section
/-! SUPPORT. The registers of the module's controls (R334, R359, R369, R382, R423, R473, R475): the warm reset request, the Unlia ports, the
twin unit, replay, debug and the pins. -/

namespace Sys2Proof.Machine

section
variable {f : Fn} {s : State}

/-! ### The warm reset request and the ports -/

theorem exec_warmResetRequest {v : W32} (hc : controls s f .resetCtrl = true) :
    exec (.warmResetRequest f v) s = .next (if v.getLsbD 0 = true then requestWarm 1 s else s) :=
  congrArg Host.Outcome.next (guarded_control_of_controls hc)

theorem completes_warmResetRequest {v : W32} (hc : controls s f .resetCtrl = true) (hbit : v.getLsbD 0 = true) (hcan : canWarm s = true)
    (hheld : s.resets.warmHeld = false) (hnone : s.resets.warmAt = none) :
    Completes (.warmResetRequest f v) s (fun t => t.resets.warmAt = some s.tick ∧ t.resets.warmCauses = 2 ∧
      t.resets.mgood = s.resets.mgood ∧ t.dealer = s.dealer ∧ t.units = s.units ∧ t.tiers = s.tiers ∧ t.host = s.host) := by
  have hrun : requestWarm 1 s = score 0 2 0x0006 0 [2] (setResets (fun r => { r with warmAt := some s.tick, warmCauses := 2 }) s) := by
    simp only [requestWarm, hcan, hheld, hnone, not_true_eq_false, Bool.false_eq_true, if_false]
    rfl
  refine Completes.intro ((exec_warmResetRequest hc).trans (congrArg _ ((if_pos hbit).trans hrun))) ?_
  simp [setResets]

theorem exec_warmResetRequest_clear {v : W32} (hc : controls s f .resetCtrl = true) (hbit : v.getLsbD 0 = false) :
    exec (.warmResetRequest f v) s = .next s :=
  (exec_warmResetRequest hc).trans (congrArg _ (if_neg (Bool.eq_false_iff.mp hbit)))

/-- A write of a port's control that changes its own port alone. -/
theorem setUPort_others (u : Nat) (g : UPort → UPort) (s : State) :
    (∀ w, w ≠ u → uport (setUPort u g s) w = uport s w) ∧ (setUPort u g s).dealer = s.dealer ∧ (setUPort u g s).tiers = s.tiers ∧
      (setUPort u g s).unlia.routes = s.unlia.routes :=
  ⟨fun w hw => by rw [uport_setUPort, if_neg (Ne.symm hw)], rfl, rfl, rfl⟩

theorem exec_portEnableWrite {u : Nat} (hu : u < 16) (hc : controls s f (.portCtrl u) = true) (b : Bool) :
    exec (.portEnableWrite f u b) s = .next (setPortEnable u b s) :=
  (withUnit_of_lt hu _ _).trans (congrArg _ (guarded_control_of_controls hc))

theorem completes_portEnableWrite_off {u : Nat} (hu : u < 16) (hc : controls s f (.portCtrl u) = true) :
    Completes (.portEnableWrite f u false) s (fun t => (uport t u).enable = false ∧
      ((uport s u).enable = true → (uport t u).state = .disabled ∧ (uport t u).replay = []) ∧
      (∀ w, w ≠ u → uport t w = uport s w) ∧ t.dealer = s.dealer ∧ t.tiers = s.tiers ∧ t.unlia.routes = s.unlia.routes) := by
  refine Completes.intro (exec_portEnableWrite hu hc false) ⟨?_, fun hon => ?_, setUPort_others u _ s⟩
  · rw [setPortEnable, uport_setUPort, if_pos rfl]
    cases hen : (uport s u).enable with
    | false => simp [hen]
    | true => simp
  · simp [setPortEnable, hon, linkDrop]

theorem completes_portEnableWrite_on {u : Nat} (hu : u < 16) (hc : controls s f (.portCtrl u) = true) :
    Completes (.portEnableWrite f u true) s (fun t => (uport t u).enable = true ∧
      ((uport s u).enable = false → (uport t u).state = if linkReady s u then .training else .down) ∧
      (∀ w, w ≠ u → uport t w = uport s w) ∧ t.dealer = s.dealer ∧ t.tiers = s.tiers ∧ t.unlia.routes = s.unlia.routes) := by
  refine Completes.intro (exec_portEnableWrite hu hc true) ⟨?_, fun hoff => ?_, setUPort_others u _ s⟩
  · rw [setPortEnable, uport_setUPort, if_pos rfl]
    cases hen : (uport s u).enable with
    | false => simp
    | true => simp [hen]
  · simp [setPortEnable, hoff]

theorem completes_portEncryptWrite {u : Nat} (hu : u < 16) (hc : controls s f (.portCtrl u) = true) (b : Bool) :
    Completes (.portEncryptWrite f u b) s (fun t => (uport t u).encrypt = b ∧
      ((uport s u).encrypt ≠ b → (uport s u).state = .up → (uport t u).state = .training) ∧
      ((uport s u).state ≠ .up → (uport t u).state = (uport s u).state) ∧
      (∀ w, w ≠ u → uport t w = uport s w) ∧ t.dealer = s.dealer ∧ t.tiers = s.tiers ∧ t.unlia.routes = s.unlia.routes) := by
  refine Completes.intro (t := setPortEncrypt u b s) ((withUnit_of_lt hu _ _).trans (congrArg _ (guarded_control_of_controls hc))) ?_
  have hown : uport (setPortEncrypt u b s) u =
      if b = (uport s u).encrypt then uport s u
      else if (uport s u).state = .up then { linkDrop .training (uport s u) with encrypt := b } else { uport s u with encrypt := b } := by
    rw [setPortEncrypt, uport_setUPort, if_pos rfl]
  refine ⟨?_, fun hne hup => ?_, fun hdown => ?_, setUPort_others u _ s⟩
  · rw [hown]
    split
    next h => exact h.symm
    next h =>
      split
      · rfl
      · rfl
  · rw [hown, if_neg (Ne.symm hne), if_pos hup]
    rfl
  · rw [hown, if_neg hdown]
    split
    · rfl
    · rfl

/-! ### Twin, replay, debug, pins -/

/-- MATCHED_STEP restarts, or stays. -/
theorem restartMatch_spec (p : Prop) [Decidable p] (s : State) :
    (if p then restartMatch s else s).conceal.mismatch = s.conceal.mismatch ∧
      (s.conceal.matched = s.dealer.stepNumber → (if p then restartMatch s else s).conceal.matched = s.dealer.stepNumber) ∧
      (if p then restartMatch s else s).dealer = s.dealer ∧ (if p then restartMatch s else s).units = s.units ∧
      (if p then restartMatch s else s).tiers = s.tiers := by
  split
  · exact ⟨rfl, fun _ => rfl, rfl, rfl, rfl⟩
  · exact ⟨rfl, fun h => h, rfl, rfl, rfl⟩

/-- TWIN_CTRL once RESUME has been served. -/
def twinSet (v : Nat) (s : State) : State :=
  let t := if wbit v 0 ∧ ¬s.conceal.armed then restartMatch s else s
  { t with conceal := { t.conceal with armed := wbit v 0, window := BitVec.ofNat 8 (v / 2) } }

theorem twinSet_spec (v : Nat) (s : State) :
    (twinSet v s).conceal.mismatch = s.conceal.mismatch ∧
      (s.conceal.matched = s.dealer.stepNumber → (twinSet v s).conceal.matched = s.dealer.stepNumber) ∧
      (twinSet v s).conceal.armed = wbit v 0 ∧ (twinSet v s).conceal.window = BitVec.ofNat 8 (v / 2) ∧
      (twinSet v s).dealer = s.dealer ∧ (twinSet v s).units = s.units ∧ (twinSet v s).tiers = s.tiers := by
  obtain ⟨hmis, hmatched, hd, hn, ht⟩ := restartMatch_spec (wbit v 0 = true ∧ ¬s.conceal.armed = true) s
  exact ⟨hmis, hmatched, rfl, rfl, hd, hn, ht⟩

theorem exec_twinResume {v : W32} (hc : controls s f .twinCtrl = true) (hwindow : v.toNat / 2 % 256 ≠ 0) :
    exec (.twinResume f v) s = .next (twinSet v.toNat (if wbit v.toNat 9 then resumeTwin s else s)) :=
  congrArg Host.Outcome.next ((guarded_control_of_controls hc).trans (if_neg hwindow))

theorem completes_twinResume {v : W32} (hc : controls s f .twinCtrl = true) (hwindow : v.toNat / 2 % 256 ≠ 0) (hresume : v.getLsbD 9 = true) :
    Completes (.twinResume f v) s (fun t =>
      t.conceal.mismatch = false ∧ t.conceal.matched = s.dealer.stepNumber ∧ t.conceal.armed = v.getLsbD 0 ∧
      t.conceal.window = BitVec.ofNat 8 (v.toNat / 2) ∧ t.dealer = s.dealer ∧ t.units = s.units ∧ t.tiers = s.tiers) := by
  obtain ⟨hmis, hmatched, harmed, hw, hd, hn, ht⟩ := twinSet_spec v.toNat (resumeTwin s)
  exact Completes.intro ((exec_twinResume hc hwindow).trans (congrArg _ (congrArg _ (if_pos hresume))))
    ⟨hmis, hmatched rfl, harmed, hw, hd, hn, ht⟩

theorem completes_twinWrite {v : W32} (hc : controls s f .twinCtrl = true) (hwindow : v.toNat / 2 % 256 ≠ 0) (hstay : v.getLsbD 9 = false) :
    Completes (.twinResume f v) s (fun t =>
      t.conceal.mismatch = s.conceal.mismatch ∧ t.conceal.armed = v.getLsbD 0 ∧ t.conceal.window = BitVec.ofNat 8 (v.toNat / 2) ∧
      t.dealer = s.dealer ∧ t.units = s.units ∧ t.tiers = s.tiers) := by
  obtain ⟨hmis, -, harmed, hw, hd, hn, ht⟩ := twinSet_spec v.toNat s
  exact Completes.intro ((exec_twinResume hc hwindow).trans (congrArg _ (congrArg _ (if_neg (Bool.eq_false_iff.mp hstay)))))
    ⟨hmis, harmed, hw, hd, hn, ht⟩

theorem exec_twinResume_rejects {v : W32} (hc : controls s f .twinCtrl = true) (hwindow : v.toNat / 2 % 256 = 0) :
    exec (.twinResume f v) s = .next (reject f 0x4C0008 s) :=
  congrArg Host.Outcome.next ((guarded_control_of_controls hc).trans (if_pos hwindow))

theorem exec_debugCtrlArm {v : W32} (hc : controls s f .debugCtrl = true) :
    exec (.debugCtrlArm f v) s = .next (if s.glaren.unlocked.getLsbD 2 = true ∧ v.toNat % 128 ≤ 65
      then { s with glaren := { s.glaren with debugBlock := BitVec.ofNat 7 v.toNat, debugArm := v.getLsbD 7 } }
      else reject f 0x806004 s) := by
  refine congrArg Host.Outcome.next ((guarded_control_of_controls hc).trans ?_)
  by_cases hok : s.glaren.unlocked.getLsbD 2 = true ∧ v.toNat % 128 ≤ 65
  · rw [if_pos hok, if_neg (by rintro (h | h); exacts [h hok.1, Nat.not_lt.mpr hok.2 h])]
    rfl
  · rw [if_neg hok, if_pos]
    by_cases hopen : s.glaren.unlocked.getLsbD 2 = true
    · exact .inr (Nat.lt_of_not_le (fun h => hok ⟨hopen, h⟩))
    · exact .inl hopen

theorem exec_pipSelectWrite {i : Nat} {v : W32} (hi : i < 4) (hr : reaches s f (.pipSelect i) = true) :
    exec (.pipSelectWrite f i v) s = .next (writePip f (0x806008 + 8 * i) i v.toNat s) :=
  (withUnit_of_lt hi _ _).trans (congrArg _ (if_pos hr))

theorem completes_pipSelectWrite {i : Nat} {v : W32} (hi : i < 4) (hr : reaches s f (.pipSelect i) = true) (hok : pipOk s v.toNat = true) :
    Completes (.pipSelectWrite f i v) s (fun t =>
      Tab.get (fun _ => Pip.cold) t.glaren.pips i = {
        group := BitVec.ofNat 8 v.toNat, bit := BitVec.ofNat 5 (v.toNat / 256), mode := BitVec.ofNat 2 (v.toNat / 8192),
        param := BitVec.ofNat 8 (v.toNat / 32768) } ∧
      (∀ j, j ≠ i → Tab.get (fun _ => Pip.cold) t.glaren.pips j = Tab.get (fun _ => Pip.cold) s.glaren.pips j) ∧
      t.dealer = s.dealer ∧ t.host = s.host) := by
  refine Completes.intro ((exec_pipSelectWrite hi hr).trans (congrArg _ (if_pos hok))) ⟨?_, fun j hj => ?_, rfl, rfl⟩
  · rw [Tab.get_set, if_pos rfl]
  · rw [Tab.get_set, if_neg (Ne.symm hj)]

end

/-- Settles O24: each control is one update of its port or a warm request. -/
theorem portAndResetControls : Obligations.PortAndResetControls := by
  unfold Obligations.PortAndResetControls
  exact fun f s => ⟨fun v => completes_warmResetRequest, fun v => exec_warmResetRequest_clear, fun u hu hc =>
    ⟨completes_portEnableWrite_off hu hc, completes_portEnableWrite_on hu hc, completes_portEncryptWrite hu hc⟩⟩

/-- Settles O25: each write reaches its own record's fields, or is rejected. -/
theorem twinAndDebugControls : Obligations.TwinAndDebugControls := by
  unfold Obligations.TwinAndDebugControls
  exact fun f s => ⟨fun v => completes_twinResume, fun v => completes_twinWrite, fun v => exec_twinResume_rejects,
    fun v hc => congrArg Host.Outcome.next (guarded_control_of_controls hc), fun v => exec_debugCtrlArm,
    fun i v hi hr hbad => (exec_pipSelectWrite hi hr).trans (congrArg _ (if_neg (Bool.eq_false_iff.mp hbad))),
    fun i v => completes_pipSelectWrite⟩

end Sys2Proof.Machine
end

section
/-! SUPPORT. The move (R406, R407): the four requests by EPOCH, holder and lease. -/

namespace Sys2Proof.Machine

/-! ### Events and the host's tables -/

theorem raiseEventAt_host (p : Port) (n : Nat) (s : State) :
    (raiseEventAt p n s).host.queues = s.host.queues ∧ (raiseEventAt p n s).host.marks = s.host.marks := by
  unfold raiseEventAt
  dsimp only
  split
  · exact ⟨by simp, by simp⟩
  · exact ⟨rfl, rfl⟩

theorem raiseEvent_host (n : Nat) (s : State) :
    (raiseEvent n s).host.queues = s.host.queues ∧ (raiseEvent n s).host.marks = s.host.marks := by
  obtain ⟨hq, hm⟩ := raiseEventAt_host .A n s
  obtain ⟨hq', hm'⟩ := raiseEventAt_host .B n (raiseEventAt .A n s)
  exact ⟨hq'.trans hq, hm'.trans hm⟩

/-! ### A request that is decided at once -/

/-- What no move request touches. -/
def MoveAside (s t : State) : Prop :=
  t.dealer = s.dealer ∧ t.units = s.units ∧ t.tiers = s.tiers ∧ t.unlia = s.unlia ∧ t.conceal = s.conceal ∧
    t.host.queues = s.host.queues ∧ t.host.marks = s.host.marks

/-- The answer to port p's request. -/
def moveAnswered (p : Port) (r : MoveResult) (s : State) : State := setPort p (fun x => { x with result := r, heldMove := none }) s

/-- A new holder comes with a new EPOCH, and both hosts hear of it. -/
theorem changeHolder_spec (h : Option Port) (s : State) :
    (changeHolder h s).host.holder = h ∧ (changeHolder h s).host.epoch = s.host.epoch + 1 ∧ MoveAside s (changeHolder h s) ∧
      ∀ p, (portSt (changeHolder h s) p).events.getLsbD Event.moveChanged = true := by
  obtain ⟨hq, hm⟩ := raiseEvent_host Event.moveChanged (score 0 0 0x0009 0
    (stateData { s with host := { s.host with holder := h, epoch := s.host.epoch + 1, leaseStart := s.tick } })
    { s with host := { s.host with holder := h, epoch := s.host.epoch + 1, leaseStart := s.tick } })
  refine ⟨by simp [changeHolder], by simp [changeHolder], ⟨?_, ?_, ?_, ?_, ?_, hq.trans (by simp), hm.trans (by simp)⟩,
    fun p => raiseEvent_events (by decide) p _⟩
  all_goals simp [changeHolder]

section
variable {f : Fn} {s : State}

/-- A decided request: its result, the holder and the EPOCH, and what both hosts hear of a new holder. -/
def MoveGives (f : Fn) (s : State) (c : Instr) (r : MoveResult) (h : Option Port) (epoch : W32) : Prop :=
  Completes c s (fun t =>
    (portSt t f.port).result = r ∧ t.host.holder = h ∧ t.host.epoch = epoch ∧ t.dealer = s.dealer ∧ t.units = s.units ∧
    t.tiers = s.tiers ∧ t.unlia = s.unlia ∧ t.conceal = s.conceal ∧ t.host.queues = s.host.queues ∧ t.host.marks = s.host.marks ∧
    (h ≠ s.host.holder → ∀ p, (portSt t p).events.getLsbD Event.moveChanged = true))

/-- A request that leaves the holder. -/
theorem moveGives_same {c : Instr} {r : MoveResult} (h : exec c s = .next (moveAnswered f.port r s)) :
    MoveGives f s c r s.host.holder s.host.epoch :=
  Completes.intro h ⟨by simp [moveAnswered], rfl, rfl, rfl, rfl, rfl, rfl, rfl, rfl, rfl, fun hne => absurd rfl hne⟩

/-- A request that changes the holder. -/
theorem moveGives_change {c : Instr} {holder : Option Port} (h : exec c s = .next (moveAnswered f.port .granted (changeHolder holder s))) :
    MoveGives f s c .granted holder (s.host.epoch + 1) := by
  obtain ⟨hh, he, ⟨hd, hn, ht, hu, hc, hq, hm⟩, hev⟩ := changeHolder_spec holder s
  refine Completes.intro h ⟨by simp [moveAnswered], hh, he, hd, hn, ht, hu, hc, hq, hm, fun _ p => ?_⟩
  rw [moveAnswered, portSt_setPort]
  split
  · exact hev p
  · exact hev p

section
variable {e : W32} (hr : reaches s f .moveRequest = true) (hfree : (portSt s f.port).result ≠ .pending) (hg : s.resets.glarenReady = true)
include hr hfree hg

/-- With Glaren ready a request is decided at once. -/
theorem moveReq_decides (op : Nat) : moveReq f op e s = decideMove f.port op e s := by
  simp only [moveReq, guarded, if_pos hr, writeMove, if_neg hfree, if_pos hg]

theorem exec_move_stale (he : e ≠ s.host.epoch) (op : Nat) : moveReq f op e s = moveAnswered f.port .staleEpoch s := by
  rw [moveReq_decides hr hfree hg]
  exact if_pos he

theorem exec_moveAcquire (he : e = s.host.epoch) :
    exec (.moveAcquire f e) s = .next (if s.host.holder = none then moveAnswered f.port .granted (changeHolder (some f.port) s)
      else moveAnswered f.port .held s) :=
  congrArg Host.Outcome.next ((moveReq_decides hr hfree hg 0).trans (if_neg (not_not_intro he)))

theorem exec_moveRenew (he : e = s.host.epoch) :
    exec (.moveRenew f e) s = .next (if s.host.holder = some f.port
      then moveAnswered f.port .granted { s with host := { s.host with leaseStart := s.tick } } else moveAnswered f.port .notHolder s) :=
  congrArg Host.Outcome.next ((moveReq_decides hr hfree hg 1).trans (if_neg (not_not_intro he)))

theorem exec_moveRelease (he : e = s.host.epoch) :
    exec (.moveRelease f e) s = .next (if s.host.holder = some f.port then moveAnswered f.port .granted (changeHolder none s)
      else moveAnswered f.port .notHolder s) :=
  congrArg Host.Outcome.next ((moveReq_decides hr hfree hg 2).trans (if_neg (not_not_intro he)))

theorem exec_moveTake_free (he : e = s.host.epoch) (hh : s.host.holder = none) :
    exec (.moveTake f e) s = .next (moveAnswered f.port .granted (changeHolder (some f.port) s)) := by
  refine congrArg Host.Outcome.next ((moveReq_decides hr hfree hg 3).trans ((if_neg (not_not_intro he)).trans ?_))
  simp only [hh]
  rfl

theorem exec_moveTake_held (he : e = s.host.epoch) (hh : s.host.holder = some (Port.other f.port)) :
    exec (.moveTake f e) s = .next (if leaseOver s (Port.other f.port) = true
      then moveAnswered f.port .granted (changeHolder (some f.port) s) else moveAnswered f.port .held s) := by
  refine congrArg Host.Outcome.next ((moveReq_decides hr hfree hg 3).trans ((if_neg (not_not_intro he)).trans ?_))
  simp only [hh, ne_eq, Port.other_ne, not_false_eq_true, true_and]
  rfl

end

end

/-- Settles O22, by the operation and by who holds the move. -/
theorem moveRequests : Obligations.MoveRequests := by
  unfold Obligations.MoveRequests
  intro f e s hr hfree hg
  change (e ≠ s.host.epoch →
      MoveGives f s (.moveAcquire f e) .staleEpoch s.host.holder s.host.epoch ∧
      MoveGives f s (.moveRenew f e) .staleEpoch s.host.holder s.host.epoch ∧
      MoveGives f s (.moveRelease f e) .staleEpoch s.host.holder s.host.epoch ∧
      MoveGives f s (.moveTake f e) .staleEpoch s.host.holder s.host.epoch) ∧ _ ∧ _ ∧ _
  refine ⟨fun he => ?_, fun he hnone => ?_, fun he hown => ?_, fun he hother => ?_⟩
  · have hstale (op : Nat) := exec_move_stale hr hfree hg he op
    exact ⟨moveGives_same (congrArg _ (hstale 0)), moveGives_same (congrArg _ (hstale 1)), moveGives_same (congrArg _ (hstale 2)),
      moveGives_same (congrArg _ (hstale 3))⟩
  · exact ⟨moveGives_change ((exec_moveAcquire hr hfree hg he).trans (congrArg _ (if_pos hnone))),
      moveGives_change (exec_moveTake_free hr hfree hg he hnone)⟩
  · have hrenew := (exec_moveRenew hr hfree hg he).trans (congrArg _ (if_pos hown))
    have hheld : s.host.holder ≠ none := by rw [hown]; exact Option.some_ne_none _
    refine ⟨Completes.intro hrenew ⟨by simp [moveAnswered], hown, rfl, rfl, rfl, rfl, rfl, rfl, rfl, rfl, fun hne => absurd hown.symm hne⟩,
      moveGives_change ((exec_moveRelease hr hfree hg he).trans (congrArg _ (if_pos hown))), ?_, fun t ht => ?_⟩
    · have h := moveGives_same (f := f) ((exec_moveAcquire hr hfree hg he).trans (congrArg _ (if_neg hheld)))
      rwa [hown] at h
    · rw [hrenew] at ht
      obtain rfl := Host.Outcome.next.inj ht
      rfl
  · have hheld : s.host.holder ≠ none := by rw [hother]; exact Option.some_ne_none _
    have hnot : s.host.holder ≠ some f.port := by rw [hother]; simp
    exact ⟨moveGives_same ((exec_moveAcquire hr hfree hg he).trans (congrArg _ (if_neg hheld))),
      moveGives_same ((exec_moveRenew hr hfree hg he).trans (congrArg _ (if_neg hnot))),
      moveGives_same ((exec_moveRelease hr hfree hg he).trans (congrArg _ (if_neg hnot))),
      fun hover => moveGives_change ((exec_moveTake_held hr hfree hg he hother).trans (congrArg _ (if_pos hover))),
      fun hon => moveGives_same ((exec_moveTake_held hr hfree hg he hother).trans (congrArg _ (if_neg (Bool.eq_false_iff.mp hon))))⟩

end Sys2Proof.Machine
end

section
/-! SUPPORT. Queues and marks as registers (R393, R399 to R402): ENABLE, FLUSH, doorbells, owners, additions and notifications. -/

namespace Sys2Proof.Machine

theorem qOffset_eq (q r : Nat) : qOffset q r = 0x100000 + r + 0x1000 * q := by
  unfold qOffset
  omega

theorem mOffset_eq (m r : Nat) : mOffset m r = 0x200000 + r + 0x40 * m := by
  unfold mOffset
  omega

/-- An update of one queue leaves every other queue, and all that is not a queue. -/
theorem setQueue_others (q : Nat) (g : Queue → Queue) (s : State) :
    (∀ k, k ≠ q → queue (setQueue q g s) k = queue s k) ∧ (setQueue q g s).host.marks = s.host.marks ∧
      (setQueue q g s).dealer = s.dealer ∧ (setQueue q g s).out = s.out :=
  ⟨fun k hk => by rw [queue_setQueue, if_neg (Ne.symm hk)], rfl, rfl, rfl⟩

/-! ### The owner's writes -/

section
variable {f : Fn} {q : Nat} {s : State}

section
variable (hq : q < 256) (hr : reaches s f (.qCtrl q) = true)
include hq hr

theorem exec_qEnable (b : Bool) :
    exec (.qEnable f q b) s =
      .next (if (queue s q).owner = f then setEnable q b s else reject f (0x100000 + 0x1000 * q) s) :=
  (withUnit_of_lt hq _ _).trans (congrArg _ ((if_pos hr).trans (by rw [queueOwner, qOffset_eq])))

theorem exec_qFlush (hdrs : List Hdr) :
    exec (.qFlush f q hdrs) s =
      .next (if (queue s q).owner = f then flushQueue q hdrs s else reject f (0x100000 + 0x1000 * q) s) :=
  (withUnit_of_lt hq _ _).trans (congrArg _ ((if_pos hr).trans (by rw [queueOwner, qOffset_eq])))

theorem completes_qEnable_off (hown : (queue s q).owner = f) :
    Completes (.qEnable f q false) s (fun t => queue t q = { queue s q with enable := false, waiting := false } ∧
      (∀ k, k ≠ q → queue t k = queue s k) ∧ t.dealer = s.dealer ∧ t.out = s.out) := by
  obtain ⟨hothers, -, hdealer, hout⟩ := setQueue_others q (fun k => if !false then { k with enable := false, waiting := false } else k) s
  refine Completes.intro ((exec_qEnable hq hr false).trans (congrArg _ (if_pos hown))) ⟨?_, hothers, hdealer, hout⟩
  rw [setEnable, queue_setQueue, if_pos rfl]
  rfl

omit hq hr in
/-- ENABLE written 1 on a disabled queue takes its ring sizes. -/
theorem queue_setEnable (hoff : (queue s q).enable = false) {ok : Bool}
    (hok : (sizeOk (queue s q).sqSize.toNat && sizeOk (queue s q).cqSize.toNat && sizeOk (queue s q).orSize.toNat) = ok) :
    queue (setEnable q true s) q =
      { queue s q with enable := true, error := !ok, cause := if ok then 0 else 1, passBase := (queue s q).cqTail } := by
  rw [setEnable, queue_setQueue, if_pos rfl]
  simp only [hoff, hok, Bool.not_true, Bool.false_eq_true, if_false]

theorem completes_qEnable_on (hown : (queue s q).owner = f) (hoff : (queue s q).enable = false)
    (hsq : sizeOk (queue s q).sqSize.toNat = true) (hcq : sizeOk (queue s q).cqSize.toNat = true)
    (hor : sizeOk (queue s q).orSize.toNat = true) :
    Completes (.qEnable f q true) s (fun t =>
      queue t q = { queue s q with enable := true, error := false, cause := 0, passBase := (queue s q).cqTail } ∧
      (∀ k, k ≠ q → queue t k = queue s k) ∧ t.dealer = s.dealer ∧ t.out = s.out) := by
  refine Completes.intro ((exec_qEnable hq hr true).trans (congrArg _ (if_pos hown))) ⟨?_, fun k hk => ?_, rfl, rfl⟩
  · exact queue_setEnable hoff (ok := true) (by rw [hsq, hcq, hor]; rfl)
  · rw [setEnable, queue_setQueue, if_neg (Ne.symm hk)]

theorem completes_qEnable_badSize (hown : (queue s q).owner = f) (hoff : (queue s q).enable = false)
    (hcq : sizeOk (queue s q).cqSize.toNat = false) :
    Completes (.qEnable f q true) s (fun t => (queue t q).error = true ∧ (queue t q).cause = 1) := by
  refine Completes.intro ((exec_qEnable hq hr true).trans (congrArg _ (if_pos hown))) ?_
  rw [queue_setEnable hoff (ok := false) (by rw [hcq, Bool.and_false, Bool.false_and])]
  exact ⟨rfl, rfl⟩

end

theorem exec_sqDoorbell (hq : q < 256) (hr : reaches s f (.ringHost q 0) = true) (tail : W32) :
    exec (.sqDoorbell f q tail) s =
      .next (if (queue s q).owner = f then setQueue q (fun k => { k with sqTail := tail }) s else reject f (0x100018 + 0x1000 * q) s) :=
  (withUnit_of_lt hq _ _).trans (congrArg _ ((if_pos hr).trans (by rw [writeIndex, queueOwner, qOffset_eq]; rfl)))

theorem completes_sqDoorbell (hq : q < 256) (hr : reaches s f (.ringHost q 0) = true) (hown : (queue s q).owner = f) (tail : W32) :
    Completes (.sqDoorbell f q tail) s (fun t => queue t q = { queue s q with sqTail := tail } ∧
      (∀ k, k ≠ q → queue t k = queue s k) ∧ t.dealer = s.dealer ∧ t.out = s.out) := by
  obtain ⟨hothers, -, hdealer, hout⟩ := setQueue_others q (fun k => { k with sqTail := tail }) s
  refine Completes.intro ((exec_sqDoorbell hq hr tail).trans (congrArg _ (if_pos hown))) ⟨?_, hothers, hdealer, hout⟩
  rw [queue_setQueue, if_pos rfl]

/-! ### FLUSH (R399) -/

/-- One flushed command: its record, and SQ_HEAD and CQ_TAIL moved on. -/
theorem flushOne_spec (h : Hdr) (herr : (queue s q).error = false) (hring : (queue s q).cqSize ≠ 0) :
    queue (flushOne q h s) q =
        { queue s q with sqHead := (queue s q).sqHead + 1, cqTail := (queue s q).cqTail + 1, waiting := false } ∧
      (∀ k, k ≠ q → queue (flushOne q h s) k = queue s k) ∧ (flushOne q h s).host.marks = s.host.marks ∧
      (flushOne q h s).dealer = s.dealer ∧ (flushOne q h s).tiers = s.tiers ∧
      Reported (nextTicket s q h) Status.flushed 0 s (flushOne q h s) := by
  let begun (k : Queue) : Queue := { k with sqHead := k.sqHead + 1, inFlight := k.inFlight + 1, waiting := false }
  have hbegun : queue (setQueue q begun s) q = begun (queue s q) := by rw [queue_setQueue, if_pos rfl]
  have hrun : flushOne q h s = finish (nextTicket s q h) Status.flushed (setQueue q begun s) := rfl
  rw [hrun]
  refine ⟨?_, fun k hk => ?_, ?_, by simp, by simp, ?_⟩
  · rw [finish_queue, nextTicket, if_pos rfl, hbegun]
    simp [ended, begun, herr, show ¬(queue s q).cqSize = 0#17 from hring]
  · rw [finish_queue, nextTicket, if_neg (Ne.symm hk), queue_setQueue, if_neg (Ne.symm hk)]
  · rw [finish, complete_marks_same _ _ _ _ _ (by simp [Status.flushed, Status.ok, Status.cancelled, Status.lateCancel])]
    rfl
  · exact complete_reported_of_out rfl (by rw [nextTicket, hbegun]; exact herr) (by rw [nextTicket, hbegun]; exact hring)

/-- A flush of several commands moves SQ_HEAD and CQ_TAIL on by their number. -/
theorem flushAll_spec (hdrs : List Hdr) (s : State) (herr : (queue s q).error = false) (hring : (queue s q).cqSize ≠ 0) :
    let t := hdrs.foldl (fun s h => flushOne q h s) s
    (queue t q).sqHead = (queue s q).sqHead + BitVec.ofNat 32 hdrs.length ∧
      (queue t q).cqTail = (queue s q).cqTail + BitVec.ofNat 32 hdrs.length ∧ (queue t q).inFlight = (queue s q).inFlight ∧
      (∀ k, k ≠ q → queue t k = queue s k) ∧ t.host.marks = s.host.marks ∧ t.dealer = s.dealer ∧ t.tiers = s.tiers := by
  induction hdrs generalizing s with
  | nil => simp
  | cons h hdrs ih =>
    obtain ⟨hqueue, hothers, hmarks, hdealer, htiers, -⟩ := flushOne_spec h herr hring
    obtain ⟨hh, hc, hi, hothers', hmarks', hdealer', htiers'⟩ :=
      ih (flushOne q h s) (by rw [hqueue]; exact herr) (by rw [hqueue]; exact hring)
    rw [hqueue] at hh hc hi
    have hcount : BitVec.ofNat 32 (hdrs.length + 1) = 1 + BitVec.ofNat 32 hdrs.length := by
      rw [BitVec.ofNat_add, BitVec.add_comm]
      rfl
    refine ⟨?_, ?_, hi, fun k hk => (hothers' k hk).trans (hothers k hk), hmarks'.trans hmarks, hdealer'.trans hdealer, htiers'.trans htiers⟩
    · rw [List.foldl_cons, hh, List.length_cons, hcount, BitVec.add_assoc]
    · rw [List.foldl_cons, hc, List.length_cons, hcount, BitVec.add_assoc]

theorem completes_qFlush (hq : q < 256) (hr : reaches s f (.qCtrl q) = true) (hown : (queue s q).owner = f) (hdrs : List Hdr)
    (hlen : hdrs.length = ((queue s q).sqTail - (queue s q).sqHead).toNat) (herr : (queue s q).error = false)
    (hring : (queue s q).cqSize ≠ 0) :
    Completes (.qFlush f q hdrs) s (fun t => (queue t q).sqHead = (queue s q).sqTail ∧
      (queue t q).cqTail = (queue s q).cqTail + ((queue s q).sqTail - (queue s q).sqHead) ∧ (queue t q).inFlight = (queue s q).inFlight ∧
      (∀ k, k ≠ q → queue t k = queue s k) ∧ t.host.marks = s.host.marks ∧ t.dealer = s.dealer ∧ t.tiers = s.tiers ∧
      (∀ h, hdrs = [h] → Reported (nextTicket s q h) Status.flushed 0 s t)) := by
  have hrun : flushQueue q hdrs s = hdrs.foldl (fun s h => flushOne q h s) s := by
    simp only [flushQueue, ← hlen, List.take_length, Nat.lt_irrefl, if_false]
  have hcount : BitVec.ofNat 32 hdrs.length = (queue s q).sqTail - (queue s q).sqHead := by rw [hlen, BitVec.ofNat_toNat, BitVec.setWidth_eq]
  obtain ⟨hh, hc, hi, hothers, hmarks, hdealer, htiers⟩ := flushAll_spec hdrs s herr hring
  refine Completes.intro ((exec_qFlush hq hr hdrs).trans (congrArg _ ((if_pos hown).trans hrun)))
    ⟨?_, by rw [hc, hcount], hi, hothers, hmarks, hdealer, htiers, ?_⟩
  · rw [hh, hcount, BitVec.add_comm, BitVec.sub_add_cancel]
  · rintro h rfl
    obtain ⟨-, -, -, -, -, hreported⟩ := flushOne_spec h herr hring
    exact hreported

/-! ### Owners (R393, R402) -/

theorem exec_qOwnerChange_queue (hq : q < 256) (hr : reaches s f (.qCtrl q) = true) (new : Fn) :
    exec (.qOwnerChange f false q new) s =
      .next (if mayGive s f (queue s q).owner new = true ∧ ¬(queue s q).enable = true ∧ (queue s q).inFlight = 0 then
        setQueue q (fun k => { k with owner := new }) s else reject f (0x100000 + 0x1000 * q) s) :=
  (withUnit_of_lt hq _ _).trans (congrArg _ ((if_pos hr).trans (by rw [giveQueue, qOffset_eq])))

theorem completes_qOwnerChange_queue (hq : q < 256) (hr : reaches s f (.qCtrl q) = true) (new : Fn)
    (hgive : mayGive s f (queue s q).owner new = true) (hoff : (queue s q).enable = false) (hnone : (queue s q).inFlight = 0) :
    Completes (.qOwnerChange f false q new) s (fun t => queue t q = { queue s q with owner := new } ∧
      (∀ k, k ≠ q → queue t k = queue s k) ∧ t.host.marks = s.host.marks ∧ t.dealer = s.dealer ∧ t.out = s.out) := by
  obtain ⟨hothers, hmarks, hdealer, hout⟩ := setQueue_others q (fun k => { k with owner := new }) s
  refine Completes.intro ((exec_qOwnerChange_queue hq hr new).trans (congrArg _ (if_pos ⟨hgive, Bool.eq_false_iff.mp hoff, hnone⟩)))
    ⟨?_, hothers, hmarks, hdealer, hout⟩
  rw [queue_setQueue, if_pos rfl]

theorem exec_qOwnerChange_refused (hq : q < 256) (hr : reaches s f (.qCtrl q) = true) (new : Fn)
    (hbad : mayGive s f (queue s q).owner new = false ∨ (queue s q).enable = true ∨ (queue s q).inFlight ≠ 0) :
    exec (.qOwnerChange f false q new) s = .next (reject f (0x100000 + 0x1000 * q) s) := by
  refine (exec_qOwnerChange_queue hq hr new).trans (congrArg _ (if_neg ?_))
  rintro ⟨hgive, hoff, hnone⟩
  rcases hbad with h | h | h
  · rw [hgive] at h; exact Bool.noConfusion h
  · exact hoff h
  · exact h hnone

/-! ### Marks -/

/-- A mark that is not armed, or below its threshold, sends nothing. -/
theorem markNotify_silent {m : Nat} {t : State} (h : (mark t m).armed = true → (mark t m).value < (mark t m).notifyAt) : markNotify m t = t := by
  have hno : ¬((mark t m).armed = true ∧ (mark t m).notifyAt ≤ (mark t m).value) := fun hn => BitVec.not_le.mpr (h hn.1) hn.2
  simp only [markNotify, if_neg hno]

theorem completes_qOwnerChange_mark {m : Nat} (hm : m < 4096) (hr : reaches s f (.markOwner m) = true) (new : Fn)
    (hgive : mayGive s f (mark s m).owner new = true) (harm : (mark s m).armed = false) :
    Completes (.qOwnerChange f true m new) s (fun t => mark t m = { mark s m with owner := new } ∧
      (∀ k, k ≠ m → mark t k = mark s k) ∧ t.host.queues = s.host.queues ∧ t.dealer = s.dealer ∧ t.out = s.out) := by
  let s1 := setMark m (fun k => { k with owner := new }) s
  have hown : mark s1 m = { mark s m with owner := new } := by rw [mark_setMark, if_pos rfl]
  have hsilent : markNotify m s1 = s1 := markNotify_silent (fun h => by rw [hown] at h; exact absurd h (Bool.eq_false_iff.mp harm))
  refine Completes.intro (t := s1) ((withUnit_of_lt hm _ _).trans (congrArg _ ((if_pos hr).trans ((if_pos hgive).trans hsilent))))
    ⟨hown, fun k hk => by rw [mark_setMark, if_neg (Ne.symm hk)], rfl, rfl, rfl⟩

section
variable {m : Nat} (hm : m < 4096)
include hm

theorem exec_markAdd (hr : reaches s f (.markAdd m) = true) (n : W64) :
    exec (.markAdd f m n) s =
      .next (if (mark s m).owner ≠ f ∨ n.toNat = 0 then reject f (0x200008 + 0x40 * m) s else addMark m n.toNat s) :=
  (withUnit_of_lt hm _ _).trans (congrArg _ ((if_pos hr).trans (by rw [writeMarkAdd, mOffset_eq])))

omit hm in
/-- An armed mark that an addition brings to its threshold disarms and sends its message (R402). -/
theorem addMark_armed (hown : (mark s m).owner = f) (n : Nat) (harm : (mark s m).armed = true)
    (hat : (mark s m).notifyAt ≤ markSum (mark s m).value n) (hup : (portSt s f.port).linkUp = true) :
    (mark (addMark m n s) m).armed = false ∧ (addMark m n s).out = s.out ++ [.msix f (mark s m).vector.toNat] := by
  let s1 := setMark m (fun x => { x with value := markSum x.value n }) s
  have h1 : mark s1 m = { mark s m with value := markSum (mark s m).value n } := by rw [mark_setMark, if_pos rfl]
  have hdue : (mark s1 m).armed = true ∧ (mark s1 m).notifyAt ≤ (mark s1 m).value := by rw [h1]; exact ⟨harm, hat⟩
  have hrun : addMark m n s = emit (.msix f (mark s m).vector.toNat) (setMark m (fun x => { x with armed := false }) s1) := by
    simp only [addMark, markNotify]
    rw [if_pos hdue, h1, ← hown]
  rw [hrun]
  refine ⟨?_, ?_⟩
  · rw [mark_congr m (s := setMark m (fun x => { x with armed := false }) s1) (by simp), mark_setMark, if_pos rfl]
  · exact (emit_msix _ _ _).trans (if_pos hup)

omit hm in
theorem addMark_unarmed (n : Nat) (harm : (mark s m).armed = false) :
    (mark (addMark m n s) m).armed = false ∧ (addMark m n s).out = s.out := by
  let s1 := setMark m (fun x => { x with value := markSum x.value n }) s
  have h1 : mark s1 m = { mark s m with value := markSum (mark s m).value n } := by rw [mark_setMark, if_pos rfl]
  have hrun : addMark m n s = s1 := markNotify_silent (fun h => by rw [h1] at h; exact absurd h (Bool.eq_false_iff.mp harm))
  rw [hrun, h1]
  exact ⟨harm, rfl⟩

theorem completes_markAdd (n : W64) (hr : reaches s f (.markAdd m) = true) (hown : (mark s m).owner = f) (hn : n ≠ 0) :
    Completes (.markAdd f m n) s (fun t =>
      (mark t m).value = markSum (mark s m).value n.toNat ∧ (∀ k, k ≠ m → mark t k = mark s k) ∧ t.dealer = s.dealer ∧ t.tiers = s.tiers ∧
      t.host.queues = s.host.queues ∧
      ((mark s m).armed = true → (mark s m).notifyAt ≤ markSum (mark s m).value n.toNat → (portSt s f.port).linkUp = true →
        (mark t m).armed = false ∧ t.out = s.out ++ [.msix f (mark s m).vector.toNat]) ∧
      ((mark s m).armed = false → (mark t m).armed = false ∧ t.out = s.out)) := by
  have hgo : ¬((mark s m).owner ≠ f ∨ n.toNat = 0) := by
    rintro (h | h)
    · exact h hown
    · exact hn (BitVec.eq_of_toNat_eq h)
  refine Completes.intro ((exec_markAdd hm hr n).trans (congrArg _ (if_neg hgo)))
    ⟨?_, fun k hk => addMark_other m _ k s hk, by simp, by simp, by simp, fun harm hat hup => addMark_armed hown _ harm hat hup,
      fun harm => addMark_unarmed _ harm⟩
  rw [addMark_value, if_pos rfl]

theorem exec_markAdd_refused (n : W64) (hr : reaches s f (.markAdd m) = true) (hbad : (mark s m).owner ≠ f ∨ n = 0) :
    exec (.markAdd f m n) s = .next (reject f (0x200008 + 0x40 * m) s) :=
  (exec_markAdd hm hr n).trans (congrArg _ (if_pos (hbad.imp_right (fun h => by rw [h]; rfl))))

theorem exec_markNotifyArm (v : W32) (hr : reaches s f (.markNotify m) = true) :
    exec (.markNotifyArm f m v) s = .next (if vectorsOf (mark s m).owner ≤ v.toNat / 2 % 64 then reject f (0x200020 + 0x40 * m) s
      else markNotify m (setMark m (fun k => { k with armed := wbit v.toNat 0, vector := BitVec.ofNat 6 (v.toNat / 2) }) s)) :=
  (withUnit_of_lt hm _ _).trans (congrArg _ ((if_pos hr).trans (by rw [writeNotify, mOffset_eq])))

theorem completes_markNotifyArm (v : W32) (hr : reaches s f (.markNotify m) = true) (hvec : v.toNat / 2 % 64 < vectorsOf (mark s m).owner)
    (harm : v.getLsbD 0 = true) :
    Completes (.markNotifyArm f m v) s (fun t =>
      (mark t m).vector = BitVec.ofNat 6 (v.toNat / 2) ∧ (mark t m).value = (mark s m).value ∧ (∀ k, k ≠ m → mark t k = mark s k) ∧
      t.dealer = s.dealer ∧ t.tiers = s.tiers ∧
      ((mark s m).value < (mark s m).notifyAt → (mark t m).armed = true ∧ t.out = s.out) ∧
      ((mark s m).notifyAt ≤ (mark s m).value → (mark t m).armed = false)) := by
  let s1 := setMark m (fun k => { k with armed := wbit v.toNat 0, vector := BitVec.ofNat 6 (v.toNat / 2) }) s
  have h1 : mark s1 m = { mark s m with armed := true, vector := BitVec.ofNat 6 (v.toNat / 2) } := by
    rw [mark_setMark, if_pos rfl, wbit_toNat, harm]
  refine Completes.intro (t := markNotify m s1) ((exec_markNotifyArm hm v hr).trans (congrArg _ (if_neg (Nat.not_le.mpr hvec))))
    ⟨?_, ?_, fun k hk => ?_, by simp [s1], by simp [s1], fun hbelow => ?_, fun hat => ?_⟩
  · rw [markNotify_mark, h1]
    split
    · rfl
    · rfl
  · rw [markNotify_mark, h1]
    split
    · rfl
    · rfl
  · rw [markNotify_mark, if_neg (fun h => hk h.1.symm), mark_setMark, if_neg (Ne.symm hk)]
  · have hsilent : markNotify m s1 = s1 := markNotify_silent (fun _ => by rw [h1]; exact hbelow)
    rw [hsilent, h1]
    exact ⟨rfl, rfl⟩
  · rw [markNotify_mark, h1, if_pos ⟨rfl, rfl, hat⟩]

theorem exec_markNotifyArm_refused (v : W32) (hr : reaches s f (.markNotify m) = true) (hvec : vectorsOf (mark s m).owner ≤ v.toNat / 2 % 64) :
    exec (.markNotifyArm f m v) s = .next (reject f (0x200020 + 0x40 * m) s) :=
  (exec_markNotifyArm hm v hr).trans (congrArg _ (if_pos hvec))

end

end

/-- Settles O26: each register write is one update of its queue or mark, behind the owner's check. -/
theorem queuesAndMarks : Obligations.QueuesAndMarks := by
  unfold Obligations.QueuesAndMarks
  refine ⟨fun f q s hq hr hring => ⟨fun hown => ?_, fun hnot => ?_, fun new => completes_qOwnerChange_queue hq hr new,
    fun new => exec_qOwnerChange_refused hq hr new, fun m new hm hrm => completes_qOwnerChange_mark hm hrm new⟩,
    fun f m s hm => ⟨completes_markAdd hm, exec_markAdd_refused hm, completes_markNotifyArm hm, exec_markNotifyArm_refused hm⟩⟩
  · exact ⟨completes_qEnable_off hq hr hown, completes_qEnable_on hq hr hown, completes_qEnable_badSize hq hr hown,
      completes_sqDoorbell hq hring hown, completes_qFlush hq hr hown⟩
  · exact ⟨fun b => (exec_qEnable hq hr b).trans (congrArg _ (if_neg hnot)), fun hdrs => (exec_qFlush hq hr hdrs).trans (congrArg _ (if_neg hnot)),
      fun tail => (exec_sqDoorbell hq hring tail).trans (congrArg _ (if_neg hnot))⟩

end Sys2Proof.Machine
end

section
/-! SUPPORT. Host accesses through BAR2 (R388 to R391): what a gathered line stores, what a read answers, and the window. -/

namespace Sys2Proof.Machine

/-! ### Writes -/

theorem writeBytes_append (xs ys : List Byte) (m : Tab Byte) (a : Nat) :
    writeBytes m a (xs ++ ys) = writeBytes (writeBytes m a xs) (a + xs.length) ys := by
  induction xs generalizing m a with
  | nil => rfl
  | cons x xs ih => rw [List.cons_append, writeBytes_cons, writeBytes_cons, ih, List.length_cons, Nat.add_right_comm, Nat.add_assoc]

theorem fillWrite_ddr {a : Nat} (h : sramEnd ≤ a) (bs : List Byte) (s : State) :
    fillWrite a bs s = { s with tiers := { s.tiers with mem := writeBytes s.tiers.mem a bs } } := by
  unfold fillWrite
  split
  · exact if_pos h
  · rfl

/-- From s to t memory reads as written from s, and all else that decides on a host's line is the same. -/
def BarStored (a : Nat) (bs : List Byte) (s t : State) : Prop :=
  t.tiers.mem = writeBytes s.tiers.mem a bs ∧ t.tiers.objects = s.tiers.objects ∧ t.dealer = s.dealer ∧ t.units = s.units ∧
    t.host = s.host ∧ t.out = s.out ∧ t.resets = s.resets

theorem storeBg_ddr {a : Nat} (h : sramEnd ≤ a) (bs : List Byte) (s : State) : BarStored a bs s (storeBg a bs s) := by
  obtain ⟨hout, hhost, hunits, -, -, hmem, hobjects, -⟩ := storeBg_frame a bs s
  have hfill := fillWrite_ddr h bs s
  refine ⟨hmem.trans (by rw [hfill]), hobjects, ?_, hunits, hhost, hout, ?_⟩
  · exact (show (storeBg a bs s).dealer = (fillWrite a bs s).dealer from rfl).trans (by rw [hfill])
  · exact (show (storeBg a bs s).resets = (fillWrite a bs s).resets from rfl).trans (by rw [hfill])

theorem roShared_congr {s t : State} (h : t.tiers.objects = s.tiers.objects) (a n : Nat) : roShared t a n = roShared s a n := by
  simp only [roShared, objectsIn, h]

theorem addrShut_congr {s t : State} (h : t.resets = s.resets) (a : Nat) : addrShut t a = addrShut s a := by
  unfold addrShut blockShut block
  rw [h]

/-- A line with an open port and no RO_SHARED object is stored. -/
theorem barLine_open {p : Port} {x : Nat × List Byte} {s : State} (hro : roShared s (x.1 / 256 * 256) 256 = false) (hshut : addrShut s x.1 = false) :
    barLine p x s = storeBg x.1 x.2 s := by
  unfold barLine
  rw [hro, hshut]
  rfl

/-- Lines that are all open store the bytes that they were cut from. -/
theorem barLines_open (p : Port) (fuel a : Nat) (bs : List Byte) (s : State) (hfuel : bs.length < fuel) (ha : sramEnd ≤ a)
    (hopen : ∀ x ∈ lineParts fuel a bs, roShared s (x.1 / 256 * 256) 256 = false ∧ addrShut s x.1 = false) :
    BarStored a bs s ((lineParts fuel a bs).foldl (fun s x => barLine p x s) s) := by
  induction fuel generalizing a bs s with
  | zero => exact absurd hfuel (Nat.not_lt_zero _)
  | succ fuel ih =>
    by_cases hnil : bs = []
    · subst hnil
      exact ⟨rfl, rfl, rfl, rfl, rfl, rfl, rfl⟩
    · let n := 256 - a % 256
      have hn : 0 < n := Nat.sub_pos_of_lt (Nat.mod_lt _ (by decide))
      have hlen : 0 < bs.length := List.length_pos_iff.mpr hnil
      have hparts : lineParts (fuel + 1) a bs = (a, bs.take n) :: lineParts fuel (a + n) (bs.drop n) := if_neg hnil
      rw [hparts] at hopen ⊢
      obtain ⟨hro, hshut⟩ := hopen _ (List.mem_cons_self ..)
      obtain ⟨hmem, hobjects, hdealer, hunits, hhost, hout, hresets⟩ := storeBg_ddr ha (bs.take n) s
      obtain ⟨hmem', hobjects', hdealer', hunits', hhost', hout', hresets'⟩ := ih (a + n) (bs.drop n) (storeBg a (bs.take n) s)
        (by rw [List.length_drop]; omega) (Nat.le_trans ha (Nat.le_add_right _ _))
        (fun x hx => by rw [roShared_congr hobjects, addrShut_congr hresets]; exact hopen x (List.mem_cons_of_mem _ hx))
      rw [List.foldl_cons, barLine_open hro hshut]
      refine ⟨?_, hobjects'.trans hobjects, hdealer'.trans hdealer, hunits'.trans hunits, hhost'.trans hhost, hout'.trans hout, hresets'.trans hresets⟩
      rw [hmem', hmem]
      by_cases hshort : bs.length ≤ n
      · rw [List.drop_eq_nil_of_le hshort, List.take_of_length_le hshort, writeBytes_nil]
      · have htake : (bs.take n).length = n := List.length_take_of_le (Nat.le_of_not_le hshort)
        calc writeBytes (writeBytes s.tiers.mem a (bs.take n)) (a + n) (bs.drop n)
            = writeBytes s.tiers.mem a (bs.take n ++ bs.drop n) := by rw [writeBytes_append, htake]
          _ = writeBytes s.tiers.mem a bs := by rw [List.take_append_drop]

section
variable {p : Port} {s : State}

theorem completes_bar2Write (o : Nat) (data : List Byte) (hopen : barOpen s p o data.length = true) (ha : sramEnd ≤ barAddr s p o)
    (hlines : ∀ x ∈ lineParts (data.length + 1) (barAddr s p o) data, roShared s (x.1 / 256 * 256) 256 = false ∧ addrShut s x.1 = false) :
    Completes (.bar2Write p o data) s (fun t =>
      t.tiers.mem = writeBytes s.tiers.mem (barAddr s p o) data ∧ t.tiers.objects = s.tiers.objects ∧ t.dealer = s.dealer ∧
      t.units = s.units ∧ t.host = s.host ∧ t.out = s.out) := by
  obtain ⟨hmem, hobjects, hdealer, hunits, hhost, hout, -⟩ := barLines_open p _ _ data s (Nat.lt_succ_self _) ha hlines
  exact Completes.intro (congrArg Host.Outcome.next (if_pos hopen)) ⟨hmem, hobjects, hdealer, hunits, hhost, hout⟩

/-! ### Reads -/

/-- A read of open, sound lines of no poisoned object is answered with their bytes. -/
theorem bar2Read_good {o n : Nat} (hopen : barOpen s p o n = true) (hshut : addrShut s (barAddr s p o) = false)
    (hpoison : (objectsIn s (barAddr s p o) n).any (fun e => decide (e.2.poison = .poisoned)) = false)
    (hfaults : barFaults s (barAddr s p o) n false = []) (hrepair : (rangeLines (barAddr s p o) n).any (lineInRepair s) = false) :
    bar2Read p o n false s = emit (.barData p (readBytes s.tiers.mem (barAddr s p o) n) false) (bgTouch (barAddr s p o) n s) := by
  rw [bar2Read, if_neg (not_not_intro hopen)]
  simp only [hshut, hpoison, hfaults, hrepair, List.filter_nil, Bool.false_eq_true, if_false]

theorem completes_bar2Read (o n : Nat) (hopen : barOpen s p o n = true) (hshut : addrShut s (barAddr s p o) = false)
    (hpoison : (objectsIn s (barAddr s p o) n).any (fun e => decide (e.2.poison = .poisoned)) = false)
    (hfaults : barFaults s (barAddr s p o) n false = []) (hrepair : (rangeLines (barAddr s p o) n).any (lineInRepair s) = false) :
    Completes (.bar2Read p o n false) s (fun t =>
      t.out = s.out ++ [.barData p (readBytes s.tiers.mem (barAddr s p o) n) false] ∧ SameMemory s t ∧ t.dealer = s.dealer ∧ t.host = s.host) :=
  Completes.intro (congrArg Host.Outcome.next (bar2Read_good hopen hshut hpoison hfaults hrepair)) ⟨rfl, sameMemory_of_mem rfl, rfl, rfl⟩

theorem exec_bar2Read_shut (o n : Nat) (hopen : barOpen s p o n = true) (hshut : addrShut s (barAddr s p o) = true) :
    exec (.bar2Read p o n false) s = .next { s with out := s.out ++ [.abort p] } :=
  congrArg Host.Outcome.next ((if_neg (not_not_intro hopen)).trans (if_pos hshut))

/-- The oldest waiting read of a port is answered with poisoned data 10 ms after its issue (R391). -/
theorem bar2ReadTimeout_due {r : BarRead} {rest : List BarRead} (hreads : (portSt s p).barReads = r :: rest)
    (hdue : 10000 ≤ (s.tick - r.since).toNat) :
    bar2ReadTimeout p s =
      emit (.barData p (readBytes s.tiers.mem r.addr r.length) true) (setPort p (fun x => { x with barReads := rest }) s) := by
  have hlate : ¬(s.tick - r.since < 10000) := Nat.not_lt.mpr hdue
  simp only [bar2ReadTimeout, hreads, if_neg hlate]

/-! ### The window (R389) -/

theorem exec_bar2WindowWrite {f : Fn} (v : W64) (hr : reaches s f .bar2Window = true) :
    exec (.bar2WindowWrite f v) s = .next (if windowOk (v.toNat / 2 ^ 30 % 2 ^ 18) (portSt s f.port).bar2Log2 then
      setPort f.port (fun x => { x with base := BitVec.ofNat 18 (v.toNat / 2 ^ 30 % 2 ^ 18) }) s else reject f 0x10038 s) :=
  congrArg Host.Outcome.next (if_pos hr)

theorem completes_bar2WindowWrite (f : Fn) (v : W64) (hr : reaches s f .bar2Window = true)
    (hok : windowOk (v.toNat / 2 ^ 30 % 2 ^ 18) (portSt s f.port).bar2Log2 = true) :
    Completes (.bar2WindowWrite f v) s (fun t => (portSt t f.port).base = BitVec.ofNat 18 (v.toNat / 2 ^ 30) ∧
      portSt t (Port.other f.port) = portSt s (Port.other f.port) ∧ t.tiers = s.tiers ∧ t.out = s.out) := by
  refine Completes.intro ((exec_bar2WindowWrite v hr).trans (congrArg _ (if_pos hok))) ⟨?_, ?_, rfl, rfl⟩
  · rw [portSt_setPort, if_pos rfl]
    exact BitVec.eq_of_toNat_eq (by simp only [BitVec.toNat_ofNat, Nat.mod_mod])
  · rw [portSt_setPort, if_neg (Port.ne_other f.port)]

end

/-- Settles O27: a write is stored line by line, and the lines' bytes joined are the data. -/
theorem bar2Accesses : Obligations.Bar2Accesses := by
  unfold Obligations.Bar2Accesses
  refine fun p s => ⟨completes_bar2Write, fun o data hshut => ?_, completes_bar2Read, exec_bar2Read_shut, fun o n bad hshut => ?_,
    fun r rest hreads hdue => ?_, completes_bar2WindowWrite, fun f v hr hbad => ?_⟩
  · exact congrArg Host.Outcome.next (if_neg (Bool.eq_false_iff.mp hshut))
  · exact congrArg Host.Outcome.next (if_pos (Bool.eq_false_iff.mp hshut))
  · refine Completes.intro (congrArg Host.Outcome.next (bar2ReadTimeout_due hreads hdue)) ⟨rfl, ?_, rfl, rfl⟩
    rw [portSt_emit, portSt_setPort, if_pos rfl]
  · exact (exec_bar2WindowWrite v hr).trans (congrArg _ (if_neg (Bool.eq_false_iff.mp hbad)))

end Sys2Proof.Machine
end

section
/-! SUPPORT. What the update chain leaves alone (R465 to R468): its steps touch the update record, the scorebook and the messages sent. -/

namespace Sys2Proof.Machine

/-- From s to t nothing has changed but Glaren's records and the messages sent. -/
def ChainAside (s t : State) : Prop :=
  t.dealer = s.dealer ∧ t.tiers = s.tiers ∧ t.units = s.units ∧ t.host = s.host ∧ t.resets.blocks = s.resets.blocks

theorem ChainAside.refl (s : State) : ChainAside s s := ⟨rfl, rfl, rfl, rfl, rfl⟩

theorem ChainAside.trans {s t u : State} (h1 : ChainAside s t) (h2 : ChainAside t u) : ChainAside s u := by
  obtain ⟨hd1, ht1, hu1, hh1, hb1⟩ := h1
  obtain ⟨hd2, ht2, hu2, hh2, hb2⟩ := h2
  exact ⟨hd2.trans hd1, ht2.trans ht1, hu2.trans hu1, hh2.trans hh1, hb2.trans hb1⟩

theorem chainAside_setUpdate (f : Update → Update) (s : State) : ChainAside s (setUpdate f s) := ⟨rfl, rfl, rfl, rfl, rfl⟩
theorem chainAside_emit (e : Emit) (s : State) : ChainAside s (emit e s) := by simp [ChainAside]
theorem chainAside_score (a b c : Nat) (x : W64) (d : List Byte) (s : State) : ChainAside s (score a b c x d s) := by simp [ChainAside]

theorem chainAside_countResult (pos r : Nat) (s : State) : ChainAside s (countResult pos r s) := by
  unfold countResult
  split
  · exact (chainAside_setUpdate _ s).trans (chainAside_setUpdate _ _)
  · exact chainAside_setUpdate _ s

theorem chainAside_reportResult (pos r : Nat) (s : State) : ChainAside s (reportResult pos r s) := by
  unfold reportResult
  split
  · exact chainAside_countResult pos r s
  · exact chainAside_emit _ s

theorem chainAside_forwardTo (pos : Nat) (s : State) : ChainAside s (forwardTo pos s) := by
  unfold forwardTo
  dsimp only
  split
  · exact (chainAside_setUpdate _ s).trans (chainAside_emit _ _)
  · exact chainAside_setUpdate _ s

theorem chainAside_passToken (timeout : Nat) (rest : List Nat) (s : State) : ChainAside s (passToken timeout rest s) := by
  unfold passToken
  split
  · exact ChainAside.refl s
  · split
    · exact chainAside_setUpdate _ s
    · exact chainAside_emit _ s

theorem chainAside_releaseToken (s : State) : ChainAside s (releaseToken s) := by
  unfold releaseToken
  dsimp only
  split
  · exact (chainAside_setUpdate _ s).trans (chainAside_passToken _ _ _)
  · exact ChainAside.refl s

theorem chainAside_applyNext (s : State) : ChainAside s (applyNext s) := by
  unfold applyNext
  split
  · exact chainAside_setUpdate _ s
  · exact ((chainAside_setUpdate _ s).trans (chainAside_reportResult _ _ _)).trans (chainAside_releaseToken _)

theorem chainAside_takeEffect (s : State) : ChainAside s (takeEffect s) :=
  ((chainAside_setUpdate _ s).trans (chainAside_score _ _ _ _ _ _)).trans (chainAside_applyNext _)

theorem chainAside_blocksRestarted (bs : List Nat) (s : State) : ChainAside s (blocksRestarted bs s) := by
  unfold blocksRestarted
  dsimp only
  split
  · exact (chainAside_setUpdate _ s).trans (chainAside_takeEffect _)
  · exact chainAside_setUpdate _ s

end Sys2Proof.Machine
end

section
/-! SUPPORT. Block resets (R426 to R429, R440): the request, the immediate reset of a compute cluster, the end of the hold, the clock and the
initialisation. -/

namespace Sys2Proof.Machine

/-- A table without the entries whose index meets a condition. -/
theorem Tab.get_clear {α : Type} (d : Nat → α) (p : Nat → Bool) (t : Tab α) (k : Nat) :
    Tab.get d (Tab.clear p t) k = if p k then d k else Tab.get d t k := by
  induction t with
  | nil => simp [Tab.clear]
  | cons e t ih =>
    unfold Tab.clear at ih ⊢
    rw [List.filter_cons, Tab.get_cons]
    by_cases he : p e.1 = true
    · rw [he, Bool.not_true, if_neg Bool.false_ne_true, ih]
      by_cases hk : e.1 = k
      · rw [← hk, if_pos he, if_pos he]
      · rw [if_neg hk]
    · rw [Bool.eq_false_iff.mpr he, Bool.not_false, if_pos rfl, Tab.get_cons, ih]
      by_cases hk : e.1 = k
      · rw [if_pos hk, if_pos hk, ← hk, if_neg he]
      · rw [if_neg hk, if_neg hk]

/-- An update of one block leaves every other block as it was. -/
theorem setBlock_others (b : Nat) (f : Block → Block) (s : State) : ∀ c, c ≠ b → block (setBlock b f s) c = block s c :=
  fun c hc => by rw [block_setBlock, if_neg (Ne.symm hc)]

theorem block_setBlock_self (b : Nat) (f : Block → Block) (s : State) : block (setBlock b f s) b = f (block s b) := by
  rw [block_setBlock, if_pos rfl]

section
variable {b : Nat} {s : State}

/-! ### The request -/

theorem exec_blockReset {f : Fn} {v : W32} (hc : controls s f .blockReset = true) (hv : v.toNat % 128 = b) (hb : b < 66) :
    exec (.blockReset f v) s = .next (requestBlock b (wbit v.toNat 7) s) := by
  refine congrArg Host.Outcome.next ((guarded_control_of_controls hc).trans ?_)
  rw [hv, if_neg (by omega)]

theorem completes_blockReset_waits (hb : b < 66) (f : Fn) (v : W32) (hc : controls s f .blockReset = true) (hv : v.toNat % 128 = b)
    (h64 : b < 64) (hnow : v.getLsbD 7 = false) (hopen : (block s b).state = .open_) :
    Completes (.blockReset f v) s (fun t => (block t b).state = .pending ∧ (∀ c, c ≠ b → block t c = block s c) ∧ t.units = s.units ∧
      t.dealer = s.dealer ∧ t.host = s.host ∧ t.out = s.out) := by
  have hrun : requestBlock b (wbit v.toNat 7) s = setBlock b (fun x => { x with state := .pending }) s := by
    have hlater : ¬(false = true ∨ 64 ≤ b) := by rintro (h | h) <;> [exact Bool.noConfusion h; omega]
    rw [wbit_toNat, hnow, requestBlock, if_neg hlater, hopen]
  refine Completes.intro ((exec_blockReset hc hv hb).trans (congrArg _ hrun)) ⟨?_, setBlock_others _ _ s, rfl, rfl, rfl, rfl⟩
  rw [block_setBlock_self]

/-! ### The immediate reset of a cluster -/

/-- With no step, no castle and no outstanding operation, the transfers' end counts no error. -/
theorem failBlockOps_quiet (h32 : b < 32) (hops : s.host.ops = []) (hbuild : s.dealer.building = none) :
    failBlockOps b s = setBlock b (fun x => { x with errors := if x.errors.toNat + 0 < 0xFFFF then x.errors + BitVec.ofNat 16 0 else 0xFFFF }) s := by
  have hcolls : failColls b s = s := if_neg (by omega)
  simp only [failBlockOps, hops, List.filter_nil, List.map_nil, List.foldl_nil, hcolls, hbuild, List.length_nil]

theorem startBlock_cluster (h32 : b < 32) (hopen : (block s b).state = .open_) (hrun : s.dealer.run = none) (hops : s.host.ops = [])
    (hbuild : s.dealer.building = none) :
    startBlock b s = clusterCold b (setBlock b (fun x => { x with errors := if x.errors.toNat + 0 < 0xFFFF then x.errors + BitVec.ofNat 16 0 else 0xFFFF })
      (setBlock b (fun x => { x with state := .inReset, early := false }) s)) := by
  have habandon : abandonIfNamed b s = s := by simp only [abandonIfNamed, hrun]
  unfold startBlock
  rw [hopen]
  dsimp only
  rw [if_neg (show ¬b = 64 by omega), if_neg (show ¬b = 65 by omega), habandon, failBlockOps_quiet (s := setBlock b _ s) h32 hops hbuild,
    blockCold, if_pos h32]

theorem block_clusterCold (k c : Nat) (s : State) : block (clusterCold k s) c = block s c := rfl

theorem flags_clusterCold (k c : Nat) (s : State) :
    Tab.get (fun _ => FlagSum.cold) (clusterCold k s).units.flags c =
      if c = k then FlagSum.cold else Tab.get (fun _ => FlagSum.cold) s.units.flags c := by
  have hflags : (clusterCold k s).units.flags =
      Tab.clear (fun i => decide (1 * k ≤ i) && decide (i < 1 * (k + 1))) s.units.flags := rfl
  rw [hflags, Tab.get_clear]
  refine if_congr ?_ rfl rfl
  rw [Bool.and_eq_true, decide_eq_true_eq, decide_eq_true_eq]
  omega

theorem completes_blockReset_now (hb : b < 66) (f : Fn) (v : W32) (hc : controls s f .blockReset = true) (hv : v.toNat % 128 = b)
    (h32 : b < 32) (hnow : v.getLsbD 7 = true) (hopen : (block s b).state = .open_) (hrun : s.dealer.run = none) (hops : s.host.ops = [])
    (hbuild : s.dealer.building = none) :
    Completes (.blockReset f v) s (fun t => (block t b).state = .inReset ∧ (∀ c, c ≠ b → block t c = block s c) ∧
      Tab.get (fun _ => FlagSum.cold) t.units.flags b = FlagSum.cold ∧
      (∀ k, k ≠ b → Tab.get (fun _ => FlagSum.cold) t.units.flags k = Tab.get (fun _ => FlagSum.cold) s.units.flags k) ∧ SameMemory s t) := by
  have hstart : requestBlock b (wbit v.toNat 7) s = startBlock b s := by
    rw [wbit_toNat, hnow, requestBlock, if_pos (Or.inl rfl)]
  refine Completes.intro ((exec_blockReset hc hv hb).trans (congrArg _ (hstart.trans (startBlock_cluster h32 hopen hrun hops hbuild))))
    ⟨?_, fun c hne => ?_, ?_, fun k hk => ?_, sameMemory_of_mem rfl⟩
  · rw [block_clusterCold, block_setBlock_self, block_setBlock_self]
  · rw [block_clusterCold, setBlock_others _ _ _ c hne, setBlock_others _ _ _ c hne]
  · rw [flags_clusterCold, if_pos rfl]
  · rw [flags_clusterCold, if_neg hk]
    rfl

/-! ### The hold, the clock and the initialisation -/

theorem block_setOverride (v : Bool) (c : Nat) : block (setOverride b v s) c = block s c := by
  unfold setOverride
  split
  · rfl
  · rfl

theorem completes_holdEnd (hb : b < 66) (harm : overrideArmed s b = false) :
    Completes (.blockResetHoldEnd b) s (fun t =>
      (block t b).state = (if (block s b).state = .inReset then .waitClock else (block s b).state) ∧ (∀ c, c ≠ b → block t c = block s c) ∧
      t.units = s.units ∧ t.dealer = s.dealer ∧ t.out = s.out) := by
  by_cases hst : (block s b).state = .inReset
  · have hrun : holdEnd b s = setBlock b (fun x => { x with state := .waitClock }) s := by
      rw [holdEnd, if_neg (not_not_intro hst), harm, if_neg Bool.false_ne_true]
    refine Completes.intro ((withUnit_of_lt hb _ _).trans (congrArg _ hrun)) ⟨?_, setBlock_others _ _ s, rfl, rfl, rfl⟩
    rw [block_setBlock_self, if_pos hst]
  · have hrun : holdEnd b s = s := if_pos hst
    exact Completes.intro ((withUnit_of_lt hb _ _).trans (congrArg _ hrun)) ⟨(if_neg hst).symm, fun _ _ => rfl, rfl, rfl, rfl⟩

/-- The state that an armed override leaves before its record is written. -/
def releasedEarly (b : Nat) (s : State) : State :=
  setOverride b true (setBlock b (fun x => { x with state := .fenced, early := true }) { s with glaren := { s.glaren with debugArm := false } })

theorem completes_holdEnd_override (hb : b < 66) (harm : overrideArmed s b = true) (hst : (block s b).state = .inReset) :
    Completes (.blockResetHoldEnd b) s (fun t =>
      (block t b).state = .fenced ∧ (block t b).early = true ∧ t.glaren.debugArm = false ∧ (∀ c, c ≠ b → block t c = block s c)) := by
  have hrun : holdEnd b s = score 0 0 0x0041 0 [BitVec.ofNat 8 b] (releasedEarly b s) := by
    rw [holdEnd, if_neg (not_not_intro hst), harm, if_pos rfl, releasedEarly]
  have hblock (c : Nat) : block (score 0 0 0x0041 0 [BitVec.ofNat 8 b] (releasedEarly b s)) c =
      block (setBlock b (fun x => { x with state := .fenced, early := true }) s) c := by
    have hblocks : (score 0 0 0x0041 0 [BitVec.ofNat 8 b] (releasedEarly b s)).resets.blocks = (releasedEarly b s).resets.blocks := by simp
    rw [block, hblocks]
    exact block_setOverride true c
  refine Completes.intro ((withUnit_of_lt hb _ _).trans (congrArg _ hrun)) ⟨?_, ?_, ?_, fun c hc => ?_⟩
  · rw [hblock, block_setBlock_self]
  · rw [hblock, block_setBlock_self]
  · unfold releasedEarly setOverride
    split
    · simp [setResets, setBlock]
    · simp [setBlock]
  · rw [hblock, setBlock_others _ _ _ c hc]

theorem completes_blockClockStable (hb : b < 66) :
    Completes (.blockClockStable b) s (fun t =>
      (block t b).state = (if (block s b).state = .waitClock then .init else (block s b).state) ∧ (∀ c, c ≠ b → block t c = block s c) ∧
      t.units = s.units ∧ t.dealer = s.dealer ∧ t.out = s.out) := by
  refine Completes.intro (withUnit_of_lt hb _ _) ⟨?_, setBlock_others _ _ s, rfl, rfl, rfl⟩
  rw [block_setBlock_self]
  split
  · rfl
  · rfl

theorem block_initBlock (c : Nat) : block (initBlock b s) c = block s c := by
  unfold initBlock
  split
  · rfl
  · split
    · rfl
    · rfl

theorem completes_blockInitDone (hb : b < 66) (hst : (block s b).state = .init) :
    Completes (.blockInitDone b) s (fun t =>
      (block t b).state = .open_ ∧ (block t b).resets = satInc (block s b).resets ∧ (∀ c, c ≠ b → block t c = block s c) ∧ t.dealer.due = true) := by
  let s1 := setBlock b (fun x => { x with state := .open_, early := false, resets := satInc x.resets }) s
  have hrun : initDone b s = wake (blocksRestarted [b] (initBlock b (setOverride b false s1))) := if_neg (not_not_intro hst)
  have hblock (c : Nat) : block (wake (blocksRestarted [b] (initBlock b (setOverride b false s1)))) c = block s1 c := by
    obtain ⟨-, -, -, -, hblocks⟩ := chainAside_blocksRestarted [b] (initBlock b (setOverride b false s1))
    calc block (wake (blocksRestarted [b] (initBlock b (setOverride b false s1)))) c
        = block (initBlock b (setOverride b false s1)) c := congrArg (fun x => Tab.get (fun _ => Block.cold) x c) hblocks
      _ = block s1 c := by rw [block_initBlock, block_setOverride]
  refine Completes.intro ((withUnit_of_lt hb _ _).trans (congrArg _ hrun)) ⟨?_, ?_, fun c hc => ?_, rfl⟩
  · rw [hblock, block_setBlock_self]
  · rw [hblock, block_setBlock_self]
  · rw [hblock, setBlock_others _ _ _ c hc]

end

/-- Settles O28: each event is one state of the block's reset; an immediate reset of a cluster clears its units alone. -/
theorem blockResets : Obligations.BlockResets := by
  unfold Obligations.BlockResets
  exact fun b s hb => ⟨completes_blockReset_waits hb, completes_blockReset_now hb, completes_holdEnd hb, completes_holdEnd_override hb,
    completes_blockClockStable hb, completes_blockInitDone hb⟩

end Sys2Proof.Machine
end

section
/-! SUPPORT. The twin's reports (R367, R369): a report of an abandoned step agrees with no report, so two equal reports of an abandoned step
set MISMATCH. -/

namespace Sys2Proof.Machine

/-- Reports of one step that do not agree set MISMATCH. -/
theorem compareReports_mismatch {n : Nat} {x y : Report} {s : State} (hown : s.conceal.ownReports = [x]) (htwin : s.conceal.twinReports = [y])
    (hquiet : s.conceal.mismatch = false) (hstep : y.step = x.step) (hdiffer : x.agrees y = false) :
    (compareReports (n + 1) s).conceal.mismatch = true := by
  have hfind : [y].find? (fun b => decide (b.step = x.step)) = some y := by simp [hstep]
  have hend (u : State) (hnone : u.conceal.ownReports = []) : compareReports n u = u := by
    cases n with
    | zero => rfl
    | succ n => simp only [compareReports, hnone]
  simp only [compareReports, hown, htwin, hfind, hquiet, hdiffer, Bool.false_eq_true, if_false]
  rw [hend _ (by simp)]
  simp

/-- An armed twin unit that has reported an abandoned step itself. -/
def abandonedTwin : State :=
  { State.reset with conceal := { Conceal.cold with armed := true, ownReports := [{ step := 0, plyId := 0, health := 0, abandoned := true, digest := 0 }] } }

theorem abandonedTwin_mismatch : ∃ t, exec (.digestReport 0 0 0 true 0) abandonedTwin = .next t ∧ t.conceal.mismatch = true :=
  ⟨_, rfl, compareReports_mismatch (x := { step := 0, plyId := 0, health := 0, abandoned := true, digest := 0 })
    (y := { step := 0, plyId := 0, health := 0, abandoned := true, digest := 0 }) rfl rfl rfl rfl rfl⟩

/-- Refutes O53: the twin's report of an abandoned step is equal to the module's own, and sets MISMATCH instead of advancing MATCHED_STEP. -/
theorem not_watchdogsAndTwins : ¬ Obligations.WatchdogsAndTwins := by
  unfold Obligations.WatchdogsAndTwins
  rintro ⟨-, h⟩
  obtain ⟨-, hreport⟩ := h { step := 0, plyId := 0, health := 0, abandoned := true, digest := 0 } 0 0 0 true 0 abandonedTwin
  obtain ⟨hequal, -⟩ := hreport rfl rfl rfl rfl rfl
  obtain ⟨t, hexec, -, hquiet, -⟩ := hequal rfl rfl rfl
  obtain ⟨u, hrun, hmismatch⟩ := abandonedTwin_mismatch
  rw [hexec] at hrun
  cases hrun
  exact Bool.false_ne_true (hquiet.symm.trans hmismatch)

end Sys2Proof.Machine
end

section
/-! SUPPORT. Starts and resets (R418 to R438, Tables 14.4 and 14.5): what records, migrations and self-tests leave alone; power-on, the cold
start and the warm reset. -/

namespace Sys2Proof.Machine

/-! ### What a start only records -/

/-- From s to t only Glaren's records and settings, the node ID and the units have changed. -/
def RecordsAside (s t : State) : Prop :=
  t.tick = s.tick ∧ t.dealer = s.dealer ∧ t.tiers = s.tiers ∧ t.host = s.host ∧ t.glaren.gcTick = s.glaren.gcTick ∧
    t.glaren.update.nextAction = s.glaren.update.nextAction ∧ t.glaren.update.incoming = s.glaren.update.incoming ∧
    t.resets = { s.resets with heldRecords := t.resets.heldRecords, droppedRecords := t.resets.droppedRecords }

theorem RecordsAside.refl (s : State) : RecordsAside s s := ⟨rfl, rfl, rfl, rfl, rfl, rfl, rfl, rfl⟩

theorem RecordsAside.trans {s t u : State} (h1 : RecordsAside s t) (h2 : RecordsAside t u) : RecordsAside s u := by
  obtain ⟨hk1, hd1, ht1, hh1, hg1, hn1, hi1, hr1⟩ := h1
  obtain ⟨hk2, hd2, ht2, hh2, hg2, hn2, hi2, hr2⟩ := h2
  refine ⟨hk2.trans hk1, hd2.trans hd1, ht2.trans ht1, hh2.trans hh1, hg2.trans hg1, hn2.trans hn1, hi2.trans hi1, ?_⟩
  rw [hr2, hr1]

theorem records_foldl {α : Type} {f : State → α → State} (hf : ∀ s x, RecordsAside s (f s x)) (l : List α) (s : State) :
    RecordsAside s (l.foldl f s) := by
  induction l generalizing s with
  | nil => exact RecordsAside.refl s
  | cons x l ih => exact (hf s x).trans (ih (f s x))

theorem records_score (a b c : Nat) (x : W64) (d : List Byte) (s : State) : RecordsAside s (score a b c x d s) := by
  unfold score
  dsimp only
  split
  · split
    · exact ⟨rfl, rfl, rfl, rfl, rfl, rfl, rfl, rfl⟩
    · exact ⟨rfl, rfl, rfl, rfl, rfl, rfl, rfl, rfl⟩
  · split
    · exact ⟨rfl, rfl, rfl, rfl, rfl, rfl, rfl, rfl⟩
    · exact ⟨rfl, rfl, rfl, rfl, rfl, rfl, rfl, rfl⟩

theorem records_migrateSettings (s : State) : RecordsAside s (migrateSettings s) := by
  unfold migrateSettings
  dsimp only
  generalize hold : (if s.glaren.migrating = true then s.glaren.otherFormat.getD (bankFormat s) else bankFormat s) = old
  split
  · exact RecordsAside.trans (t := { s with glaren := { s.glaren with
      bankFormat := some (running s 0).settings, otherFormat := some old, migrating := true, settingsSeq := s.glaren.settingsSeq + 1 } })
      ⟨rfl, rfl, rfl, rfl, rfl, rfl, rfl, rfl⟩ (records_score _ _ _ _ _ _)
  · split
    · split
      · split
        · exact ⟨rfl, rfl, rfl, rfl, rfl, rfl, rfl, rfl⟩
        · exact ⟨rfl, rfl, rfl, rfl, rfl, rfl, rfl, rfl⟩
      · exact ⟨rfl, rfl, rfl, rfl, rfl, rfl, rfl, rfl⟩
    · exact RecordsAside.refl s

theorem records_measure (s : State) : RecordsAside s (measure s) := ⟨rfl, rfl, rfl, rfl, rfl, rfl, rfl, rfl⟩

theorem records_runSlot (b : Bool) (s : State) : RecordsAside s (runSlot b s) :=
  (RecordsAside.trans (t := setUpdate (fun u => { u with slotB := b, running := if b then slotBTable u else u.slotA }) s)
    ⟨rfl, rfl, rfl, rfl, rfl, rfl, rfl, rfl⟩ (records_migrateSettings _)).trans (records_measure _)

theorem records_startNode (s : State) : RecordsAside s (startNode s) := by
  unfold startNode
  split
  · exact ⟨rfl, rfl, rfl, rfl, rfl, rfl, rfl, rfl⟩
  · exact RecordsAside.refl s

theorem records_journalMove (old s : State) : RecordsAside s (journalMove old s) := by
  unfold journalMove
  split
  · exact RecordsAside.refl s
  · exact records_score _ _ _ _ _ s

theorem records_failEngine (k e : Nat) (s : State) : RecordsAside s (failEngine k e s) := by
  unfold failEngine
  dsimp only
  split
  · exact RecordsAside.refl s
  · exact RecordsAside.trans (t := { s with glaren := { s.glaren with
      failedList := Tab.set (fun _ => 0) s.glaren.failedList k (Tab.get (fun _ => 0) s.glaren.failedList k ||| BitVec.ofNat 9 (2 ^ e))
      settingsSeq := s.glaren.settingsSeq + 1 } }) ⟨rfl, rfl, rfl, rfl, rfl, rfl, rfl, rfl⟩ (records_score _ _ _ _ _ _)

/-- An engine leaves the failed list. -/
def unlistEngine (x : Nat × Nat) (s : State) : State :=
  { s with glaren := { s.glaren with
    failedList := Tab.mod (fun _ => 0) s.glaren.failedList x.1 (fun m => m &&& ~~~(BitVec.ofNat 9 (2 ^ x.2))),
    settingsSeq := s.glaren.settingsSeq + 1 } }

theorem records_unlistEngine (s : State) (x : Nat × Nat) : RecordsAside s (unlistEngine x s) := ⟨rfl, rfl, rfl, rfl, rfl, rfl, rfl, rfl⟩

/-- The engines that ENGINE_SERVICE has cleared and that have passed the self-test leave the failed list. -/
def clearPassed (failed : List (Nat × Nat)) (s : State) : State :=
  let s1 := (s.glaren.clearPending.filter (fun x => !failed.contains x)).foldl (fun s x => unlistEngine x s) s
  { s1 with glaren := { s1.glaren with clearPending := [] } }

theorem selfTest_eq (failed : List (Nat × Nat)) (s : State) :
    selfTest failed s = failed.foldl (fun s x => failEngine x.1 x.2 s) (clearPassed failed s) := rfl

theorem records_clearPassed (failed : List (Nat × Nat)) (s : State) : RecordsAside s (clearPassed failed s) :=
  (records_foldl records_unlistEngine _ s).trans ⟨rfl, rfl, rfl, rfl, rfl, rfl, rfl, rfl⟩

theorem records_selfTest (failed : List (Nat × Nat)) (s : State) : RecordsAside s (selfTest failed s) := by
  rw [selfTest_eq]
  exact (records_clearPassed failed s).trans (records_foldl (f := fun s x => failEngine x.1 x.2 s) (fun s x => records_failEngine x.1 x.2 s) failed _)

/-! ### The failed list after the self-test -/

/-- Whether an engine is in Glaren's failed list. -/
def listedFailed (s : State) (x : Nat × Nat) : Bool := (Tab.get (fun _ => 0) s.glaren.failedList x.1).getLsbD x.2

/-- A failed engine is listed, and no engine leaves the list. -/
theorem listedFailed_failEngine (x y : Nat × Nat) (s : State) (h : (y = x ∧ x.2 < 9) ∨ listedFailed s y = true) :
    listedFailed (failEngine x.1 x.2 s) y = true := by
  unfold failEngine
  dsimp only
  split
  next hin =>
    rcases h with ⟨rfl, -⟩ | h
    · exact hin
    · exact h
  next =>
    have hlist (u : State) : listedFailed (score (1 + x.1 / 8) 2 0x0020 (runStep s) [BitVec.ofNat 8 x.1, BitVec.ofNat 8 x.2] u) y = listedFailed u y := by
      simp [listedFailed]
    rw [hlist]
    unfold listedFailed at h ⊢
    rw [Tab.get_set]
    rcases h with ⟨rfl, hlt⟩ | h
    · rw [if_pos rfl, BitVec.getLsbD_or, BitVec.getLsbD_ofNat, Nat.testBit_two_pow_self, decide_eq_true hlt, Bool.and_self, Bool.or_true]
    · split
      next hx => rw [hx, BitVec.getLsbD_or, h, Bool.true_or]
      next => exact h

theorem listedFailed_foldl (failed : List (Nat × Nat)) (y : Nat × Nat) (s : State) (h : (y ∈ failed ∧ y.2 < 9) ∨ listedFailed s y = true) :
    listedFailed (failed.foldl (fun s x => failEngine x.1 x.2 s) s) y = true := by
  induction failed generalizing s with
  | nil => exact h.resolve_left (fun hy => List.not_mem_nil hy.1)
  | cons x failed ih =>
    refine ih (failEngine x.1 x.2 s) ?_
    rcases h with ⟨hy, hlt⟩ | h
    · rcases List.mem_cons.mp hy with rfl | hy
      · exact Or.inr (listedFailed_failEngine y y s (Or.inl ⟨rfl, hlt⟩))
      · exact Or.inl ⟨hy, hlt⟩
    · exact Or.inr (listedFailed_failEngine x y s (Or.inr h))

/-! ### Starts that begin, fail, or end in recovery -/

section
variable {s : State}

theorem beginStart_ok (h : s.resets.failedStarts < 3) :
    beginStart s = score 0 0 0x0001 0 [] (setResets (fun r => { r with startOk := false }) s) := if_neg (Nat.not_le.mpr h)

theorem enterRecovery_resets (s : State) :
    (enterRecovery s).resets.recovery = true ∧ (enterRecovery s).resets.mgood = false ∧ (enterRecovery s).resets.starting = false := by
  obtain ⟨-, -, -, -, -, -, -, hr⟩ := records_score 0 2 0x0004 0 []
    (setResets (fun r => { r with recovery := true, starting := false, mgood := false, startOk := true }) s)
  have hfields := And.intro (congrArg Resets.recovery hr :) (And.intro (congrArg Resets.mgood hr :) (congrArg Resets.starting hr :))
  unfold enterRecovery
  dsimp only
  split
  · exact hfields
  · exact hfields

theorem failStart_resets (k : Nat) (s : State) :
    (failStart k s).resets.retry = true ∧ (failStart k s).resets.failedStarts = s.resets.failedStarts + 1 ∧
      (failStart k s).resets.failStep = k ∧ (failStart k s).resets.mgood = false := by
  obtain ⟨-, -, -, -, -, -, -, hr⟩ := records_score 0 2 0x0003 0 [BitVec.ofNat 8 k] (setResets (fun r =>
    { r with failedStarts := r.failedStarts + 1, failStep := k, startOk := true, retry := true, startGc := s.glaren.gcTick }) (diesOff s))
  unfold failStart
  rw [hr]
  exact ⟨rfl, rfl, rfl, rfl⟩

/-- What a cold start that begins has before its record is written. -/
def coldBegun (causes : BitVec 7) (s : State) : State :=
  glarenCold (diesOff (setResets (fun r => { r with bootCount := r.bootCount + 1, causes := causes, warmCount := 0, retry := false, shutdown := false }) s))

theorem beginCold_starts (causes : BitVec 7) (hfew : s.resets.failedStarts < 3) (hrec : s.resets.recovery = false) :
    ∃ u, RecordsAside (setResets (fun r => { r with startOk := false }) (coldBegun causes s)) u ∧
      beginCold causes s = setResets (fun r => { r with starting := true, startGc := u.glaren.gcTick }) u := by
  let u := journalMove s (beginStart (coldBegun causes s))
  have hu : RecordsAside (setResets (fun r => { r with startOk := false }) (coldBegun causes s)) u := by
    have hbegin : beginStart (coldBegun causes s) = score 0 0 0x0001 0 [] (setResets (fun r => { r with startOk := false }) (coldBegun causes s)) :=
      beginStart_ok hfew
    refine RecordsAside.trans ?_ (records_journalMove s _)
    rw [hbegin]
    exact records_score _ _ _ _ _ _
  obtain ⟨-, -, -, -, -, -, -, hr⟩ := id hu
  have hgo : u.resets.recovery = false := by rw [hr]; exact hrec
  refine ⟨u, hu, ?_⟩
  exact if_neg (Bool.eq_false_iff.mp hgo)

theorem beginCold_recovers (causes : BitVec 7) (hmany : 3 ≤ s.resets.failedStarts) :
    (beginCold causes s).resets.recovery = true ∧ (beginCold causes s).resets.mgood = false ∧ (beginCold causes s).resets.starting = false := by
  let u := journalMove s (beginStart (coldBegun causes s))
  have hbegin : beginStart (coldBegun causes s) = enterRecovery (coldBegun causes s) := if_pos hmany
  obtain ⟨hrec, hgood, hstart⟩ := enterRecovery_resets (coldBegun causes s)
  obtain ⟨-, -, -, -, -, -, -, hr⟩ := records_journalMove s (enterRecovery (coldBegun causes s))
  have hu : beginCold causes s = journalMove s (enterRecovery (coldBegun causes s)) := by
    have hstop : u.resets.recovery = true := by rw [show u = journalMove s (enterRecovery (coldBegun causes s)) by rw [← hbegin], hr]; exact hrec
    rw [← hbegin]
    exact if_pos hstop
  rw [hu, hr]
  exact ⟨hrec, hgood, hstart⟩

/-! ### Power -/

theorem completes_inputLoss (hpow : s.resets.powered = true) :
    Completes .inputLoss s (fun t => t.resets.powered = false ∧ t.resets.mgood = false ∧ t.tiers.mem = [] ∧
      t.tiers.objects = [] ∧ t.tiers.flash = s.tiers.flash ∧ t.tiers.spares = s.tiers.spares ∧ t.dealer.run = none ∧ t.dealer.phase = .idle ∧
      t.host.holder = none ∧ t.units = Units.cold ∧ t.tick = 0) := by
  obtain ⟨-, -, htiers, -, -, -, -, -⟩ := records_score 0 0 0x0005 0 [] s
  exact Completes.intro (congrArg Host.Outcome.next (if_pos hpow))
    ⟨rfl, rfl, rfl, rfl, (congrArg Tiers.flash htiers :), (congrArg Tiers.spares htiers :), rfl, rfl, rfl, rfl, rfl⟩

/-- What the first power leaves before the cold start. -/
def poweredUp (s : State) : State :=
  { s with
    glaren := { s.glaren with gcTick := 0, trayCoords := none, lastSummary := 0 }
    unlia := { s.unlia with nodeId := 0, nodeValid := false }
    resets := { s.resets with powered := true, selfResets := [] } }

theorem exec_powerGood (hoff : s.resets.powered = false) (hrec : s.resets.recovery = false) :
    exec .powerGood s = .next (beginCold 1 (poweredUp s)) := by
  refine congrArg Host.Outcome.next ((if_neg (Bool.eq_false_iff.mp hoff)).trans ?_)
  exact if_neg (Bool.eq_false_iff.mp hrec)

theorem completes_powerGood (hoff : s.resets.powered = false) (hrec : s.resets.recovery = false) (hfew : s.resets.failedStarts < 3) :
    Completes .powerGood s (fun t =>
      t.resets.powered = true ∧ t.resets.starting = true ∧ t.resets.mgood = false ∧ t.resets.causes = 1 ∧
      t.resets.bootCount = s.resets.bootCount + 1 ∧ t.host.epoch = 1 ∧ t.host.holder = none ∧ t.glaren.gcTick = 0 ∧
      t.tiers.flash = s.tiers.flash ∧ t.tiers.mem = []) := by
  obtain ⟨u, ⟨-, -, htiers, hhost, hgc, -, -, hresets⟩, hrun⟩ := beginCold_starts (s := poweredUp s) 1 hfew hrec
  refine Completes.intro ((exec_powerGood hoff hrec).trans (congrArg _ hrun)) ⟨?_, rfl, ?_, ?_, ?_, ?_, ?_, hgc,
    (congrArg Tiers.flash htiers :), (congrArg Tiers.mem htiers :)⟩
  · exact (congrArg Resets.powered hresets :)
  · exact (congrArg Resets.mgood hresets :)
  · exact (congrArg Resets.causes hresets :)
  · exact (congrArg Resets.bootCount hresets :)
  · exact (congrArg HostIf.epoch hhost :)
  · exact (congrArg HostIf.holder hhost :)

theorem completes_powerGood_recovery (hoff : s.resets.powered = false) (hrec : s.resets.recovery = false) (hmany : 3 ≤ s.resets.failedStarts) :
    Completes .powerGood s (fun t => t.resets.recovery = true ∧ t.resets.mgood = false ∧ t.resets.starting = false) :=
  Completes.intro (exec_powerGood hoff hrec) (beginCold_recovers (s := poweredUp s) 1 hmany)

theorem completes_startRetry (hretry : s.resets.retry = true) (hpow : s.resets.powered = true)
    (hwait : 1000000 ≤ (s.glaren.gcTick - s.resets.startGc).toNat) (hfew : s.resets.failedStarts < 3) (hrec : s.resets.recovery = false) :
    Completes .startRetry s (fun t => t.resets.starting = true ∧ t.resets.causes = 0x40 ∧ t.resets.bootCount = s.resets.bootCount + 1 ∧
      t.resets.retry = false) := by
  obtain ⟨u, ⟨-, -, -, -, -, -, -, hresets⟩, hrun⟩ := beginCold_starts 0x40 hfew hrec
  exact Completes.intro (congrArg Host.Outcome.next ((if_pos ⟨hretry, hpow, hwait⟩).trans hrun))
    ⟨rfl, (congrArg Resets.causes hresets :), (congrArg Resets.bootCount hresets :), (congrArg Resets.retry hresets :)⟩

/-! ### The cold start -/

section
variable (hstart : s.resets.starting = true) (htest : s.resets.startTest = none) (saved : Bool) (failed : List (Nat × Nat))
include hstart htest

theorem exec_coldStart (fails : Option Nat) : exec (.coldStart saved false failed fails) s = .next (coldStart saved false failed fails s) :=
  congrArg Host.Outcome.next (if_pos ⟨hstart, by rw [htest]; rfl⟩)

omit hstart htest in
/-- A cold start at step 4: the memories are trained. -/
theorem coldStart_none :
    coldStart saved false failed none s =
      if (coldSteps saved (runSlot false s)).resets.warmN = true then finishCold failed (coldSteps saved (runSlot false s))
      else setResets (fun r => { r with startTest := some failed }) (coldSteps saved (runSlot false s)) := by
  have hwarm : (coldSteps saved (runSlot false s)).resets.warmN = s.resets.warmN := by
    obtain ⟨-, -, -, -, -, -, -, hresets⟩ := records_runSlot false s
    exact (congrArg Resets.warmN hresets :)
  rw [hwarm]
  rfl

omit hstart htest in
theorem warmN_coldSteps : (coldSteps saved (runSlot false s)).resets.warmN = s.resets.warmN := by
  obtain ⟨-, -, -, -, -, -, -, hresets⟩ := records_runSlot false s
  exact (congrArg Resets.warmN hresets :)

omit hstart htest in
/-- The end of a cold start with no apply under way (steps 4 to 7). -/
theorem finishCold_eq (h : s.glaren.update.incoming = false) : finishCold failed s =
    { startNode (selfTest failed s) with
      dealer := { (startNode (selfTest failed s)).dealer with due := true }
      units := { (startNode (selfTest failed s)).units with engMap := (startNode (selfTest failed s)).glaren.failedList }
      tiers := { (startNode (selfTest failed s)).tiers with
        layers := if s.resets.firstStart then formattingLayers else unformatted (startNode (selfTest failed s)).tiers.layers }
      resets := { (startNode (selfTest failed s)).resets with
        mgood := true, starting := false, startTest := none, firstStart := false,
        flashFormatted := s.resets.firstStart || decide (unformatted (startNode (selfTest failed s)).tiers.layers ≠ []) } } := by
  obtain ⟨-, -, -, -, -, -, hin, -⟩ := (records_selfTest failed s).trans (records_startNode _)
  exact if_neg (Bool.eq_false_iff.mp (hin.trans h))

theorem completes_coldStart (hinc : s.glaren.update.incoming = false) (hwarm : s.resets.warmN = true) :
    Completes (.coldStart saved false failed none) s (fun t =>
      t.resets.mgood = true ∧ t.resets.starting = false ∧ t.dealer.due = true ∧ t.resets.ddrRetrained = (!saved) ∧
      t.tiers.mem = s.tiers.mem ∧ t.tiers.flash = s.tiers.flash ∧ t.dealer.phase = s.dealer.phase ∧
      (∀ x ∈ failed, x.2 < 9 → (Tab.get (fun _ => 0) t.glaren.failedList x.1).getLsbD x.2 = true)) := by
  let c := coldSteps saved (runSlot false s)
  obtain ⟨-, hdealer, htiers, -, -, -, hin, -⟩ := records_runSlot false s
  obtain ⟨-, hdealer', htiers', -, -, -, -, hresets'⟩ := (records_selfTest failed c).trans (records_startNode _)
  have hrun : coldStart saved false failed none s = finishCold failed c :=
    (coldStart_none saved failed).trans (if_pos ((warmN_coldSteps saved).trans hwarm))
  refine Completes.intro ((exec_coldStart hstart htest saved failed none).trans (congrArg _ (hrun.trans (finishCold_eq failed (hin.trans hinc)))))
    ⟨rfl, rfl, rfl, ?_, ?_, ?_, ?_, fun x hx hlt => ?_⟩
  · exact (congrArg Resets.ddrRetrained hresets' :)
  · exact (congrArg Tiers.mem htiers' :).trans (congrArg Tiers.mem htiers :)
  · exact (congrArg Tiers.flash htiers' :).trans (congrArg Tiers.flash htiers :)
  · exact (congrArg Dealer.phase hdealer' :).trans (congrArg Dealer.phase hdealer :)
  · have hlisted : listedFailed (selfTest failed c) x = true := by
      rw [selfTest_eq]
      exact listedFailed_foldl failed x _ (Or.inl ⟨hx, hlt⟩)
    have hnode : (startNode (selfTest failed c)).glaren = (selfTest failed c).glaren := by
      unfold startNode
      split
      · rfl
      · rfl
    exact (congrArg (fun g => (Tab.get (fun _ => 0) (Glaren.failedList g) x.1).getLsbD x.2) hnode).trans hlisted

theorem completes_coldStart_held (hwarm : s.resets.warmN = false) :
    Completes (.coldStart saved false failed none) s (fun t => t.resets.startTest = some failed ∧ t.resets.mgood = s.resets.mgood) := by
  obtain ⟨-, -, -, -, -, -, -, hresets⟩ := records_runSlot false s
  have hlow : ¬(coldSteps saved (runSlot false s)).resets.warmN = true := by
    rw [warmN_coldSteps saved]
    exact Bool.eq_false_iff.mp hwarm
  exact Completes.intro ((exec_coldStart hstart htest saved failed none).trans (congrArg _ ((coldStart_none saved failed).trans (if_neg hlow))))
    ⟨rfl, (congrArg Resets.mgood hresets :)⟩

theorem completes_startTimeout (k : Nat) (hlate : 30000000 ≤ (s.glaren.gcTick - s.resets.startGc).toNat) :
    Completes (.startTimeout k) s (fun t => t.resets.retry = true ∧ t.resets.failedStarts = s.resets.failedStarts + 1 ∧
      t.resets.failStep = k ∧ t.resets.mgood = false) :=
  Completes.intro (congrArg Host.Outcome.next (if_pos ⟨hstart, by rw [htest]; rfl, hlate⟩)) (failStart_resets k s)

end

/-! ### The warm reset -/

/-- What a warm reset leaves once its records are written. -/
def warmStarted (s : State) : State :=
  let w := score 0 0 0x0001 0 [] (setResets (fun r => { r with startOk := false }) (warmState s))
  score 0 0 0x0009 0 (stateData w) w

theorem records_warmStarted (s : State) : RecordsAside (setResets (fun r => { r with startOk := false }) (warmState s)) (warmStarted s) :=
  (records_score _ _ _ _ _ _).trans (records_score _ _ _ _ _ _)

theorem resets_warmStarted (s : State) :
    (warmStarted s).resets.recovery = s.resets.recovery ∧ (warmStarted s).resets.warmN = s.resets.warmN ∧
      (warmStarted s).resets.mgood = false ∧ (warmStarted s).resets.causes = s.resets.warmCauses ∧
      (warmStarted s).resets.warmCount = satInc s.resets.warmCount := by
  obtain ⟨-, -, -, -, -, -, -, hresets⟩ := records_warmStarted s
  rw [hresets]
  exact ⟨rfl, rfl, rfl, rfl, rfl⟩

/-- The time to MGOOD that a warm reset notes. -/
def warmTime (s : State) : W32 :=
  BitVec.ofNat 32 (match s.resets.warmAt with
    | some t => if s.resets.warmHeld then (s.tick - t).toNat / 1000 + 2 else 4
    | none => 4)

/-- A held or finished warm reset after its memories' settings are migrated. -/
def warmMigrated (s : State) : State :=
  migrateSettings (startNode (setResets (fun r =>
    { r with mgood := true, warmHeld := false, warmAt := none, warmCauses := 0, mgoodTime := warmTime s }) s))

theorem finishWarm_eq (s : State) : finishWarm s = measure (warmRestarted (warmMigrated s)) := by
  unfold finishWarm warmMigrated warmTime
  rfl

/-- A held or finished warm reset is high again, with the rest as it stood. -/
theorem records_finishWarm (hnext : s.glaren.update.nextAction = 0) :
    RecordsAside (setResets (fun r => { r with mgood := true, warmHeld := false, warmAt := none, warmCauses := 0, mgoodTime := warmTime s }) s)
      (finishWarm s) := by
  have hu : RecordsAside (setResets (fun r =>
      { r with mgood := true, warmHeld := false, warmAt := none, warmCauses := 0, mgoodTime := warmTime s }) s) (warmMigrated s) :=
    (records_startNode _).trans (records_migrateSettings _)
  rw [finishWarm_eq]
  generalize warmMigrated s = u at hu ⊢
  obtain ⟨-, -, -, -, -, hact, -, -⟩ := id hu
  have hzero : u.glaren.update.nextAction = 0 := hact.trans hnext
  have hwarm : warmRestarted u = setUpdate (fun x => { x with restarted := x.restarted ++ (componentBlocks 3 ++ componentBlocks 4) }) u := by
    have hblocks : blocksRestarted (componentBlocks 3 ++ componentBlocks 4) u =
        setUpdate (fun x => { x with restarted := x.restarted ++ (componentBlocks 3 ++ componentBlocks 4) }) u :=
      if_neg (fun h => h.1 hzero)
    unfold warmRestarted
    rw [hzero, hblocks]
    rfl
  rw [hwarm]
  exact hu.trans ⟨rfl, rfl, rfl, rfl, rfl, rfl, rfl, rfl⟩

/-! Memory without its bonded SRAM. -/

theorem get_withoutSram (m : Tab Byte) (p : Nat) :
    Tab.get emptyByte (m.filter (fun e => decide (sramEnd ≤ e.1))) p = if p < sramEnd then 0 else Tab.get emptyByte m p := by
  have hclear : m.filter (fun e => decide (sramEnd ≤ e.1)) = Tab.clear (fun k => decide (k < sramEnd)) m :=
    List.filter_congr (fun e _ => by rw [← decide_not, decide_eq_decide, Nat.not_lt])
  rw [hclear, Tab.get_clear]
  simp only [decide_eq_true_eq, emptyByte]

theorem readByte_withoutSram_ddr (m : Tab Byte) {a : Nat} (ha : directBase ≤ a) :
    readByte (m.filter (fun e => decide (sramEnd ≤ e.1))) a = readByte m a := by
  have hno : ¬ a < sramEnd := Nat.not_lt.mpr (Nat.le_trans (by decide) ha)
  unfold readByte
  cases hp : physOf a with
  | none => rfl
  | some p =>
    have hhigh : ¬ p < sramEnd := by
      rw [physOf, if_neg hno] at hp
      split at hp
      · rw [← Option.some.inj hp]
        exact hno
      · split at hp
        · rw [← Option.some.inj hp]
          rw [Nat.add_assoc, Nat.add_assoc]
          exact Nat.not_lt.mpr (Nat.le_trans (show sramEnd ≤ directBase by decide) (Nat.le_add_right _ _))
        · cases hp
    exact (get_withoutSram m p).trans (if_neg hhigh)

theorem readByte_withoutSram_sram (m : Tab Byte) {a : Nat} (ha : a < sramEnd) :
    readByte (m.filter (fun e => decide (sramEnd ≤ e.1))) a = 0 := by
  unfold readByte
  rw [physOf_sram a ha]
  exact (get_withoutSram m a).trans (if_pos ha)

section
variable {t0 : W64} (hat : s.resets.warmAt = some t0) (hbuild : s.dealer.building = none) (hheld : s.resets.warmHeld = false)
  (hwait : 10 ≤ (s.tick - t0).toNat) (hok : s.resets.startOk = true) (hfew : s.resets.failedStarts < 3) (hrec : s.resets.recovery = false)
include hat hbuild hheld hwait hok hfew hrec

theorem exec_warmReset (fails : Option Nat) :
    exec (.warmReset fails) s = .next (match (motive := Option Nat → State) fails with
      | some k => failStart k (warmStarted s)
      | none => if (warmStarted s).resets.warmN then finishWarm (warmStarted s)
        else setResets (fun r => { r with warmHeld := true }) (warmStarted s)) := by
  have hdue : ¬s.resets.warmHeld = true ∧ 10 ≤ (s.tick - t0).toNat := ⟨Bool.eq_false_iff.mp hheld, hwait⟩
  have hdrop : closeStart (dropBuilding s) = s := by
    have hnone : dropBuilding s = s := by simp only [dropBuilding, hbuild]
    rw [hnone]
    exact if_pos hok
  have hbegin : beginStart (warmState s) = score 0 0 0x0001 0 [] (setResets (fun r => { r with startOk := false }) (warmState s)) := beginStart_ok hfew
  have hgo : (warmStarted s).resets.recovery = false := (resets_warmStarted s).1.trans hrec
  have hexec : exec (.warmReset fails) s = .next (warmReset fails s) := by
    refine congrArg Host.Outcome.next ?_
    rw [hat]
    exact if_pos hdue
  rw [hexec]
  unfold warmReset
  dsimp only
  rw [hdrop, hbegin]
  exact congrArg _ (if_neg (Bool.eq_false_iff.mp hgo))

theorem completes_warmReset (hnext : s.glaren.update.nextAction = 0) (hwarm : s.resets.warmN = true) :
    Completes (.warmReset none) s (fun t => t.resets.mgood = true ∧ t.resets.warmAt = none ∧ t.host.holder = none ∧
      t.host.epoch = s.host.epoch + 1 ∧ t.dealer.phase = .idle ∧ t.dealer.run = none ∧ t.tiers.objects = [] ∧ t.tiers.flash = s.tiers.flash ∧
      (∀ a, directBase ≤ a → readByte t.tiers.mem a = readByte s.tiers.mem a) ∧ (∀ a, a < sramEnd → readByte t.tiers.mem a = 0) ∧
      t.resets.causes = s.resets.warmCauses ∧ t.resets.warmCount = satInc s.resets.warmCount) := by
  obtain ⟨-, hwarmN, -, hcauses, hcount⟩ := resets_warmStarted s
  obtain ⟨-, hdealer, htiers, hhost, -, hact, -, -⟩ := records_warmStarted s
  obtain ⟨-, hdealer', htiers', hhost', -, -, -, hresets'⟩ := records_finishWarm (s := warmStarted s) (hact.trans hnext)
  have hmem : (finishWarm (warmStarted s)).tiers.mem = s.tiers.mem.filter (fun e => decide (sramEnd ≤ e.1)) :=
    (congrArg Tiers.mem htiers' :).trans (congrArg Tiers.mem htiers :)
  refine Completes.intro ((exec_warmReset hat hbuild hheld hwait hok hfew hrec none).trans (congrArg _ (if_pos (hwarmN.trans hwarm))))
    ⟨(congrArg Resets.mgood hresets' :), (congrArg Resets.warmAt hresets' :), ?_, ?_, ?_, ?_, ?_, ?_, fun a ha => ?_, fun a ha => ?_, ?_, ?_⟩
  · exact (congrArg HostIf.holder hhost' :).trans (congrArg HostIf.holder hhost :)
  · exact (congrArg HostIf.epoch hhost' :).trans (congrArg HostIf.epoch hhost :)
  · exact (congrArg Dealer.phase hdealer' :).trans (congrArg Dealer.phase hdealer :)
  · exact (congrArg Dealer.run hdealer' :).trans (congrArg Dealer.run hdealer :)
  · exact (congrArg Tiers.objects htiers' :).trans (congrArg Tiers.objects htiers :)
  · exact (congrArg Tiers.flash htiers' :).trans (congrArg Tiers.flash htiers :)
  · rw [hmem]
    exact readByte_withoutSram_ddr s.tiers.mem ha
  · rw [hmem]
    exact readByte_withoutSram_sram s.tiers.mem ha
  · exact (congrArg Resets.causes hresets' :).trans hcauses
  · exact (congrArg Resets.warmCount hresets' :).trans hcount

theorem completes_warmReset_held (hwarm : s.resets.warmN = false) :
    Completes (.warmReset none) s (fun t => t.resets.warmHeld = true ∧ t.resets.mgood = false) := by
  obtain ⟨-, hwarmN, hlow, -, -⟩ := resets_warmStarted s
  have hno : ¬(warmStarted s).resets.warmN = true := by
    rw [hwarmN]
    exact Bool.eq_false_iff.mp hwarm
  exact Completes.intro ((exec_warmReset hat hbuild hheld hwait hok hfew hrec none).trans (congrArg _ (if_neg hno))) ⟨rfl, hlow⟩

theorem completes_warmReset_fails (k : Nat) :
    Completes (.warmReset (some k)) s (fun t => t.resets.retry = true ∧ t.resets.failStep = k ∧ t.resets.mgood = false) := by
  obtain ⟨hretry, -, hstep, hgood⟩ := failStart_resets k (warmStarted s)
  exact Completes.intro (exec_warmReset hat hbuild hheld hwait hok hfew hrec (some k)) ⟨hretry, hstep, hgood⟩

end

/-- WARM_N falls: a warm request of its cause. -/
theorem completes_warmNAssert (hhigh : s.resets.warmN = true) (hcan : canWarm s = true) (hheld : s.resets.warmHeld = false)
    (hnone : s.resets.warmAt = none) :
    Completes .warmNAssert s (fun t => t.resets.warmN = false ∧ t.resets.warmAt = some s.tick ∧ t.resets.warmCauses = 4 ∧
      t.dealer = s.dealer ∧ t.tiers = s.tiers) := by
  have hrun : requestWarm 2 (setResets (fun r => { r with warmN := false }) s) = score 0 2 0x0006 0 [4]
      (setResets (fun r => { r with warmN := false, warmAt := some s.tick, warmCauses := 4 }) s) := by
    have hcan' : canWarm (setResets (fun r => { r with warmN := false }) s) = true := hcan
    simp only [requestWarm, hcan', not_true_eq_false, if_false]
    rw [if_neg (show ¬(setResets (fun r => { r with warmN := false }) s).resets.warmHeld = true from Bool.eq_false_iff.mp hheld)]
    simp only [setResets, hnone]
    rfl
  obtain ⟨-, hdealer, htiers, -, -, -, -, hresets⟩ := records_score 0 2 0x0006 0 [4]
    (setResets (fun r => { r with warmN := false, warmAt := some s.tick, warmCauses := 4 }) s)
  exact Completes.intro (congrArg Host.Outcome.next ((if_pos hhigh).trans hrun))
    ⟨(congrArg Resets.warmN hresets :), (congrArg Resets.warmAt hresets :), (congrArg Resets.warmCauses hresets :), hdealer, htiers⟩

theorem completes_warmNRelease (hlow : s.resets.warmN = false) (hheld : s.resets.warmHeld = true) (hnext : s.glaren.update.nextAction = 0) :
    Completes .warmNRelease s (fun t => t.resets.warmN = true ∧ t.resets.mgood = true ∧ t.resets.warmHeld = false ∧
      t.tiers.mem = s.tiers.mem ∧ t.tiers.flash = s.tiers.flash) := by
  obtain ⟨-, -, htiers, -, -, -, -, hresets⟩ := records_finishWarm (s := setResets (fun r => { r with warmN := true }) s) hnext
  exact Completes.intro (congrArg Host.Outcome.next ((if_neg (Bool.eq_false_iff.mp hlow)).trans (if_pos hheld)))
    ⟨(congrArg Resets.warmN hresets :), (congrArg Resets.mgood hresets :), (congrArg Resets.warmHeld hresets :), (congrArg Tiers.mem htiers :),
      (congrArg Tiers.flash htiers :)⟩

end

/-- Settles O54, by what power-off, the cold start and the warm reset leave, up to records that touch nothing else. -/
theorem startsAndResets : Obligations.StartsAndResets := by
  unfold Obligations.StartsAndResets
  refine ⟨fun s => ⟨completes_inputLoss, completes_powerGood, completes_powerGood_recovery,
    fun hstart htest hinc => ⟨fun hwarm saved failed => completes_coldStart hstart htest saved failed hinc hwarm,
      fun hwarm saved failed => completes_coldStart_held hstart htest saved failed hwarm, fun saved failed => ?_⟩,
    fun k hstart htest => completes_startTimeout hstart htest k, fun k hstop => ?_, completes_startRetry⟩,
    fun s => ⟨fun t0 hat hbuild hheld hwait hok hfew hrec hnext =>
      ⟨completes_warmReset hat hbuild hheld hwait hok hfew hrec hnext, completes_warmReset_held hat hbuild hheld hwait hok hfew hrec,
        completes_warmReset_fails hat hbuild hheld hwait hok hfew hrec⟩,
      fun hnone k => ?_, completes_warmNAssert, completes_warmNRelease, fun hhigh => congrArg Host.Outcome.next (if_pos hhigh)⟩⟩
  · exact Completes.intro (exec_coldStart hstart htest saved failed (some 4)) (failStart_resets 4 s)
  · exact congrArg Host.Outcome.next (if_neg (fun h => Bool.eq_false_iff.mp hstop h.1))
  · refine congrArg Host.Outcome.next ?_
    rw [hnone]

end Sys2Proof.Machine
end

section
/-! SUPPORT. Sensors, caps, the hold-up bank, clock monitors and summaries (R414 to R416, R444, R445, R451, R457). -/

namespace Sys2Proof.Machine

/-! ### Sensors -/

theorem sensorAt_setSensor {i j : Nat} (hi : i < 74) (hj : j < 74) (f : Sensor → Sensor) (s : State) :
    sensorAt (setSensor i f s) j = if i = j then f (sensorAt s j) else sensorAt s j := by
  unfold setSensor sensorAt
  dsimp only
  by_cases h1 : i < 48
  · simp only [if_pos h1]
    by_cases j1 : j < 48
    · simp only [if_pos j1, Tab.get_mod]
    · simp only [if_neg j1, if_neg (show ¬i = j by omega)]
  · simp only [if_neg h1]
    by_cases h2 : i < 72
    · simp only [if_pos h2]
      by_cases j1 : j < 48
      · simp only [if_pos j1, if_neg (show ¬i = j by omega)]
      · by_cases j2 : j < 72
        · simp only [if_neg j1, if_pos j2, Tab.get_mod]
          exact if_congr (by omega) rfl rfl
        · simp only [if_neg j1, if_neg j2, if_neg (show ¬i = j by omega)]
    · simp only [if_neg h2]
      by_cases j2 : j < 72
      · rw [if_neg (show ¬i = j by omega)]
        by_cases h3 : i = 72
        · simp only [if_pos h3, if_pos j2]
        · simp only [if_neg h3, if_pos j2]
      · have hj1 : ¬j < 48 := by omega
        by_cases h3 : i = 72
        · by_cases j3 : j = 72
          · simp only [if_pos h3, if_neg hj1, if_neg j2, if_pos j3, if_pos (h3.trans j3.symm)]
          · simp only [if_pos h3, if_neg hj1, if_neg j2, if_neg j3, if_neg (show ¬i = j by omega)]
        · by_cases j3 : j = 72
          · simp only [if_neg h3, if_neg hj1, if_neg j2, if_pos j3, if_neg (show ¬i = j by omega)]
          · simp only [if_neg h3, if_neg hj1, if_neg j2, if_neg j3, if_pos (show i = j by omega)]

/-- From s to t the sensors, the power samples, the dealer, the memories and the hosts are as they were, and MGOOD too. -/
def SensorsLike (s t : State) : Prop :=
  t.glaren.temps = s.glaren.temps ∧ t.glaren.rails = s.glaren.rails ∧ t.glaren.inlet = s.glaren.inlet ∧ t.glaren.outlet = s.glaren.outlet ∧
    t.glaren.powerSamples = s.glaren.powerSamples ∧ t.dealer = s.dealer ∧ t.tiers = s.tiers ∧ t.host = s.host ∧ t.resets.mgood = s.resets.mgood

theorem SensorsLike.refl (s : State) : SensorsLike s s := ⟨rfl, rfl, rfl, rfl, rfl, rfl, rfl, rfl, rfl⟩

theorem SensorsLike.trans {s t u : State} (h1 : SensorsLike s t) (h2 : SensorsLike t u) : SensorsLike s u := by
  obtain ⟨a1, b1, c1, d1, e1, f1, g1, i1, j1⟩ := h1
  obtain ⟨a2, b2, c2, d2, e2, f2, g2, i2, j2⟩ := h2
  exact ⟨a2.trans a1, b2.trans b1, c2.trans c1, d2.trans d1, e2.trans e1, f2.trans f1, g2.trans g1, i2.trans i1, j2.trans j1⟩

theorem SensorsLike.sensorAt {s t : State} (h : SensorsLike s t) (i : Nat) : Machine.sensorAt t i = Machine.sensorAt s i := by
  obtain ⟨htemps, hrails, hinlet, houtlet, -, -, -, -, -⟩ := h
  simp only [Machine.sensorAt, htemps, hrails, hinlet, houtlet]

theorem sensorsLike_score (a b c : Nat) (x : W64) (d : List Byte) (s : State) : SensorsLike s (score a b c x d s) := by simp [SensorsLike]

theorem sensorsLike_supplyHealth (s : State) : SensorsLike s (supplyHealth s) := by
  unfold supplyHealth
  split
  · exact ⟨rfl, rfl, rfl, rfl, rfl, rfl, rfl, rfl, rfl⟩
  · exact SensorsLike.refl s

theorem sensorsLike_thermalCap (s : State) : SensorsLike s (thermalCap s) := ⟨rfl, rfl, rfl, rfl, rfl, rfl, rfl, rfl, rfl⟩

/-- What a reading leaves of its sensor, with a level and a time inside the limit. -/
def sensorTaken (v : Int) (amps : Nat) (l : BitVec 2) (since : W64) (x : Sensor) : Sensor :=
  { x with value := v, maxV := max x.maxV v, amps := amps, level := l, warnSince := since }

/-- A reading that shuts nothing down is kept in its sensor; beyond Warn its level is 2. -/
theorem readSensor_keeps {i : Nat} {v : Int} (amps : Nat) {s : State} (hcalm : judged s i = true → overCritical s i (sensorAt s i).value v = false) :
    ∃ l since, (judged s i = true → overWarn s i false v = true → l = 2) ∧
      SensorsLike (setSensor i (sensorTaken v amps l since) s) (readSensor i v amps s) := by
  unfold readSensor
  dsimp only
  split
  next hno => exact ⟨_, _, fun h => absurd h hno, SensorsLike.refl _⟩
  next hyes =>
    rw [if_neg (Bool.eq_false_iff.mp (hcalm (not_not.mp hyes)))]
    split
    next =>
      split
      · exact ⟨2, 0, fun _ _ => rfl, SensorsLike.refl _⟩
      · exact ⟨2, 0, fun _ _ => rfl, (sensorsLike_supplyHealth _).trans (sensorsLike_score _ _ _ _ _ _)⟩
    next hwarn =>
      split
      · exact ⟨2, _, fun _ _ => rfl, SensorsLike.refl _⟩
      · exact ⟨_, 0, fun _ h => absurd h hwarn, SensorsLike.refl _⟩

section
variable {s : State} (hpow : s.resets.powered = true) (hglaren : s.resets.glarenReady = true)
include hpow hglaren

theorem exec_sensorSample {i : Nat} (hi : i < 74) (hne : i ≠ 48) (v : Int) (a : Nat) :
    exec (.sensorSample i v a) s = .next (if i < 32 then thermalCap (readSensor i v a s) else readSensor i v a s) := by
  have hrun : ¬(¬s.resets.powered = true ∨ ¬s.resets.glarenReady = true) := by
    rintro (h | h)
    · exact h hpow
    · exact h hglaren
  refine (withUnit_of_lt hi _ _).trans (congrArg _ ?_)
  unfold sensorSample
  rw [if_neg hrun, if_neg hne]

theorem completes_sensorSample (i : Nat) (v : Int) (a : Nat) (hi : i < 74) (hne : i ≠ 48) (hjudged : judged s i = true)
    (hcalm : overCritical s i (sensorAt s i).value v = false) :
    Completes (.sensorSample i v a) s (fun t =>
      (sensorAt t i).value = v ∧ (sensorAt t i).maxV = max (sensorAt s i).maxV v ∧ (sensorAt t i).amps = a ∧
      (overWarn s i false v = true → (sensorAt t i).level = 2) ∧ (∀ j, j < 74 → j ≠ i → sensorAt t j = sensorAt s j) ∧
      t.resets.mgood = s.resets.mgood ∧ t.tiers = s.tiers ∧ t.host = s.host) := by
  obtain ⟨l, since, hlevel, hread⟩ := readSensor_keeps a (fun _ => hcalm)
  have hlike : SensorsLike (setSensor i (sensorTaken v a l since) s) (if i < 32 then thermalCap (readSensor i v a s) else readSensor i v a s) := by
    split
    · exact hread.trans (sensorsLike_thermalCap _)
    · exact hread
  have hown : sensorAt (setSensor i (sensorTaken v a l since) s) i = sensorTaken v a l since (sensorAt s i) := by rw [sensorAt_setSensor hi hi, if_pos rfl]
  obtain ⟨-, -, -, -, -, -, htiers, hhost, hmgood⟩ := id hlike
  refine Completes.intro (exec_sensorSample hpow hglaren hi hne v a) ⟨?_, ?_, ?_, fun hwarn => ?_, fun j hj hji => ?_, hmgood, htiers, hhost⟩
  · rw [hlike.sensorAt, hown]
    rfl
  · rw [hlike.sensorAt, hown]
    rfl
  · rw [hlike.sensorAt, hown]
    rfl
  · rw [hlike.sensorAt, hown]
    exact hlevel hjudged hwarn
  · rw [hlike.sensorAt, sensorAt_setSensor hi hj, if_neg (Ne.symm hji)]

theorem completes_sensorSample_critical (i : Nat) (v : Int) (a : Nat) (hi : i < 74) (hne : i ≠ 48) (hjudged : judged s i = true)
    (hcrit : overCritical s i (sensorAt s i).value v = true) :
    Completes (.sensorSample i v a) s (fun t =>
      t.resets.shutdown = true ∧ t.resets.mgood = false ∧ t.resets.powered = true ∧ t.tiers.flash = s.tiers.flash) := by
  have hshut : ∃ u : State, u.tiers = s.tiers ∧ u.resets.powered = s.resets.powered ∧ readSensor i v a s = shutDown u := by
    refine ⟨sensorRecord i v (setSensor i (sensorTaken v a 3 0) s), by simp [sensorRecord, setSensor], by simp [sensorRecord, setSensor], ?_⟩
    unfold readSensor
    dsimp only
    rw [if_neg (not_not_intro hjudged), if_pos hcrit]
    rfl
  obtain ⟨u, htiers, hpowered, hu⟩ := hshut
  have hflash : u.tiers.flash = s.tiers.flash := congrArg Tiers.flash htiers
  refine Completes.intro ((exec_sensorSample hpow hglaren hi hne v a).trans (congrArg _ (by rw [hu]))) ?_
  split
  · exact ⟨rfl, rfl, hpowered.trans hpow, hflash⟩
  · exact ⟨rfl, rfl, hpowered.trans hpow, hflash⟩

omit hpow hglaren in
/-- An input power sample is kept among the last ten, and counted in the running step's energy. -/
theorem inputPower_keeps (v : Int) (a : Nat) (s : State) :
    (inputPower v a s).glaren.powerSamples = (s.glaren.powerSamples ++ [v.toNat * a]).drop (s.glaren.powerSamples.length + 1 - 10) ∧
      (inputPower v a s).dealer = (setRun (fun r => { r with energy := r.energy + 10 * (v.toNat * a) }) s).dealer ∧
      (inputPower v a s).tiers = s.tiers ∧ (∀ j, sensorAt (inputPower v a s) j = sensorAt s j) := by
  unfold inputPower
  dsimp only
  split
  · split
    · exact ⟨rfl, rfl, rfl, fun _ => rfl⟩
    · exact ⟨by simp only [score_frame]; rfl, by simp only [score_frame]; rfl, by simp only [score_frame]; rfl,
        fun j => (sensorsLike_score _ _ _ _ _ _).sensorAt j⟩
  · exact ⟨rfl, rfl, rfl, fun _ => rfl⟩

theorem completes_sensorSample_input (v : Int) (a : Nat) :
    Completes (.sensorSample 48 v a) s (fun t =>
      (sensorAt t 48).value = v ∧ (sensorAt t 48).maxV = max (sensorAt s 48).maxV v ∧
      t.glaren.powerSamples = (s.glaren.powerSamples ++ [v.toNat * a]).drop (s.glaren.powerSamples.length + 1 - 10) ∧
      (∀ r, s.dealer.run = some r → ∃ r', t.dealer.run = some r' ∧ r'.energy = r.energy + 10 * (v.toNat * a)) ∧ t.tiers = s.tiers) := by
  have hgo : ¬(¬s.resets.powered = true ∨ ¬s.resets.glarenReady = true) := by
    rintro (h | h)
    · exact h hpow
    · exact h hglaren
  have hrun : sensorSample 48 v a s = readSensor 48 v a (inputPower v a s) := by
    unfold sensorSample
    rw [if_neg hgo]
    rfl
  obtain ⟨hsamples, hdealer, htiers, hsensors⟩ := inputPower_keeps v a s
  have hnever (u : State) : overCritical u 48 (sensorAt u 48).value v = false := rfl
  obtain ⟨l, since, -, hlike⟩ := readSensor_keeps (i := 48) (v := v) a (s := inputPower v a s) (fun _ => hnever _)
  have hown : sensorAt (readSensor 48 v a (inputPower v a s)) 48 = sensorTaken v a l since (sensorAt s 48) := by
    rw [hlike.sensorAt, sensorAt_setSensor (by decide) (by decide), if_pos rfl, hsensors]
  obtain ⟨-, -, -, -, hsamples', hdealer', htiers', -, -⟩ := hlike
  refine Completes.intro ((withUnit_of_lt (by decide) _ _).trans (congrArg _ hrun))
    ⟨by rw [hown]; rfl, by rw [hown]; rfl, hsamples'.trans hsamples, fun r hr => ?_, htiers'.trans htiers⟩
  rw [hdealer']
  refine ⟨{ r with energy := r.energy + 10 * (v.toNat * a) }, ?_, rfl⟩
  exact (congrArg Dealer.run hdealer).trans (congrArg (Option.map _) hr)

end

theorem completes_sensorWarnClear {s : State} (i : Nat) (hi : i < 74) (hlevel : (sensorAt s i).level = 2) (hsince : (sensorAt s i).warnSince ≠ 0)
    (hwait : 1000000 ≤ (s.glaren.gcTick + 1 - (sensorAt s i).warnSince).toNat) :
    Completes (.sensorWarnClear i) s (fun t =>
      (sensorAt t i).level = calmLevel i (sensorAt s i).value ∧ (sensorAt t i).value = (sensorAt s i).value ∧
      (∀ j, j < 74 → j ≠ i → sensorAt t j = sensorAt s j) ∧ t.dealer = s.dealer ∧ t.resets = s.resets) := by
  refine Completes.intro ((withUnit_of_lt hi _ _).trans (congrArg _ (if_pos ⟨hlevel, hsince, hwait⟩))) ⟨?_, ?_, fun j hj hji => ?_, rfl, rfl⟩
  · rw [sensorAt_setSensor hi hi, if_pos rfl]
  · rw [sensorAt_setSensor hi hi, if_pos rfl]
  · rw [sensorAt_setSensor hi hj, if_neg (Ne.symm hji)]

theorem completes_holdupCheck {s : State} (ok : Bool) (hpow : s.resets.powered = true) :
    Completes (.holdupCheck ok) s (fun t => t.glaren.holdupLow = (!ok) ∧ t.dealer = s.dealer ∧ t.tiers = s.tiers) := by
  refine Completes.intro (congrArg Host.Outcome.next (if_neg (not_not_intro hpow))) ?_
  split
  · exact ⟨rfl, rfl, rfl⟩
  · simp

/-! ### Clock monitors -/

/-- A warm request with none under way starts the wait for the reset. -/
theorem requestWarm_fresh (bit : Nat) {s : State} (hcan : canWarm s = true) (hheld : s.resets.warmHeld = false) (hnone : s.resets.warmAt = none) :
    requestWarm bit s = score 0 2 0x0006 0 [(BitVec.ofNat 7 (2 ^ bit)).zeroExtend 8]
      (setResets (fun r => { r with warmAt := some s.tick, warmCauses := BitVec.ofNat 7 (2 ^ bit) }) s) := by
  unfold requestWarm
  dsimp only
  rw [if_neg (not_not_intro hcan), if_neg (Bool.eq_false_iff.mp hheld), hnone]

/-- The window of a clock noted in the state. -/
def clockNoted (k : Nat) (locked ok bad : Bool) (count : BitVec 24) (s : State) : State :=
  setResets (fun r => { r with clocks := Tab.mod (fun _ => Clock.cold) r.clocks k (fun x =>
    { x with locked := locked, stable := x.locked && locked && ok, lastCount := count,
             excursions := if bad then satInc x.excursions else x.excursions }) }) s

theorem clock_clockNoted (k j : Nat) (locked ok bad : Bool) (count : BitVec 24) (s : State) :
    Tab.get (fun _ => Clock.cold) (clockNoted k locked ok bad count s).resets.clocks j =
      if k = j then { Tab.get (fun _ => Clock.cold) s.resets.clocks j with
          locked := locked, stable := (Tab.get (fun _ => Clock.cold) s.resets.clocks j).locked && locked && ok, lastCount := count,
          excursions := if bad then satInc (Tab.get (fun _ => Clock.cold) s.resets.clocks j).excursions
            else (Tab.get (fun _ => Clock.cold) s.resets.clocks j).excursions }
      else Tab.get (fun _ => Clock.cold) s.resets.clocks j := by
  rw [clockNoted, setResets, Tab.get_mod]

section
variable {s : State} (k : Nat) (count : BitVec 24) (hpow : s.resets.powered = true)
include hpow

theorem clockWindow_taken : ¬((k < 4 ∧ false = true) ∨ ¬s.resets.powered = true) := by
  rintro (⟨-, h⟩ | h)
  · exact Bool.noConfusion h
  · exact h hpow

theorem completes_clockMonitorWindow (hk : k < 39) (hlocked : (Tab.get (fun _ => Clock.cold) s.resets.clocks k).locked = true) :
    Completes (.clockMonitorWindow k true false count) s (fun t =>
      inWindow (clockExpected s k) count.toNat = true →
        (Tab.get (fun _ => Clock.cold) t.resets.clocks k).stable = true ∧ (Tab.get (fun _ => Clock.cold) t.resets.clocks k).lastCount = count ∧
        (∀ j, j ≠ k → Tab.get (fun _ => Clock.cold) t.resets.clocks j = Tab.get (fun _ => Clock.cold) s.resets.clocks j) ∧
        t.dealer = s.dealer ∧ t.units = s.units) := by
  refine Completes.intro (withUnit_of_lt hk _ _) (fun hin => ?_)
  have hrun : clockWindow k true false count s = clockNoted k true true false count s := by
    unfold clockWindow
    rw [if_neg (clockWindow_taken k hpow)]
    dsimp only
    rw [hin, Bool.not_true, Bool.and_false]
    exact if_neg Bool.false_ne_true
  rw [hrun]
  refine ⟨?_, ?_, fun j hj => ?_, rfl, rfl⟩
  · rw [clock_clockNoted, if_pos rfl, hlocked]
    rfl
  · rw [clock_clockNoted, if_pos rfl]
  · rw [clock_clockNoted, if_neg (Ne.symm hj)]

theorem completes_clockMonitorWindow_out (hk : k < 4) (hmgood : s.resets.mgood = true) (hcan : canWarm s = true)
    (hheld : s.resets.warmHeld = false) (hnone : s.resets.warmAt = none) (hout : inWindow (clockExpected s k) count.toNat = false) :
    Completes (.clockMonitorWindow k true false count) s (fun t =>
      t.resets.warmAt = some s.tick ∧ t.resets.warmCauses = 32 ∧ (Tab.get (fun _ => Clock.cold) t.resets.clocks k).stable = false ∧
      t.dealer = s.dealer) := by
  have hblock : clockBlock k = none := if_neg (by omega)
  have hreleased : clockReleased s k = true := by
    unfold clockReleased
    rw [hblock, hmgood]
    exact Bool.or_true _
  have hrun : ∃ u, RecordsAside (clockNoted k true false true count s) u ∧ clockWindow k true false count s = requestWarm 5 u := by
    unfold clockWindow
    rw [if_neg (clockWindow_taken k hpow)]
    dsimp only
    rw [hout, hreleased, if_pos (show (true && !false) = true from rfl)]
    unfold clockAction
    rw [if_pos hk]
    refine ⟨_, RecordsAside.trans ?_ (records_score 0 2 0x0040 0 [BitVec.ofNat 8 k] _), rfl⟩
    split
    · exact ⟨rfl, rfl, rfl, rfl, rfl, rfl, rfl, rfl⟩
    · exact RecordsAside.refl _
  obtain ⟨u, ⟨htick, hdealer, -, -, -, -, -, hresets⟩, hwindow⟩ := hrun
  have hcan' : canWarm u = true := by
    rw [canWarm, hresets]
    exact hcan
  have hfresh := requestWarm_fresh 5 hcan' ((congrArg Resets.warmHeld hresets :).trans hheld) ((congrArg Resets.warmAt hresets :).trans hnone)
  obtain ⟨-, hdealer', -, -, -, -, -, hresets'⟩ := records_score 0 2 0x0006 0 [(BitVec.ofNat 7 (2 ^ 5)).zeroExtend 8]
    (setResets (fun r => { r with warmAt := some u.tick, warmCauses := BitVec.ofNat 7 (2 ^ 5) }) u)
  have hclocks := (congrArg Resets.clocks hresets' :).trans (congrArg Resets.clocks hresets :)
  refine Completes.intro ((withUnit_of_lt (Nat.lt_trans hk (by decide)) _ _).trans (congrArg _ (hwindow.trans hfresh))) ⟨?_, ?_, ?_, hdealer'.trans hdealer⟩
  · exact (congrArg Resets.warmAt hresets' :).trans (congrArg some htick)
  · exact (congrArg Resets.warmCauses hresets' :)
  · rw [hclocks]
    exact (congrArg Clock.stable (clock_clockNoted k k true false true count s)).trans (by rw [if_pos rfl, Bool.and_false])

end

/-! ### Summaries -/

theorem blockEvents_congr {s t : State} (htiers : t.tiers = s.tiers) (hcounters : t.counters = s.counters) (hunlia : t.unlia = s.unlia)
    (hlink : t.glaren.linkEncrypt = s.glaren.linkEncrypt) (b : Nat) : blockEvents t b = blockEvents s b := by
  simp only [blockEvents, layer, uport, htiers, hcounters, hunlia, hlink]

/-- One block's summary: its count, and nothing else but a record. -/
theorem summaryOf_spec (b : Nat) (s : State) :
    (∀ c, natAt (summaryOf b s).glaren.summary c = if b = c then blockEvents s b else natAt s.glaren.summary c) ∧
      (summaryOf b s).tiers = s.tiers ∧ (summaryOf b s).counters = s.counters ∧ (summaryOf b s).unlia = s.unlia ∧
      (summaryOf b s).glaren.linkEncrypt = s.glaren.linkEncrypt ∧
      (summaryOf b s).dealer = s.dealer ∧ (summaryOf b s).host = s.host ∧ (summaryOf b s).glaren.lastSummary = s.glaren.lastSummary := by
  unfold summaryOf
  dsimp only
  split
  · exact ⟨fun c => natAt_natSet _ _ _ _, rfl, rfl, rfl, rfl, rfl, rfl, rfl⟩
  · exact ⟨fun c => by simp only [score_frame]; exact natAt_natSet _ _ _ _, by simp, by simp, by simp, by simp, by simp, by simp, by simp⟩

/-- The summaries of several blocks. -/
theorem summaries_spec (bs : List Nat) (s : State) :
    let t := bs.foldl (fun s b => summaryOf b s) s
    (∀ c ∈ bs, natAt t.glaren.summary c = blockEvents s c) ∧ (∀ c, c ∉ bs → natAt t.glaren.summary c = natAt s.glaren.summary c) ∧
      t.tiers = s.tiers ∧ t.dealer = s.dealer ∧ t.host = s.host ∧ t.glaren.lastSummary = s.glaren.lastSummary := by
  induction bs generalizing s with
  | nil => exact ⟨fun c hc => absurd hc List.not_mem_nil, fun _ _ => rfl, rfl, rfl, rfl, rfl⟩
  | cons b bs ih =>
    obtain ⟨hown, htiers, hcounters, hunlia, hlink, hdealer, hhost, hlast⟩ := summaryOf_spec b s
    obtain ⟨hin, hnot, htiers', hdealer', hhost', hlast'⟩ := ih (summaryOf b s)
    refine ⟨fun c hc => ?_, fun c hc => ?_, htiers'.trans htiers, hdealer'.trans hdealer, hhost'.trans hhost, hlast'.trans hlast⟩
    · by_cases hc' : c ∈ bs
      · exact (hin c hc').trans (blockEvents_congr htiers hcounters hunlia hlink c)
      · rcases List.mem_cons.mp hc with rfl | h
        · exact (hnot c hc').trans ((hown c).trans (if_pos rfl))
        · exact absurd h hc'
    · rw [List.mem_cons, not_or] at hc
      obtain ⟨hne, hc⟩ := hc
      exact (hnot c hc).trans ((hown c).trans (if_neg (Ne.symm hne)))

theorem completes_scorebookSummary {s : State} (hpow : s.resets.powered = true)
    (hdue : 3600000000 ≤ (s.glaren.gcTick - s.glaren.lastSummary).toNat) :
    Completes .scorebookSummary s (fun t =>
      t.glaren.lastSummary = s.glaren.gcTick ∧ (∀ b, (b < 4 ∨ 32 ≤ b ∧ b < 64) → natAt t.glaren.summary b = blockEvents s b) ∧
      t.dealer = s.dealer ∧ t.tiers = s.tiers ∧ t.host = s.host) := by
  have hrun : exec .scorebookSummary s = .next ((List.range 4 ++ (List.range 32).map (32 + ·)).foldl (fun s b => summaryOf b s)
      { s with glaren := { s.glaren with lastSummary := s.glaren.gcTick } }) := by
    change execScorebookSummary s = _
    unfold execScorebookSummary
    rw [if_pos ⟨hpow, hdue⟩]
  obtain ⟨hin, -, htiers, hdealer, hhost, hlast⟩ := summaries_spec (List.range 4 ++ (List.range 32).map (32 + ·))
    { s with glaren := { s.glaren with lastSummary := s.glaren.gcTick } }
  refine Completes.intro hrun ⟨hlast, fun b hb => ?_, hdealer, htiers, hhost⟩
  refine hin b (List.mem_append.mpr ?_)
  rcases hb with hb | ⟨hlo, hhi⟩
  · exact Or.inl (List.mem_range.mpr hb)
  · exact Or.inr (List.mem_map.mpr ⟨b - 32, List.mem_range.mpr (by omega), by omega⟩)

/-- Settles O56: a reading is one update of its sensor up to records and caps; summaries and windows likewise. -/
theorem sensorsAndClocks : Obligations.SensorsAndClocks := by
  unfold Obligations.SensorsAndClocks
  refine fun s => ⟨fun i v a hi hne hpow hglaren => completes_sensorSample hpow hglaren i v a hi hne,
    fun i v a hi hne hpow hglaren => completes_sensorSample_critical hpow hglaren i v a hi hne,
    fun v a hpow hglaren => completes_sensorSample_input hpow hglaren v a, completes_sensorWarnClear, fun hcap hfew hwait => ?_, fun hfew => ?_,
    completes_holdupCheck, fun k count hk hpow => completes_clockMonitorWindow k count hpow hk,
    fun k count hk hpow => completes_clockMonitorWindow_out k count hpow hk, completes_scorebookSummary⟩
  · exact Completes.intro (congrArg Host.Outcome.next (if_pos ⟨hcap, hfew, hwait⟩)) ⟨rfl, rfl, rfl⟩
  · exact congrArg Host.Outcome.next (if_neg (fun h => absurd h.2.1 (Nat.not_le.mpr hfew)))

end Sys2Proof.Machine
end

section
/-! SUPPORT. Checkpoints, their buddies and the replay log (R374 to R380): what their steps leave alone, and what an append leaves in the object
that it names. -/

namespace Sys2Proof.Machine

/-! ### What the steps of a checkpoint leave alone -/

/-- A completion sends what it sends behind what has been sent. -/
theorem finish_out (t : Ticket) (st : Byte) (s : State) : ∃ l, (finish t st s).out = s.out ++ l := by
  unfold finish complete
  dsimp only
  generalize hu : (if (queue s t.q).error = true ∨ (queue s t.q).cqSize = 0 then _ else _ : State) = u
  have hsent : ∃ l, u.out = s.out ++ l := by
    rw [← hu]
    split
    · exact ⟨[], (List.append_nil _).symm⟩
    · split
      · obtain ⟨l, hl⟩ := emit_out (.msix (queue s t.q).owner ((queue s t.q).vector.toNat % 64)) _
        exact ⟨_, hl.trans (List.append_assoc ..)⟩
      · exact ⟨_, rfl⟩
  split
  · obtain ⟨l, hl⟩ := hsent
    obtain ⟨l', hl'⟩ := addMark_out t.hdr.doneMark.toNat 1 u
    exact ⟨l ++ l', by rw [hl', hl, List.append_assoc]⟩
  · exact hsent

/-- From s to t memory, the objects, the dealers, the units and Unlia are as they were. -/
def CkptAside (s t : State) : Prop :=
  t.tiers.mem = s.tiers.mem ∧ t.tiers.objects = s.tiers.objects ∧ t.dealer = s.dealer ∧ t.units = s.units ∧ t.unlia = s.unlia ∧ t.tick = s.tick

theorem CkptAside.refl (s : State) : CkptAside s s := ⟨rfl, rfl, rfl, rfl, rfl, rfl⟩

theorem CkptAside.trans {s t u : State} (h1 : CkptAside s t) (h2 : CkptAside t u) : CkptAside s u := by
  obtain ⟨a1, b1, c1, d1, e1, f1⟩ := h1
  obtain ⟨a2, b2, c2, d2, e2, f2⟩ := h2
  exact ⟨a2.trans a1, b2.trans b1, c2.trans c1, d2.trans d1, e2.trans e1, f2.trans f1⟩

theorem ckptAside_emit (e : Emit) (s : State) : CkptAside s (emit e s) := by simp [CkptAside]
theorem ckptAside_finish (t : Ticket) (st : Byte) (s : State) : CkptAside s (finish t st s) := by simp [CkptAside]
theorem ckptAside_taken (q : Nat) (s : State) : CkptAside s (taken q s) := by simp [CkptAside]

theorem ckptAside_finishOpt (t : Option Ticket) (st : Byte) (s : State) : CkptAside s (finishOpt t st s) := by
  unfold finishOpt
  split
  · exact ckptAside_finish _ st s
  · exact CkptAside.refl s

theorem conceal_finishOpt (t : Option Ticket) (st : Byte) (s : State) : (finishOpt t st s).conceal = s.conceal := by
  unfold finishOpt
  split
  · simp
  · rfl

theorem ckptAside_appendFlash (o : Nat) (bs : List Byte) (s : State) : CkptAside s (appendFlash o bs s) := by
  have hsans := sansLayers_appendFlash o bs s
  obtain ⟨-, -, hunits, hunlia, -, hmem, hobjects⟩ := appendFlash_frame o bs s
  refine ⟨hmem, hobjects, ?_, hunits, hunlia, ?_⟩
  · refine (congrArg State.dealer hsans :).trans ?_
    split
    · rfl
    · rfl
  · refine (congrArg State.tick hsans :).trans ?_
    split
    · rfl
    · rfl

theorem ckptAside_truncateFlash (o : Nat) (s : State) : CkptAside s (truncateFlash o s) := by
  unfold truncateFlash
  dsimp only
  split
  · exact ⟨rfl, rfl, rfl, rfl, rfl, rfl⟩
  · exact CkptAside.refl s

theorem ckptAside_sendLog (fresh : Bool) (bs : List Byte) (s : State) : CkptAside s (sendLog fresh bs s) := by
  unfold sendLog
  split
  · split
    · exact ckptAside_emit _ s
    · exact CkptAside.refl s
  · exact CkptAside.refl s

theorem sendLog_keeps (fresh : Bool) (bs : List Byte) (s : State) :
    (sendLog fresh bs s).conceal = s.conceal ∧ (sendLog fresh bs s).host = s.host ∧ ∃ l, (sendLog fresh bs s).out = s.out ++ l := by
  unfold sendLog
  split
  · split
    · exact ⟨rfl, rfl, _, rfl⟩
    · exact ⟨rfl, rfl, [], (List.append_nil _).symm⟩
  · exact ⟨rfl, rfl, [], (List.append_nil _).symm⟩

/-! ### The replay log -/

/-- The buffered records appended here and sent to the buddy. -/
def logSent (o : W16) (s : State) : State :=
  let bs := (s.conceal.logBuffer.map LogRec.toBytes).flatten
  if bs = [] then s else sendLog false bs (if flashWorn s then s else appendFlash o.toNat bs s)

theorem flushLog_some {o : W16} {s : State} (h : logObject s = some o) :
    flushLog s = { logSent o s with conceal := { (logSent o s).conceal with logBuffer := [], logTick := (logSent o s).tick } } := by
  unfold flushLog
  rw [h]
  rfl

theorem flushLog_none {s : State} (h : logObject s = none) : flushLog s = s := by
  unfold flushLog
  rw [h]

theorem logSent_keeps (o : W16) (s : State) :
    CkptAside s (logSent o s) ∧ (logSent o s).conceal = s.conceal ∧ (logSent o s).host = s.host ∧ ∃ l, (logSent o s).out = s.out ++ l := by
  unfold logSent
  dsimp only
  generalize (s.conceal.logBuffer.map LogRec.toBytes).flatten = bs
  split
  · exact ⟨CkptAside.refl s, rfl, rfl, [], (List.append_nil _).symm⟩
  · split
    · obtain ⟨hconceal, hhost, hout⟩ := sendLog_keeps false bs s
      exact ⟨ckptAside_sendLog _ _ s, hconceal, hhost, hout⟩
    · obtain ⟨hconceal, hhost, hout⟩ := sendLog_keeps false bs (appendFlash o.toNat bs s)
      obtain ⟨hout', hhost', -, -, hconceal', -, -⟩ := appendFlash_frame o.toNat bs s
      rw [hout'] at hout
      exact ⟨(ckptAside_appendFlash _ _ s).trans (ckptAside_sendLog _ _ _), hconceal.trans hconceal', hhost.trans hhost', hout⟩

/-- A flush of the log leaves everything but the buffer, its time, the flash and what is sent. -/
theorem flushLog_keeps (s : State) :
    CkptAside s (flushLog s) ∧
      (flushLog s).conceal = { s.conceal with logBuffer := (flushLog s).conceal.logBuffer, logTick := (flushLog s).conceal.logTick } ∧
      (flushLog s).host = s.host ∧ ∃ l, (flushLog s).out = s.out ++ l := by
  cases h : logObject s with
  | none =>
    rw [flushLog_none h]
    exact ⟨CkptAside.refl s, rfl, rfl, [], (List.append_nil _).symm⟩
  | some o =>
    obtain ⟨haside, hconceal, hhost, hout⟩ := logSent_keeps o s
    rw [flushLog_some h]
    refine ⟨haside, ?_, hhost, hout⟩
    dsimp only
    rw [hconceal]

theorem completes_logUnitAppend (o : W16) (s : State) (hlog : logObject s = some o) (hfull : 1024 ≤ s.conceal.logBuffer.length) :
    Completes .logUnitAppend s (fun t =>
      t.conceal.logBuffer = [] ∧ t.conceal.logTick = s.tick ∧ SameMemory s t ∧ t.dealer = s.dealer ∧ t.host = s.host) := by
  obtain ⟨⟨hmem, -, hdealer, -, -, htick⟩, -, hhost, -⟩ := logSent_keeps o s
  exact Completes.intro (congrArg Host.Outcome.next ((if_pos (Or.inl hfull)).trans (flushLog_some hlog)))
    ⟨rfl, htick, sameMemory_of_mem hmem, hdealer, hhost⟩

/-! ### What an append leaves in its object -/

theorem find_setData {h : W32} (f : List Byte → List Byte) (l : List FlashObj) :
    (l.map (fun x => if x.handle = h then { x with data := f x.data } else x)).find? (fun x => decide (x.handle = h)) =
      (l.find? (fun x => decide (x.handle = h))).map (fun x => { x with data := f x.data }) := by
  induction l with
  | nil => rfl
  | cons x l ih =>
    rw [List.map_cons]
    by_cases hx : x.handle = h
    · rw [if_pos hx, List.find?_cons_of_pos (by simpa using hx), List.find?_cons_of_pos (by simpa using hx)]
      rfl
    · rw [if_neg hx, List.find?_cons_of_neg (by simpa using hx), List.find?_cons_of_neg (by simpa using hx), ih]

/-- An append leaves its bytes behind those of the object. -/
theorem flashObj_appendFlash {o : Nat} (bs : List Byte) {s : State} {x : FlashObj} (hin : (obj s o).inFlash = true)
    (hx : flashObj s (obj s o) = some x) :
    flashObj (appendFlash o bs s) (obj (appendFlash o bs s) o) = some { x with data := x.data ++ bs } := by
  have hflash : (appendFlash o bs s).tiers.flash = (setFlash (BitVec.ofNat 32 (obj s o).address.toNat) (fun d => d ++ bs) s).tiers.flash :=
    ((congrArg (fun s => s.tiers.flash) (sansLayers_appendFlash o bs s) :).trans (by rw [if_pos hin]; rfl))
  obtain ⟨-, -, -, -, -, -, hobjects⟩ := appendFlash_frame o bs s
  rw [obj_congr o hobjects, flashObj, flashOf, hflash]
  exact (find_setData (fun d => d ++ bs) s.tiers.flash).trans (congrArg _ hx)

theorem flashLen_eq {o : W16} {s : State} {x : FlashObj} (hx : flashObj s (obj s o.toNat) = some x) : flashLen s o = x.data.length := by
  unfold flashLen
  rw [hx]

theorem flashHolds_of {o : W16} {s : State} {x : FlashObj} {n : Nat} (hin : (obj s o.toNat).inFlash = true)
    (hx : flashObj s (obj s o.toNat) = some x) (hn : n ≤ x.size.toNat) : flashHolds s o n = true := by
  unfold flashHolds
  rw [hin, hx]
  exact decide_eq_true hn

section
variable {o : W16} {data : List Byte} {x : FlashObj} {s : State} (hin : (obj s o.toNat).inFlash = true)
  (hx : flashObj s (obj s o.toNat) = some x) (hroom : x.data.length + data.length ≤ x.size.toNat) (hworn : flashWorn s = false)
  (hready : flashReady s = true)
include hin hx hroom hworn hready

omit hworn hready in
/-- The room that a piece of data needs. -/
theorem holds_piece : flashHolds s o (flashLen s o + data.length) = true :=
  flashHolds_of hin hx (by rw [flashLen_eq hx]; exact hroom)

theorem completes_buddyCkptData (node : BitVec 15) (o' : W16) (hopen : s.conceal.buddyOpen.contains o.toNat = true) :
    Completes (.buddyCkptData node (o, o') data false) s (fun t =>
      flashObj t (obj t o.toNat) = some { x with data := x.data ++ data } ∧ SameMemory s t ∧ t.conceal = s.conceal ∧ t.out = s.out) := by
  have htarget : buddyTarget s o o' = o := if_pos hopen
  have htake : ¬(¬flashHolds s o (flashLen s o + data.length) = true ∨ flashWorn s = true ∨ ¬flashReady s = true) := by
    rintro (h | h | h)
    · exact h (holds_piece hin hx hroom)
    · exact Bool.eq_false_iff.mp hworn h
    · exact h hready
  have hrun : buddyData node o o' data false s = appendFlash o.toNat data s := by
    unfold buddyData
    dsimp only
    rw [htarget, hopen, if_pos rfl, if_neg htake, if_neg Bool.false_ne_true, if_pos rfl]
  obtain ⟨hout, -, -, -, hconceal, hmem, -⟩ := appendFlash_frame o.toNat data s
  exact Completes.intro (congrArg Host.Outcome.next hrun) ⟨flashObj_appendFlash data hin hx, sameMemory_of_mem hmem, hconceal, hout⟩

theorem completes_buddyLogUnit :
    Completes (.buddyLogUnit o false data) s (fun t =>
      flashObj t (obj t o.toNat) = some { x with data := x.data ++ data } ∧ SameMemory s t ∧ t.conceal = s.conceal ∧ t.out = s.out) := by
  obtain ⟨hout, -, -, -, hconceal, hmem, -⟩ := appendFlash_frame o.toNat data s
  exact Completes.intro (congrArg Host.Outcome.next (if_pos ⟨holds_piece hin hx hroom, Bool.eq_false_iff.mp hworn, hready⟩))
    ⟨flashObj_appendFlash data hin hx, sameMemory_of_mem hmem, hconceal, hout⟩

end

/-! ### CHECKPOINT -/

/-- The end of the command in force leaves everything but its record, or keeps it as a ONCE command that is due. -/
theorem endOldCkpt_keeps (s : State) :
    CkptAside s (endOldCkpt s) ∧ (endOldCkpt s).conceal = { s.conceal with onces := (endOldCkpt s).conceal.onces } ∧
      (∀ q, (queue (endOldCkpt s) q).error = (queue s q).error ∧ (queue (endOldCkpt s) q).cqSize = (queue s q).cqSize) ∧
      (∃ l, (endOldCkpt s).out = s.out ++ l) ∧
      (∀ k b, s.conceal.ckpt = some (k, b) → s.conceal.ckptFirst = true → b.mode = 0 → (endOldCkpt s).conceal.onces = s.conceal.onces ++ [(k, b)]) := by
  cases hc : s.conceal.ckpt with
  | none =>
    have hrun : endOldCkpt s = s := by simp only [endOldCkpt, hc]
    rw [hrun]
    exact ⟨CkptAside.refl s, rfl, fun _ => ⟨rfl, rfl⟩, ⟨[], (List.append_nil _).symm⟩, fun _ _ h => nomatch h⟩
  | some tb =>
    obtain ⟨k, b⟩ := tb
    by_cases hfirst : s.conceal.ckptFirst = true
    · by_cases hmode : b.mode = 0
      · have hrun : endOldCkpt s = { s with conceal := { s.conceal with onces := s.conceal.onces ++ [(k, b)] } } := by
          simp only [endOldCkpt, hc, hfirst, hmode, not_true_eq_false, if_false, if_true]
        rw [hrun]
        refine ⟨⟨rfl, rfl, rfl, rfl, rfl, rfl⟩, rfl, fun _ => ⟨rfl, rfl⟩, ⟨[], (List.append_nil _).symm⟩, fun k' b' h _ _ => ?_⟩
        cases h
        rfl
      · have hrun : endOldCkpt s = finish k Status.flushed s := by
          simp only [endOldCkpt, hc, hfirst, hmode, not_true_eq_false, if_false]
        rw [hrun]
        refine ⟨ckptAside_finish k _ s, by simp, fun q => ?_, finish_out k _ s, fun k' b' h _ hm => ?_⟩
        · rw [finish_queue]
          split
          · unfold ended
            split
            · exact ⟨rfl, rfl⟩
            · exact ⟨rfl, rfl⟩
          · exact ⟨rfl, rfl⟩
        · cases h
          exact absurd hm hmode
    · have hrun : endOldCkpt s = s := by simp only [endOldCkpt, hc, if_pos hfirst]
      rw [hrun]
      exact ⟨CkptAside.refl s, rfl, fun _ => ⟨rfl, rfl⟩, ⟨[], (List.append_nil _).symm⟩, fun _ _ _ h => absurd h hfirst⟩

section
variable (q : Nat) (h : Hdr) (b : CkptBody) (s : State) (ha : accepts s q h true = true) (hformat : ckptFormatOk b = true)
include ha hformat

theorem completes_checkpoint (hready : flashReady s = true) (hmode : b.mode ≠ 2) (hobjects : ckptObjectsOk (taken q s) b = true) :
    Completes (.checkpoint q h b) s (fun t =>
      t.conceal.ckpt = some (nextTicket s q h, b) ∧ t.conceal.ckptFirst = true ∧ t.conceal.ckptDue = decide (b.mode = 0) ∧
      (∀ k b', s.conceal.ckpt = some (k, b') → s.conceal.ckptFirst = true → b'.mode = 0 → t.conceal.onces = s.conceal.onces ++ [(k, b')]) ∧
      t.conceal.commits = s.conceal.commits ∧ SameMemory s t ∧ t.dealer = s.dealer ∧ t.units = s.units ∧ t.unlia = s.unlia) := by
  have hready' : flashReady (taken q s) = true := by
    simp only [flashReady, layer, taken_frame]
    exact hready
  have hrun : checkpointBody h b (nextTicket s q h) (taken q s) = ckptStart b (nextTicket s q h) (taken q s) := by
    unfold checkpointBody whenFlash
    rw [if_neg (not_not_intro hformat), if_neg hmode, if_pos hready']
  have hgo : ¬(b.mode ≠ 2 ∧ ¬ckptObjectsOk (taken q s) b = true) := fun hn => hn.2 hobjects
  have hconceal : (taken q s).conceal = s.conceal := by simp
  obtain ⟨hold, hkept, -, -, honces⟩ := endOldCkpt_keeps (taken q s)
  obtain ⟨hflush, hkept', -, -⟩ := flushLog_keeps (endOldCkpt (taken q s))
  obtain ⟨hmem, -, hdealer, hunits, hunlia, -⟩ := ((ckptAside_taken q s).trans hold).trans hflush
  have hstart : ckptStart b (nextTicket s q h) (taken q s) = _ := (if_neg hgo).trans (if_neg hmode)
  refine Completes.intro ((exec_checkpoint_accepts q h b s ha).trans (congrArg _ (hrun.trans hstart)))
    ⟨rfl, rfl, rfl, fun k b' hc hf hm => ?_, ?_, sameMemory_of_mem hmem, hdealer, hunits, hunlia⟩
  · refine (congrArg Conceal.onces hkept' :).trans ?_
    rw [hconceal] at honces
    exact honces k b' hc hf hm
  · exact (congrArg Conceal.commits hkept' :).trans ((congrArg Conceal.commits hkept :).trans (congrArg Conceal.commits hconceal :))

theorem completes_checkpoint_stop (hmode : b.mode = 2) :
    Completes (.checkpoint q h b) s (fun t =>
      t.conceal.ckpt = none ∧ t.conceal.ckptDue = false ∧ SameMemory s t ∧ t.dealer = s.dealer ∧ t.units = s.units ∧
      ∃ fl addr rest pre, t.out = pre ++ .completion q h.tag (BitVec.ofNat 16 (queue s q).sqHead.toNat) Status.ok fl 0 addr :: rest) := by
  let s1 := flushLog (endOldCkpt (taken q s))
  let u := { s1 with conceal := { s1.conceal with ckpt := none, ckptFirst := false, ckptDue := false, optCount := 0 } }
  have hrun : checkpointBody h b (nextTicket s q h) (taken q s) = ckptStart b (nextTicket s q h) (taken q s) := by
    unfold checkpointBody
    rw [if_neg (not_not_intro hformat), if_pos hmode]
  have hstart : ckptStart b (nextTicket s q h) (taken q s) = finish (nextTicket s q h) Status.ok u :=
    (if_neg (fun hn => hn.1 hmode)).trans (if_pos hmode)
  obtain ⟨hold, -, hring, -, -⟩ := endOldCkpt_keeps (taken q s)
  obtain ⟨hflush, -, hhost, -⟩ := flushLog_keeps (endOldCkpt (taken q s))
  obtain ⟨hmem, -, hdealer, hunits, -, -⟩ := ((ckptAside_taken q s).trans hold).trans hflush
  have hqueue : queue u q = queue (endOldCkpt (taken q s)) q := queue_congr q (congrArg HostIf.queues hhost)
  have hfresh := ring_of_accepts ha
  have herr : (queue u q).error = false := by
    rw [hqueue, (hring q).1, taken_error]
    exact hfresh.1
  have hsize : (queue u q).cqSize ≠ 0 := by
    rw [hqueue, (hring q).2, taken_cqSize]
    exact hfresh.2
  obtain ⟨fl, addr, rest, hout⟩ := complete_reported (nextTicket s q h) Status.ok 0 false u herr hsize
  have hconceal : (finish (nextTicket s q h) Status.ok u).conceal = u.conceal := by simp
  obtain ⟨hmem', -, hdealer', hunits', -, -⟩ := ckptAside_finish (nextTicket s q h) Status.ok u
  exact Completes.intro ((exec_checkpoint_accepts q h b s ha).trans (congrArg _ (hrun.trans hstart)))
    ⟨congrArg Conceal.ckpt hconceal, congrArg Conceal.ckptDue hconceal, sameMemory_of_mem (hmem'.trans hmem), hdealer'.trans hdealer,
      hunits'.trans hunits, fl, addr, rest, u.out, hout⟩

end

/-! ### CHECKPOINT_COMMIT -/

/-- The next checkpoint's writing begins: the oldest job gets its target. -/
theorem startJob_keeps (s : State) :
    CkptAside s (startJob s) ∧ (startJob s).conceal = { s.conceal with jobs := (startJob s).conceal.jobs } ∧
      (startJob s).conceal.jobs.map (fun x => x.step) = s.conceal.jobs.map (fun x => x.step) := by
  have htruncate (o : Nat) (u : State) : (truncateFlash o u).conceal = u.conceal := by
    unfold truncateFlash
    dsimp only
    split
    · rfl
    · rfl
  cases hj : s.conceal.jobs with
  | nil =>
    have hrun : startJob s = s := by simp only [startJob, hj]
    rw [hrun]
    exact ⟨CkptAside.refl s, rfl, by rw [hj]⟩
  | cons j rest =>
    by_cases htarget : j.target.isSome = true
    · have hrun : startJob s = s := by simp only [startJob, hj, htarget, if_true]
      rw [hrun]
      exact ⟨CkptAside.refl s, rfl, by rw [hj]⟩
    · have hrun : startJob s = truncateFlash (if nextTarget s j.body then j.body.targetB else j.body.targetA).toNat
          { s with conceal := { s.conceal with jobs := { j with target := some (nextTarget s j.body) } :: rest } } := by
        simp only [startJob, hj, htarget, if_false, Bool.false_eq_true]
      rw [hrun, htruncate]
      exact ⟨CkptAside.trans (t := { s with conceal := { s.conceal with jobs := { j with target := some (nextTarget s j.body) } :: rest } })
        ⟨rfl, rfl, rfl, rfl, rfl, rfl⟩ (ckptAside_truncateFlash _ _), rfl, rfl⟩

theorem endJob_keeps (j : CkptJob) (st : Byte) (s : State) :
    CkptAside s (endJob j st s) ∧ (endJob j st s).conceal = { s.conceal with jobs := (endJob j st s).conceal.jobs } ∧
      (endJob j st s).conceal.jobs.map (fun x => x.step) = s.conceal.jobs.map (fun x => x.step) := by
  obtain ⟨haside, hconceal, hsteps⟩ := startJob_keeps (finishOpt j.ticket st s)
  rw [conceal_finishOpt] at hconceal hsteps
  exact ⟨(ckptAside_finishOpt _ _ s).trans haside, hconceal, hsteps⟩

theorem sendBuddy_keeps (b : CkptBody) (bs : List Byte) (s : State) :
    CkptAside s (sendBuddy b bs s) ∧
      (sendBuddy b bs s).conceal = { s.conceal with buddyOk := false, buddySent := decide (b.buddyPos ≠ 0xFFFF) } := by
  unfold sendBuddy
  dsimp only
  split
  · exact ⟨⟨rfl, rfl, rfl, rfl, rfl, rfl⟩, rfl⟩
  · exact ⟨⟨rfl, rfl, rfl, rfl, rfl, rfl⟩, rfl⟩

/-- The objects of a checkpoint read as background traffic. -/
theorem bgObjs_keep (ids : List Nat) (s : State) :
    CkptAside s (ids.foldl (fun s i => bgObj (obj s i) 0 (obj s i).len s) s) ∧
      (ids.foldl (fun s i => bgObj (obj s i) 0 (obj s i).len s) s).conceal = s.conceal := by
  induction ids generalizing s with
  | nil => exact ⟨CkptAside.refl s, rfl⟩
  | cons i ids ih =>
    have hread : CkptAside s (bgObj (obj s i) 0 (obj s i).len s) := by
      unfold bgObj
      split
      · exact ⟨rfl, rfl, rfl, rfl, rfl, rfl⟩
      · exact CkptAside.refl s
    obtain ⟨haside, hconceal⟩ := ih (bgObj (obj s i) 0 (obj s i).len s)
    exact ⟨hread.trans haside, hconceal.trans (by simp)⟩

/-- The checkpoint of a job appended to its target and sent to the buddy. -/
def ckptWritten (j : CkptJob) (rest : List CkptJob) (s : State) : State :=
  let bs := ckptImage s j.step j.reading
  sendBuddy j.body bs (appendFlash (if j.target.getD false then j.body.targetB else j.body.targetA).toNat bs
    (j.reading.foldl (fun s i => bgObj (obj s i) 0 (obj s i).len s) { s with conceal := { s.conceal with jobs := rest } }))

theorem ckptWritten_keeps (j : CkptJob) (rest : List CkptJob) (s : State) :
    CkptAside s (ckptWritten j rest s) ∧
      (ckptWritten j rest s).conceal = { s.conceal with jobs := rest, buddyOk := false, buddySent := decide (j.body.buddyPos ≠ 0xFFFF) } := by
  unfold ckptWritten
  dsimp only
  generalize ckptImage s j.step j.reading = bs
  obtain ⟨hread, hconceal⟩ := bgObjs_keep j.reading { s with conceal := { s.conceal with jobs := rest } }
  generalize (j.reading.foldl (fun s i => bgObj (obj s i) 0 (obj s i).len s) { s with conceal := { s.conceal with jobs := rest } }) = u at hread hconceal ⊢
  obtain ⟨hsend, hsent⟩ := sendBuddy_keeps j.body bs (appendFlash (if j.target.getD false then j.body.targetB else j.body.targetA).toNat bs u)
  obtain ⟨-, -, -, -, happend, -, -⟩ := appendFlash_frame (if j.target.getD false then j.body.targetB else j.body.targetA).toNat bs u
  rw [happend, hconceal] at hsent
  exact ⟨(CkptAside.trans (t := { s with conceal := { s.conceal with jobs := rest } }) ⟨rfl, rfl, rfl, rfl, rfl, rfl⟩ hread).trans
    ((ckptAside_appendFlash _ _ u).trans hsend), hsent⟩

/-- A committed checkpoint counted. -/
def ckptCounted (j : CkptJob) (rest : List CkptJob) (s : State) : State :=
  { ckptWritten j rest s with conceal := { (ckptWritten j rest s).conceal with
      commits := (ckptWritten j rest s).conceal.commits + 1, lastTarget := j.target.getD false, ckptStep := j.step, ckptPrevDone := true } }

theorem ckptCommit_good {j : CkptJob} {rest : List CkptJob} {s : State} (hjobs : s.conceal.jobs = j :: rest) (hreads : ReadsGood s (j.spans s))
    (hworn : flashWorn s = false) : ckptCommit s = endJob j Status.ok (flushLog (ckptCounted j rest s)) := by
  unfold ReadsGood at hreads
  simp only [ckptCommit, hjobs, hreads, hworn, Bool.false_eq_true, if_false]
  rfl

theorem completes_checkpointCommit (j : CkptJob) (rest : List CkptJob) (s : State) (hjobs : s.conceal.jobs = j :: rest)
    (hreads : ReadsGood s (j.spans s)) (hworn : flashWorn s = false) :
    Completes .checkpointCommit s (fun t =>
      t.conceal.commits = s.conceal.commits + 1 ∧ t.conceal.lastTarget = j.target.getD false ∧ t.conceal.ckptStep = j.step ∧
      t.conceal.jobs.map (fun x => x.step) = rest.map (fun x => x.step) ∧ t.conceal.buddyOk = false ∧ SameMemory s t ∧
      t.tiers.objects = s.tiers.objects ∧ t.dealer = s.dealer ∧ t.units = s.units) := by
  obtain ⟨hwrite, hwritten⟩ := ckptWritten_keeps j rest s
  obtain ⟨hflush, hflushed, -, -⟩ := flushLog_keeps (ckptCounted j rest s)
  obtain ⟨hend, hended, hsteps⟩ := endJob_keeps j Status.ok (flushLog (ckptCounted j rest s))
  have hcounted : (ckptCounted j rest s).conceal = { s.conceal with
      jobs := rest, buddyOk := false, buddySent := decide (j.body.buddyPos ≠ 0xFFFF), commits := s.conceal.commits + 1,
      lastTarget := j.target.getD false, ckptStep := j.step, ckptPrevDone := true } := by
    unfold ckptCounted
    rw [hwritten]
  rw [hcounted] at hflushed
  obtain ⟨hmem, hobjects, hdealer, hunits, -, -⟩ :=
    (hwrite.trans (CkptAside.trans (t := ckptCounted j rest s) ⟨rfl, rfl, rfl, rfl, rfl, rfl⟩ hflush)).trans hend
  refine Completes.intro (congrArg Host.Outcome.next (ckptCommit_good hjobs hreads hworn))
    ⟨?_, ?_, ?_, ?_, ?_, sameMemory_of_mem hmem, hobjects, hdealer, hunits⟩
  · exact (congrArg Conceal.commits hended :).trans (congrArg Conceal.commits hflushed :)
  · exact (congrArg Conceal.lastTarget hended :).trans (congrArg Conceal.lastTarget hflushed :)
  · exact (congrArg Conceal.ckptStep hended :).trans (congrArg Conceal.ckptStep hflushed :)
  · exact hsteps.trans (congrArg (fun c => (Conceal.jobs c).map (fun x => x.step)) hflushed :)
  · exact (congrArg Conceal.buddyOk hended :).trans (congrArg Conceal.buddyOk hflushed :)

/-- Settles O15: appends and log flushes change flash and what is sent, and no memory. -/
theorem checkpointsAndBuddies : Obligations.CheckpointsAndBuddies := by
  unfold Obligations.CheckpointsAndBuddies
  refine ⟨⟨fun q h b s ha hf => completes_checkpoint q h b s ha hf, fun q h b s ha hf => completes_checkpoint_stop q h b s ha hf,
      completes_checkpointCommit⟩,
    ⟨fun node o o' data x s hopen hin hx hroom hworn hready => completes_buddyCkptData hin hx hroom hworn hready node o' hopen,
      fun o data x s => completes_buddyLogUnit, fun node o s hin hready => ?_, fun ok s hsent => ?_, completes_logUnitAppend⟩⟩
  · exact congrArg Host.Outcome.next (if_pos ⟨hin, hready, Or.inl rfl⟩)
  · exact congrArg Host.Outcome.next (if_pos hsent)

end Sys2Proof.Machine
end

section
/-! SUPPORT. Glaren's mailbox (R437, R442, R458): which requests are served, what an answer leaves, host records and the service requests. -/

namespace Sys2Proof.Machine

/-! ### Serving a request -/

/-- A request that Glaren serves now is carried out. -/
theorem mboxServe_serves {p : Port} {op : Nat} {needs : Bool} {s : State} (h : mboxServes s p op needs = true) (rec_ : Bool) (k : State → State) :
    mboxServe p op needs rec_ k s = .next (k s) := by
  simp only [mboxServes, Bool.and_eq_true, Bool.not_eq_true', Bool.or_eq_true, decide_eq_true_eq] at h
  obtain ⟨⟨hwaits, hrec⟩, hmove⟩ := h
  have hno : ¬(needs = true ∧ s.host.holder ≠ some p) := by
    rintro ⟨hneeds, hother⟩
    rcases hmove with hfree | hheld
    · exact Bool.false_ne_true (hfree.symm.trans hneeds)
    · exact hother hheld
  simp only [mboxServe, hwaits, hrec, Bool.not_true, Bool.false_eq_true, if_false, if_neg hno]

/-- A request that needs the move, from a port without it, is answered NOT_MOVE. -/
theorem mboxServe_notMove {p : Port} {op : Nat} {s : State} (hwaits : mboxWaits p op s = true) (hrec : s.resets.recovery = false)
    (hother : s.host.holder ≠ some p) (rec_ : Bool) (k : State → State) :
    mboxServe p op true rec_ k s = .next (mboxStatus p Mbox.notMove s) := by
  simp only [mboxServe, hwaits, hrec, Bool.not_true, Bool.false_eq_true, if_false, true_and]
  rw [if_pos hother]

/-- Outside recovery mode a request that needs no move is carried out. -/
theorem mboxServe_free {p : Port} {op : Nat} {s : State} (hwaits : mboxWaits p op s = true) (hrec : s.resets.recovery = false) (rec_ : Bool)
    (k : State → State) : mboxServe p op false rec_ k s = .next (k s) := by
  simp only [mboxServe, hwaits, hrec, Bool.not_true, Bool.false_eq_true, false_and, if_false]

theorem answered_mboxAnswer (p : Port) (st : Nat) (resp : List Byte) (s : State) : Answered p st (mboxAnswer p (BitVec.ofNat 8 st) resp s) := by
  unfold Answered mboxAnswer
  rw [portSt_setPort, if_pos rfl]
  exact ⟨rfl, rfl, rfl⟩

theorem answered_mboxStatus (p : Port) (st : Nat) (s : State) : Answered p st (mboxStatus p st s) := answered_mboxAnswer p st [] s

/-- An answer touches the port's copy alone. -/
theorem mboxStatus_frame (p : Port) (st : Nat) (s : State) :
    (mboxStatus p st s).glaren = s.glaren ∧ (mboxStatus p st s).resets = s.resets ∧ (mboxStatus p st s).dealer = s.dealer ∧
      (mboxStatus p st s).units = s.units ∧ (mboxStatus p st s).tiers = s.tiers ∧ (mboxStatus p st s).unlia = s.unlia ∧
      (mboxStatus p st s).out = s.out :=
  ⟨rfl, rfl, rfl, rfl, rfl, rfl, rfl⟩

theorem glarenReady_of_mboxWaits {p : Port} {op : Nat} {s : State} (h : mboxWaits p op s = true) : s.resets.glarenReady = true := by
  simp only [mboxWaits, Bool.and_eq_true] at h
  obtain ⟨⟨⟨-, hready⟩, -⟩, -⟩ := h
  exact hready

theorem mboxWaits_of_mboxServes {p : Port} {op : Nat} {needs : Bool} {s : State} (h : mboxServes s p op needs = true) : mboxWaits p op s = true := by
  simp only [mboxServes, Bool.and_eq_true] at h
  obtain ⟨⟨hwaits, -⟩, -⟩ := h
  exact hwaits

/-! ### Host records (R458) -/

/-- A record of a serving Glaren that no STATE record precedes is committed at the next SEQUENCE. -/
theorem score_commits {a b c : Nat} {x : W64} {d : List Byte} {s : State} (hready : s.resets.glarenReady = true)
    (hplain : s.glaren.sbNext.toNat % 65536 ≠ 0) : score a b c x d s = commitScore (mkScore s a b c x d) s := by
  unfold score
  dsimp only
  rw [if_pos hready, if_neg hplain]

theorem completes_sbAppend (p : Port) (s : State) (hserves : mboxServes s p 0x01 false = true)
    (hcode : 0x8000 ≤ fieldAt (tabSlice 64 0 (portSt s p).mboxData) 0x22 2) (hplain : s.glaren.sbNext.toNat % 65536 ≠ 0)
    (hrate : ((portSt s p).appended.filter (fun t => decide ((s.glaren.gcTick - t).toNat < 1000000))).length < 64) :
    Completes (.sbAppend p 1) s (fun t =>
      let x := Tab.get (fun _ => Score.blank) t.glaren.sb (scoreIndex s.glaren.sbNext.toNat)
      Answered p Mbox.ok t ∧ t.glaren.sbNext = s.glaren.sbNext + 1 ∧
      (x.seq = s.glaren.sbNext ∧ x.source = BitVec.ofNat 8 (9 + Port.idx p) ∧
        x.code = BitVec.ofNat 16 (fieldAt (tabSlice 64 0 (portSt s p).mboxData) 0x22 2) ∧
        x.outcome = BitVec.ofNat 8 (fieldAt (tabSlice 64 0 (portSt s p).mboxData) 0x21 1)) ∧
      (∀ i, i ≠ scoreIndex s.glaren.sbNext.toNat → Tab.get (fun _ => Score.blank) t.glaren.sb i = Tab.get (fun _ => Score.blank) s.glaren.sb i) ∧
      t.dealer = s.dealer ∧ t.tiers = s.tiers ∧ t.units = s.units ∧ t.unlia = s.unlia ∧ t.out = s.out) := by
  generalize hr : tabSlice 64 0 (portSt s p).mboxData = r at hcode ⊢
  have hready := glarenReady_of_mboxWaits (mboxWaits_of_mboxServes hserves)
  let recent := (portSt s p).appended.filter (fun t => decide ((s.glaren.gcTick - t).toNat < 1000000))
  let u := setPort p (fun x => { x with appended := recent ++ List.replicate 1 s.glaren.gcTick }) s
  have hrecs : (List.range 1).map (fun i => tabSlice 64 (64 * i) (portSt s p).mboxData) = [r] := congrArg (fun x => [x]) hr
  have hlow : ([r].any (fun r => decide (fieldAt r 0x22 2 < 0x8000))) = false := by
    rw [List.any_cons, List.any_nil, Bool.or_false]
    exact decide_eq_false (Nat.not_lt.mpr hcode)
  have hfew : ¬64 < recent.length + 1 := Nat.not_lt.mpr hrate
  have hrun : sbAppend p 1 s = mboxStatus p Mbox.ok (hostScore p r u) := by
    unfold sbAppend
    dsimp only
    rw [hrecs, if_neg (show ¬(1 < 1 ∨ 16 < 1) by decide), hlow, if_neg Bool.false_ne_true, if_neg hfew]
    rfl
  have hcommit : hostScore p r u = commitScore (mkScore u (9 + Port.idx p) (fieldAt r 0x21 1) (fieldAt r 0x22 2)
      (BitVec.ofNat 64 (fieldAt r 0x24 8)) ((r.drop 0x2C).take 16)) u := score_commits hready hplain
  refine Completes.intro ((mboxServe_serves hserves false _).trans (congrArg _ (hrun.trans (congrArg (mboxStatus p Mbox.ok) hcommit))))
    ⟨answered_mboxStatus _ _ _, rfl, ?_, fun i hi => ?_, rfl, rfl, rfl, rfl, rfl⟩
  · have hget : Tab.get (fun _ => Score.blank) (mboxStatus p Mbox.ok (commitScore (mkScore u (9 + Port.idx p) (fieldAt r 0x21 1) (fieldAt r 0x22 2)
        (BitVec.ofNat 64 (fieldAt r 0x24 8)) ((r.drop 0x2C).take 16)) u)).glaren.sb (scoreIndex s.glaren.sbNext.toNat) =
        { mkScore u (9 + Port.idx p) (fieldAt r 0x21 1) (fieldAt r 0x22 2) (BitVec.ofNat 64 (fieldAt r 0x24 8)) ((r.drop 0x2C).take 16) with
          seq := s.glaren.sbNext } := (Tab.get_set _ _ _ _ _).trans (if_pos rfl)
    rw [hget]
    exact ⟨rfl, rfl, rfl, rfl⟩
  · exact (Tab.get_set _ _ _ _ _).trans (if_neg (Ne.symm hi))

/-! ### Recovery, engines, security and settings -/

theorem completes_recoveryExit (s : State) (hwaits : mboxWaits .A 0x07 s = true) (hrec : s.resets.recovery = true) :
    Completes (.recoveryExit .A) s (fun t => t.resets.recovery = false ∧ t.resets.failedStarts = 0) := by
  let v := setResets (fun r => { r with recovery := false, failedStarts := 0 })
    { mboxStatus .A Mbox.ok s with glaren := { (mboxStatus .A Mbox.ok s).glaren with migrating := false } }
  let w := score 0 0 0x0002 0 [BitVec.ofNat 8 2] v
  obtain ⟨-, -, -, -, -, -, -, hresets⟩ := records_score 0 0 0x0002 0 [BitVec.ofNat 8 2] v
  have hgone : w.resets.recovery = false := (congrArg Resets.recovery hresets :)
  have hnone : w.resets.failedStarts = 0 := (congrArg Resets.failedStarts hresets :)
  obtain ⟨u, ⟨-, -, -, -, -, -, -, hbegun⟩, hcold⟩ := beginCold_starts (s := w) 0 (hnone ▸ (by decide : (0 : Nat) < 3)) hgone
  have hrun : exec (.recoveryExit .A) s = .next (beginCold 0 w) := by
    refine congrArg Host.Outcome.next ?_
    simp only [hwaits, hrec, Bool.not_true, Bool.false_eq_true, if_false, if_true, and_self]
    rfl
  exact Completes.intro (hrun.trans (congrArg _ hcold))
    ⟨(congrArg Resets.recovery hbegun :).trans hgone, (congrArg Resets.failedStarts hbegun :).trans hnone⟩

/-- Marking an engine failed touches no other engine's entry, no unit and no dealer. -/
theorem failEngine_frame (k e : Nat) (s : State) :
    (∀ j, j ≠ k → Tab.get (fun _ => 0) (failEngine k e s).glaren.failedList j = Tab.get (fun _ => 0) s.glaren.failedList j) ∧
      (failEngine k e s).units = s.units ∧ (failEngine k e s).dealer = s.dealer := by
  unfold failEngine
  dsimp only
  split
  · exact ⟨fun _ _ => rfl, rfl, rfl⟩
  · refine ⟨fun j hj => ?_, by simp, by simp⟩
    simp only [score_frame, Tab.get_set, if_neg (Ne.symm hj)]

section
variable {p : Port} {s : State}

theorem exec_engineService {k e : Nat} (clear : Bool) (hserves : mboxServes s p 0x08 true = true) (hk : k < 32) (he : e < 9) :
    exec (.engineService p k e clear) s = .next (serviceEngine p k e clear s) :=
  (mboxServe_serves hserves false _).trans (congrArg _ (by rw [if_pos ⟨hk, he⟩]))

theorem completes_engineService_mark (k e : Nat) (hserves : mboxServes s p 0x08 true = true) (hidle : s.dealer.phase = .idle) (hk : k < 32)
    (he : e < 9) :
    Completes (.engineService p k e false) s (fun t =>
      Answered p Mbox.ok t ∧ (Tab.get (fun _ => 0) t.glaren.failedList k).getLsbD e = true ∧
      (∀ j, j ≠ k → Tab.get (fun _ => 0) t.glaren.failedList j = Tab.get (fun _ => 0) s.glaren.failedList j) ∧
      t.units = s.units ∧ t.dealer = s.dealer) := by
  let u := { s with glaren := { s.glaren with clearPending := s.glaren.clearPending.filter (fun x => decide (x ≠ (k, e))) } }
  have hrun : serviceEngine p k e false s = mboxStatus p Mbox.ok (failEngine k e u) := by
    unfold serviceEngine
    dsimp only
    rw [if_neg (not_not_intro hidle), if_neg Bool.false_ne_true]
  obtain ⟨hothers, hunits, hdealer⟩ := failEngine_frame k e u
  exact Completes.intro ((exec_engineService false hserves hk he).trans (congrArg _ hrun))
    ⟨answered_mboxStatus _ _ _, listedFailed_failEngine (k, e) (k, e) u (Or.inl ⟨rfl, he⟩), hothers, hunits, hdealer⟩

theorem completes_engineService_clear (k e : Nat) (hserves : mboxServes s p 0x08 true = true) (hidle : s.dealer.phase = .idle) (hk : k < 32)
    (he : e < 9) :
    Completes (.engineService p k e true) s (fun t =>
      Answered p Mbox.ok t ∧ (k, e) ∈ t.glaren.clearPending ∧ t.glaren.failedList = s.glaren.failedList ∧ t.units = s.units ∧ t.dealer = s.dealer) := by
  refine Completes.intro ((exec_engineService true hserves hk he).trans (congrArg _ (if_neg (not_not_intro hidle))))
    ⟨answered_mboxStatus _ _ _, ?_, rfl, rfl, rfl⟩
  exact List.mem_append_right _ (List.mem_singleton.mpr rfl)

/-- The table of SECURITY_MIN after a commit of the first n components. -/
theorem natAt_raised (f : Nat → Nat) (n : Nat) (t : Tab Nat) (c : Nat) :
    natAt ((List.range n).foldl (fun t c => natSet t c (f c)) t) c = if c < n then f c else natAt t c := by
  induction n with
  | zero => rfl
  | succ n ih =>
    rw [List.range_succ, List.foldl_append, List.foldl_cons, List.foldl_nil, natAt_natSet, ih]
    by_cases hn : n = c
    · rw [if_pos hn, hn, if_pos (Nat.lt_succ_self c)]
    · rw [if_neg hn]
      exact if_congr (by omega) rfl rfl

theorem completes_securityCommit (hserves : mboxServes s p 0x0C true = true) :
    Completes (.securityCommit p) s (fun t =>
      Answered p Mbox.ok t ∧ t.dealer = s.dealer ∧ t.units = s.units ∧
      ∀ c, c < 5 → natAt t.glaren.securityMin c = max (securityMin s c) (running s c).security) := by
  refine Completes.intro (mboxServe_serves hserves false _) ⟨answered_mboxStatus _ _ _, ?_, ?_, fun c hc => ?_⟩
  · simp only [securityCommit, mboxStatus_frame, score_frame]
  · simp only [securityCommit, mboxStatus_frame, score_frame]
  · have hmin : (mboxStatus p Mbox.ok (score 0 0 0x0056 0 [] { s with glaren := { s.glaren with
        securityMin := (List.range 5).foldl (fun t c => natSet t c (max (securityMin s c) (running s c).security)) s.glaren.securityMin } })).glaren.securityMin =
        (List.range 5).foldl (fun t c => natSet t c (max (securityMin s c) (running s c).security)) s.glaren.securityMin := by
      simp only [mboxStatus_frame, score_frame]
    exact (congrArg (fun t => natAt t c) hmin).trans ((natAt_raised _ 5 _ c).trans (if_pos hc))

theorem completes_settingsRead (hserves : mboxServes s p 0x0D false = true) :
    Completes (.settingsRead p) s (fun t =>
      Answered p Mbox.ok t ∧
      (∃ bs, (portSt t p).mboxData = tabStore 0 (leBytes 4 0x4B484531 ++ bs) (portSt s p).mboxData) ∧ t.glaren = s.glaren ∧ t.dealer = s.dealer) := by
  refine Completes.intro (mboxServe_serves hserves false _) ⟨answered_mboxStatus _ _ _,
    ⟨freeBytes (s.free + 1) (Config.freeNat s.free % (2 ^ 20 - 4)), ?_⟩, rfl, rfl⟩
  unfold settingsRead mboxStatus mboxAnswer
  dsimp only
  rw [portSt_setPort, if_pos rfl, portSt_setPort, if_pos rfl]
  rfl

end

/-- Settles O18: a request is served, or answered NOT_MOVE, before its own meaning is looked at. -/
theorem mailboxServices : Obligations.MailboxServices := by
  unfold Obligations.MailboxServices
  refine ⟨fun p s hrec => ⟨fun hother => ⟨fun a b hw => mboxServe_notMove hw hrec hother _ _, fun a b hw => mboxServe_notMove hw hrec hother _ _,
      fun a b hw => mboxServe_notMove hw hrec hother _ _, fun a hw => mboxServe_notMove hw hrec hother _ _,
      fun hw => mboxServe_notMove hw hrec hother _ _, fun k e b _ _ hw => mboxServe_notMove hw hrec hother _ _,
      fun a hw => mboxServe_notMove hw hrec hother _ _, fun a b hw => mboxServe_notMove hw hrec hother _ _,
      fun hw => mboxServe_notMove hw hrec hother _ _⟩, fun hw => ?_⟩, completes_sbAppend, completes_recoveryExit,
    fun p k e s hserves hidle hk he => ⟨completes_engineService_mark k e hserves hidle hk he, completes_engineService_clear k e hserves hidle hk he⟩,
    fun p s => completes_securityCommit, fun p s => completes_settingsRead⟩
  have hrun : exec (.recoveryExit p) s = .next (mboxStatus p Mbox.notRecovery s) := by
    change execRecoveryExit p s = _
    unfold execRecoveryExit
    rw [mboxServe_free hw hrec, if_neg (Bool.eq_false_iff.mp hrec)]
  exact Completes.intro hrun ⟨answered_mboxStatus _ _ _, rfl, rfl⟩

end Sys2Proof.Machine
end

section
/-! SUPPORT. Updates (R464 to R468): what reports and forwards leave of the update record, how a bundle is stored or rejected, the token. -/

namespace Sys2Proof.Machine

/-! ### Reports and forwards -/

/-- From s to t the update record keeps what is stored, the chain and what runs. -/
def ChainKept (s t : State) : Prop :=
  t.glaren.update.running = s.glaren.update.running ∧ t.glaren.update.slotA = s.glaren.update.slotA ∧
    t.glaren.update.chain = s.glaren.update.chain ∧ t.glaren.update.chainPos = s.glaren.update.chainPos ∧
    t.glaren.update.manifest = s.glaren.update.manifest ∧ t.glaren.update.reason = s.glaren.update.reason

theorem ChainKept.refl (s : State) : ChainKept s s := ⟨rfl, rfl, rfl, rfl, rfl, rfl⟩

theorem ChainKept.trans {s t u : State} (h1 : ChainKept s t) (h2 : ChainKept t u) : ChainKept s u := by
  obtain ⟨a1, b1, c1, d1, e1, f1⟩ := h1
  obtain ⟨a2, b2, c2, d2, e2, f2⟩ := h2
  exact ⟨a2.trans a1, b2.trans b1, c2.trans c1, d2.trans d1, e2.trans e1, f2.trans f1⟩

theorem update_score (a b c : Nat) (x : W64) (d : List Byte) (s : State) : (score a b c x d s).glaren.update = s.glaren.update := by simp

/-- Position 0 follows the token with its own two fields alone. -/
theorem followToken_update (pos r : Nat) (s : State) : ∃ a v,
    (followToken pos r s).glaren.update = { s.glaren.update with tokenAt := a, visitSince := v } := by
  unfold followToken setUpdate
  dsimp only
  split
  · exact ⟨_, _, rfl⟩
  · split
    · exact ⟨_, _, rfl⟩
    · split
      · exact ⟨_, _, rfl⟩
      · exact ⟨_, _, rfl⟩

theorem countResult_update (pos r : Nat) (s : State) : ∃ rs a v,
    (countResult pos r s).glaren.update = { s.glaren.update with results := rs, tokenAt := a, visitSince := v } := by
  unfold countResult
  split
  · obtain ⟨a, v, h⟩ := followToken_update pos r (setUpdate (fun u => { u with results := natSet u.results pos (natAt u.results pos + 2 ^ r) }) s)
    exact ⟨_, a, v, h⟩
  · obtain ⟨a, v, h⟩ := followToken_update pos r s
    exact ⟨_, a, v, h⟩

/-- A result counted at position 0 sets its bit, and no other position's. -/
theorem countResult_results {pos r : Nat} (hr : r ≤ 3) (s : State) :
    (natAt (countResult pos r s).glaren.update.results pos).testBit r = true ∧
      ∀ p, p ≠ pos → natAt (countResult pos r s).glaren.update.results p = natAt s.glaren.update.results p := by
  unfold countResult
  split
  next hnew =>
    obtain ⟨-, hclear⟩ := hnew
    obtain ⟨a, v, h⟩ := followToken_update pos r (setUpdate (fun u => { u with results := natSet u.results pos (natAt u.results pos + 2 ^ r) }) s)
    have hresults := (congrArg Update.results h :)
    rw [hresults]
    refine ⟨?_, fun p hp => (natAt_natSet _ _ _ _).trans (if_neg (Ne.symm hp))⟩
    refine (congrArg (fun n => n.testBit r) ((natAt_natSet _ _ _ _).trans (if_pos rfl))).trans ?_
    rw [Nat.add_comm, Nat.testBit_two_pow_add_eq, Bool.eq_false_iff.mpr hclear]
    rfl
  next hold =>
    obtain ⟨a, v, h⟩ := followToken_update pos r s
    have hresults := (congrArg Update.results h :)
    rw [hresults]
    exact ⟨Classical.not_not.mp (fun hc => hold ⟨hr, hc⟩), fun _ _ => rfl⟩

theorem reportResult_keeps (pos r : Nat) (s : State) :
    ChainKept s (reportResult pos r s) ∧ (reportResult pos r s).glaren.update.state = s.glaren.update.state := by
  unfold reportResult
  split
  · obtain ⟨rs, a, v, h⟩ := countResult_update pos r s
    unfold ChainKept
    rw [h]
    exact ⟨⟨rfl, rfl, rfl, rfl, rfl, rfl⟩, rfl⟩
  · exact ⟨ChainKept.refl s, rfl⟩

/-- A forward leaves what is stored; STATE 3 becomes 4 while it is outstanding. -/
theorem forwardTo_keeps (pos : Nat) (s : State) :
    ChainKept s (forwardTo pos s) ∧ (s.glaren.update.state = 8 → (forwardTo pos s).glaren.update.state = 8) ∧
      (s.glaren.update.state = 3 → (forwardTo pos s).glaren.update.state = 3 ∨ (forwardTo pos s).glaren.update.state = 4) := by
  unfold forwardTo
  dsimp only
  split
  · refine ⟨⟨rfl, rfl, rfl, rfl, rfl, rfl⟩, fun h => ?_, fun h => Or.inr ?_⟩
    · exact (if_neg (by rw [h]; decide)).trans h
    · exact if_pos h
  · refine ⟨⟨rfl, rfl, rfl, rfl, rfl, rfl⟩, fun h => ?_, fun h => Or.inl ?_⟩
    · exact (if_neg (by rw [h]; decide)).trans h
    · exact (if_neg (by rw [h]; decide)).trans h

/-- Whom the bundle is forwarded to. -/
theorem forwardTo_forwardTo (pos : Nat) (s : State) :
    (forwardTo pos s).glaren.update.forwardTo = (if pos < s.glaren.update.chain.length then some pos else none) ∧
      (forwardTo pos s).glaren.update.results = s.glaren.update.results := by
  unfold forwardTo
  dsimp only
  split
  · exact ⟨rfl, rfl⟩
  · exact ⟨rfl, rfl⟩

/-! ### The bundle is stored or rejected (R464) -/

/-- The record of a bundle that has passed its checks. -/
def bundleStored (s : State) : State :=
  score 0 0 0x0050 0 [] (setUpdate (fun u =>
    { u with state := 3, manifest := manifestEntries (imageBytes s.glaren.update), results := [], tokenAt := none }) s)

/-- The record of a bundle that a check has rejected. -/
def bundleRejected (k : Nat) (s : State) : State :=
  score 0 0 0x0051 0 [BitVec.ofNat 8 k] (setUpdate (fun u => { u with state := 8, reason := BitVec.ofNat 8 k, results := [], tokenAt := none }) s)

section
variable {so : Bool} {s : State}

theorem storeBundle_ok (h : bundleFault s (imageBytes s.glaren.update) so = none) :
    storeBundle so true s = (forwardTo (s.glaren.update.chainPos + 1) (reportResult s.glaren.update.chainPos UResult.stored (bundleStored s)), Mbox.ok) := by
  simp only [storeBundle, h, if_true]
  rfl

theorem storeBundle_stores (h : bundleFault s (imageBytes s.glaren.update) so = none) :
    let t := (storeBundle so true s).1
    (t.glaren.update.state = 3 ∨ t.glaren.update.state = 4) ∧ t.glaren.update.manifest = manifestEntries (imageBytes s.glaren.update) ∧
      t.glaren.update.running = s.glaren.update.running ∧ t.glaren.update.chain = s.glaren.update.chain ∧
      t.glaren.update.chainPos = s.glaren.update.chainPos := by
  have hrecord := update_score 0 0 0x0050 0 [] (setUpdate (fun u =>
    { u with state := 3, manifest := manifestEntries (imageBytes s.glaren.update), results := [], tokenAt := none }) s)
  obtain ⟨hreport, hstate⟩ := reportResult_keeps s.glaren.update.chainPos UResult.stored (bundleStored s)
  obtain ⟨hforward, -, hthree⟩ := forwardTo_keeps (s.glaren.update.chainPos + 1) (reportResult s.glaren.update.chainPos UResult.stored (bundleStored s))
  obtain ⟨hrunning, -, hchain, hpos, hmanifest, -⟩ := hreport.trans hforward
  rw [storeBundle_ok h]
  exact ⟨hthree (hstate.trans (congrArg Update.state hrecord :)), hmanifest.trans (congrArg Update.manifest hrecord :),
    hrunning.trans (congrArg Update.running hrecord :), hchain.trans (congrArg Update.chain hrecord :), hpos.trans (congrArg Update.chainPos hrecord :)⟩

theorem storeBundle_fault {k : Nat} (h : bundleFault s (imageBytes s.glaren.update) so = some k) :
    storeBundle so true s = (if k = Mbox.incompatible ∨ k = Mbox.securityVersion then
        forwardTo (s.glaren.update.chainPos + 1) (reportResult s.glaren.update.chainPos UResult.refused (bundleRejected k s))
      else reportResult s.glaren.update.chainPos UResult.refused (bundleRejected k s), k) := by
  simp only [storeBundle, h, Option.isNone_some, Bool.false_eq_true, if_false]
  rfl

theorem storeBundle_rejects {k : Nat} (h : bundleFault s (imageBytes s.glaren.update) so = some k) :
    let t := (storeBundle so true s).1
    t.glaren.update.state = 8 ∧ t.glaren.update.reason = BitVec.ofNat 8 k ∧ t.glaren.update.manifest = s.glaren.update.manifest ∧
      t.glaren.update.running = s.glaren.update.running ∧ t.glaren.update.chain = s.glaren.update.chain ∧
      t.glaren.update.chainPos = s.glaren.update.chainPos := by
  have hrecord := update_score 0 0 0x0051 0 [BitVec.ofNat 8 k] (setUpdate (fun u =>
    { u with state := 8, reason := BitVec.ofNat 8 k, results := [], tokenAt := none }) s)
  obtain ⟨hreport, hstate⟩ := reportResult_keeps s.glaren.update.chainPos UResult.refused (bundleRejected k s)
  obtain ⟨hforward, height, -⟩ := forwardTo_keeps (s.glaren.update.chainPos + 1) (reportResult s.glaren.update.chainPos UResult.refused (bundleRejected k s))
  have hgone : (reportResult s.glaren.update.chainPos UResult.refused (bundleRejected k s)).glaren.update.state = 8 :=
    hstate.trans (congrArg Update.state hrecord :)
  have hkept {t : State} (hc : ChainKept (bundleRejected k s) t) (ht : t.glaren.update.state = 8) :
      t.glaren.update.state = 8 ∧ t.glaren.update.reason = BitVec.ofNat 8 k ∧ t.glaren.update.manifest = s.glaren.update.manifest ∧
        t.glaren.update.running = s.glaren.update.running ∧ t.glaren.update.chain = s.glaren.update.chain ∧
        t.glaren.update.chainPos = s.glaren.update.chainPos := by
    obtain ⟨hrunning, -, hchain, hpos, hmanifest, hreason⟩ := hc
    exact ⟨ht, hreason.trans (congrArg Update.reason hrecord :), hmanifest.trans (congrArg Update.manifest hrecord :),
      hrunning.trans (congrArg Update.running hrecord :), hchain.trans (congrArg Update.chain hrecord :), hpos.trans (congrArg Update.chainPos hrecord :)⟩
  rw [storeBundle_fault h]
  dsimp only
  split
  · exact hkept (hreport.trans hforward) (height hgone)
  · exact hkept hreport hgone

theorem storeBundle_status (so : Bool) (s : State) :
    (bundleFault s (imageBytes s.glaren.update) so = none → (storeBundle so true s).2 = Mbox.ok) ∧
      ∀ k, bundleFault s (imageBytes s.glaren.update) so = some k → (storeBundle so true s).2 = k :=
  ⟨fun h => by rw [storeBundle_ok h], fun k h => by rw [storeBundle_fault h]⟩

/-- What runs is not touched by a bundle that comes. -/
theorem storeBundle_chain (so : Bool) (s : State) :
    let t := (storeBundle so true s).1
    t.glaren.update.running = s.glaren.update.running ∧ t.glaren.update.chain = s.glaren.update.chain ∧
      t.glaren.update.chainPos = s.glaren.update.chainPos := by
  cases h : bundleFault s (imageBytes s.glaren.update) so with
  | none =>
    obtain ⟨-, -, hkept⟩ := storeBundle_stores h
    exact hkept
  | some k =>
    obtain ⟨-, -, -, hkept⟩ := storeBundle_rejects h
    exact hkept

end

/-! ### The requests of the holder -/

section
variable {p : Port} {s : State}

theorem completes_updateBegin (n c : Nat) (hserves : mboxServes s p 0x02 true = true) (hfree : updateBusy s.glaren.update = false)
    (hn : n ≤ 24 * 2 ^ 20) (hc : c ≤ 16384) :
    Completes (.updateBegin p n c) s (fun t =>
      Answered p Mbox.ok t ∧ t.glaren.update.state = 1 ∧ t.glaren.update.image = [] ∧ t.glaren.update.imageLength = n ∧
      t.glaren.update.chainLength = c ∧ t.glaren.update.slotA = s.glaren.update.slotA ∧ t.dealer = s.dealer) := by
  have hfits : ¬(24 * 2 ^ 20 < n ∨ 16384 < c) := by
    rintro (h | h)
    · exact Nat.not_lt.mpr hn h
    · exact Nat.not_lt.mpr hc h
  exact Completes.intro ((mboxServe_serves hserves true _).trans (congrArg _ ((if_neg (Bool.eq_false_iff.mp hfree)).trans (if_neg hfits))))
    ⟨answered_mboxStatus _ _ _, rfl, rfl, rfl, rfl, rfl, rfl⟩

theorem completes_updateData (o n : Nat) (hserves : mboxServes s p 0x03 true = true) (hstate : s.glaren.update.state = 1) (hn : n ≤ 2 ^ 20)
    (hend : o + n ≤ s.glaren.update.imageLength + 2 * s.glaren.update.chainLength) :
    Completes (.updateData p o n) s (fun t =>
      Answered p Mbox.ok t ∧ t.glaren.update.image = tabStore o (tabSlice n 0 (portSt s p).mboxData) s.glaren.update.image ∧
      t.glaren.update.state = 1 ∧ t.glaren.update.slotA = s.glaren.update.slotA ∧ t.dealer = s.dealer) := by
  have hfits : ¬(2 ^ 20 < n ∨ s.glaren.update.imageLength + 2 * s.glaren.update.chainLength < o + n) := by
    rintro (h | h)
    · exact Nat.not_lt.mpr hn h
    · exact Nat.not_lt.mpr hend h
  exact Completes.intro ((mboxServe_serves hserves true _).trans (congrArg _ ((if_neg (not_not_intro hstate)).trans (if_neg hfits))))
    ⟨answered_mboxStatus _ _ _, rfl, hstate, rfl, rfl⟩

theorem completes_updateEnd (so : Bool) (hserves : mboxServes s p 0x04 true = true) (hstate : s.glaren.update.state = 1) :
    let u := setUpdate (fun u => { u with state := 2, chain := imageChain u, chainPos := 0 }) s
    let checked := bundleFault u (imageBytes u.glaren.update) so
    Completes (.updateEnd p so true) s (fun t => t.glaren.update.running = s.glaren.update.running ∧
      (checked = none → Answered p Mbox.ok t ∧ (t.glaren.update.state = 3 ∨ t.glaren.update.state = 4) ∧
        t.glaren.update.manifest = manifestEntries (imageBytes s.glaren.update)) ∧
      (∀ k, checked = some k → Answered p k t ∧ t.glaren.update.state = 8 ∧ t.glaren.update.reason = BitVec.ofNat 8 k ∧
        t.glaren.update.manifest = s.glaren.update.manifest)) := by
  intro u checked
  obtain ⟨hok, hbad⟩ := storeBundle_status so u
  obtain ⟨hrunning, -, -⟩ := storeBundle_chain so u
  refine Completes.intro ((mboxServe_serves hserves true _).trans (congrArg _ (if_neg (not_not_intro hstate)))) ⟨hrunning, fun h => ?_, fun k h => ?_⟩
  · obtain ⟨hstored, hmanifest, -⟩ := storeBundle_stores h
    refine ⟨?_, hstored, hmanifest⟩
    rw [← hok h]
    exact answered_mboxStatus _ _ _
  · obtain ⟨height, hreason, hmanifest, -⟩ := storeBundle_rejects h
    refine ⟨?_, height, hreason, hmanifest⟩
    rw [← hbad k h]
    exact answered_mboxStatus _ _ _

/-- The token handed on touches STATE and the token held here alone. -/
theorem passToken_update (timeout : Nat) (rest : List Nat) (s : State) : ∃ st a ps v,
    (passToken timeout rest s).glaren.update = { s.glaren.update with state := st, token := a, tokenRest := ps, tokenSince := v } := by
  unfold passToken
  split
  · exact ⟨_, _, _, _, rfl⟩
  · split
    · exact ⟨_, _, _, _, rfl⟩
    · exact ⟨_, _, _, _, rfl⟩

theorem completes_applyStart (n : Nat) (hserves : mboxServes s p 0x05 true = true) (hlow : 60 ≤ n) (hhigh : n ≤ 86400)
    (hchain : s.glaren.update.chain ≠ []) (hpos : s.glaren.update.chainPos = 0) (htoken : s.glaren.update.tokenAt = none)
    (hfree : updateBusy s.glaren.update = false) :
    Completes (.applyStart p n) s (fun t =>
      Answered p Mbox.ok t ∧ t.glaren.update.tokenAt = (toVisit s.glaren.update).head? ∧ t.glaren.update.tokenTimeout = n ∧
      t.glaren.update.slotA = s.glaren.update.slotA ∧ t.dealer = s.dealer) := by
  have htime : n = 0 ∨ (60 ≤ n ∧ n ≤ 86400) := Or.inr ⟨hlow, hhigh⟩
  have hgo : ¬(s.glaren.update.chain = [] ∨ s.glaren.update.chainPos ≠ 0 ∨ s.glaren.update.tokenAt.isSome = true ∨ updateBusy s.glaren.update = true) := by
    rintro (h | h | h | h)
    · exact hchain h
    · exact h hpos
    · rw [htoken] at h
      exact Bool.noConfusion h
    · exact Bool.eq_false_iff.mp hfree h
  have hrun : applyStart p n s = mboxStatus p Mbox.ok (startToken n s) := by
    unfold applyStart
    dsimp only
    rw [if_neg (not_not_intro htime), if_neg hgo, if_neg (show ¬n = 0 by omega)]
  let u := setUpdate (fun u => { u with tokenTimeout := n, tokenAt := (toVisit s.glaren.update).head?, visitSince := s.glaren.gcTick }) s
  obtain ⟨st, a, ps, v, hupdate⟩ := passToken_update n (toVisit s.glaren.update) u
  obtain ⟨hdealer, -, -, -, -⟩ := chainAside_passToken n (toVisit s.glaren.update) u
  exact Completes.intro ((mboxServe_serves hserves false _).trans (congrArg _ hrun))
    ⟨answered_mboxStatus _ _ _, (congrArg Update.tokenAt hupdate :), (congrArg Update.tokenTimeout hupdate :),
      (congrArg Update.slotA hupdate :), hdealer⟩

theorem completes_apply (c : Nat) (hserves : mboxServes s p 0x06 true = true) (hstate : s.glaren.update.state = 5)
    (hnext : nextComponent s = some c) :
    Completes (.apply p) s (fun t =>
      Answered p Mbox.ok t ∧ t.glaren.update.state = 6 ∧ t.glaren.update.nextAction = actionOf c ∧
      t.glaren.update.running = s.glaren.update.running ∧ t.dealer = s.dealer) := by
  have hrec : ¬s.resets.recovery = true := by
    simp only [mboxServes, Bool.and_eq_true, Bool.not_eq_true'] at hserves
    obtain ⟨⟨-, hrec⟩, -⟩ := hserves
    exact Bool.eq_false_iff.mp hrec
  let u := setUpdate (fun u => { u with state := 6, incoming := true }) s
  have hnext' : nextComponent u = some c := hnext
  have hbegin : beginApply s = setUpdate (fun u =>
      { u with slotA := (match u.manifest[c]? with | some e => Tab.put c e u.slotA | none => u.slotA),
               nextAction := actionOf c, restarted := [] }) u := by
    show applyNext u = _
    unfold applyNext
    rw [hnext'] <;> rfl
  exact Completes.intro ((mboxServe_serves hserves true _).trans (congrArg _ ((if_neg hrec).trans ((if_pos hstate).trans
    (congrArg (mboxStatus p Mbox.ok) hbegin))))) ⟨answered_mboxStatus _ _ _, rfl, rfl, rfl, rfl⟩

end

/-! ### The update chain -/

theorem completes_updateForward (sender : BitVec 15) (bundle : List Byte) (so : Bool) (chain : List (BitVec 15)) (pos : Nat) (s : State)
    (hheard : mgmtHeard s = true) (hfree : updateBusy s.glaren.update = false) :
    let u := setUpdate (fun u => { u with
      state := 2, image := tabStore 0 bundle [], imageLength := bundle.length, chain := chain, chainLength := chain.length,
      chainPos := pos, forwardTo := none }) s
    let checked := bundleFault u (imageBytes u.glaren.update) so
    Completes (.updateForward sender bundle so true chain pos) s (fun t =>
      t.glaren.update.chain = chain ∧ t.glaren.update.chainPos = pos ∧ t.glaren.update.running = s.glaren.update.running ∧
      (checked = none → t.glaren.update.state = 3 ∨ t.glaren.update.state = 4) ∧
      (∀ k, checked = some k → t.glaren.update.state = 8 ∧ t.glaren.update.reason = BitVec.ofNat 8 k)) := by
  intro u checked
  obtain ⟨hrunning, hchain, hpos⟩ := storeBundle_chain so u
  have hanswer (r : Nat) (t : State) : (answerForward sender pos r t).glaren = t.glaren := by
    unfold answerForward
    split
    · rfl
    · rfl
  refine Completes.intro (congrArg Host.Outcome.next ((if_pos hheard).trans (if_neg (Bool.eq_false_iff.mp hfree)))) ?_
  rw [hanswer]
  refine ⟨hchain, hpos, hrunning, fun h => ?_, fun k h => ?_⟩
  · obtain ⟨hstored, -⟩ := storeBundle_stores h
    exact hstored
  · obtain ⟨height, hreason, -⟩ := storeBundle_rejects h
    exact ⟨height, hreason⟩

theorem completes_updateResult (pos r : Nat) (s : State) (hheard : mgmtHeard s = true) (hpos : s.glaren.update.chainPos = 0) (hr : r ≤ 3) :
    Completes (.updateResult pos r) s (fun t => (natAt t.glaren.update.results pos).testBit r = true ∧
      (∀ p, p ≠ pos → natAt t.glaren.update.results p = natAt s.glaren.update.results p) ∧ t.dealer = s.dealer) := by
  have hcount (u : State) (hu : u.glaren.update.results = s.glaren.update.results) (hd : u.dealer = s.dealer) :
      (natAt (countResult pos r u).glaren.update.results pos).testBit r = true ∧
        (∀ p, p ≠ pos → natAt (countResult pos r u).glaren.update.results p = natAt s.glaren.update.results p) ∧
        (countResult pos r u).dealer = s.dealer := by
    obtain ⟨hset, hothers⟩ := countResult_results (pos := pos) hr u
    obtain ⟨hdealer, -, -, -, -⟩ := chainAside_countResult pos r u
    rw [hu] at hothers
    exact ⟨hset, hothers, hdealer.trans hd⟩
  refine Completes.intro (congrArg Host.Outcome.next ((if_pos hheard).trans (if_pos hpos))) ?_
  split
  · exact hcount (endForward s) rfl rfl
  · exact hcount s rfl rfl

theorem completes_forwardTimeout (p : Nat) (s : State) (hforward : s.glaren.update.forwardTo = some p) (hpos : s.glaren.update.chainPos = 0)
    (hwait : 60000000 ≤ (s.glaren.gcTick - s.glaren.update.forwardSince).toNat) :
    Completes .forwardTimeout s (fun t => (natAt t.glaren.update.results p).testBit UResult.skipped = true ∧
      t.glaren.update.forwardTo = (if p + 1 < s.glaren.update.chain.length then some (p + 1) else none) ∧ t.dealer = s.dealer) := by
  have hreport : reportResult p UResult.skipped s = countResult p UResult.skipped s := if_pos hpos
  have hrun : exec .forwardTimeout s = .next (forwardTo (p + 1) (countResult p UResult.skipped s)) := by
    change execForwardTimeout s = _
    unfold execForwardTimeout
    rw [hforward]
    dsimp only
    rw [if_pos hwait, hreport]
  obtain ⟨hset, -⟩ := countResult_results (pos := p) (show UResult.skipped ≤ 3 by decide) s
  obtain ⟨rs, a, v, hupdate⟩ := countResult_update p UResult.skipped s
  obtain ⟨hto, hresults⟩ := forwardTo_forwardTo (p + 1) (countResult p UResult.skipped s)
  obtain ⟨hdealer, -, -, -, -⟩ := (chainAside_countResult p UResult.skipped s).trans (chainAside_forwardTo (p + 1) _)
  have hchain : (countResult p UResult.skipped s).glaren.update.chain = s.glaren.update.chain := (congrArg Update.chain hupdate :)
  refine Completes.intro hrun ⟨?_, ?_, hdealer⟩
  · rw [hresults]
    exact hset
  · rw [hto, hchain]

theorem completes_applyToken (timeout : Nat) (rest : List Nat) (s : State) (hheard : mgmtHeard s = true)
    (hfree : updateBusy s.glaren.update = false) (hrec : s.resets.recovery = false) (hmanifest : s.glaren.update.manifest ≠ [])
    (hstate : s.glaren.update.state = 3) :
    Completes (.applyToken timeout rest) s (fun t => t.glaren.update.state = 5 ∧ t.glaren.update.token = some timeout ∧
      t.glaren.update.tokenRest = rest ∧ t.glaren.update.tokenSince = s.glaren.gcTick ∧ t.out = s.out ∧ t.dealer = s.dealer) := by
  have hholds : ¬(s.glaren.update.manifest = [] ∨
      ¬(s.glaren.update.state = 3 ∨ s.glaren.update.state = 4 ∨ s.resets.recovery = true)) := by
    rintro (h | h)
    · exact hmanifest h
    · exact h (Or.inl hstate)
  exact Completes.intro (congrArg Host.Outcome.next ((if_pos hheard).trans ((if_neg (Bool.eq_false_iff.mp hfree)).trans
    ((if_neg hholds).trans (if_neg (Bool.eq_false_iff.mp hrec)))))) ⟨rfl, rfl, rfl, rfl, rfl, rfl⟩

theorem completes_tokenTimeout (n : Nat) (s : State) (htoken : s.glaren.update.token = some n) (hstate : s.glaren.update.state = 5)
    (hrest : s.glaren.update.tokenRest = []) (hwait : 1000000 * n ≤ (s.glaren.gcTick - s.glaren.update.tokenSince).toNat) :
    Completes .tokenTimeout s (fun t => t.glaren.update.state = 3 ∧ t.glaren.update.token = none ∧ t.dealer = s.dealer) := by
  let u := setUpdate (fun u => { u with state := 3 }) s
  have hrun : exec .tokenTimeout s = .next (releaseToken u) := by
    change execTokenTimeout s = _
    unfold execTokenTimeout
    rw [htoken]
    dsimp only
    rw [if_pos ⟨hstate, hwait⟩]
  have htoken' : u.glaren.update.token = some n := htoken
  have hrest' : u.glaren.update.tokenRest = [] := hrest
  have hrelease : releaseToken u = setUpdate (fun u => { u with token := none, tokenRest := [] }) u := by
    unfold releaseToken
    dsimp only
    rw [htoken', hrest']
    rfl
  exact Completes.intro (hrun.trans (congrArg _ hrelease)) ⟨rfl, rfl, rfl⟩

theorem completes_tokenHolderTimeout (p : Nat) (s : State) (htoken : s.glaren.update.tokenAt = some p)
    (hwait : 1000000 * (s.glaren.update.tokenTimeout + 600) ≤ (s.glaren.gcTick - s.glaren.update.visitSince).toNat) :
    Completes .tokenHolderTimeout s (fun t => t.glaren.update.tokenAt = none ∧
      t.glaren.update.reason = BitVec.ofNat 8 Mbox.updateState ∧
      (natAt t.glaren.update.results p).testBit UResult.skipped = true ∧ t.dealer = s.dealer) := by
  have hrun : exec .tokenHolderTimeout s = .next (setUpdate (fun u => { u with tokenAt := none, reason := BitVec.ofNat 8 Mbox.updateState })
      (countResult p UResult.skipped s)) := by
    change execTokenHolderTimeout s = _
    unfold execTokenHolderTimeout
    dsimp only
    rw [htoken]
    dsimp only
    rw [if_pos hwait]
  obtain ⟨hset, -⟩ := countResult_results (pos := p) (show UResult.skipped ≤ 3 by decide) s
  obtain ⟨hdealer, -, -, -, -⟩ := chainAside_countResult p UResult.skipped s
  exact Completes.intro hrun ⟨rfl, rfl, hset, hdealer⟩

/-- Settles O19, by the outcome of the bundle's checks, and by what reports and forwards leave of the update record. -/
theorem firmwareUpdates : Obligations.FirmwareUpdates := by
  unfold Obligations.FirmwareUpdates
  refine ⟨fun p s => ⟨completes_updateBegin, completes_updateData, completes_updateEnd, completes_applyStart, completes_apply⟩, ?_⟩
  exact ⟨completes_updateForward, completes_updateResult, completes_forwardTimeout, completes_applyToken, completes_tokenTimeout,
    completes_tokenHolderTimeout⟩

end Sys2Proof.Machine
end

section
/-! SUPPORT. Debug unlock and the test access port (R472 to R474). -/

namespace Sys2Proof.Machine

section
variable {s : State}

theorem completes_debugChallenge (p : Port) (scope : BitVec 3) (s : State) (hserves : mboxServes s p 0x09 true = true) :
    Completes (.debugChallenge p scope) s (fun t =>
      Answered p Mbox.ok t ∧ t.glaren.challenge = some (challengeBytes s scope, scope, s.glaren.gcTick) ∧
      t.glaren.unlocked = s.glaren.unlocked ∧ t.dealer = s.dealer) :=
  Completes.intro (mboxServe_serves hserves true _) ⟨answered_mboxAnswer _ _ _ _, rfl, rfl, rfl⟩

/-- A state whose challenge has been used up. -/
def challengeEnded (s : State) : State := { s with glaren := { s.glaren with challenge := none } }

/-- A challenge answered in time ends; the right answer unlocks its scope. -/
theorem debugResponse_inTime {c : List Byte} {scope : BitVec 3} {at_ : W64} (p : Port) (key sig : List Byte)
    (hchallenge : s.glaren.challenge = some (c, scope, at_)) (hfresh : (s.glaren.gcTick - at_).toNat < 600000000) :
    debugResponse p key sig s = if shake256 64 key = Config.anchorDebug ∧ Config.slhVerify key c sig = true then
      mboxStatus p Mbox.ok (unlock c scope (challengeEnded s)) else mboxStatus p Mbox.signature (challengeEnded s) := by
  unfold debugResponse
  dsimp only
  rw [hchallenge]
  dsimp only
  rw [if_neg (Nat.not_le.mpr hfresh)]
  rfl

theorem unlock_spec (c : List Byte) (scope : BitVec 3) (s : State) :
    (unlock c scope s).glaren.challenge = s.glaren.challenge ∧ (unlock c scope s).dealer = s.dealer ∧
      (unlock c scope s).glaren.unlocked = s.glaren.unlocked ||| scope ∧
      (unlock c scope s).glaren.measure7 = shake256 64 (s.glaren.measure7 ++ c) := by
  unfold unlock
  simp only [score_frame, and_self]

theorem completes_debugResponse (p : Port) (key sig c : List Byte) (scope : BitVec 3) (at_ : W64) (s : State)
    (hserves : mboxServes s p 0x0A true = true) (hchallenge : s.glaren.challenge = some (c, scope, at_))
    (hfresh : (s.glaren.gcTick - at_).toNat < 600000000) :
    Completes (.debugResponse p key sig) s (fun t => t.glaren.challenge = none ∧ t.dealer = s.dealer ∧
      (shake256 64 key = Config.anchorDebug ∧ Config.slhVerify key c sig = true →
        Answered p Mbox.ok t ∧ t.glaren.unlocked = s.glaren.unlocked ||| scope ∧
        t.glaren.measure7 = shake256 64 (s.glaren.measure7 ++ c)) ∧
      (¬(shake256 64 key = Config.anchorDebug ∧ Config.slhVerify key c sig = true) →
        Answered p Mbox.signature t ∧ t.glaren.unlocked = s.glaren.unlocked ∧ t.glaren.measure7 = s.glaren.measure7)) := by
  refine Completes.intro ((mboxServe_serves hserves true _).trans (congrArg _ (debugResponse_inTime p key sig hchallenge hfresh))) ?_
  split
  next hright =>
    obtain ⟨hgone, hdealer, hunlocked, hmeasure⟩ := unlock_spec c scope (challengeEnded s)
    exact ⟨hgone, hdealer, fun _ => ⟨answered_mboxStatus _ _ _, hunlocked, hmeasure⟩, fun h => absurd hright h⟩
  next hwrong => exact ⟨rfl, rfl, fun h => absurd h hwrong, fun _ => ⟨answered_mboxStatus _ _ _, rfl, rfl⟩⟩

theorem completes_debugResponse_none (p : Port) (key sig : List Byte) (s : State) (hserves : mboxServes s p 0x0A true = true)
    (hnone : s.glaren.challenge = none) :
    Completes (.debugResponse p key sig) s (fun t => Answered p Mbox.challenge t ∧ t.glaren = s.glaren) := by
  have hrun : debugResponse p key sig s = mboxStatus p Mbox.challenge s := by
    unfold debugResponse
    dsimp only
    rw [hnone]
  exact Completes.intro ((mboxServe_serves hserves true _).trans (congrArg _ hrun)) ⟨answered_mboxStatus _ _ _, rfl⟩

theorem completes_debugLock (p : Port) (s : State) (hserves : mboxServes s p 0x0B false = true) :
    Completes (.debugLock p) s (fun t =>
      Answered p Mbox.ok t ∧ t.glaren.unlocked = 0 ∧ t.glaren.measure7 = s.glaren.measure7 ∧ t.dealer = s.dealer) := by
  have hrun : exec (.debugLock p) s =
      .next (mboxStatus p Mbox.ok (score 0 0 0x0055 0 [] { s with glaren := { s.glaren with unlocked := 0 } })) := by
    change execDebugLock p s = _
    unfold execDebugLock
    rw [mboxServe_serves hserves]
  refine Completes.intro hrun ⟨answered_mboxStatus _ _ _, ?_, ?_, ?_⟩
  · simp only [mboxStatus_frame, score_frame]
  · simp only [mboxStatus_frame, score_frame]
  · simp only [mboxStatus_frame, score_frame]

theorem exec_debugChallengeExpiry {c : List Byte} {scope : BitVec 3} {at_ : W64} (hchallenge : s.glaren.challenge = some (c, scope, at_)) :
    exec .debugChallengeExpiry s = .next (if 600000000 ≤ (s.glaren.gcTick - at_).toNat then challengeEnded s else s) := by
  change execDebugChallengeExpiry s = _
  unfold execDebugChallengeExpiry
  rw [hchallenge]
  rfl

end

/-- Settles O20, by whether a challenge is open, and whether the answer's key and signature are right. -/
theorem debugAccess : Obligations.DebugAccess := by
  unfold Obligations.DebugAccess
  refine ⟨⟨completes_debugChallenge, completes_debugResponse, completes_debugResponse_none, completes_debugLock,
    fun c scope at_ s hchallenge => ⟨fun hlate => ?_, fun hfresh => ?_⟩⟩, fun trst tms serve s => ⟨fun hlocked => ?_, fun hopen => ?_⟩⟩
  · exact (exec_debugChallengeExpiry hchallenge).trans (congrArg _ (if_pos hlate))
  · exact (exec_debugChallengeExpiry hchallenge).trans (congrArg _ (if_neg (Nat.not_le.mpr hfresh)))
  · exact if_neg (fun h => Bool.eq_false_iff.mp hlocked h.1)
  · exact if_pos ⟨hopen, rfl, rfl, Bool.false_ne_true⟩

end Sys2Proof.Machine
end

section
/-! SUPPORT. The tray controller and DOE (R330, R443, R460, R463). -/

namespace Sys2Proof.Machine

/-- Powered, Glaren answers the tray. -/
theorem trayAnswer_powered {s : State} (h : s.resets.powered = true) (bs : List Byte) :
    trayAnswer bs s = { s with out := s.out ++ [.tray bs] } := if_pos h

section
variable {s : State} (hpow : s.resets.powered = true)
include hpow

theorem completes_coordinates_known (slot tray : BitVec 3) (rack : BitVec 8) (hall : BitVec 1) (hvalid : s.unlia.nodeValid = true) :
    Completes (.coordinates slot tray rack hall) s (fun t =>
      t.glaren.trayCoords = some (nodeOf slot tray rack hall) ∧ t.unlia = s.unlia ∧ t.dealer = s.dealer ∧ t.host = s.host) :=
  Completes.intro (congrArg Host.Outcome.next ((if_pos hpow).trans (if_pos hvalid))) ⟨rfl, rfl, rfl, rfl⟩

theorem completes_coordinates_new (slot tray : BitVec 3) (rack : BitVec 8) (hall : BitVec 1) (hvalid : s.unlia.nodeValid = false) :
    Completes (.coordinates slot tray rack hall) s (fun t =>
      t.unlia.nodeValid = true ∧ t.unlia.nodeId = nodeOf slot tray rack hall ∧ t.unlia.routes = s.unlia.routes ∧ t.dealer = s.dealer) :=
  Completes.intro (congrArg Host.Outcome.next ((if_pos hpow).trans (if_neg (Bool.eq_false_iff.mp hvalid)))) ⟨rfl, rfl, rfl, rfl⟩

end

theorem exec_reportSigned {p : Port} {nonce : List Byte} {rest : List (Port × List Byte)} {s : State}
    (hreports : s.glaren.reports = (p, nonce) :: rest) (hpow : s.resets.powered = true) (hready : s.resets.glarenReady = true) :
    exec .reportSigned s = .next { s with
      glaren := { s.glaren with reports := rest }
      out := s.out ++ [.doe p (reportBody nonce s ++ Config.slhSign (reportBody nonce s))] } := by
  change execReportSigned s = _
  unfold execReportSigned
  rw [hreports]
  dsimp only
  rw [if_pos ⟨hpow, hready⟩]
  rfl

theorem completes_doeAbort (p : Port) (s : State) :
    Completes (.doeAbort p) s (fun t =>
      (∀ r ∈ t.glaren.reports, r.1 ≠ p) ∧ (∀ r ∈ s.glaren.reports, r.1 ≠ p → r ∈ t.glaren.reports) ∧ t.out = s.out ∧ t.dealer = s.dealer) := by
  refine Completes.intro rfl ⟨fun r hr => ?_, fun r hr hne => ?_, rfl, rfl⟩
  · exact of_decide_eq_true (List.mem_filter.mp hr).2
  · exact List.mem_filter.mpr ⟨hr, decide_eq_true hne⟩

theorem exec_doeDiscovery {p : Port} {s : State} (hserves : doeServes p s = true) :
    ∃ bs, bs.length = 9 ∧ exec (.doeDiscovery p) s = .next { s with out := s.out ++ [.doe p bs] } :=
  ⟨[1, 0, 0] ++ (List.range 2).map Config.vendorId ++ [1] ++ (List.range 2).map Config.vendorId ++ [2], rfl,
    congrArg Host.Outcome.next (if_pos hserves)⟩

theorem exec_deviceCertificate {p : Port} {s : State} (hserves : doeServes p s = true) :
    ∃ bs, bs.length = 29940 ∧ exec (.deviceCertificate p) s = .next { s with out := s.out ++ [.doe p bs] } :=
  ⟨(List.range 29940).map Config.deviceCertificate, by rw [List.length_map, List.length_range], congrArg Host.Outcome.next (if_pos hserves)⟩

/-- Settles O21: each answer is one emission of the named bytes. -/
theorem trayAndAttestation : Obligations.TrayAndAttestation := by
  unfold Obligations.TrayAndAttestation
  refine ⟨fun s hpow => ⟨?_, ?_, ?_, fun i hi => ?_, fun i hi => ?_, completes_coordinates_known hpow, completes_coordinates_new hpow⟩,
    fun p nonce s hserves hnone => ?_, fun p nonce rest s => exec_reportSigned, completes_doeAbort,
    fun p s hserves => ⟨exec_doeDiscovery hserves, exec_deviceCertificate hserves⟩⟩
  · exact congrArg Host.Outcome.next (trayAnswer_powered hpow _)
  · exact congrArg Host.Outcome.next (trayAnswer_powered hpow _)
  · exact congrArg Host.Outcome.next (trayAnswer_powered hpow _)
  · exact congrArg Host.Outcome.next ((if_pos hi).trans (trayAnswer_powered hpow _))
  · exact (withUnit_of_lt hi _ _).trans (congrArg _ (trayAnswer_powered hpow _))
  · exact congrArg Host.Outcome.next (if_pos ⟨hserves, Bool.eq_false_iff.mp hnone⟩)

end Sys2Proof.Machine
end
